-- ==== Sys2Proof/Word.lean ====
section
/-! DEFINITION. The word, byte and index types of the module (R3: every register is 32 bits wide). -/

namespace Sys2Proof

/-- A 32-bit register, immediate or parameter word (R3). -/
abbrev Word := BitVec 32

/-- One byte of a memory. -/
abbrev Byte := BitVec 8

/-- A 128-bit Zarson instruction word, w0 in the low 32 bits (R118). -/
abbrev ZWord := BitVec 128

/-- A 256-bit descriptor, q0 in the low 32 bits (R125). -/
abbrev DWord := BitVec 256

/-- A PCIe function: 0 is PF0 and k is VFk (R351). -/
abbrev Fn := Fin 17

/-- A context, 0 to 15. -/
abbrev Ctx := Fin 16

/-- A chase, 0 to 15 (R179). -/
abbrev ChaseNo := Fin 16

/-- A floor-plan logical core, 0 to 31 (R111). -/
abbrev CoreNo := Fin 32

/-- A CoaXPress lane, 0 to 15 (R208). -/
abbrev CxpLane := Fin 16

/-- A Rhasha port, 0 to 3 (R276). -/
abbrev RhPort := Fin 4

/-- An encoder input, 0 to 3 (R303). -/
abbrev Enc := Fin 4

/-- A field channel, 0 to 15 (R324). -/
abbrev Chan := Fin 16

/-- A mailbox, 0 to 31 (R371). -/
abbrev MbxNo := Fin 32

/-- A quoin, 0 to 63 (R380). -/
abbrev QuoinNo := Fin 64

/-- A time domain, A = 0 or B = 1 (R345). -/
abbrev Dom := Fin 2

/-- A 1000BASE-X port, 0 or 1 (R344). -/
abbrev EPort := Fin 2

end Sys2Proof
end

