-- ==== Sys2Proof/Syntax.lean ====
section
/-! DEFINITION. The commands of the module: one constructor of `Instr` per row of
spec/opcode_table.json.  The table gives no operand fields, so each row's operands are what its rule
says the step acts on (log entry 1). -/

namespace Sys2Proof

/-- A sequencer: the line sequencer of a chase (`core = none`) or the stream sequencer of the chase's
logical core (R129). -/
structure SeqId where
  chase : ChaseNo
  core  : Option CoreNo
  deriving DecidableEq, Repr

/-- Who asked firmware for a command and how (R369, R371, R372): the sender id of R372, the host's tag,
the firmware mailbox it came through, and the command-ring index when a ring entry carried it (R356). -/
structure Req where
  sender : BitVec 6
  tag    : BitVec 16
  ring   : Option Word
  deriving DecidableEq, Repr

/-- The address regions a chase is granted (R179), in bytes. -/
structure Regions where
  sramBase   : Nat
  sramSize   : Nat
  galleyBase : Nat
  galleySize : Nat
  lpddrBase  : Nat
  lpddrSize  : Nat
  deriving DecidableEq, Repr

/-- The parameters of CONTEXT_BIND beyond chase, slot and context (R181). -/
structure BindParams where
  encoder : Enc
  pitch   : Nat
  margin  : Nat
  guard   : Nat
  nrMask  : BitVec 16
  nrWidth : BitVec 16
  deriving DecidableEq, Repr

/-- The parameters of TRAIN_START (R265). -/
structure TrainParams where
  fileAddr   : Nat
  fileSize   : Nat
  seed       : BitVec 64
  firstEpoch : BitVec 32
  epochs     : Nat
  batch      : Nat
  shapeH     : Nat
  shapeW     : Nat
  shapeC     : Nat
  format     : Nat
  pFlip      : Nat
  shift      : Nat
  gain       : Word
  ringAddr   : Nat
  ringBufs   : Nat
  ordered    : Bool
  deriving DecidableEq, Repr

/-- What discovery finds on a lane that gains lock (R211): the device, the lane's connection index, the
rate code of R237 both ends support, and whether the device declares the high-speed upconnection. -/
structure LaneInfo where
  device     : BitVec 4
  connection : BitVec 3
  rate       : BitVec 3
  highSpeed  : Bool
  deriving DecidableEq, Repr

/-- What a scrub or a read of a 64-bit word found (R78, R79). -/
inductive EccResult where
  | clean | corrected | uncorrectable
  deriving DecidableEq, Repr

/-- The units a sequencer hands work to (R130). -/
inductive UnitId where
  | engine (slot : Fin 4)
  | vector
  | port (p : Fin 2)
  | copy (e : Fin 2)
  | post
  deriving DecidableEq, Repr

/-- A decoded A/B sample of an encoder after its glitch filter (R304); `tooFast` is a transition above the rate Aux
counts. -/
inductive EncEdge where
  | forward | backward | illegal | tooFast
  deriving DecidableEq, Repr

/-- The differential pairs of an encoder input (R305). -/
inductive EncWire where
  | a | b | z
  deriving DecidableEq, Repr

/-- The sources of the root reference (R402, CLK_STATUS.source of R420). -/
inductive ClkSource where
  | ref | port | osc | holdover
  deriving DecidableEq, Repr

/-- The direction of the barrier link: down is die to field side (R319), up is field side to die (R320). -/
inductive BarrierDir where
  | down | up
  deriving DecidableEq, Repr

/-- The reset kinds a RESET command or RESET_EXEC names (R389, R412). -/
inductive ResetTarget where
  | warm
  | fabric
  | chase (n : ChaseNo)
  | context (k : Ctx)
  deriving DecidableEq, Repr

/-- The header of a Rhasha packet (R283). -/
structure PktHdr where
  ptype  : BitVec 8
  tagged : Bool
  seq    : BitVec 12
  dest   : BitVec 4
  hops   : BitVec 4
  src    : BitVec 4
  ack    : Option (BitVec 12)
  deriving DecidableEq, Repr

/-- The 64-byte header of a sort or a reply (R290). -/
structure SortHdr where
  kind     : BitVec 8
  status   : BitVec 8
  expert   : BitVec 16
  srcMod   : BitVec 4
  srcChase : BitVec 4
  dstMod   : BitVec 4
  dstChase : BitVec 4
  genChase : BitVec 8
  genCtx   : BitVec 8
  rank     : BitVec 8
  context  : BitVec 8
  handle   : BitVec 16
  epoch    : BitVec 16
  item     : BitVec 48
  gate     : Word
  length   : Nat
  h        : BitVec 16
  w        : BitVec 16
  c        : BitVec 16
  format   : BitVec 8
  deriving DecidableEq, Repr

/-- The 32-byte payload of a CTRL packet (R295). -/
structure CtrlMsg where
  op      : BitVec 8
  sender  : BitVec 4
  epoch   : BitVec 16
  mask    : BitVec 16
  formeId : Word
  digest  : BitVec 128
  deriving DecidableEq, Repr

/-- What a data packet carries (R283, R290, R295). -/
inductive PktBody where
  | sort  (h : SortHdr) (payload : List Byte)
  | reply (h : SortHdr) (payload : List Byte)
  | ctrl  (m : CtrlMsg)
  deriving DecidableEq, Repr

/-- A whole data packet (R283). -/
structure Packet where
  hdr  : PktHdr
  body : PktBody
  deriving DecidableEq, Repr

/-- The units whose progress counters the supervisor watches (R413, R414). -/
inductive ProgressUnit where
  | engine  (c : CoreNo) (e : Fin 5)
  | core    (c : CoreNo)
  | chase   (n : ChaseNo)
  | context (k : Ctx)
  | barrier (n : ChaseNo)
  deriving DecidableEq, Repr

/-- A unit whose generation an arrival carries (R418). -/
inductive GenUnit where
  | chase (n : ChaseNo)
  | context (k : Ctx)
  deriving DecidableEq, Repr

/-- A memory with spare rows (R425): a bank of a core's SRAM, a core's instruction store, a bank of the galley store. -/
inductive RepairMem where
  | sram (cluster core bank : Nat)
  | istore (cluster core : Nat)
  | galley (bank : Nat)
  deriving DecidableEq, Repr

/-- What a bring-up step found (R422, R425 to R427): the findings of the tests, supplied by the step.  `failure` is
the fail_reason code of R437 for a step that fails: 0 none, 1 boot, 2 management SRAM, 3 no clock source.  `rows` are the
rows that failed the SRAM march, `lpddrRows` those that failed the LPDDR5X test (channel, bank, rows). -/
structure StepFindings where
  failure       : Fin 4
  badEngines    : List (Nat × Nat × Nat)
  badCores      : List (Nat × Nat)
  badClusters   : List Nat
  lpddrChannels : BitVec 4
  galleyBanks   : BitVec 32
  rows          : List (RepairMem × Nat)
  lpddrRows     : List (Nat × Nat × Nat)
  lanesCxp      : BitVec 16
  lanesRh       : BitVec 16
  elapsedMs     : Nat
  deriving DecidableEq, Repr

/-- The commands: one constructor per row of the table, in the table's order. -/
inductive Instr where
  -- registers and power (R3 to R7, R24 to R27)
  | registerWrite (fn : Fn) (off : BitVec 24) (val : Word)
  | misalignedRegisterAccess (fn : Fn) (off : BitVec 24) (bytes : Nat) (isWrite : Bool)
  | pairLoRead (fn : Fn) (off : BitVec 24)
  | pairHiWrite (fn : Fn) (off : BitVec 24) (val : Word)
  | rcRead (fn : Fn) (off : BitVec 24)
  | auxRailUp (slotId : BitVec 4)
  | mainRailUp
  | mainRailLost
  | auxRailLost
  | levelWindow (withinLimits : Bool) (deviation : BitVec 16)
  -- class S (R134 to R141)
  | nop (q : SeqId) (w : ZWord)
  | sets (q : SeqId) (w : ZWord)
  | alu (q : SeqId) (w : ZWord)
  | cmp (q : SeqId) (w : ZWord)
  | dld (q : SeqId) (w : ZWord)
  | dadd (q : SeqId) (w : ZWord)
  | loop (q : SeqId) (w : ZWord)
  | br (q : SeqId) (w : ZWord)
  | sync (q : SeqId) (w : ZWord)
  | barrierRelease (n : ChaseNo) (barrier : Fin 16)
  | waitl (q : SeqId) (w : ZWord)
  | waitlRelease (q : SeqId)
  | waitlTimeout (q : SeqId)
  | waite (q : SeqId) (w : ZWord)
  | waiteRelease (q : SeqId)
  | waiteTimeout (q : SeqId)
  | halt (q : SeqId) (w : ZWord)
  | trap (q : SeqId) (w : ZWord)
  -- class M (R142 to R144)
  | ldT (q : SeqId) (w : ZWord)
  | stT (q : SeqId) (w : ZWord)
  | copy2d (q : SeqId) (w : ZWord)
  | zpack (q : SeqId) (w : ZWord)
  -- class T (R145 to R150)
  | conv (q : SeqId) (w : ZWord)
  | dwconv (q : SeqId) (w : ZWord)
  | gemm (q : SeqId) (w : ZWord)
  | poolmax (q : SeqId) (w : ZWord)
  | poolavg (q : SeqId) (w : ZWord)
  | add (q : SeqId) (w : ZWord)
  | mul (q : SeqId) (w : ZWord)
  | act (q : SeqId) (w : ZWord)
  | quant (q : SeqId) (w : ZWord)
  | deq (q : SeqId) (w : ZWord)
  | rot (q : SeqId) (w : ZWord)
  | unitCompletion (q : SeqId) (u : UnitId)
  -- class P (R151, R152)
  | boxdec (q : SeqId) (w : ZWord)
  | nms (q : SeqId) (w : ZWord)
  | dimsOpen (q : SeqId) (w : ZWord)
  | dimsAccumulate (q : SeqId) (w : ZWord)
  | dimsClose (q : SeqId) (w : ZWord)
  | topk (q : SeqId) (w : ZWord)
  -- class X (R153 to R156)
  | gate (q : SeqId) (w : ZWord)
  | sortSend (q : SeqId) (w : ZWord)
  | sortSendReply (q : SeqId) (w : ZWord)
  | sortRecv (q : SeqId) (w : ZWord)
  | sortRecvRelease (q : SeqId)
  | sortRecvTimeout (q : SeqId)
  | sortRecvInbound (q : SeqId) (w : ZWord)
  | combine (q : SeqId) (w : ZWord)
  -- class V (R157 to R161)
  | verdictOpen (q : SeqId) (w : ZWord)
  | verdictDecide (q : SeqId) (w : ZWord)
  | fire (q : SeqId) (w : ZWord)
  | trig (q : SeqId) (w : ZWord)
  | tstamp (q : SeqId) (w : ZWord)
  -- class K (R162 to R164)
  | param (q : SeqId) (w : ZWord)
  | bwset (q : SeqId) (w : ZWord)
  | mbx (q : SeqId) (w : ZWord)
  | quoinAcquire (q : SeqId) (w : ZWord)
  | quoinRelease (q : SeqId) (w : ZWord)
  | quoinClear (q : SeqId) (w : ZWord)
  -- fabric faults and failover (R78, R79, R108, R109, R190, R201)
  | sramUncorrectableError (c : CoreNo) (word : BitVec 19) (istore : Bool)
  | scrubRead (c : CoreNo) (word : BitVec 19) (istore : Bool) (res : EccResult)
  | residueFault (c : CoreNo) (engine : Fin 5)
  | signatureTest (c : CoreNo) (engine : Fin 5) (agrees : Bool)
  | engineFence (c : CoreNo) (engine : Fin 5)
  | failover (c : CoreNo)
  | failoverComplete (n : ChaseNo) (ns : BitVec 16)
  -- chases and formes (R179 to R191)
  | chaseCreate (r : Req) (n : ChaseNo) (owner : Fn) (cores : BitVec 32) (regions : Regions)
      (ceilLpddr ceilGalley ceilRhasha : Word)
  | chaseDelete (r : Req) (n : ChaseNo)
  | contextBind (r : Req) (n : ChaseNo) (slot : Fin 16) (k : Ctx) (p : BindParams)
  | contextUnbind (r : Req) (n : ChaseNo) (slot : Fin 16)
  | formeLoad (r : Req) (n : ChaseNo) (addr size : Nat)
  | formeLoadDone (n : ChaseNo)
  | formePatch (r : Req) (n : ChaseNo) (addr size : Nat)
  | patchSwap (n : ChaseNo)
  | chaseStart (r : Req) (n : ChaseNo)
  | chaseStop (r : Req) (n : ChaseNo)
  | looseSectionEnd (n : ChaseNo) (afterTail : Bool)
  | bucketGrant (n : ChaseNo) (res : Fin 3)
  -- the deadline monitor (R195)
  | deadlineReached (n : ChaseNo) (h : BitVec 8)
  | exitRecordValid (n : ChaseNo) (h : BitVec 8)
  | exitLimitReached (n : ChaseNo) (h : BitVec 8)
  -- camera front end (R210 to R224)
  | laneLock (l : CxpLane) (info : LaneInfo)
  | laneLockTimeout (l : CxpLane)
  | laneLockLoss (l : CxpLane)
  | triggerCompareHit (k : Ctx)
  | triggerPacketEnd (k : Ctx)
  | lineBegin (k : Ctx)
  | streamPacket (l : CxpLane) (k : Ctx) (crcOk : Bool) (codeErrors : Nat) (framed : Bool)
  | deviceEventPacket (l : CxpLane)
  | lineComplete (k : Ctx) (samples : List Nat)
  | cameraControlRead (r : Req) (k : Ctx) (settle : Bool) (addr : Word) (len : BitVec 7)
  | cameraControlWrite (r : Req) (k : Ctx) (settle : Bool) (addr : Word) (data : List Byte)
  | cameraReply (k : Ctx) (data : List Byte)
  | cameraReplyTimeout (k : Ctx)
  -- image pipeline, replay, trainer (R251 to R271)
  | pipeStage (r : Req) (k : Ctx) (target : Fin 4) (bank : Fin 2) (addr size : Nat)
  | pipeStageDone (k : Ctx)
  | pipeApply (r : Req) (k : Ctx) (target : Fin 4) (bank : Fin 2) (line : BitVec 48)
  | replayStart (r : Req) (k : Ctx) (addr size : Nat) (start : BitVec 48) (looped : Bool)
  | replayStop (r : Req) (k : Ctx)
  | replayPrefetch (k : Ctx)
  | trainStart (r : Req) (n : ChaseNo) (p : TrainParams)
  | trainStop (r : Req) (n : ChaseNo)
  | batchFill (n : ChaseNo) (arrival : List Nat)
  -- Rhasha (R276 to R301)
  | rhRetrain (fn : Fn) (p : RhPort)
  | tsLocked (p : RhPort) (lanes : BitVec 4)
  | eqCodeDwell (p : RhPort) (lane : Fin 4) (errors : Nat)
  | capReceived (p : RhPort) (word : BitVec 64) (crc : BitVec 16)
  | capTimeout (p : RhPort)
  | widenTimeout (p : RhPort)
  | rateReceived (p : RhPort) (code : BitVec 8) (lanes : BitVec 4)
  | stepTimeout (p : RhPort)
  | retrainEnd (p : RhPort)
  | downEnd (p : RhPort)
  | hbSend (p : RhPort)
  | skpSend (p : RhPort)
  | syncSend (p : RhPort)
  | syncReceived (p : RhPort) (count : BitVec 16)
  | hbReceived (p : RhPort) (gen : BitVec 8) (st : BitVec 8)
  | hbTimeout (p : RhPort)
  | suspensionTimeout (p : RhPort)
  | packetCrcError (p : RhPort)
  | duplicatePacket (p : RhPort) (seq : BitVec 12)
  | ack (p : RhPort) (seq : BitVec 12)
  | nak (p : RhPort) (seq : BitVec 12)
  | ackTimer (p : RhPort)
  | replayTimeout (p : RhPort)
  | packetForward (p : RhPort) (pkt : Packet)
  | sort (p : RhPort) (hdr : PktHdr) (h : SortHdr) (payload : List Byte)
  | reply (p : RhPort) (hdr : PktHdr) (h : SortHdr) (payload : List Byte)
  | join (p : RhPort) (hdr : PktHdr) (m : CtrlMsg)
  | propose (p : RhPort) (hdr : PktHdr) (m : CtrlMsg)
  | accept (p : RhPort) (hdr : PktHdr) (m : CtrlMsg)
  | acceptTimeout (n : ChaseNo)
  | commit (p : RhPort) (hdr : PktHdr) (m : CtrlMsg)
  | epochApply (n : ChaseNo)
  | unreach (p : RhPort) (hdr : PktHdr) (m : CtrlMsg)
  -- clocks (R402 to R405)
  | refClkLost
  | clockSourceChange (src : ClkSource) (steps : Int)
  | clockRampStep
  | oscTrimWindow (error : Int) (bySync : Bool)
  | freqMeterGate (n : Fin 39) (khz : Word)
  -- motion and field (R303 to R335)
  | encoderEdge (e : Enc) (edge : EncEdge)
  | wireFault (e : Enc) (wire : EncWire)
  | wireFaultClear (e : Enc)
  | indexEdge (e : Enc)
  | preset (fn : Fn) (e : Enc) (hi : Word)
  | periodicCompareHit (j : Fin 8)
  | trigOneshotHit (k : Ctx) (i : Fin 4)
  | fireTick
  | downFrame (frame : BitVec 64)
  | upFrame (frame : BitVec 64)
  | frameMissing (dir : BarrierDir)
  | trip (n : Fin 2)
  | tripClear (fn : Fn) (clear0 clear1 : Bool)
  | inputEdge (c : Chan) (level : Bool)
  | inputOpenWire (c : Chan)
  | outputOverload (c : Chan)
  | outputOpenWire (c : Chan)
  | overTemperature (c : Chan)
  | fieldSupplyLost
  | fieldSupplyReturn
  -- network time (R345 to R350)
  | ptpSync (d : Dom) (domainTime : BitVec 64) (freqPpb : BitVec 32)
  | domainLost (d : Dom)
  | timeStep (fn : Fn) (hi : Word)
  | launchTimeReached (p : EPort)
  | pcsReady (p : EPort)
  | txtsPop (fn : Fn) (p : EPort) (val : Word)
  -- rings, pages, interrupts, function resets (R352 to R363)
  | ringConsWrite (fn : Fn) (ring : Fin 6) (val : Word)
  | commandRingEntry (fn : Fn)
  | statusBlockWrite (fn : Fn)
  | cropPageDelivery (k : Ctx)
  | cropFlushTimeout (k : Ctx)
  | pageHoldTimeout (k : Ctx)
  | interruptInterval (fn : Fn) (ring : Fin 6)
  | vfFlr (k : Ctx)
  | pf0Flr
  | pciePerst
  -- firmware commands, mailboxes, quoins (R363, R369 to R381)
  | hello (r : Req) (driverMin driverMax : BitVec 16)
  | undefinedCommand (r : Req) (code : BitVec 8)
  | mbxPost (fn : Fn) (m : MbxNo) (len : BitVec 7) (channel : Bool)
  | mbxTake (fn : Option Fn) (m : MbxNo) (code : BitVec 8)
  | mbxCplPop (fn : Fn) (m : MbxNo)
  | qacqRead (fn : Fn) (q : QuoinNo)
  | qopRelease (fn : Fn) (q : QuoinNo)
  | qopClear (fn : Fn) (q : QuoinNo)
  -- telemetry and the board port (R385 to R390)
  | telemetryRound (samples : List (BitVec 16))
  | thermalHoldEnd
  | smbStatus
  | smbTelemetry (n : BitVec 8)
  | smbEvent (index : BitVec 16)
  | smbIdentity
  | resetArm (kind : BitVec 8)
  | resetExec (kind : BitVec 8)
  | alertClear (causes : BitVec 8)
  | smbAlertResponse
  | smbBadPec (command : BitVec 8)
  -- security and debug (R391 to R398, R408)
  | fwSvnCommit (r : Req)
  | keyEnrol (r : Req) (slot : BitVec 8) (key : List Byte) (auth : List Byte)
  | keyRevoke (r : Req) (slot : BitVec 8)
  | policySet (r : Req) (deviceTrained lock : Bool) (auth : List Byte)
  | lifecycleAdvance (r : Req) (target : Word) (uidLow : Word) (auth : List Byte)
  | debugChallenge (r : Req)
  | debugToken (r : Req) (token : List Byte)
  | debugEnd (r : Req)
  | debugHalt (q : SeqId)
  | optProgram (r : Req) (bit count : Word) (auth : List Byte)
  -- resets, supervisor, bring-up (R406 to R430)
  | reset (r : Req) (t : ResetTarget)
  | pinReset (slotId : BitVec 4)
  | teardownDrainEnd (u : GenUnit)
  | staleArrival (u : GenUnit) (gen : BitVec 8)
  | gateStopForced
  | progressWindowExpiry (u : ProgressUnit)
  | watchdogExpiry
  | warmResetEnd
  | bringupStepDone (f : StepFindings)
  | laneQualified (rhasha : Bool) (lane : Fin 16)
  | laneQualificationError (rhasha : Bool) (lane : Fin 16)
  | lpddrBgBurst (addr : Nat) (passed : Bool)
  | fireQueueExchange (odd : Bool)
  | pcsNotReady (p : EPort)
  | launchFrameEnd (p : EPort)
  | rstNRelease
  | fabricResetEnd
  | chaseReloadDone (n : ChaseNo)
  | debugSessionOpen
  | proposeIntervalEnd (n : ChaseNo)
  | emulationOutputCount (o : Fin 2)
  | pdelayReq (p : EPort) (d : Dom)
  deriving DecidableEq, Repr

end Sys2Proof
end

