-- ==== Sys2Proof/Decode.lean ====
section
/-! DEFINITION. Decoding.  The table gives no row any bits: commands reach the block as register accesses, packets, pins and
events, never as one word, so no word spells one. -/

namespace Sys2Proof

/-- The command a word of the table's bits spells: none, for every row of the table is without bits. -/
def decodeTableWord (_nbits _w : Nat) : Option Instr := none

end Sys2Proof
end

