-- ==== Sys2Proof/Config.lean ====
section
/-! DEFINITION. What an implementation fixes and the values the spec leaves open.  An `opaque` constant
has no body: no proof can see its value, so a statement about it holds for every value. -/

namespace Sys2Proof.Config

/-- SHA-384 of a byte sequence, least significant byte of the digest first (R178, R183); the function is
FIPS 180-4's and is left uninterpreted (log entry 5). -/
opaque sha384 : List Byte → BitVec 384

/-- ECDSA P-384 verification over SHA-384 with the key in a slot (R178, R392, R397): key bytes, signed
bytes, signature bytes r and s; left uninterpreted (log entry 5). -/
opaque ecdsaVerify : List Byte → List Byte → List Byte → Bool

/-- Whether an authorisation is signed with the slot's key and bound to the command (R392 to R394,
R408); the spec gives authorisations no layout (log entry 5). -/
opaque authValid : Nat → List Byte → List Byte → Bool

/-- The vendor key in fuses (R391, R392). -/
opaque vendorKey : List Byte

/-- The free value number `n` of `bits` bits (log entry 4): read wherever the spec names no value. -/
opaque freeValue : Nat → Nat

/-- The F32 encoding of a quotient by zero, which the spec does not state: free in the dividend's
encoding (log entry 8). -/
opaque divByZero : Nat → Nat

/-- The input width of a forme by its forme_id, in columns: R98 and R99 clamp boxes to it, and no rule says
where the image states it (log entry 11). -/
opaque inputWidth : Nat → Nat

/-- Whether the `n`-th read of the 64-bit word at a memory address finds a corrected error (R78): soft errors come
when they come, so nothing fixes it (log entry 80). -/
opaque correctedRead : Nat → Nat → Bool

/-- Whether the rings of an image allow a band redo as far as the image itself does not tell which descriptor is which
layer's ring (R185 reason 0x0D, R200; log entry 6). -/
opaque loaderCheck : Nat → List Byte → Bool

/-- Whether the cost of a deadline table entry (its fields) agrees with the unit records of the schedule table: R177 and
R467 name the comparison and do not give it (log entry 6). -/
opaque costAgrees : List Nat → List (List Nat) → Bool

/-- Whether the slots of a unit record of one chase collide with those of a record of another for the same unit: R97, R131
and R468 name the comparison; how the band schedules of two chases lie in time is not given (log entry 6). -/
opaque slotsCollide : List Nat → List Nat → Bool

/-- Item-state slots the loader would give a forme (forme_id, chase, cluster), which the image does not state (R97, R105;
log entry 91). -/
opaque itemSlots : Nat → Nat → Nat → Nat

/-- Phase of the barrier's down frames against the fire ticks after the `n`-th start of the frames, in units of 0.5 ns
of the 64 ns period (R316 and R321 leave it open; log entry 101). -/
opaque framePhase : Nat → BitVec 7

/-- Whether a value of the die core rail's voltage (sensor 9) or current (sensor 10) lies outside its limits, which
R385 leaves to operating conditions that R457 does not give for that rail (log entry 42). -/
opaque coreRailWarn : Nat → Nat → Bool

/-- K4 cycles per microsecond, millisecond (R399: K4 is 400 MHz). -/
def k4PerUs : Nat := 400

/-- K4 cycles per millisecond. -/
def k4PerMs : Nat := 400000

/-- The telemetry sensors of R385. -/
def sensorCount : Nat := 14

/-- Firmware version the boot ROM loaded (R368 leaves it to the boot flash): DESIGN CHOICE, log entry 2. -/
def fwVersion : Nat := 0x00010000

end Sys2Proof.Config
end

