-- ==== Sys2Proof/Machine/Numbers.lean ====
section
/-! DEFINITION. The number formats of the module (R31 to R49): decoding, the conversion procedure of R42
with its counted events, and the exactly formed, once rounded F32 operations of the units (R39, R40).
Values are exact fractions, so every rounding is the one the rule names. -/

namespace Sys2Proof.Machine

/-- The twelve formats (R31), by the codes of R126. -/
inductive Fmt where
  | u8 | u12p | u16 | s4 | s8 | s32 | e4m3 | e5m2 | f16 | bf16 | f32 | sb4
  deriving DecidableEq, Repr

/-- The format codes of R126; 0 and 13 to 15 name none. -/
def fmtOf : Nat → Option Fmt
  | 1 => some .u8
  | 2 => some .u12p
  | 3 => some .u16
  | 4 => some .s4
  | 5 => some .s8
  | 6 => some .s32
  | 7 => some .e4m3
  | 8 => some .e5m2
  | 9 => some .f16
  | 10 => some .bf16
  | 11 => some .f32
  | 12 => some .sb4
  | _ => none

/-- A value: NaN, an infinity (`neg`), or sign and magnitude `num / den`; a zero keeps its sign (R38). -/
inductive Val where
  | nan
  | inf (neg : Bool)
  | fin (neg : Bool) (num den : Nat)
  deriving DecidableEq, Repr

/-- The events of R62 and R63 an operation causes: saturations, NaN events, bad groups, overflows to ∞. -/
structure Nums where
  sat : Nat
  nan : Nat
  bad : Nat
  inf : Nat
  deriving DecidableEq, Repr

/-- No event. -/
def Nums.zero : Nums := ⟨0, 0, 0, 0⟩

/-- Both events. -/
def Nums.plus (a b : Nums) : Nums := ⟨a.sat + b.sat, a.nan + b.nan, a.bad + b.bad, a.inf + b.inf⟩

/-- A result together with the events that led to it. -/
structure Ev (α : Type) where
  val : α
  ev  : Nums

/-- A result without an event. -/
def Ev.ok {α : Type} (v : α) : Ev α := ⟨v, .zero⟩

/-- Use a result, adding up the events. -/
def Ev.bind {α β : Type} (x : Ev α) (f : α → Ev β) : Ev β :=
  let y := f x.val
  ⟨y.val, x.ev.plus y.ev⟩

/-- Zero with a sign. -/
def Val.zero (neg : Bool) : Val := .fin neg 0 1

/-- A natural number. -/
def Val.nat (n : Nat) : Val := .fin false n 1

/-- An integer. -/
def Val.int (x : Int) : Val := .fin (decide (x < 0)) x.natAbs 1

/-- Whether a format is an integer format. -/
def Fmt.isInt : Fmt → Bool
  | .u8 | .u12p | .u16 | .s4 | .s8 | .s32 | .sb4 => true
  | _ => false

/-- Bits of an element (R31); an SB4 element is 4 bits with its scales elsewhere. -/
def Fmt.bits : Fmt → Nat
  | .s4 | .sb4 => 4
  | .u8 | .s8 | .e4m3 | .e5m2 => 8
  | .u12p => 12
  | .u16 | .f16 | .bf16 => 16
  | .s32 | .f32 => 32

/-- Largest and smallest value of an integer format. -/
def Fmt.intRange : Fmt → Int × Int
  | .u8 => (0, 255)
  | .u12p => (0, 4095)
  | .u16 => (0, 65535)
  | .s4 | .sb4 => (-8, 7)
  | .s8 => (-128, 127)
  | _ => (-2147483648, 2147483647)

/-- The layout of a floating format (R35, R36): exponent bits, mantissa bits, bias, code of the largest
finite magnitude, canonical NaN, code of infinity (none in E4M3), whether subnormals are kept. -/
structure FpLayout where
  man  : Nat
  bias : Nat
  top  : Nat
  nan  : Nat
  infC : Option Nat
  keep : Bool

/-- The layouts of R35 and R36. -/
def Fmt.fp : Fmt → FpLayout
  | .e4m3 => ⟨3, 7, 0x7E, 0x7F, none, false⟩
  | .e5m2 => ⟨2, 15, 0x7B, 0x7E, some 0x7C, false⟩
  | .f16 => ⟨10, 15, 0x7BFF, 0x7E00, some 0x7C00, true⟩
  | .bf16 => ⟨7, 127, 0x7F7F, 0x7FC0, some 0x7F80, false⟩
  | _ => ⟨23, 127, 0x7F7FFFFF, 0x7FC00000, some 0x7F800000, true⟩

/-- `2 ^ e` as a fraction. -/
def pow2 (e : Int) : Nat × Nat :=
  if 0 ≤ e then (2 ^ e.toNat, 1) else (1, 2 ^ (-e).toNat)

/-- Read an encoding (R35 to R37). -/
def decodeVal (f : Fmt) (b : Nat) : Val :=
  if f.isInt then
    let n := f.bits
    let u := b % 2 ^ n
    match f with
    | .u8 | .u12p | .u16 => .nat u
    | _ => if u < 2 ^ (n - 1) then .nat u else .fin true (2 ^ n - u) 1
  else
    let g := f.fp
    let n := f.bits
    let u := b % 2 ^ n
    let neg := decide (2 ^ (n - 1) ≤ u)
    let mag := u % 2 ^ (n - 1)
    let e := mag / 2 ^ g.man
    let m := mag % 2 ^ g.man
    if g.infC = some mag then .inf neg
    else if mag > g.top then .nan
    else if e = 0 then
      if g.keep then
        let p := pow2 (1 - (g.bias : Int) - g.man)
        .fin neg (m * p.1) p.2
      else .zero neg
    else
      let p := pow2 ((e : Int) - g.bias - g.man)
      .fin neg ((2 ^ g.man + m) * p.1) p.2

/-- The nearest natural number to `num / den`, ties away from zero (R39). -/
def roundAway (num den : Nat) : Nat := (2 * num + den) / (2 * den)

/-- The exponent `e` with `2 ^ e ≤ num / den < 2 ^ (e + 1)`. -/
def floorLog2 (num den : Nat) : Int :=
  let e : Int := (Nat.log2 num : Int) - Nat.log2 den
  let p := pow2 e
  if p.1 * den ≤ num * p.2 then e else e - 1

/-- The magnitude code of a finite non-zero magnitude before the overflow test (R42): subnormals kept or
flushed as the format says. -/
def roundMag (g : FpLayout) (num den : Nat) : Nat :=
  let e := floorLog2 num den
  let emin : Int := 1 - (g.bias : Int)
  if g.keep && decide (e < emin) then
    let p := pow2 (emin - g.man)
    roundAway (num * p.2) (den * p.1)
  else
    let p := pow2 (e - g.man)
    let q := roundAway (num * p.2) (den * p.1)
    let (e', q') := if q = 2 ^ (g.man + 1) then (e + 1, 2 ^ g.man) else (e, q)
    let code : Int := (e' + g.bias) * 2 ^ g.man + ((q' : Int) - 2 ^ g.man)
    if e' < emin then 0 else code.toNat

/-- The encoding of a sign and a magnitude code. -/
def withSign (f : Fmt) (neg : Bool) (mag : Nat) : Nat :=
  if neg then mag + 2 ^ (f.bits - 1) else mag

/-- What an infinity becomes in an integer format (R42: sign(x) × max_finite(dst)).  DESIGN CHOICE (log entry 79): an
unsigned format holds no such negative number, so -∞ gives its minimum 0. -/
def infLimit (f : Fmt) (neg : Bool) : Int := if neg then max f.intRange.1 (-f.intRange.2) else f.intRange.2

/-- Clamp into an integer format, counting a saturation. -/
def clampInt (f : Fmt) (x : Int) : Ev Int :=
  let r := f.intRange
  if x > r.2 then ⟨r.2, ⟨1, 0, 0, 0⟩⟩
  else if x < r.1 then ⟨r.1, ⟨1, 0, 0, 0⟩⟩
  else .ok x

/-- The two's complement encoding of an integer in a format. -/
def encodeInt (f : Fmt) (x : Int) : Nat := (x % (2 ^ f.bits : Nat)).toNat

/-- Whether an overflow to infinity is replaced by the largest finite value (R42). -/
def saturates (f : Fmt) (sat : Bool) : Bool := f == .e4m3 || (f == .e5m2 && sat)

/-- The conversion procedure of R42: the encoding of a value in a destination format. -/
def convert (x : Val) (f : Fmt) (sat : Bool) : Ev Nat :=
  match x with
  | .nan => if f.isInt then ⟨0, ⟨0, 1, 0, 0⟩⟩ else .ok f.fp.nan
  | .inf neg =>
    if f.isInt then
      ⟨encodeInt f (infLimit f neg), ⟨1, 0, 0, 0⟩⟩
    else if saturates f sat then ⟨withSign f neg f.fp.top, ⟨1, 0, 0, 0⟩⟩
    else .ok (withSign f neg (f.fp.infC.getD f.fp.nan))
  | .fin neg num den =>
    if f.isInt then
      let r : Int := roundAway num den
      let c := clampInt f (if neg then -r else r)
      ⟨encodeInt f c.val, c.ev⟩
    else if num = 0 then .ok (withSign f neg 0)
    else
      let mag := roundMag f.fp num den
      if mag > f.fp.top then
        if saturates f sat then ⟨withSign f neg f.fp.top, ⟨1, 0, 0, 0⟩⟩
        else ⟨withSign f neg (f.fp.infC.getD f.fp.nan), ⟨0, 0, 0, 1⟩⟩
      else .ok (withSign f neg mag)

/-- An element code as the module writes it: canonical NaN, no subnormal in a format that flushes (R37, R38). -/
def canonCode (f : Fmt) (code : Nat) : Nat := (convert (decodeVal f code) f false).val

/-- Round an exact value to F32 (R40). -/
def round32 (x : Val) : Ev Val :=
  let c := convert x .f32 false
  ⟨decodeVal .f32 c.val, c.ev⟩

/-! ### Exact operations (R38, R41) -/

/-- A NaN produced from operands that are not NaN (R62). -/
def Ev.newNan : Ev Val := ⟨.nan, ⟨0, 1, 0, 0⟩⟩

/-- The negated value. -/
def Val.neg : Val → Val
  | .nan => .nan
  | .inf n => .inf (!n)
  | .fin n a b => .fin (!n) a b

/-- The exact sum (R38: +0 and -0 give +0; ∞ - ∞ is invalid). -/
def addExact (x y : Val) : Ev Val :=
  match x, y with
  | .nan, _ => .ok .nan
  | _, .nan => .ok .nan
  | .inf a, .inf b => if a = b then .ok (.inf a) else .newNan
  | .inf a, _ => .ok (.inf a)
  | _, .inf b => .ok (.inf b)
  | .fin a n d, .fin b m e =>
    if a = b then .ok (.fin a (n * e + m * d) (d * e))
    else if n * e = m * d then .ok (.zero false)
    else if n * e > m * d then .ok (.fin a (n * e - m * d) (d * e))
    else .ok (.fin b (m * d - n * e) (d * e))

/-- The exact product (0 × ∞ is invalid). -/
def mulExact (x y : Val) : Ev Val :=
  match x, y with
  | .nan, _ => .ok .nan
  | _, .nan => .ok .nan
  | .inf a, .inf b => .ok (.inf (a != b))
  | .inf a, .fin b m _ => if m = 0 then .newNan else .ok (.inf (a != b))
  | .fin a n _, .inf b => if n = 0 then .newNan else .ok (.inf (a != b))
  | .fin a n d, .fin b m e => .ok (.fin (a != b) (n * m) (d * e))

/-- The F32 encoding of a value. -/
def bits32 (x : Val) : Nat := (convert x .f32 false).val

/-- The exact quotient.  The spec states no result for a zero divisor: it is a free value of the
dividend (log entry 8). -/
def divExact (x y : Val) : Ev Val :=
  match x, y with
  | .nan, _ => .ok .nan
  | _, .nan => .ok .nan
  | .inf _, .inf _ => .newNan
  | .inf a, .fin b m _ =>
    if m = 0 then .ok (decodeVal .f32 (Config.divByZero (bits32 x))) else .ok (.inf (a != b))
  | .fin a _ _, .inf b => .ok (.zero (a != b))
  | .fin a n d, .fin b m e =>
    if m = 0 then .ok (decodeVal .f32 (Config.divByZero (bits32 x)))
    else .ok (.fin (a != b) (n * e) (d * m))

/-- An F32 addition (R40). -/
def add32 (x y : Val) : Ev Val := (addExact x y).bind round32

/-- An F32 subtraction. -/
def sub32 (x y : Val) : Ev Val := add32 x y.neg

/-- An F32 multiplication. -/
def mul32 (x y : Val) : Ev Val := (mulExact x y).bind round32

/-- An F32 division. -/
def div32 (x y : Val) : Ev Val := (divExact x y).bind round32

/-- `x < y` as values; false with a NaN. -/
def Val.lt (x y : Val) : Bool :=
  match x, y with
  | .nan, _ => false
  | _, .nan => false
  | .inf a, .inf b => a && !b
  | .inf a, .fin .. => a
  | .fin .., .inf b => !b
  | .fin a n d, .fin b m e =>
    if n = 0 ∧ m = 0 then false
    else match a, b with
      | false, false => decide (n * e < m * d)
      | true, true => decide (m * d < n * e)
      | true, false => true
      | false, true => false

/-- Whether a value is a negative zero or negative. -/
def Val.isNeg : Val → Bool
  | .nan => false
  | .inf a => a
  | .fin a _ _ => a

/-- Whether a value is zero. -/
def Val.isZero : Val → Bool
  | .fin _ n _ => n == 0
  | _ => false

/-- The maximum of R45: NaN with a NaN operand, +0 above -0. -/
def maxVal (x y : Val) : Val :=
  match x, y with
  | .nan, _ => .nan
  | _, .nan => .nan
  | _, _ =>
    if x.isZero && y.isZero then (if x.isNeg then y else x)
    else if x.lt y then y else x

/-- The minimum of R45. -/
def minVal (x y : Val) : Val :=
  match x, y with
  | .nan, _ => .nan
  | _, .nan => .nan
  | _, _ =>
    if x.isZero && y.isZero then (if x.isNeg then x else y)
    else if x.lt y then x else y

/-- The magnitude. -/
def Val.abs : Val → Val
  | .nan => .nan
  | .inf _ => .inf false
  | .fin _ n d => .fin false n d

/-- Partial sums of the exponential series of `num / den`, in units of 2⁻⁵¹². -/
def expSeries : Nat → Nat → Nat → Nat → Nat → Nat → Nat
  | 0, _, _, _, _, acc => acc
  | fuel + 1, i, num, den, term, acc =>
    let t := term * num / (den * i)
    expSeries fuel (i + 1) num den t (acc + t)

/-- `exp x` correctly rounded to F32, ties away (R99, R148).  The exponential of a non-zero fraction is no
fraction, so 512 fraction bits decide every rounding of arguments where the result is finite and not 0. -/
def exp32 (x : Val) : Ev Val :=
  match x with
  | .nan => .ok .nan
  | .inf neg => .ok (if neg then .zero false else .inf false)
  | .fin neg n d =>
    if n = 0 then .ok (.nat 1)
    else if n > 128 * d then
      (if neg then .ok (.zero false) else round32 (.nat (2 ^ 160)))
    else
      let e := expSeries 640 1 n d (2 ^ 512) (2 ^ 512)
      round32 (if neg then .fin false (2 ^ 512) e else .fin false e (2 ^ 512))

/-- An F32 constant from its bits. -/
def f32 (b : Nat) : Val := decodeVal .f32 b

end Sys2Proof.Machine
end

