-- ==== Sys2Proof/Machine/Fld.lean ====
section
/-! DEFINITION. The register fields of the module: one name per field of the register tables of the
spec (R27 to R437) and, for each, where it lies, its Type (R6), its Reset value and its Kept across
letters (R8).  A field a table repeats per encoder, chase, context, ... is ONE name with an index.
Fields whose value is a view of other state (`derived`) hold nothing here and are computed at the read. -/

namespace Sys2Proof.Machine

/-- The register fields.  The last four are state the rules name without a register. -/
inductive Fld where
  | modPower | modService | modLevelOk | modLevelFault | modFailoverSeen | idDevice | idStepping
  | idVariant | zarsonLevel | zarsonLowest | zarsonCaps | fwVersion | fwProto | fpCores
  | fpEngines | fpLpddr | fpGalleyMib | fpReduced | fpcPresent | fpcPhysical | fpcCluster
  | fpcEngines | fpcSpare | fpLanesCxp | fpLanesRh | fpGalley | pfStatusAddr | clkOscEn
  | clkSource | clkRamping | clkRefOk | clkSwitched | oscCode | oscBySync | oscTrimmed
  | gateForced | freqKhz | optShadow | secLifecycle | secTarget | secAdvPending | secDebugDis
  | secDevTrained | secLock | secFilled | secRevoked | secCopy | secSvn | secRollback
  | secBootStatus | secUnsigned | secSession | secReach | secToken | secUid | mbxPostData
  | mbxPostLen | mbxPostChan | mbxPostResult | mbxUsed | mbxRxGen | mbxHeadLen | mbxHeadChan
  | mbxHeadSender | mbxHeadGen | mbxHeadStale | mbxHeadValid | mbxTakeCode | mbxTakeTake
  | mbxCplCode | mbxCplGen | mbxCplTag | mbxCplPop | mbxCplDepth | mbxDiscarded | mbxCplLost
  | mbxCplDetail | mbxHeadData | qopCode | mbxGrantFn | mbxGrantEn | quoinGrant | quoinHolder
  | quoinHolderGen | quoinHeld | quoinBroken | quoinOldHolder | quoinOldGen | cxpLaneState
  | cxpLaneRate | cxpLaneHsUp | cxpLaneDevice | cxpLaneConn | cxpCrcErr | cxpCodeErr
  | cxpLockLoss | cxpSrcLanes | cxpSrcMaster | cxpFmt | cxpStoreU16 | cxpBayer | cxpWidthM1
  | cxpLateLines | cxpSettleLines | cxpDesync | cxpSettling | cxpCtrlBusy | linesLate
  | linesMissed | linesDamaged | linesUnsol | trigDeferred | pipeInlineCtx | pipeInlineValid
  | pipeWheel | pipeWheelEn | pipeSel | pipeOutFmt | pipeOutWidthM1 | pipePbase | pipeSbase
  | pipeSlimit | pipeActive | pipePending | pipeStaging | pipeApplied | pipePartial
  | pipeOverrate | replayActive | replayLoop | replayBuffered | replayCorrupt | replayUnderrun
  | trnState | trnMode | trnEpoch | trnBatch | trnCorrupt | galBase | galLimit | galDepth
  | galEnabled | galStride | galBand | galCut | galWrite | galRelease | galOcc | galGapOpen
  | galPeak | galDropped | galMarkers | chPresent | chFirstCore | chCoreCount | chOwner | chProof
  | chState | chPlacement | chAltUsed | chPatched | chOrphans | formeId | bandCycles
  | bwCeilLpddr | bwCeilGalley | bwCeilRhasha | fullCount | exitCount | noreadCount
  | looseOverrun | failoverTime | ctxChase | ctxSlot | ctxEncoder | ctxBound | ctxMargin
  | ctxNrMask | ctxNrWidth | ctxGuard | engMap0 | engMap1 | engMap2 | engMap3 | engSpare
  | engDisabled | engRemapped | engResidue | engSignature | sramCe | sramUe | errWord | errIstore
  | errUncorr | errByScrub | errValid | zovf | ppCandOvf | ppOutOvf | ppNanScore | ppDimsRefused
  | ceBusy | ceCode | ceChase | ceRowsDesc | ceBytesDesc | numSat | numNan | numBad | nfSat
  | nfNan | nfBad | nfInf | seqLineState | seqLineWait | seqStreamHalted | seqOpenItems
  | seqItemsFull | trapCause | trapCore | trapLine | trapMultiple | trapValid | trapPc | trapW0
  | trapW2 | trapCount | seqRefused | verdictLate | rhModule | rhRoute0 | rhRoute1 | rhClkPort
  | rhClkEn | rhClkStratum | rhClkLocked | rhClkLockedTo | rhProofWait | rhUnroutable | rhPortEn
  | rhRetrainBit | rhLaneEn | rhMaxRate | rhState | rhRate | rhLanes | rhPartner | rhRhasha1
  | rhOrderTags | rhDupId | rhNarrowed | rhPartnerCap | rhEqCode | rhEqOverride | rhCrcErr
  | rhCodeErr | rhReplay | rhDown | rhEpoch | rhPresent | rhRole | rhJoining | rhImpoDetail
  | rhNoExpert | rhLinkTraining | rhStale | rhSortRefused | timeNow | timeSel | timeAuto
  | timeSlewPpm | timeValid | timeSlewing | timeHoldover | timeSwitched | timeStepRefused
  | timeStep | domEnable | domPort | domProfile | domNumber | domUdp | domState | domOffset
  | domFreq | tsTxCorr | tsRxCorr | lqEnable | lqLatePolicy | lqDepth | lqPcsReady | lqLate
  | lqDropped | txtsId | txtsDepth | txtsNs | txtsPop | txtsOvf | encEnable | encInvert | encTerm
  | encZCheck | encFilt | encValid | encWireFault | encWireNow | encOverspeed | encDrift
  | encDirection | encPos | encIndexLatch | encRev | encTol | encPreset | quadErr | driftErr
  | wireFaults | fqDepth | fqSpoilOpen | fqSpoilDropped | fqSpoilCtx | fqSpoilSeq | fqDropped
  | fqLateRefused | fqLateFire | pcmpEnable | pcmpEncoder | pcmpContext | pcmpTarget | pcmpPitch
  | trigNext | trigPitch | emuEnable | emuMode | emuSource | emuZFollow | emuRatio | emuDivM1
  | emuZPeriod | emuLagging | emuLost | fcMode | fcContext | fcAssigned | fcStamp | fcOwCheck
  | fcPaired | fcFilt | fcDead | fcCross | fcLevel | fcUndet | fcOverload | fcOpenWire
  | fcOverTemp | fcTripped | fcInDead | fcStale | fcOverloads | fcDeadDelayed | fcDeadSuppressed
  | fcFireTripped | tripMask | tripClear | tripActive | tripLatch | tripLastClear
  | tripClearPending | barUp | barFieldSafe | barSafeSeen | barSupplyOk | barCfgSynced | barBadUp
  | barBadDown | barSafe | supAutoStart | supRetry | supWindowMs | supTrayEn | supHoldChase
  | supWinEngine | supWinCore | supWinChase | supWinCtx | supRung | supCause | supUnit | supValid
  | escCount | trayReq | genChase | genCtx | genDraining | genForced | genStaleChase
  | genStaleCtx | telValue | telWarn | telCrit | evlogHead | evlogWrap | evlogMinSev | buStep
  | buQuick | buWarmPath | buLpddrBg | buFailReason | buElapsed | buQualCxp | buExclCxp
  | buQualRh | buExclRh | buBgProgress | buBgDone | buLpddrFail | buRepairRows | buRepairEngines
  | buRepairCores | winCtx | winProto | winHello | winStatusAddr | winPageHold | winCropFlush
  | ringBase | ringLog2 | ringEnable | ringItr | ringPageLog2 | ringProd | ringCons | ringSpoils
  | helloDone | helloVer | genPf0 | rhGen
  deriving DecidableEq, Repr

/-- The Type column of R6. -/
inductive FType where
  | ro | rw | w1c | wo | rc
  deriving DecidableEq, Repr

/-- The Kept across column of R8: PIN, WARM, FABRIC, CHASE, CONTEXT. -/
structure Kept where
  pin  : Bool
  warm : Bool
  fab  : Bool
  chs  : Bool
  ctx  : Bool
  deriving DecidableEq, Repr

/-- Where a field lies and how it behaves: index `i` of the field lies in the register at
`base + stride * (i / inner) + innerStep * (i % inner) + off`, at bit `lo + loStep * (i % inner)`. -/
structure FldInfo where
  base      : Nat
  stride    : Nat
  count     : Nat
  inner     : Nat
  innerStep : Nat
  loStep    : Nat
  off       : Nat
  lo        : Nat
  width     : Nat
  type      : FType
  pair      : Bool
  signed    : Bool
  derived   : Bool
  reset     : Nat
  kept      : Kept
  deriving DecidableEq, Repr

/-- Kept across nothing. -/
def kNone : Kept := ⟨false, false, false, false, false⟩
/-- Kept across every reset kind but POWER. -/
def kPWFHX : Kept := ⟨true, true, true, true, true⟩
/-- Kept across WARM, FABRIC, CHASE and CONTEXT. -/
def kWFHX : Kept := ⟨false, true, true, true, true⟩
/-- Kept across WARM and FABRIC. -/
def kWF : Kept := ⟨false, true, true, false, false⟩
/-- Kept across FABRIC, CHASE and CONTEXT. -/
def kFHX : Kept := ⟨false, false, true, true, true⟩
/-- Kept across FABRIC and CHASE. -/
def kFH : Kept := ⟨false, false, true, true, false⟩
/-- Kept across CHASE and CONTEXT. -/
def kHX : Kept := ⟨false, false, false, true, true⟩
/-- Kept across CHASE. -/
def kH : Kept := ⟨false, false, false, true, false⟩
/-- Kept across CONTEXT. -/
def kX : Kept := ⟨false, false, false, false, true⟩

/-- A plain field of a register set. -/
def fld (base stride count off lo width : Nat) (t : FType) (reset : Nat) (k : Kept) : FldInfo :=
  ⟨base, stride, count, 1, 0, 0, off, lo, width, t, false, false, false, reset, k⟩

/-- A field whose value is a view of other state. -/
def fldD (base stride count off lo width : Nat) (reset : Nat) (k : Kept) : FldInfo :=
  ⟨base, stride, count, 1, 0, 0, off, lo, width, .ro, false, false, true, reset, k⟩

/-- A field repeated inside each set: `inner` copies, `innerStep` bytes and `loStep` bits apart. -/
def fldIn (base stride count inner innerStep loStep off lo width : Nat) (t : FType) (d : Bool)
    (reset : Nat) (k : Kept) : FldInfo :=
  ⟨base, stride, count, inner, innerStep, loStep, off, lo, width, t, false, false, d, reset, k⟩

/-- A _LO/_HI pair of R4 (`signed`: a 48-bit count read sign-extended, R336). -/
def fldPair (base stride count off width : Nat) (t : FType) (signed : Bool) (d : Bool) (reset : Nat)
    (k : Kept) : FldInfo :=
  ⟨base, stride, count, 1, 0, 0, off, 0, width, t, true, signed, d, reset, k⟩

/-- The base that stands for "no register": per-function state without an address. -/
def noAddr : Nat := 0xF0000000

/-- The base that stands for the ring sets, whose addresses `ringSetAddr` gives (R353, R356, R364). -/
def ringSpace : Nat := 0xE0000000

/-- The field table.  A CH or KEPT letter list is the table's own. -/
def Fld.info : Fld → FldInfo
  | .modPower => fldD 0x10 0 1 0 0 2 2 kPWFHX
  | .modService => fld 0x10 0 1 0 2 3 .ro 0 kFHX
  | .modLevelOk => fld 0x10 0 1 0 5 1 .ro 0 kHX
  | .modLevelFault => fld 0x10 0 1 0 6 1 .w1c 0 kFHX
  | .modFailoverSeen => fld 0x10 0 1 0 7 1 .w1c 0 kFHX
  | .idDevice => fldD 0x0 0 1 0 0 16 2304 kPWFHX
  | .idStepping => fldD 0x0 0 1 0 16 8 1 kPWFHX
  | .idVariant => fldD 0x4 0 1 0 0 2 0 kPWFHX
  | .zarsonLevel => fldD 0x20 0 1 0 0 4 2 kPWFHX
  | .zarsonLowest => fldD 0x20 0 1 0 4 4 1 kPWFHX
  | .zarsonCaps => fldD 0x24 0 1 0 0 32 0x3FF kPWFHX
  | .fwVersion => fld 0x2C 0 1 0 0 32 .ro 0x00010000 kFHX
  | .fwProto => fld 0x30 0 1 0 0 32 .ro 0x00010001 kFHX
  | .fpCores => fld 0x100 0 1 0 0 6 .ro 0 kFHX
  | .fpEngines => fld 0x100 0 1 0 6 8 .ro 0 kFHX
  | .fpLpddr => fld 0x100 0 1 0 14 4 .ro 0 kFHX
  | .fpGalleyMib => fld 0x100 0 1 0 18 6 .ro 0 kFHX
  | .fpReduced => fld 0x100 0 1 0 24 1 .ro 0 kFHX
  | .fpcPresent => fld 0x140 4 32 0 0 1 .ro 0 kFHX
  | .fpcPhysical => fld 0x140 4 32 0 1 4 .ro 0 kFHX
  | .fpcCluster => fld 0x140 4 32 0 5 2 .ro 0 kFHX
  | .fpcEngines => fld 0x140 4 32 0 7 3 .ro 0 kFHX
  | .fpcSpare => fld 0x140 4 32 0 10 1 .ro 0 kFHX
  | .fpLanesCxp => fld 0x1C0 0 1 0 0 16 .ro 0 kFHX
  | .fpLanesRh => fld 0x1C0 0 1 0 16 16 .ro 0 kFHX
  | .fpGalley => fld 0x1C4 0 1 0 0 32 .ro 0 kFHX
  | .pfStatusAddr => fldPair 0x1080 0 1 0 64 .rw false false 0 kFHX
  | .clkOscEn => fld 0x100000 0 1 0 0 1 .rw 1 kWFHX
  | .clkSource => fld 0x100000 0 1 4 0 2 .ro 0 kWFHX
  | .clkRamping => fld 0x100000 0 1 4 2 1 .ro 0 kNone
  | .clkRefOk => fld 0x100000 0 1 4 3 1 .ro 0 kNone
  | .clkSwitched => fld 0x100000 0 1 4 4 1 .w1c 0 kWFHX
  | .oscCode => fld 0x100000 0 1 8 0 9 .ro 0x100 kWFHX
  | .oscBySync => fld 0x100000 0 1 8 9 1 .ro 0 kNone
  | .oscTrimmed => fld 0x100000 0 1 8 10 1 .ro 0 kNone
  | .gateForced => fld 0x100000 0 1 12 0 32 .rc 0 kFHX
  | .freqKhz => fld 0x100100 4 39 0 0 32 .ro 0 kNone
  | .optShadow => fld 0x100200 4 8 0 0 32 .ro 0 kWFHX
  | .secLifecycle => fld 0x200000 0 1 0 0 2 .ro 2 kPWFHX
  | .secTarget => fld 0x200000 0 1 0 2 2 .ro 0 kPWFHX
  | .secAdvPending => fld 0x200000 0 1 0 4 1 .ro 0 kPWFHX
  | .secDebugDis => fldD 0x200000 0 1 0 5 1 0 kPWFHX
  | .secDevTrained => fld 0x200000 0 1 4 0 1 .ro 0 kPWFHX
  | .secLock => fld 0x200000 0 1 4 1 1 .ro 0 kPWFHX
  | .secFilled => fld 0x200000 0 1 8 0 8 .ro 1 kPWFHX
  | .secRevoked => fld 0x200000 0 1 8 8 8 .ro 0 kPWFHX
  | .secCopy => fld 0x200000 0 1 12 0 1 .ro 0 kPWFHX
  | .secSvn => fld 0x200000 0 1 12 8 8 .ro 0 kPWFHX
  | .secRollback => fld 0x200000 0 1 12 16 8 .ro 0 kPWFHX
  | .secBootStatus => fld 0x200000 0 1 12 24 4 .ro 0 kPWFHX
  | .secUnsigned => fld 0x200000 0 1 12 28 1 .w1c 0 kWFHX
  | .secSession => fld 0x200000 0 1 16 0 1 .ro 0 kFHX
  | .secReach => fld 0x200000 0 1 16 1 3 .ro 0 kFHX
  | .secToken => fld 0x200000 0 1 16 4 1 .ro 0 kFHX
  | .secUid => fld 0x200020 4 4 0 0 32 .ro 0 kPWFHX
  | .mbxPostData => fldIn 0x300000 0x200 32 16 4 0 0 0 32 .rw false 0 kNone
  | .mbxPostLen => fld 0x300000 0x200 32 0x40 0 7 .wo 0 kNone
  | .mbxPostChan => fld 0x300000 0x200 32 0x40 7 1 .wo 0 kNone
  | .mbxPostResult => fld 0x300000 0x200 32 0x44 0 8 .ro 0 kNone
  | .mbxUsed => fldD 0x300000 0x200 32 0x48 0 5 0 kNone
  | .mbxRxGen => fld 0x300000 0x200 32 0x48 5 8 .ro 0 kWFHX
  | .mbxHeadLen => fldD 0x300000 0x200 32 0x4C 0 7 0 kNone
  | .mbxHeadChan => fldD 0x300000 0x200 32 0x4C 7 1 0 kNone
  | .mbxHeadSender => fldD 0x300000 0x200 32 0x4C 8 6 0 kNone
  | .mbxHeadGen => fldD 0x300000 0x200 32 0x4C 14 8 0 kNone
  | .mbxHeadStale => fldD 0x300000 0x200 32 0x4C 22 1 0 kNone
  | .mbxHeadValid => fldD 0x300000 0x200 32 0x4C 23 1 0 kNone
  | .mbxTakeCode => fld 0x300000 0x200 32 0x50 0 8 .wo 0 kNone
  | .mbxTakeTake => fld 0x300000 0x200 32 0x50 8 1 .wo 0 kNone
  | .mbxCplCode => fldD 0x300000 0x200 32 0x54 0 8 0 kWFHX
  | .mbxCplGen => fldD 0x300000 0x200 32 0x54 8 8 0 kWFHX
  | .mbxCplTag => fldD 0x300000 0x200 32 0x54 16 16 0 kWFHX
  | .mbxCplPop => fld 0x300000 0x200 32 0x58 0 1 .wo 0 kNone
  | .mbxCplDepth => fldD 0x300000 0x200 32 0x5C 0 5 0 kWFHX
  | .mbxDiscarded => fld 0x300000 0x200 32 0x60 0 32 .rc 0 kWFHX
  | .mbxCplLost => fld 0x300000 0x200 32 0x64 0 32 .rc 0 kWFHX
  | .mbxCplDetail => fldIn 0x300000 0x200 32 6 4 0 0x68 0 32 .ro true 0 kWFHX
  | .mbxHeadData => fldIn 0x300000 0x200 32 16 4 0 0x80 0 32 .ro true 0 kNone
  | .qopCode => fld 0x300000 0x200 17 0xC0 0 8 .ro 0 kNone
  | .mbxGrantFn => fld 0x304000 4 15 0 0 5 .rw 0 kWFHX
  | .mbxGrantEn => fld 0x304000 4 15 0 31 1 .rw 0 kWFHX
  | .quoinGrant => fld 0x305000 4 64 0 0 17 .rw 0 kWFHX
  | .quoinHolder => fld 0x306000 4 64 0 0 6 .ro 0 kWFHX
  | .quoinHolderGen => fld 0x306000 4 64 0 6 8 .ro 0 kWFHX
  | .quoinHeld => fld 0x306000 4 64 0 14 1 .ro 0 kWFHX
  | .quoinBroken => fld 0x306000 4 64 0 15 1 .ro 0 kWFHX
  | .quoinOldHolder => fld 0x306000 4 64 0 16 6 .ro 0 kWFHX
  | .quoinOldGen => fld 0x306000 4 64 0 22 8 .ro 0 kWFHX
  | .cxpLaneState => fld 0x401000 0x20 16 0 0 3 .ro 0 kFHX
  | .cxpLaneRate => fld 0x401000 0x20 16 0 3 3 .ro 0 kFHX
  | .cxpLaneHsUp => fld 0x401000 0x20 16 0 6 1 .ro 0 kFHX
  | .cxpLaneDevice => fld 0x401000 0x20 16 0 7 4 .ro 0 kFHX
  | .cxpLaneConn => fld 0x401000 0x20 16 0 11 3 .ro 0 kFHX
  | .cxpCrcErr => fld 0x401000 0x20 16 4 0 32 .rc 0 kFHX
  | .cxpCodeErr => fld 0x401000 0x20 16 8 0 32 .rc 0 kFHX
  | .cxpLockLoss => fld 0x401000 0x20 16 12 0 32 .rc 0 kFHX
  | .cxpSrcLanes => fld 0x402000 0x40 16 0 0 16 .rw 0 kFHX
  | .cxpSrcMaster => fld 0x402000 0x40 16 0 16 4 .rw 0 kFHX
  | .cxpFmt => fld 0x402000 0x40 16 4 0 4 .rw 0 kFHX
  | .cxpStoreU16 => fld 0x402000 0x40 16 4 4 1 .rw 0 kFHX
  | .cxpBayer => fld 0x402000 0x40 16 4 5 2 .rw 0 kFHX
  | .cxpWidthM1 => fld 0x402000 0x40 16 4 16 16 .rw 0 kFHX
  | .cxpLateLines => fld 0x402000 0x40 16 8 0 8 .rw 4 kFHX
  | .cxpSettleLines => fld 0x402000 0x40 16 8 8 8 .rw 8 kFHX
  | .cxpDesync => fld 0x402000 0x40 16 12 0 1 .w1c 0 kH
  | .cxpSettling => fldD 0x402000 0x40 16 12 1 1 0 kNone
  | .cxpCtrlBusy => fldD 0x402000 0x40 16 12 2 1 0 kNone
  | .linesLate => fld 0x402000 0x40 16 0x10 0 32 .rc 0 kHX
  | .linesMissed => fld 0x402000 0x40 16 0x14 0 32 .rc 0 kHX
  | .linesDamaged => fld 0x402000 0x40 16 0x18 0 32 .rc 0 kHX
  | .linesUnsol => fld 0x402000 0x40 16 0x1C 0 32 .rc 0 kHX
  | .trigDeferred => fld 0x402000 0x40 16 0x20 0 32 .rc 0 kHX
  | .pipeInlineCtx => fld 0x500000 0x100 2 0 0 4 .rw 0 kFHX
  | .pipeInlineValid => fld 0x500000 0x100 2 0 31 1 .rw 0 kFHX
  | .pipeWheel => fld 0x500000 0x100 2 4 0 32 .rw 0 kFHX
  | .pipeWheelEn => fld 0x500000 0x100 2 8 0 8 .rw 0 kFHX
  | .pipeSel => fld 0x501000 0x40 16 0 0 2 .rw 0 kFHX
  | .pipeOutFmt => fld 0x501000 0x40 16 4 0 4 .rw 1 kFHX
  | .pipeOutWidthM1 => fld 0x501000 0x40 16 4 4 15 .rw 0 kFHX
  | .pipePbase => fld 0x501000 0x40 16 8 0 19 .rw 0 kFHX
  | .pipeSbase => fld 0x501000 0x40 16 12 0 19 .rw 0 kFHX
  | .pipeSlimit => fld 0x501000 0x40 16 0x10 0 20 .rw 0 kFHX
  | .pipeActive => fld 0x501000 0x40 16 0x14 0 3 .ro 0 kFHX
  | .pipePending => fldD 0x501000 0x40 16 0x14 4 3 0 kNone
  | .pipeStaging => fldD 0x501000 0x40 16 0x14 8 1 0 kNone
  | .pipeApplied => fldPair 0x501000 0x40 16 0x18 48 .ro false false 0 kFHX
  | .pipePartial => fld 0x501000 0x40 16 0x20 0 32 .rc 0 kH
  | .pipeOverrate => fld 0x501000 0x40 16 0x24 0 32 .rc 0 kH
  | .replayActive => fldD 0x502000 0x40 16 0 0 1 0 kNone
  | .replayLoop => fldD 0x502000 0x40 16 0 1 1 0 kNone
  | .replayBuffered => fldD 0x502000 0x40 16 0 2 5 0 kNone
  | .replayCorrupt => fld 0x502000 0x40 16 4 0 32 .rc 0 kH
  | .replayUnderrun => fld 0x502000 0x40 16 8 0 32 .rc 0 kH
  | .trnState => fld 0x503000 0x20 16 0 0 2 .ro 0 kNone
  | .trnMode => fld 0x503000 0x20 16 0 2 1 .ro 0 kNone
  | .trnEpoch => fld 0x503000 0x20 16 4 0 32 .ro 0 kH
  | .trnBatch => fld 0x503000 0x20 16 8 0 32 .ro 0 kH
  | .trnCorrupt => fld 0x503000 0x20 16 12 0 32 .rc 0 kH
  | .galBase => fld 0x601000 0x40 16 0 0 19 .rw 0 kFHX
  | .galLimit => fld 0x601000 0x40 16 4 0 20 .rw 0 kFHX
  | .galDepth => fld 0x601000 0x40 16 8 0 17 .rw 4096 kFHX
  | .galEnabled => fld 0x601000 0x40 16 8 31 1 .ro 0 kFHX
  | .galStride => fld 0x601000 0x40 16 12 0 17 .ro 0 kFHX
  | .galBand => fld 0x601000 0x40 16 0x10 0 9 .ro 0 kFHX
  | .galCut => fld 0x601000 0x40 16 0x10 16 9 .rw 0 kFHX
  | .galWrite => fldPair 0x601000 0x40 16 0x14 48 .ro false true 0 kNone
  | .galRelease => fldPair 0x601000 0x40 16 0x1C 48 .ro false true 0 kNone
  | .galOcc => fldD 0x601000 0x40 16 0x24 0 17 0 kNone
  | .galGapOpen => fldD 0x601000 0x40 16 0x24 31 1 0 kNone
  | .galPeak => fld 0x601000 0x40 16 0x28 0 17 .rc 0 kH
  | .galDropped => fld 0x601000 0x40 16 0x2C 0 32 .rc 0 kH
  | .galMarkers => fld 0x601000 0x40 16 0x30 0 32 .rc 0 kH
  | .chPresent => fld 0x70A000 0x40 16 0 0 1 .ro 0 kFHX
  | .chFirstCore => fld 0x70A000 0x40 16 0 1 5 .ro 0 kFHX
  | .chCoreCount => fld 0x70A000 0x40 16 0 6 6 .ro 0 kFHX
  | .chOwner => fld 0x70A000 0x40 16 0 12 5 .ro 0 kFHX
  | .chProof => fld 0x70A000 0x40 16 0 17 1 .ro 0 kFHX
  | .chState => fld 0x70A000 0x40 16 4 0 3 .ro 0 kX
  | .chPlacement => fld 0x70A000 0x40 16 4 3 6 .ro 0 kHX
  | .chAltUsed => fld 0x70A000 0x40 16 4 9 1 .ro 0 kHX
  | .chPatched => fld 0x70A000 0x40 16 4 10 1 .ro 0 kHX
  | .chOrphans => fldD 0x70A000 0x40 16 4 11 8 0 kNone
  | .formeId => fld 0x70A000 0x40 16 8 0 32 .ro 0 kHX
  | .bandCycles => fld 0x70A000 0x40 16 0xC 0 32 .ro 0 kHX
  | .bwCeilLpddr => fld 0x70A000 0x40 16 0x10 0 32 .ro 0 kFHX
  | .bwCeilGalley => fld 0x70A000 0x40 16 0x14 0 32 .ro 0 kFHX
  | .bwCeilRhasha => fld 0x70A000 0x40 16 0x18 0 32 .ro 0 kFHX
  | .fullCount => fld 0x70A000 0x40 16 0x1C 0 32 .rc 0 kHX
  | .exitCount => fld 0x70A000 0x40 16 0x20 0 32 .rc 0 kHX
  | .noreadCount => fld 0x70A000 0x40 16 0x24 0 32 .rc 0 kHX
  | .looseOverrun => fld 0x70A000 0x40 16 0x28 0 32 .rc 0 kHX
  | .failoverTime => fld 0x70A000 0x40 16 0x2C 0 16 .ro 0 kHX
  | .ctxChase => fld 0x70B000 0x10 16 0 0 4 .ro 0 kFHX
  | .ctxSlot => fld 0x70B000 0x10 16 0 4 4 .ro 0 kFHX
  | .ctxEncoder => fld 0x70B000 0x10 16 0 8 2 .ro 0 kFHX
  | .ctxBound => fld 0x70B000 0x10 16 0 31 1 .ro 0 kFHX
  | .ctxMargin => fld 0x70B000 0x10 16 4 0 31 .ro 0 kFHX
  | .ctxNrMask => fld 0x70B000 0x10 16 8 0 16 .ro 0 kFHX
  | .ctxNrWidth => fld 0x70B000 0x10 16 8 16 16 .ro 0 kFHX
  | .ctxGuard => fld 0x70B000 0x10 16 12 0 16 .ro 16 kFHX
  | .engMap0 => fld 0x70C000 0x20 32 0 0 3 .ro 0 kWFHX
  | .engMap1 => fld 0x70C000 0x20 32 0 3 3 .ro 1 kWFHX
  | .engMap2 => fld 0x70C000 0x20 32 0 6 3 .ro 2 kWFHX
  | .engMap3 => fld 0x70C000 0x20 32 0 9 3 .ro 3 kWFHX
  | .engSpare => fld 0x70C000 0x20 32 0 12 3 .ro 4 kWFHX
  | .engDisabled => fld 0x70C000 0x20 32 0 15 5 .ro 0 kWFHX
  | .engRemapped => fld 0x70C000 0x20 32 0 20 1 .ro 0 kWFHX
  | .engResidue => fld 0x70C000 0x20 32 4 0 5 .w1c 0 kFHX
  | .engSignature => fld 0x70C000 0x20 32 4 5 5 .w1c 0 kFHX
  | .sramCe => fld 0x70C000 0x20 32 8 0 32 .rc 0 kFHX
  | .sramUe => fld 0x70C000 0x20 32 12 0 32 .rc 0 kFHX
  | .errWord => fld 0x70C000 0x20 32 0x10 0 19 .ro 0 kFHX
  | .errIstore => fld 0x70C000 0x20 32 0x10 19 1 .ro 0 kFHX
  | .errUncorr => fld 0x70C000 0x20 32 0x10 20 1 .ro 0 kFHX
  | .errByScrub => fld 0x70C000 0x20 32 0x10 21 1 .ro 0 kFHX
  | .errValid => fld 0x70C000 0x20 32 0x10 31 1 .w1c 0 kFHX
  | .zovf => fld 0x70C000 0x20 32 0x14 0 32 .rc 0 kX
  | .ppCandOvf => fld 0x70D000 0x40 4 0 0 32 .rc 0 kX
  | .ppOutOvf => fld 0x70D000 0x40 4 4 0 32 .rc 0 kX
  | .ppNanScore => fld 0x70D000 0x40 4 8 0 32 .rc 0 kX
  | .ppDimsRefused => fld 0x70D000 0x40 4 12 0 32 .rc 0 kX
  | .ceBusy => fldIn 0x70D010 0x40 4 2 4 0 0 0 1 .ro false 0 kNone
  | .ceCode => fldIn 0x70D010 0x40 4 2 4 0 0 1 3 .ro false 0 kX
  | .ceChase => fldIn 0x70D010 0x40 4 2 4 0 0 4 4 .ro false 0 kX
  | .ceRowsDesc => fldIn 0x70D010 0x40 4 2 4 0 0 8 1 .ro false 0 kX
  | .ceBytesDesc => fldIn 0x70D010 0x40 4 2 4 0 0 9 1 .ro false 0 kX
  | .numSat => fld 0x70E000 0x10 16 0 0 32 .rc 0 kX
  | .numNan => fld 0x70E000 0x10 16 4 0 32 .rc 0 kX
  | .numBad => fld 0x70E000 0x10 16 8 0 32 .rc 0 kX
  | .nfSat => fld 0x70E000 0x10 16 12 0 1 .w1c 0 kX
  | .nfNan => fld 0x70E000 0x10 16 12 1 1 .w1c 0 kX
  | .nfBad => fld 0x70E000 0x10 16 12 2 1 .w1c 0 kX
  | .nfInf => fld 0x70E000 0x10 16 12 3 1 .w1c 0 kX
  | .seqLineState => fldD 0x70F000 0x20 16 0 0 2 0 kNone
  | .seqLineWait => fldD 0x70F000 0x20 16 0 2 3 0 kNone
  | .seqStreamHalted => fldD 0x70F000 0x20 16 0 5 1 0 kNone
  | .seqOpenItems => fldD 0x70F000 0x20 16 0 6 8 0 kNone
  | .seqItemsFull => fldD 0x70F000 0x20 16 0 14 1 0 kNone
  | .trapCause => fld 0x70F000 0x20 16 4 0 5 .ro 0 kHX
  | .trapCore => fld 0x70F000 0x20 16 4 5 5 .ro 0 kHX
  | .trapLine => fld 0x70F000 0x20 16 4 10 1 .ro 0 kHX
  | .trapMultiple => fld 0x70F000 0x20 16 4 11 1 .ro 0 kHX
  | .trapValid => fld 0x70F000 0x20 16 4 31 1 .w1c 0 kHX
  | .trapPc => fld 0x70F000 0x20 16 8 0 32 .ro 0 kHX
  | .trapW0 => fld 0x70F000 0x20 16 12 0 32 .ro 0 kHX
  | .trapW2 => fld 0x70F000 0x20 16 0x10 0 32 .ro 0 kHX
  | .trapCount => fld 0x70F000 0x20 16 0x14 0 32 .rc 0 kHX
  | .seqRefused => fld 0x70F000 0x20 16 0x18 0 32 .rc 0 kHX
  | .verdictLate => fld 0x70F000 0x20 16 0x1C 0 32 .rc 0 kHX
  | .rhModule => fld 0x800000 0 1 0 0 4 .ro 0 kWFHX
  | .rhRoute0 => fld 0x800000 0 1 4 0 32 .rw 0xFFFFFFFF kFHX
  | .rhRoute1 => fld 0x800000 0 1 8 0 32 .rw 0xFFFFFFFF kFHX
  | .rhClkPort => fld 0x800000 0 1 12 0 2 .rw 0 kWFHX
  | .rhClkEn => fld 0x800000 0 1 12 2 1 .rw 0 kWFHX
  | .rhClkStratum => fld 0x800000 0 1 12 4 3 .ro 0 kNone
  | .rhClkLocked => fld 0x800000 0 1 12 7 1 .ro 0 kNone
  | .rhClkLockedTo => fld 0x800000 0 1 12 8 4 .ro 0 kNone
  | .rhProofWait => fld 0x800000 0 1 0x10 0 16 .rw 4000 kFHX
  | .rhUnroutable => fld 0x800000 0 1 0x14 0 32 .rc 0 kHX
  | .rhPortEn => fld 0x801000 0x40 4 0 0 1 .rw 1 kFHX
  | .rhRetrainBit => fld 0x801000 0x40 4 0 1 1 .wo 0 kNone
  | .rhLaneEn => fld 0x801000 0x40 4 0 2 4 .rw 15 kFHX
  | .rhMaxRate => fld 0x801000 0x40 4 0 6 3 .rw 5 kFHX
  | .rhState => fld 0x801000 0x40 4 4 0 3 .ro 0 kFHX
  | .rhRate => fld 0x801000 0x40 4 4 3 3 .ro 0 kFHX
  | .rhLanes => fld 0x801000 0x40 4 4 6 4 .ro 0 kFHX
  | .rhPartner => fld 0x801000 0x40 4 4 10 4 .ro 0 kFHX
  | .rhRhasha1 => fld 0x801000 0x40 4 4 14 1 .ro 0 kFHX
  | .rhOrderTags => fld 0x801000 0x40 4 4 15 1 .ro 0 kFHX
  | .rhDupId => fld 0x801000 0x40 4 4 16 1 .ro 0 kFHX
  | .rhNarrowed => fld 0x801000 0x40 4 4 17 1 .ro 0 kFHX
  | .rhPartnerCap => fldPair 0x801000 0x40 4 8 64 .ro false false 0 kFHX
  | .rhEqCode => fldIn 0x801000 0x40 4 4 0 8 0x10 0 4 .rw false 0 kFHX
  | .rhEqOverride => fldIn 0x801000 0x40 4 4 0 8 0x10 7 1 .rw false 0 kFHX
  | .rhCrcErr => fld 0x801000 0x40 4 0x14 0 32 .rc 0 kHX
  | .rhCodeErr => fld 0x801000 0x40 4 0x18 0 32 .rc 0 kHX
  | .rhReplay => fld 0x801000 0x40 4 0x1C 0 32 .rc 0 kHX
  | .rhDown => fld 0x801000 0x40 4 0x20 0 32 .rc 0 kHX
  | .rhEpoch => fld 0x802000 0x20 16 0 0 16 .ro 0 kX
  | .rhPresent => fld 0x802000 0x20 16 0 16 16 .ro 0 kX
  | .rhRole => fld 0x802000 0x20 16 4 0 2 .ro 0 kX
  | .rhJoining => fld 0x802000 0x20 16 4 2 1 .ro 0 kX
  | .rhImpoDetail => fld 0x802000 0x20 16 4 8 8 .ro 0 kX
  | .rhNoExpert => fld 0x802000 0x20 16 8 0 32 .rc 0 kH
  | .rhLinkTraining => fld 0x802000 0x20 16 12 0 32 .rc 0 kH
  | .rhStale => fld 0x802000 0x20 16 0x10 0 32 .rc 0 kH
  | .rhSortRefused => fld 0x802000 0x20 16 0x14 0 32 .rc 0 kH
  | .timeNow => fldPair 0x900000 0 1 0 64 .ro false false 0 kWFHX
  | .timeSel => fld 0x900008 0 1 0 0 1 .rw 0 kWFHX
  | .timeAuto => fld 0x900008 0 1 0 1 1 .rw 1 kWFHX
  | .timeSlewPpm => fld 0x900008 0 1 0 2 10 .rw 10 kWFHX
  | .timeValid => fld 0x90000C 0 1 0 0 1 .ro 0 kWFHX
  | .timeSlewing => fldD 0x90000C 0 1 0 1 1 0 kNone
  | .timeHoldover => fldD 0x90000C 0 1 0 2 1 0 kNone
  | .timeSwitched => fld 0x90000C 0 1 0 3 1 .w1c 0 kWFHX
  | .timeStepRefused => fld 0x90000C 0 1 0 4 1 .w1c 0 kWFHX
  | .timeStep => fldPair 0x900010 0 1 0 64 .wo false false 0 kNone
  | .domEnable => fld 0x900100 0x40 2 0 0 1 .rw 0 kWFHX
  | .domPort => fld 0x900100 0x40 2 0 1 1 .rw 0 kWFHX
  | .domProfile => fld 0x900100 0x40 2 0 2 2 .rw 0 kWFHX
  | .domNumber => fld 0x900100 0x40 2 0 4 8 .rw 0 kWFHX
  | .domUdp => fld 0x900100 0x40 2 0 12 1 .rw 0 kWFHX
  | .domState => fld 0x900100 0x40 2 4 0 2 .ro 0 kWFHX
  | .domOffset => fld 0x900100 0x40 2 8 0 32 .ro 0 kWFHX
  | .domFreq => fld 0x900100 0x40 2 12 0 32 .ro 0 kWFHX
  | .tsTxCorr => fld 0x901000 0x100 2 0 0 16 .rw 48 kWFHX
  | .tsRxCorr => fld 0x901000 0x100 2 4 0 16 .rw 72 kWFHX
  | .lqEnable => fld 0x901000 0x100 2 8 0 1 .rw 0 kWFHX
  | .lqLatePolicy => fld 0x901000 0x100 2 8 1 1 .rw 0 kWFHX
  | .lqDepth => fldD 0x901000 0x100 2 12 0 6 0 kNone
  | .lqPcsReady => fld 0x901000 0x100 2 12 6 1 .ro 0 kNone
  | .lqLate => fld 0x901000 0x100 2 0x10 0 32 .rc 0 kFHX
  | .lqDropped => fld 0x901000 0x100 2 0x14 0 32 .rc 0 kFHX
  | .txtsId => fldD 0x901000 0x100 2 0x18 0 16 0 kFHX
  | .txtsDepth => fldD 0x901000 0x100 2 0x18 16 5 0 kFHX
  | .txtsNs => fldPair 0x901000 0x100 2 0x1C 64 .ro false true 0 kFHX
  | .txtsPop => fld 0x901000 0x100 2 0x24 0 1 .wo 0 kNone
  | .txtsOvf => fld 0x901000 0x100 2 0x28 0 32 .rc 0 kFHX
  | .encEnable => fld 0xA00000 0x40 4 0 0 1 .rw 0 kWFHX
  | .encInvert => fld 0xA00000 0x40 4 0 1 1 .rw 0 kWFHX
  | .encTerm => fld 0xA00000 0x40 4 0 2 1 .rw 1 kWFHX
  | .encZCheck => fld 0xA00000 0x40 4 0 3 1 .rw 0 kWFHX
  | .encFilt => fld 0xA00000 0x40 4 0 4 4 .rw 2 kWFHX
  | .encValid => fld 0xA00000 0x40 4 4 0 1 .ro 0 kWFHX
  | .encWireFault => fld 0xA00000 0x40 4 4 1 1 .w1c 0 kWFHX
  | .encWireNow => fldD 0xA00000 0x40 4 4 2 1 0 kNone
  | .encOverspeed => fld 0xA00000 0x40 4 4 3 1 .w1c 0 kWFHX
  | .encDrift => fld 0xA00000 0x40 4 4 4 1 .w1c 0 kWFHX
  | .encDirection => fld 0xA00000 0x40 4 4 5 1 .ro 0 kNone
  | .encPos => fldPair 0xA00000 0x40 4 8 48 .ro true false 0 kWFHX
  | .encIndexLatch => fldPair 0xA00000 0x40 4 0x10 48 .ro true false 0 kWFHX
  | .encRev => fld 0xA00000 0x40 4 0x18 0 32 .rw 0 kWFHX
  | .encTol => fld 0xA00000 0x40 4 0x1C 0 16 .rw 0 kWFHX
  | .encPreset => fldPair 0xA00000 0x40 4 0x20 48 .rw true false 0 kWFHX
  | .quadErr => fld 0xA00000 0x40 4 0x28 0 32 .rc 0 kWFHX
  | .driftErr => fld 0xA00000 0x40 4 0x2C 0 32 .rc 0 kWFHX
  | .wireFaults => fld 0xA00000 0x40 4 0x30 0 32 .rc 0 kWFHX
  | .fqDepth => fldD 0xA01000 0x40 4 0 0 6 0 kHX
  | .fqSpoilOpen => fld 0xA01000 0x40 4 0 6 1 .ro 0 kHX
  | .fqSpoilDropped => fld 0xA01000 0x40 4 4 0 16 .ro 0 kHX
  | .fqSpoilCtx => fld 0xA01000 0x40 4 4 16 4 .ro 0 kHX
  | .fqSpoilSeq => fld 0xA01000 0x40 4 8 0 32 .ro 0 kHX
  | .fqDropped => fld 0xA01000 0x40 4 12 0 32 .rc 0 kHX
  | .fqLateRefused => fld 0xA01000 0x40 4 0x10 0 32 .rc 0 kHX
  | .fqLateFire => fld 0xA01000 0x40 4 0x14 0 32 .rc 0 kHX
  | .pcmpEnable => fld 0xA02000 0x10 8 0 0 1 .rw 0 kWFHX
  | .pcmpEncoder => fld 0xA02000 0x10 8 0 1 2 .rw 0 kWFHX
  | .pcmpContext => fld 0xA02000 0x10 8 0 3 4 .rw 0 kWFHX
  | .pcmpTarget => fldPair 0xA02000 0x10 8 4 48 .rw true false 0 kWFHX
  | .pcmpPitch => fld 0xA02000 0x10 8 12 0 31 .rw 0 kWFHX
  | .trigNext => fldPair 0xA03000 0x10 16 0 48 .ro true false 0 kFH
  | .trigPitch => fld 0xA03000 0x10 16 8 0 16 .ro 0 kFH
  | .emuEnable => fld 0xA04000 0x20 2 0 0 1 .rw 0 kWFHX
  | .emuMode => fld 0xA04000 0x20 2 0 1 1 .rw 0 kWFHX
  | .emuSource => fld 0xA04000 0x20 2 0 2 2 .rw 0 kWFHX
  | .emuZFollow => fld 0xA04000 0x20 2 0 4 1 .rw 0 kWFHX
  | .emuRatio => fldPair 0xA04000 0x20 2 4 64 .rw false false 0 kWFHX
  | .emuDivM1 => fld 0xA04000 0x20 2 12 0 16 .rw 0 kWFHX
  | .emuZPeriod => fld 0xA04000 0x20 2 0x10 0 32 .rw 0 kWFHX
  | .emuLagging => fldD 0xA04000 0x20 2 0x14 0 1 0 kNone
  | .emuLost => fld 0xA04000 0x20 2 0x14 1 1 .w1c 0 kWFHX
  | .fcMode => fld 0xB00000 0x20 16 0 0 2 .rw 0 kWFHX
  | .fcContext => fld 0xB00000 0x20 16 0 2 4 .rw 0 kWFHX
  | .fcAssigned => fld 0xB00000 0x20 16 0 6 1 .rw 0 kWFHX
  | .fcStamp => fld 0xB00000 0x20 16 0 7 1 .rw 0 kWFHX
  | .fcOwCheck => fld 0xB00000 0x20 16 0 8 1 .rw 0 kWFHX
  | .fcPaired => fld 0xB00000 0x20 16 0 9 1 .rw 0 kWFHX
  | .fcFilt => fld 0xB00000 0x20 16 0 10 4 .rw 0 kWFHX
  | .fcDead => fld 0xB00000 0x20 16 4 0 16 .rw 0 kWFHX
  | .fcCross => fld 0xB00000 0x20 16 4 16 16 .rw 0 kWFHX
  | .fcLevel => fld 0xB00000 0x20 16 8 0 1 .ro 0 kNone
  | .fcUndet => fld 0xB00000 0x20 16 8 1 1 .ro 1 kNone
  | .fcOverload => fld 0xB00000 0x20 16 8 2 1 .w1c 0 kWFHX
  | .fcOpenWire => fld 0xB00000 0x20 16 8 3 1 .w1c 0 kWFHX
  | .fcOverTemp => fld 0xB00000 0x20 16 8 4 1 .w1c 0 kWFHX
  | .fcTripped => fldD 0xB00000 0x20 16 8 5 1 0 kWFHX
  | .fcInDead => fldD 0xB00000 0x20 16 8 6 1 0 kNone
  | .fcStale => fld 0xB00000 0x20 16 8 7 1 .ro 0 kNone
  | .fcOverloads => fld 0xB00000 0x20 16 12 0 32 .rc 0 kWFHX
  | .fcDeadDelayed => fld 0xB00000 0x20 16 0x10 0 32 .rc 0 kWFHX
  | .fcDeadSuppressed => fld 0xB00000 0x20 16 0x14 0 32 .rc 0 kWFHX
  | .fcFireTripped => fld 0xB00000 0x20 16 0x18 0 32 .rc 0 kWFHX
  | .tripMask => fld 0xB01000 4 2 0 0 16 .rw 0xFFFF kWFHX
  | .tripClear => fld 0xB01008 0 1 0 0 2 .wo 0 kNone
  | .tripActive => fld 0xB0100C 0 1 0 0 2 .ro 3 kNone
  | .tripLatch => fld 0xB0100C 0 1 0 2 2 .ro 0 kWFHX
  | .tripLastClear => fld 0xB0100C 0 1 0 4 8 .ro 0 kWFHX
  | .tripClearPending => fld 0xB0100C 0 1 0 12 1 .ro 0 kNone
  | .barUp => fld 0xB02000 0 1 0 0 1 .ro 0 kNone
  | .barFieldSafe => fld 0xB02000 0 1 0 1 1 .ro 1 kNone
  | .barSafeSeen => fld 0xB02000 0 1 0 2 1 .w1c 0 kWFHX
  | .barSupplyOk => fld 0xB02000 0 1 0 3 1 .ro 0 kNone
  | .barCfgSynced => fld 0xB02000 0 1 0 4 1 .ro 0 kNone
  | .barBadUp => fld 0xB02000 0 1 4 0 32 .rc 0 kWFHX
  | .barBadDown => fld 0xB02000 0 1 8 0 32 .rc 0 kWFHX
  | .barSafe => fld 0xB02000 0 1 12 0 32 .rc 0 kWFHX
  | .supAutoStart => fld 0xC00000 0 1 0 0 1 .rw 1 kWFHX
  | .supRetry => fld 0xC00000 0 1 0 1 3 .rw 2 kWFHX
  | .supWindowMs => fld 0xC00000 0 1 0 4 12 .rw 1000 kWFHX
  | .supTrayEn => fldD 0xC00000 0 1 0 16 1 0 kWFHX
  | .supHoldChase => fld 0xC00000 0 1 0 17 1 .rw 0 kWFHX
  | .supWinEngine => fld 0xC00004 0 1 0 0 24 .rw 200 kWFHX
  | .supWinCore => fld 0xC00008 0 1 0 0 24 .rw 500 kWFHX
  | .supWinChase => fld 0xC0000C 0 1 0 0 24 .rw 10000 kWFHX
  | .supWinCtx => fld 0xC00010 0 1 0 0 24 .rw 100000 kWFHX
  | .supRung => fld 0xC00014 0 1 0 0 3 .ro 0 kWFHX
  | .supCause => fld 0xC00014 0 1 0 3 4 .ro 0 kWFHX
  | .supUnit => fld 0xC00014 0 1 0 7 6 .ro 0 kWFHX
  | .supValid => fld 0xC00014 0 1 0 31 1 .w1c 0 kWFHX
  | .escCount => fld 0xC00018 0 1 0 0 32 .rc 0 kWFHX
  | .trayReq => fld 0xC0001C 0 1 0 0 1 .ro 0 kWFHX
  | .genChase => fld 0xC00100 4 16 0 0 8 .ro 0 kWFHX
  | .genCtx => fld 0xC00140 4 16 0 0 8 .ro 0 kWFHX
  | .genDraining => fld 0xC00140 4 16 0 8 1 .ro 0 kNone
  | .genForced => fld 0xC00140 4 16 0 9 1 .w1c 0 kNone
  | .genStaleChase => fld 0xC00180 4 16 0 0 32 .rc 0 kWF
  | .genStaleCtx => fld 0xC001C0 4 16 0 0 32 .rc 0 kWF
  | .telValue => fld 0xD00000 4 14 0 0 16 .ro 0 kNone
  | .telWarn => fld 0xD00000 4 14 0 16 1 .ro 0 kNone
  | .telCrit => fld 0xD00000 4 14 0 17 1 .ro 0 kNone
  | .evlogHead => fld 0xD00100 0 1 0 0 12 .ro 0 kWFHX
  | .evlogWrap => fld 0xD00104 0 1 0 0 32 .ro 0 kWFHX
  | .evlogMinSev => fld 0xD00108 0 1 0 0 2 .rw 2 kWFHX
  | .buStep => fld 0xF00000 0 1 0 0 4 .ro 0 kFHX
  | .buQuick => fldD 0xF00000 0 1 0 4 1 0 kWFHX
  | .buWarmPath => fld 0xF00000 0 1 0 5 1 .ro 0 kFHX
  | .buLpddrBg => fld 0xF00000 0 1 0 6 1 .ro 0 kNone
  | .buFailReason => fld 0xF00000 0 1 0 8 8 .ro 0 kFHX
  | .buElapsed => fld 0xF00004 0 1 0 0 32 .ro 0 kFHX
  | .buQualCxp => fld 0xF00008 0 1 0 0 16 .ro 0 kWFHX
  | .buExclCxp => fld 0xF00008 0 1 0 16 16 .ro 0 kWFHX
  | .buQualRh => fld 0xF0000C 0 1 0 0 16 .ro 0 kWFHX
  | .buExclRh => fld 0xF0000C 0 1 0 16 16 .ro 0 kWFHX
  | .buBgProgress => fld 0xF00010 0 1 0 0 8 .ro 0 kNone
  | .buBgDone => fld 0xF00010 0 1 0 8 1 .ro 0 kFHX
  | .buLpddrFail => fld 0xF00014 0 1 0 0 32 .rc 0 kFHX
  | .buRepairRows => fld 0xF00018 0 1 0 0 16 .ro 0 kFHX
  | .buRepairEngines => fld 0xF00018 0 1 0 16 8 .ro 0 kFHX
  | .buRepairCores => fld 0xF00018 0 1 0 24 8 .ro 0 kFHX
  | .winCtx => fldD 0x10000000 0x100000 16 0 0 4 0 kNone
  | .winProto => fldD 0x10000000 0x100000 16 0 8 8 0 kNone
  | .winHello => fldD 0x10000000 0x100000 16 0 16 1 0 kNone
  | .winStatusAddr => fldPair 0x10000000 0x100000 16 0x40 64 .rw false false 0 kFHX
  | .winPageHold => fld 0x10000000 0x100000 16 0x48 0 14 .rw 500 kFHX
  | .winCropFlush => fld 0x10000000 0x100000 16 0x4C 0 14 .rw 1000 kFHX
  | .ringBase => fldPair ringSpace 0x20 70 0 64 .rw false false 0 kFHX
  | .ringLog2 => fld ringSpace 0x20 70 8 0 5 .rw 0 kFHX
  | .ringEnable => fld ringSpace 0x20 70 8 5 1 .rw 0 kFHX
  | .ringItr => fld ringSpace 0x20 70 8 8 8 .rw 0 kFHX
  | .ringPageLog2 => fld ringSpace 0x20 70 8 16 4 .rw 12 kFHX
  | .ringProd => fld ringSpace 0x20 70 12 0 32 .ro 0 kFHX
  | .ringCons => fld ringSpace 0x20 70 0x10 0 32 .rw 0 kFHX
  | .ringSpoils => fld ringSpace 0x20 70 0x14 0 32 .rc 0 kFHX
  | .helloDone => fld noAddr 4 17 0 0 1 .ro 0 kFHX
  | .helloVer => fld noAddr 4 17 0 0 16 .ro 0 kFHX
  | .genPf0 => fld noAddr 4 17 0 0 8 .ro 0 kWFHX
  | .rhGen => fld noAddr 4 17 0 0 8 .ro 0 kWFHX

/-- The fields of the register tables, part 1. -/
def Fld.part1 : List Fld :=
  [Fld.modPower, Fld.modService, Fld.modLevelOk, Fld.modLevelFault, Fld.modFailoverSeen, Fld.idDevice, Fld.idStepping, Fld.idVariant,
   Fld.zarsonLevel, Fld.zarsonLowest, Fld.zarsonCaps, Fld.fwVersion, Fld.fwProto, Fld.fpCores, Fld.fpEngines, Fld.fpLpddr,
   Fld.fpGalleyMib, Fld.fpReduced, Fld.fpcPresent, Fld.fpcPhysical, Fld.fpcCluster, Fld.fpcEngines, Fld.fpcSpare, Fld.fpLanesCxp,
   Fld.fpLanesRh, Fld.fpGalley, Fld.pfStatusAddr, Fld.clkOscEn, Fld.clkSource, Fld.clkRamping, Fld.clkRefOk, Fld.clkSwitched,
   Fld.oscCode, Fld.oscBySync, Fld.oscTrimmed, Fld.gateForced, Fld.freqKhz, Fld.optShadow, Fld.secLifecycle, Fld.secTarget,
   Fld.secAdvPending, Fld.secDebugDis, Fld.secDevTrained, Fld.secLock, Fld.secFilled, Fld.secRevoked, Fld.secCopy, Fld.secSvn,
   Fld.secRollback, Fld.secBootStatus, Fld.secUnsigned, Fld.secSession, Fld.secReach, Fld.secToken, Fld.secUid, Fld.mbxPostData,
   Fld.mbxPostLen, Fld.mbxPostChan, Fld.mbxPostResult, Fld.mbxUsed]

/-- The fields of the register tables, part 2. -/
def Fld.part2 : List Fld :=
  [Fld.mbxRxGen, Fld.mbxHeadLen, Fld.mbxHeadChan, Fld.mbxHeadSender, Fld.mbxHeadGen, Fld.mbxHeadStale, Fld.mbxHeadValid, Fld.mbxTakeCode,
   Fld.mbxTakeTake, Fld.mbxCplCode, Fld.mbxCplGen, Fld.mbxCplTag, Fld.mbxCplPop, Fld.mbxCplDepth, Fld.mbxDiscarded, Fld.mbxCplLost,
   Fld.mbxCplDetail, Fld.mbxHeadData, Fld.qopCode, Fld.mbxGrantFn, Fld.mbxGrantEn, Fld.quoinGrant, Fld.quoinHolder, Fld.quoinHolderGen,
   Fld.quoinHeld, Fld.quoinBroken, Fld.quoinOldHolder, Fld.quoinOldGen, Fld.cxpLaneState, Fld.cxpLaneRate, Fld.cxpLaneHsUp, Fld.cxpLaneDevice,
   Fld.cxpLaneConn, Fld.cxpCrcErr, Fld.cxpCodeErr, Fld.cxpLockLoss, Fld.cxpSrcLanes, Fld.cxpSrcMaster, Fld.cxpFmt, Fld.cxpStoreU16,
   Fld.cxpBayer, Fld.cxpWidthM1, Fld.cxpLateLines, Fld.cxpSettleLines, Fld.cxpDesync, Fld.cxpSettling, Fld.cxpCtrlBusy, Fld.linesLate,
   Fld.linesMissed, Fld.linesDamaged, Fld.linesUnsol, Fld.trigDeferred, Fld.pipeInlineCtx, Fld.pipeInlineValid, Fld.pipeWheel, Fld.pipeWheelEn,
   Fld.pipeSel, Fld.pipeOutFmt, Fld.pipeOutWidthM1, Fld.pipePbase]

/-- The fields of the register tables, part 3. -/
def Fld.part3 : List Fld :=
  [Fld.pipeSbase, Fld.pipeSlimit, Fld.pipeActive, Fld.pipePending, Fld.pipeStaging, Fld.pipeApplied, Fld.pipePartial, Fld.pipeOverrate,
   Fld.replayActive, Fld.replayLoop, Fld.replayBuffered, Fld.replayCorrupt, Fld.replayUnderrun, Fld.trnState, Fld.trnMode, Fld.trnEpoch,
   Fld.trnBatch, Fld.trnCorrupt, Fld.galBase, Fld.galLimit, Fld.galDepth, Fld.galEnabled, Fld.galStride, Fld.galBand,
   Fld.galCut, Fld.galWrite, Fld.galRelease, Fld.galOcc, Fld.galGapOpen, Fld.galPeak, Fld.galDropped, Fld.galMarkers,
   Fld.chPresent, Fld.chFirstCore, Fld.chCoreCount, Fld.chOwner, Fld.chProof, Fld.chState, Fld.chPlacement, Fld.chAltUsed,
   Fld.chPatched, Fld.chOrphans, Fld.formeId, Fld.bandCycles, Fld.bwCeilLpddr, Fld.bwCeilGalley, Fld.bwCeilRhasha, Fld.fullCount,
   Fld.exitCount, Fld.noreadCount, Fld.looseOverrun, Fld.failoverTime, Fld.ctxChase, Fld.ctxSlot, Fld.ctxEncoder, Fld.ctxBound,
   Fld.ctxMargin, Fld.ctxNrMask, Fld.ctxNrWidth, Fld.ctxGuard]

/-- The fields of the register tables, part 4. -/
def Fld.part4 : List Fld :=
  [Fld.engMap0, Fld.engMap1, Fld.engMap2, Fld.engMap3, Fld.engSpare, Fld.engDisabled, Fld.engRemapped, Fld.engResidue,
   Fld.engSignature, Fld.sramCe, Fld.sramUe, Fld.errWord, Fld.errIstore, Fld.errUncorr, Fld.errByScrub, Fld.errValid,
   Fld.zovf, Fld.ppCandOvf, Fld.ppOutOvf, Fld.ppNanScore, Fld.ppDimsRefused, Fld.ceBusy, Fld.ceCode, Fld.ceChase,
   Fld.ceRowsDesc, Fld.ceBytesDesc, Fld.numSat, Fld.numNan, Fld.numBad, Fld.nfSat, Fld.nfNan, Fld.nfBad,
   Fld.nfInf, Fld.seqLineState, Fld.seqLineWait, Fld.seqStreamHalted, Fld.seqOpenItems, Fld.seqItemsFull, Fld.trapCause, Fld.trapCore,
   Fld.trapLine, Fld.trapMultiple, Fld.trapValid, Fld.trapPc, Fld.trapW0, Fld.trapW2, Fld.trapCount, Fld.seqRefused,
   Fld.verdictLate, Fld.rhModule, Fld.rhRoute0, Fld.rhRoute1, Fld.rhClkPort, Fld.rhClkEn, Fld.rhClkStratum, Fld.rhClkLocked,
   Fld.rhClkLockedTo, Fld.rhProofWait, Fld.rhUnroutable, Fld.rhPortEn]

/-- The fields of the register tables, part 5. -/
def Fld.part5 : List Fld :=
  [Fld.rhRetrainBit, Fld.rhLaneEn, Fld.rhMaxRate, Fld.rhState, Fld.rhRate, Fld.rhLanes, Fld.rhPartner, Fld.rhRhasha1,
   Fld.rhOrderTags, Fld.rhDupId, Fld.rhNarrowed, Fld.rhPartnerCap, Fld.rhEqCode, Fld.rhEqOverride, Fld.rhCrcErr, Fld.rhCodeErr,
   Fld.rhReplay, Fld.rhDown, Fld.rhEpoch, Fld.rhPresent, Fld.rhRole, Fld.rhJoining, Fld.rhImpoDetail, Fld.rhNoExpert,
   Fld.rhLinkTraining, Fld.rhStale, Fld.rhSortRefused, Fld.timeNow, Fld.timeSel, Fld.timeAuto, Fld.timeSlewPpm, Fld.timeValid,
   Fld.timeSlewing, Fld.timeHoldover, Fld.timeSwitched, Fld.timeStepRefused, Fld.timeStep, Fld.domEnable, Fld.domPort, Fld.domProfile,
   Fld.domNumber, Fld.domUdp, Fld.domState, Fld.domOffset, Fld.domFreq, Fld.tsTxCorr, Fld.tsRxCorr, Fld.lqEnable,
   Fld.lqLatePolicy, Fld.lqDepth, Fld.lqPcsReady, Fld.lqLate, Fld.lqDropped, Fld.txtsId, Fld.txtsDepth, Fld.txtsNs,
   Fld.txtsPop, Fld.txtsOvf, Fld.encEnable, Fld.encInvert]

/-- The fields of the register tables, part 6. -/
def Fld.part6 : List Fld :=
  [Fld.encTerm, Fld.encZCheck, Fld.encFilt, Fld.encValid, Fld.encWireFault, Fld.encWireNow, Fld.encOverspeed, Fld.encDrift,
   Fld.encDirection, Fld.encPos, Fld.encIndexLatch, Fld.encRev, Fld.encTol, Fld.encPreset, Fld.quadErr, Fld.driftErr,
   Fld.wireFaults, Fld.fqDepth, Fld.fqSpoilOpen, Fld.fqSpoilDropped, Fld.fqSpoilCtx, Fld.fqSpoilSeq, Fld.fqDropped, Fld.fqLateRefused,
   Fld.fqLateFire, Fld.pcmpEnable, Fld.pcmpEncoder, Fld.pcmpContext, Fld.pcmpTarget, Fld.pcmpPitch, Fld.trigNext, Fld.trigPitch,
   Fld.emuEnable, Fld.emuMode, Fld.emuSource, Fld.emuZFollow, Fld.emuRatio, Fld.emuDivM1, Fld.emuZPeriod, Fld.emuLagging,
   Fld.emuLost, Fld.fcMode, Fld.fcContext, Fld.fcAssigned, Fld.fcStamp, Fld.fcOwCheck, Fld.fcPaired, Fld.fcFilt,
   Fld.fcDead, Fld.fcCross, Fld.fcLevel, Fld.fcUndet, Fld.fcOverload, Fld.fcOpenWire, Fld.fcOverTemp, Fld.fcTripped,
   Fld.fcInDead, Fld.fcStale, Fld.fcOverloads, Fld.fcDeadDelayed]

/-- The fields of the register tables, part 7. -/
def Fld.part7 : List Fld :=
  [Fld.fcDeadSuppressed, Fld.fcFireTripped, Fld.tripMask, Fld.tripClear, Fld.tripActive, Fld.tripLatch, Fld.tripLastClear, Fld.tripClearPending,
   Fld.barUp, Fld.barFieldSafe, Fld.barSafeSeen, Fld.barSupplyOk, Fld.barCfgSynced, Fld.barBadUp, Fld.barBadDown, Fld.barSafe,
   Fld.supAutoStart, Fld.supRetry, Fld.supWindowMs, Fld.supTrayEn, Fld.supHoldChase, Fld.supWinEngine, Fld.supWinCore, Fld.supWinChase,
   Fld.supWinCtx, Fld.supRung, Fld.supCause, Fld.supUnit, Fld.supValid, Fld.escCount, Fld.trayReq, Fld.genChase,
   Fld.genCtx, Fld.genDraining, Fld.genForced, Fld.genStaleChase, Fld.genStaleCtx, Fld.telValue, Fld.telWarn, Fld.telCrit,
   Fld.evlogHead, Fld.evlogWrap, Fld.evlogMinSev, Fld.buStep, Fld.buQuick, Fld.buWarmPath, Fld.buLpddrBg, Fld.buFailReason,
   Fld.buElapsed, Fld.buQualCxp, Fld.buExclCxp, Fld.buQualRh, Fld.buExclRh, Fld.buBgProgress, Fld.buBgDone, Fld.buLpddrFail,
   Fld.buRepairRows, Fld.buRepairEngines, Fld.buRepairCores, Fld.winCtx]

/-- The fields of the register tables, part 8. -/
def Fld.part8 : List Fld :=
  [Fld.winProto, Fld.winHello, Fld.winStatusAddr, Fld.winPageHold, Fld.winCropFlush, Fld.ringBase, Fld.ringLog2, Fld.ringEnable,
   Fld.ringItr, Fld.ringPageLog2, Fld.ringProd, Fld.ringCons, Fld.ringSpoils, Fld.helloDone, Fld.helloVer, Fld.genPf0,
   Fld.rhGen]

/-- Every field, in the order of the spec's tables. -/
def Fld.all : List Fld :=
  List.flatten [Fld.part1, Fld.part2, Fld.part3, Fld.part4, Fld.part5, Fld.part6, Fld.part7, Fld.part8]

end Sys2Proof.Machine
end

