-- ==== Sys2Proof/Machine/Mem.lean ====
section
/-! DEFINITION. Sparse tables and byte memories.  A memory lists only bytes that are not zero, in strictly
rising address order, so equal memories are equal lists; an unlisted byte reads as zero (SRAM is
zeroised by R409; for LPDDR5X and host memory zero is a DESIGN CHOICE, log entry 7). -/

namespace Sys2Proof.Machine

/-- A table with a default: the index and value pairs that were written, newest first. -/
structure Tab (α : Type) where
  entries : List (Nat × α)
  deriving DecidableEq, Repr

/-- The table in which every index has its default. -/
def Tab.empty {α : Type} : Tab α := ⟨[]⟩

/-- The value at an index, `d` where none was written. -/
def Tab.get {α : Type} (t : Tab α) (d : α) (i : Nat) : α :=
  match t.entries.find? (fun e => e.1 == i) with
  | some e => e.2
  | none => d

/-- The table with one index changed. -/
def Tab.set {α : Type} (t : Tab α) (i : Nat) (v : α) : Tab α :=
  ⟨(i, v) :: t.entries.filter (fun e => e.1 != i)⟩

/-- The table with the indices that satisfy `p` back at their default. -/
def Tab.clear {α : Type} (t : Tab α) (p : Nat → Bool) : Tab α :=
  ⟨t.entries.filter (fun e => !p e.1)⟩

/-- A byte memory in canonical form. -/
abbrev Memory := List Host.Cell

/-- The byte at an address. -/
def memRead : Memory → Nat → Byte
  | [], _ => 0
  | (b, v) :: m, a => if b = a then v else if a < b then 0 else memRead m a

/-- Write one byte, keeping the canonical form. -/
def memWrite : Memory → Nat → Byte → Memory
  | [], a, v => if v = 0 then [] else [(a, v)]
  | (b, u) :: m, a, v =>
    if a < b then (if v = 0 then (b, u) :: m else (a, v) :: (b, u) :: m)
    else if a = b then (if v = 0 then m else (a, v) :: m)
    else (b, u) :: memWrite m a v

/-- The canonical form: addresses strictly rising, no zero byte listed. -/
def Memory.wf : Memory → Bool
  | [] => true
  | [(_, v)] => v != 0
  | (a, v) :: (b, u) :: m => (v != 0) && decide (a < b) && Memory.wf ((b, u) :: m)

/-- The `n` bytes from an address up. -/
def memBytes (m : Memory) (a n : Nat) : List Byte :=
  (List.range n).map (fun i => memRead m (a + i))

/-- Store bytes at ascending addresses. -/
def memStore : Memory → Nat → List Byte → Memory
  | m, _, [] => m
  | m, a, b :: bs => memStore (memWrite m a b) (a + 1) bs

/-- Clear every byte of `[lo, hi)`. -/
def memZero (m : Memory) (lo hi : Nat) : Memory :=
  m.filter (fun c => !(decide (lo ≤ c.1) && decide (c.1 < hi)))

/-- The little-endian value of bytes (R32). -/
def leNat : List Byte → Nat
  | [] => 0
  | b :: bs => b.toNat + 256 * leNat bs

/-- The low `n` bytes of a value, least significant first (R32). -/
def natLe : Nat → Nat → List Byte
  | 0, _ => []
  | n + 1, v => BitVec.ofNat 8 v :: natLe n (v / 256)

/-- The little-endian value of `n` bytes of memory. -/
def memNat (m : Memory) (a n : Nat) : Nat := leNat (memBytes m a n)

/-- Position in one flat address space: `core`'s SRAM of 4 MiB (R76). -/
def sramAddr (core a : Nat) : Nat := core * 0x400000 + a % 0x400000

/-- A core's 128 KiB instruction store (R118). -/
def istoreAddr (core a : Nat) : Nat := core * 0x20000 + a % 0x20000

end Sys2Proof.Machine
end

