-- ==== Sys2Proof/Machine/State.lean ====
section
/-! DEFINITION. The state of the module: its register fields, its memories and every structure the spec
gives a block that no register holds, together with the queue of waiting commands. -/

namespace Sys2Proof.Machine

/-- Why the model stops with a fault.  No command of the table does: each completes (safe). -/
inductive Fault where
  /-- Raised by nobody: every row of the table has an effect the spec gives (safe). -/
  | undefinedByManual
  deriving DecidableEq, Repr

/-- Why a command is refused. -/
inductive Refusal where
  /-- The command has no meaning yet; raised by a dispatch arm only (safe). -/
  | notModelled (mnemonic : String)
  deriving DecidableEq, Repr

/-- The power states of R24. -/
inductive Power where
  | off | aux | full
  deriving DecidableEq, Repr

/-! ### Sequencers (R122 to R124, R136 to R141) -/

/-- An active loop: body `[start, stop)` and the passes left, the current one included (R136). -/
structure LoopFrame where
  start : Nat
  stop  : Nat
  left  : Nat
  deriving DecidableEq, Repr

/-- What a sequencer is doing (R165, R168). -/
inductive SeqRun where
  | idle | running | halted | trapped
  deriving DecidableEq, Repr

/-- What a running sequencer waits for; `expiry` is the clock at which its timeout expires. -/
inductive SeqWait where
  | none
  | waitl (slot line sd pdst : Nat) (expiry : Option Nat)
  | waite (slot target sd pdst : Nat) (expiry : Option Nat)
  | sortRecv (handle dd sd pdst : Nat) (expiry : Option Nat)
  | inbound (dd sd pdst : Nat) (expiry : Option Nat)
  | barrier (id mask : Nat) (withLine : Bool) (since : Nat)
  | units (mask : Nat)
  deriving DecidableEq, Repr

/-- One sequencer (R122, R123): scalars, predicates p1 to p15 (p0 reads 1), descriptors, index, loops,
its program region and the regions flagged loose. -/
structure Seq where
  sregs    : Tab Word
  preds    : BitVec 16
  dregs    : Tab DWord
  pc       : Nat
  loops    : List LoopFrame
  run      : SeqRun
  wait     : SeqWait
  lo       : Nat
  hi       : Nat
  loose    : List (Nat × Nat)
  exitLo   : Nat
  exitHi   : Nat
  debugged : Bool
  deriving DecidableEq, Repr

/-! ### Formes and chases (R173 to R207) -/

/-- A section table entry (R174). -/
structure Section where
  ty        : Nat
  core      : Nat
  placement : Nat
  flags     : Nat
  offset    : Nat
  size      : Nat
  dest      : Nat
  deriving DecidableEq, Repr

/-- A placement table entry (R176). -/
structure Placement where
  kind       : Nat
  answers    : Nat
  lead       : Nat
  bandCycles : Nat
  maxRate    : Nat
  peak       : Nat
  map        : List Nat
  deriving DecidableEq, Repr

/-- An expert of the imposition table (R294). -/
structure Expert where
  homeMod   : Nat
  homeChase : Nat
  common    : Bool
  deriving DecidableEq, Repr

/-- The imposition table of a forme (R294). -/
structure Impo where
  participants : BitVec 16
  proof        : Bool
  outLen       : Nat
  experts      : List Expert
  deriving DecidableEq, Repr

/-- The resident forme: its header, tables and where its staged image lies (R173 to R186). -/
structure Forme where
  id         : Nat
  build      : Nat
  level      : Nat
  caps       : Nat
  bandLines  : Nat
  reprime    : Nat
  exitBase   : Nat
  addr       : Nat
  size       : Nat
  digest     : BitVec 384
  sections   : List Section
  placements : List Placement
  impo       : Option Impo
  deriving DecidableEq, Repr

/-- An open item of a deadline monitor (R158, R195); `handedAt` is the cycle it was handed over in. -/
structure Item where
  ctx      : Nat
  slot     : Nat
  line     : Nat
  firePos  : Nat
  handed   : Bool
  orphan   : Bool
  fallback : Bool
  refused  : Bool
  exitLost : Bool
  epoch    : Nat
  handedAt : Nat
  deriving DecidableEq, Repr

/-- A sort sent and what became of it (R291, R292). -/
inductive SortFate where
  | waiting | arrived (output : List Byte) | missing (code : Nat) | empty
  deriving DecidableEq, Repr

/-- A sort of an item: its header, the port its route takes (none: this module) and its fate. -/
structure SortOut where
  hdr  : SortHdr
  port : Option Nat
  fate : SortFate
  deriving DecidableEq, Repr

/-- An inbound sort slot of a home chase (R293). -/
structure InSort where
  hdr     : SortHdr
  payload : List Byte
  taken   : Bool
  deriving DecidableEq, Repr

/-- A patch copied into the shadow weights, waiting for the item boundary (R188). -/
structure Patch where
  ranges  : List (Nat × Nat × List Byte)
  req     : Req
  trained : Bool
  deriving DecidableEq, Repr

/-- A running training feeder (R265 to R271). -/
structure Trainer where
  p        : TrainParams
  epoch    : Nat
  batch    : Nat
  buf      : Nat
  pos      : Nat
  delivered : List Nat
  stopping : Bool
  deriving DecidableEq, Repr

/-- DIMS state of an open item handle, in the item-state slots of a cluster's post-processing unit (R103, R105). -/
structure Dims where
  cluster   : Nat
  handle    : Nat
  hT        : Nat
  p         : Nat
  hs        : Nat
  mmLine    : Word
  mmCol     : Word
  mmHeight  : Word
  n         : Nat
  firstLine : Nat
  lastLine  : Nat
  firstCol  : Nat
  lastCol   : Nat
  hMax      : Nat
  nextLine  : Nat
  hist      : Tab Nat
  deriving DecidableEq, Repr

/-- A leader's open proposal (R295). -/
structure Proposal where
  epoch     : Nat
  mask      : BitVec 16
  accepted  : BitVec 16
  deriving DecidableEq, Repr

/-- A load under way (R185): the request, the image's place and size, the cycle it was accepted in, and what it took the
place of: the forme, its standby cores and the registers that told of it (R12). -/
structure LoadReq where
  req   : Req
  addr  : Nat
  size  : Nat
  clk   : Nat
  prior : Option (Forme × List Nat × List Nat)
  deriving DecidableEq, Repr

/-- Work handed to a unit (R130): the floor-plan core (or cluster) it belongs to, the unit, the byte ranges (memory,
first, past the last) it reads and writes until it completes, whether it is the furniture of a predicated-off
instruction (R121), and for a copy its rows in the order it runs them: memory, address and the bytes that stood there
before (R94, R96). -/
structure Busy where
  place : Nat
  unit  : UnitId
  reads : List (Nat × Nat × Nat)
  writes : List (Nat × Nat × Nat)
  furniture : Bool
  rows  : List (Nat × Nat × List Byte)
  deriving DecidableEq, Repr

/-- A chase, beyond its registers (R179 to R202).  `seen` is the first line each line ring (core, base) has taken since
the reset or spoil marker of R87; `dimsSlots` the item-state slots granted in each cluster (R97, R105); `doomed` a
failover that failed (R182, R202); `trapPeers` the cycle of the last trap, whether TRAP_CAUSE took it, and the sequencers
that could still issue in it (R169). -/
structure Chase where
  cores      : List Nat
  regions    : Regions
  forme      : Option Forme
  load       : Option LoadReq
  standby    : List Nat
  line       : Seq
  streams    : Tab Seq
  items      : Tab (Option Item)
  monDecided : Tab Bool
  busy       : List Busy
  band       : Option (Nat × Nat)
  patches    : List Patch
  dims       : List Dims
  dimsSlots  : Tab Nat
  sorts      : List SortOut
  inbound    : Tab (Option InSort)
  inOrder    : List Nat
  trainer    : Option Trainer
  buckets    : Tab Nat
  rates      : Tab Nat
  bwWait     : Tab Nat
  bwCred     : Tab Nat
  joined     : BitVec 16
  lost       : BitVec 16
  pendEpoch  : Option (Nat × BitVec 16)
  prevEpochs : Tab (BitVec 16)
  proposal   : Option Proposal
  proposeDue : Bool
  proposeHold : Bool
  failedOver : List Nat
  failPlace  : Option Nat
  doomed     : Bool
  draining   : Bool
  reloading  : Bool
  restart    : Bool
  lastSend   : Tab Nat
  seen       : List ((Nat × Nat) × Nat)
  trapPeers  : Option (Nat × Bool × List (Option Nat))
  deriving DecidableEq, Repr

/-! ### Contexts (R15, R207 to R264, R309, R311, R354 to R361) -/

/-- A slug of a galley, or a spoil marker (R225, R226). -/
structure Slug where
  line       : Nat
  format     : Nat
  components : Nat
  flags      : BitVec 32
  widthM1    : Nat
  crcPackets : Nat
  trigCount  : Nat
  commitTime : Nat
  lost       : Nat
  payload    : List Byte
  deriving DecidableEq, Repr

/-- A gap of lost lines: first line, count, reason bits and the count of its first trigger (R231). -/
structure Gap where
  first   : Nat
  lost    : Nat
  reasons : BitVec 32
  count   : Nat
  deriving DecidableEq, Repr

/-- A trigger that fell due: its line, the count of its hit, whether it was deferred, how many hits have fallen
since, and the reason bits of R227 once its line is known to be lost (R213, R217 to R219). -/
structure Trig where
  line     : Nat
  count    : Nat
  deferred : Bool
  age      : Nat
  lost     : Nat
  deriving DecidableEq, Repr

/-- A line that is arriving, or a lost one whose turn comes before a later line that is arriving (R219, R223). -/
structure LineRx where
  trig    : Trig
  damaged : Bool
  crc     : Nat
  deriving DecidableEq, Repr

/-- A camera control request outstanding or queued (R221, R222). -/
structure CtrlReq where
  req    : Req
  write  : Bool
  settle : Bool
  addr   : Word
  data   : List Byte
  deriving DecidableEq, Repr

/-- A settling range under way or fixed: first line (none until the next trigger) and last (R222). -/
structure Settle where
  first : Option Nat
  last  : Option Nat
  ended : Bool
  deriving DecidableEq, Repr

/-- A TRIG one-shot compare (R311). -/
structure OneShot where
  target : Nat
  conn   : Nat
  tag    : Nat
  deriving DecidableEq, Repr

/-- A pending parameter apply (R13, R163). -/
structure Apply where
  bank : Nat
  line : Nat
  req  : Option Req
  deriving DecidableEq, Repr

/-- A PIPE_STAGE copy under way (R251). -/
structure Stage where
  target : Nat
  bank   : Nat
  addr   : Nat
  size   : Nat
  req    : Req
  deriving DecidableEq, Repr

/-- A replay entry of the 16-slug buffer (R262, R263): a slug, or the hits that produce missed lines. -/
inductive ReplayEntry where
  | slug (s : Slug)
  | missed (k : Nat) (corrupt : Bool)
  deriving DecidableEq, Repr

/-- A replay of recorded lines (R262 to R264); `charged` are the bytes of the next slug already paid for (R194). -/
structure Replay where
  addr     : Nat
  size     : Nat
  start    : Nat
  looped   : Bool
  begun    : Bool
  stopping : Bool
  ended    : Bool
  entry    : Nat
  within   : Nat
  charged  : Nat
  buf      : List ReplayEntry
  deriving DecidableEq, Repr

/-- The open statistics block of a context (R254). -/
structure Stats where
  block   : Nat
  first   : Nat
  lines   : Nat
  hist    : Tab Nat
  wb      : Tab Nat
  wbCount : Nat
  focus   : Nat
  cols    : Tab Nat
  changed : Bool
  gap     : Bool
  deriving DecidableEq, Repr

/-- A crop page buffer (R358 to R360). -/
structure Page where
  seq      : Nat
  records  : Nat
  spoil    : Bool
  first    : Nat
  since    : Nat
  bytes    : List Byte
  deriving DecidableEq, Repr

/-- The crop ring's pages of a context: the page being filled and the one held for the host. -/
structure Crop where
  filling  : Option Page
  held     : Option Page
  pageSeq  : Nat
  recSeq   : Nat
  abandoned : Nat
  lost     : Nat
  firstLost : Option Nat
  deriving DecidableEq, Repr

/-- A context, beyond its registers.  `desync` marks its slugs (R220); `stageBuf` are the pixels last staged for a pipe
(R240); `lastSwitch` and `lastLost` are the last line a bank of target 0 or 1 switched at and the last line lost (R255). -/
structure Context where
  everBound  : Bool
  n0         : Nat
  c0         : Option Nat
  nextLine   : Nat
  trigTarget : Nat
  trigPitch  : Nat
  armed      : Bool
  outstanding : List Trig
  deferred   : Option Trig
  pktBusy    : Bool
  rx         : List LineRx
  quiet      : Nat
  desync     : Bool
  gap        : Option Gap
  closedGaps : List Gap
  slots      : List Slug
  writeLine  : Nat
  oldest     : Nat
  bandFrom   : Nat
  firstBand  : Bool
  afterGap   : Bool
  resetting  : Bool
  settles    : List Settle
  ctrl       : Option CtrlReq
  ctrlQueue  : List CtrlReq
  verdictSeq : Nat
  oneshots   : Tab (Option OneShot)
  applies    : Tab (Option Apply)
  stages     : List Stage
  paramBank  : Nat
  paramBlocks : Tab (List Byte)
  ring       : List (Nat × List (List Nat))
  prevRaw    : Option (Nat × List Nat)
  stageBuf   : List Nat
  stats      : Option Stats
  statBase   : Nat
  lastSwitch : Option Nat
  lastLost   : Option Nat
  overRate   : Bool
  replay     : Option Replay
  crop       : Crop
  deriving DecidableEq, Repr

/-! ### Links (R211 to R213, R276 to R298) -/

/-- A Rhasha port beyond its registers (R278 to R288).  `hbSeen`: a heartbeat has come on this link (R289); `waiting` and
`through`: the module's own packets and those it forwards that wait for the replay buffer, `lastThrough` which of them
went last (R288); `laneEn`, `maxRate`: lane_en and max_rate as the last DETECT took them (R301); `replayAt`: the cycle of
the last replay (R285). -/
structure Port where
  capRun     : List (BitVec 64)
  capLane    : Option Nat
  capAcked   : Bool
  sweep      : Tab (List (Nat × Bool))
  ready      : BitVec 4
  target     : Nat
  maxCode    : Nat
  stepFrom   : Nat
  failedCode : Option Nat
  txSeq      : Nat
  rxExpected : Nat
  nakSent    : Bool
  unacked    : List Packet
  waiting    : List Packet
  resends    : Nat
  accepted   : Nat
  ackDue     : Bool
  lastGen    : Option (BitVec 8)
  hbState    : BitVec 8
  hbSeen     : Bool
  through    : List Packet
  lastThrough : Bool
  laneEn     : Nat
  maxRate    : Nat
  replayAt   : Option Nat
  suspended  : Bool
  syncCount  : BitVec 16
  rxSync     : Option (BitVec 16)
  syncRun    : Nat
  clkLock    : Bool
  deriving DecidableEq, Repr

/-! ### Motion and field (R303 to R335) -/

/-- A fire command in a queue (R312), with the tick it landed before and the tick that reached it. -/
structure FireCmd where
  position : Nat
  channels : BitVec 16
  width    : Nat
  context  : Nat
  source   : Nat
  seq      : Nat
  landed   : Option Nat
  reached  : Option Nat
  deriving DecidableEq, Repr

/-- A pulse of an output in progress or delayed (R316, R332). -/
structure Pulse where
  enc     : Nat
  off     : Nat
  started : Bool
  tick    : Nat
  deriving DecidableEq, Repr

/-- A field channel beyond its registers: the level the die commands, its pulse, the tick of its last
switch-off, the level the field side drives, whether it must first see level 0 (R323, R332, R334), whether an edge's
record is made before the up frame that reports it (R320). -/
structure ChanSt where
  commanded : Bool
  pulse     : Option Pulse
  offTick   : Option Nat
  driven    : Bool
  blocked   : Bool
  reported  : Bool
  deriving DecidableEq, Repr

/-- An encoder beyond its registers (R304 to R307, R320, R335): the last latch and whether it may be checked against, the
last count's direction, the positions of the last 128 ns with the cycle each ended in, the pairs in fault. -/
structure EncSt where
  lastIndex : Option (Nat × Bool)
  lastDown  : Option Bool
  past      : List (Nat × Nat)
  faultA    : Bool
  faultB    : Bool
  faultZ    : Bool
  deriving DecidableEq, Repr

/-- An encoder emulation output (R335): fraction, quadrature phase, level of A, B and Z, counts owed. -/
structure Emu where
  frac    : Nat
  phase   : Nat
  lag     : Int
  aLevel  : Bool
  bLevel  : Bool
  zLevel  : Bool
  zCount  : Nat
  divN    : Nat
  deriving DecidableEq, Repr

/-- A level change on its way to the field side (R319, R321): the frame it is placed in, its instant in the window in
units of 4 ns, the channel and its level. -/
structure DownChange where
  frame   : Int
  offset  : Nat
  chan    : Nat
  level   : Bool
  deriving DecidableEq, Repr

/-- The barrier link and the field side's supply (R318 to R324): what the field side has seen of the frames, what the die
has seen, the configuration as the die sends it and as the field side applied it, the down frames the die composes. -/
structure Barrier where
  supply     : Bool
  fieldSeq   : Option (BitVec 4)
  fieldBad   : Nat
  fieldGood  : Nat
  fieldSafe  : Bool
  upSeq      : Option (BitVec 3)
  upBad      : Nat
  upGood     : Nat
  cfgGen     : BitVec 8
  cfgEcho    : BitVec 8
  cfgWords   : List (BitVec 12)
  cfgRecs    : Tab (List (BitVec 12))
  cfgGens    : Tab (BitVec 8)
  cfgApplied : Tab Nat
  run        : Nat
  downNo     : BitVec 5
  auxRec     : List (BitVec 12)
  changes    : List DownChange
  sent       : BitVec 16
  statWords  : List (BitVec 4)
  clearReq   : BitVec 2
  deriving DecidableEq, Repr

/-! ### Time and host interface (R342 to R363) -/

/-- A launch-queue entry (R348): its slot, time-stamp request, launch time and frame. -/
structure Launch where
  slot   : Nat
  tsReq  : Bool
  tsId   : Nat
  time   : Nat
  frame  : List Byte
  deriving DecidableEq, Repr

/-- An Ethernet port beyond its registers (R348 to R350): its launch queue, whether a frame is going out, and its
time-stamp queue. -/
structure EPortSt where
  queue   : List Launch
  sending : Bool
  txts    : List (Nat × Nat)
  deriving DecidableEq, Repr

/-- A time domain's servo (R345): Sync intervals in a row within 100 ns, whether a Sync has come since the domain was
last lost, and domain time minus device time in units of 0.5e-9 ns (log entry 32). -/
structure Servo where
  good     : Nat
  synced   : Bool
  offset   : Int
  deriving DecidableEq, Repr

/-- A ring beyond its registers (R361, R362); with the event ring, when its function's status block was last written
(R355). -/
structure RingSt where
  staged    : List (List Byte)
  lost      : Nat
  firstLost : Nat
  index     : Nat
  fired     : Option Nat
  due       : Bool
  statusAt  : Option Nat
  deriving DecidableEq, Repr

/-- A mailbox message (R372). -/
structure Msg where
  words   : List Word
  length  : Nat
  channel : Bool
  sender  : BitVec 6
  gen     : BitVec 8
  stale   : Bool
  ring    : Option Word
  deriving DecidableEq, Repr

/-- A completion (R369, R374). -/
structure Cpl where
  code    : BitVec 8
  gen     : BitVec 8
  tag     : BitVec 16
  details : List Word
  deriving DecidableEq, Repr

/-- A mailbox beyond its registers: waiting messages and the completion queue, oldest first. -/
structure Mailbox where
  msgs : List Msg
  cpls : List Cpl
  deriving DecidableEq, Repr

/-- An event-log entry (R387). -/
structure LogEntry where
  time     : Nat
  seq      : Nat
  code     : Nat
  source   : Nat
  severity : Nat
  details  : List Nat
  deriving DecidableEq, Repr

/-- What the module drives out of its connectors, for the outside to see. -/
inductive Tx where
  | trigger (ctx : Nat) (line : Nat)
  | trigPacket (ctx conn tag : Nat)
  | control (ctx : Nat) (write : Bool) (addr : Word) (data : List Byte)
  | bootstrap (lane : Nat)
  | connConfig (lane connections rate : Nat)
  | field (ch : Nat) (level : Bool) (at4ns : Option Nat)
  | down (frame : Nat)
  | emu (o : Nat) (up : Bool)
  | hb (port : Nat) (gen st : Nat)
  | skp (port : Nat)
  | ts (port lanes ready rate : Nat)
  | idle (port lanes : Nat)
  | sync (port : Nat) (count : Nat)
  | cap (port : Nat) (word : BitVec 64)
  | rate (port : Nat) (code lanes : Nat)
  | ack (port : Nat) (seq : Nat)
  | nak (port : Nat) (seq : Nat)
  | packet (port : Nat) (pkt : Packet)
  | frame (port : Nat) (data : List Byte) (late : Bool)
  | pdelayResp (port dom : Nat)
  | msix (fn vector : Nat)
  | alert (level : Bool)
  | trayReq
  deriving DecidableEq, Repr

/-! ### Management (R385 to R437) -/

/-- The OTP and key store: fused identity, option bytes, keys, wrapping generation (R1, R2, R392, R407), and the repair
fuses of vendor test: bad engines (cluster, physical core, engine) and bad cores (R107, R112, R425). -/
structure Fuses where
  variant  : Nat
  stepping : Nat
  lifecycle : Nat
  optBits  : Tab Bool
  svn      : Nat
  keys     : Tab (List Byte)
  filled   : Nat
  revoked  : Nat
  trained  : Bool
  wrapGen  : Nat
  badEngines : List (Nat × Nat × Nat)
  badCores : List (Nat × Nat)
  rows     : List (RepairMem × Nat)
  deriving DecidableEq, Repr

/-- A rung taken: the unit it was taken for, the rung and when (R415). -/
structure Rung where
  unit : Nat
  rung : Nat
  clk  : Nat
  deriving DecidableEq, Repr

/-- The resets that hold part of the module (R386, R409, R418). -/
inductive Hold where
  | none | pin | warm | fabric | thermal (sensor : Nat)
  deriving DecidableEq, Repr

/-- The supervisor, reset and bring-up state (R411 to R437).  `resetReqs` are the RESET commands that complete
when the reset of a unit (chase 0 to 15, context 16 to 31, the module 32) ends (R411, R412).  `levelSeen` is 0 before
the first level window since READY or REDUCED was entered, 1 while every one held, 2 after one that did not (R27);
`pinMap` is the physical core and the engines of each logical core's slots at the first repair after a PIN reset (R112);
`laneTop` the highest rate that discovery found a CXP lane and its device to support (R211). -/
structure Mgmt where
  hold       : Hold
  slotPins   : BitVec 4
  rungs      : List Rung
  arm        : Option (Nat × Nat)
  alerts     : BitVec 4
  testsDone  : Bool
  fenced     : List Nat
  fencedEng  : List (Nat × Nat)
  pinMap     : Tab (Option (Nat × List Nat))
  findings   : Option StepFindings
  repairs    : List (RepairMem × Nat)
  laneResets : Tab Nat
  qualRate   : Tab (Option Nat)
  laneTop    : Tab (Option Nat)
  coolSince  : Option Nat
  levelSeen  : Nat
  nonce      : Option Nat
  tray       : Bool
  bootFailed : Bool
  resetReqs  : List (Nat × Req)
  deriving DecidableEq, Repr

/-- The clock tree's ramp (R403): steps of 2⁻²⁰ still to go, and the feedback divider's setting in such steps. -/
structure ClockSt where
  steps   : Int
  divider : Int
  deriving DecidableEq, Repr

/-- The whole module.  `lineRd` is the running disparity of each Rhasha lane: bit l of port p is 1 while it is positive
(R276). -/
structure State where
  pending   : List Instr
  power     : Power
  clk       : Nat
  timeFrac  : Nat
  regs      : List ((Fld × Nat) × Nat)
  pairLatch : List ((Fld × Nat) × Nat)
  pairLo    : List ((Fld × Nat) × Nat)
  rd        : Word
  sram      : Memory
  istore    : Memory
  galley    : Memory
  lpddr     : Memory
  host      : Memory
  chases    : Tab Chase
  ctxs      : Tab Context
  ports     : Tab Port
  lineRd    : Tab (BitVec 4)
  fqs       : Tab (List FireCmd)
  chans     : Tab ChanSt
  encs      : Tab EncSt
  emus      : Tab Emu
  barrier   : Barrier
  tick      : Nat
  eports    : Tab EPortSt
  servos    : Tab Servo
  rings     : Tab RingSt
  mboxes    : Tab Mailbox
  log       : List LogEntry
  logSeq    : Nat
  fuses     : Fuses
  mgmt      : Mgmt
  clock     : ClockSt
  smb       : List Byte
  smbAck    : Bool
  tx        : List Tx
  free      : Nat
  deriving DecidableEq, Repr

/-! ### The state right after a POWER reset (R24: the auxiliary rail has come up, the module is in Aux) -/

/-- A sequencer with every register 0 (R124). -/
def Seq.reset : Seq :=
  ⟨.empty, 0, .empty, 0, [], .idle, .none, 0, 0, [], 0, 0, false⟩

/-- No region granted. -/
def Regions.none : Regions := ⟨0, 0, 0, 0, 0, 0⟩

/-- An absent chase. -/
def Chase.reset : Chase :=
  { cores := [], regions := Regions.none, forme := none, load := none, standby := [],
    line := Seq.reset, streams := .empty, items := .empty, monDecided := .empty, busy := [],
    band := none, patches := [], dims := [], dimsSlots := .empty, sorts := [], inbound := .empty,
    inOrder := [], trainer := none, buckets := .empty, rates := .empty, bwWait := .empty, bwCred := .empty,
    joined := 0, lost := 0, pendEpoch := none, prevEpochs := .empty, proposal := none,
    proposeDue := false, proposeHold := false, failedOver := [], failPlace := none, doomed := false,
    draining := false, reloading := false, restart := false,
    lastSend := .empty, seen := [], trapPeers := none }

/-- Empty crop buffers. -/
def Crop.reset : Crop := ⟨none, none, 0, 0, 0, 0, none⟩

/-- An unbound context whose configuration is lost. -/
def Context.reset : Context :=
  { everBound := false, n0 := 0, c0 := none, nextLine := 0, trigTarget := 0, trigPitch := 0,
    armed := false, outstanding := [], deferred := none, pktBusy := false, rx := [], quiet := 0, desync := false,
    gap := none, closedGaps := [], slots := [], writeLine := 0, oldest := 0, bandFrom := 0, firstBand := true,
    afterGap := false, resetting := false, settles := [], ctrl := none, ctrlQueue := [],
    verdictSeq := 0, oneshots := .empty, applies := .empty, stages := [],
    paramBank := 0, paramBlocks := .empty, ring := [], prevRaw := none, stageBuf := [], stats := none, statBase := 0,
    lastSwitch := none, lastLost := none, overRate := false, replay := none, crop := Crop.reset }

/-- A port before any training. -/
def Port.reset : Port :=
  { capRun := [], capLane := none, capAcked := false, sweep := .empty, ready := 0,
    target := 0, maxCode := 0, stepFrom := 0, failedCode := none, txSeq := 0, rxExpected := 0,
    nakSent := false, unacked := [], waiting := [], resends := 0, accepted := 0, ackDue := false, lastGen := none,
    hbState := 0, hbSeen := false, through := [], lastThrough := false, laneEn := 15, maxRate := 5, replayAt := none,
    suspended := false, syncCount := 0, rxSync := none, syncRun := 0,
    clkLock := false }

/-- A channel with no pulse. -/
def ChanSt.reset : ChanSt := ⟨false, none, none, false, false, false⟩

/-- An encoder with no index latched. -/
def EncSt.reset : EncSt := ⟨none, none, [], false, false, false⟩

/-- An emulation output with its levels low. -/
def Emu.reset : Emu := ⟨0, 0, 0, false, false, false, 0, 0⟩

/-- The barrier link with the field side in its safe state (R341). -/
def Barrier.reset : Barrier :=
  { supply := false, fieldSeq := none, fieldBad := 0, fieldGood := 0, fieldSafe := true,
    upSeq := none, upBad := 0, upGood := 0, cfgGen := 0, cfgEcho := 0,
    cfgWords := [], cfgRecs := .empty, cfgGens := .empty, cfgApplied := .empty, run := 0, downNo := 0, auxRec := [],
    changes := [], sent := 0, statWords := [], clearReq := 0 }

/-- An Ethernet port with empty queues. -/
def EPortSt.reset : EPortSt := ⟨[], false, []⟩

/-- A servo that has seen no Sync. -/
def Servo.reset : Servo := ⟨0, false, 0⟩

/-- A ring with nothing staged. -/
def RingSt.reset : RingSt := ⟨[], 0, 0, 0, none, false, none⟩

/-- An empty mailbox. -/
def Mailbox.reset : Mailbox := ⟨[], []⟩

/-- The fuses of a GX9-160-C as shipped (R1): PROVISIONED, stepping 1, no option bit blown (log entry 2). -/
def Fuses.reset : Fuses :=
  { variant := 0, stepping := 1, lifecycle := 2, optBits := .empty, svn := 0, keys := .empty,
    filled := 1, revoked := 0, trained := false, wrapGen := 0, badEngines := [], badCores := [], rows := [] }

/-- The management state after POWER. -/
def Mgmt.reset : Mgmt :=
  { hold := .none, slotPins := 0, rungs := [], arm := none, alerts := 0, testsDone := false,
    fenced := [], fencedEng := [], pinMap := .empty, findings := none, repairs := [],
    laneResets := .empty, qualRate := .empty, laneTop := .empty,
    coolSince := none, levelSeen := 0, nonce := none, tray := false,
    bootFailed := false, resetReqs := [] }

/-- The clock tree before a source is chosen. -/
def ClockSt.reset : ClockSt := ⟨0, 0⟩

/-- The module right after a POWER reset: Aux, every register at its Reset value, memories zero. -/
def State.reset : State :=
  { pending := [], power := .aux, clk := 0, timeFrac := 0, regs := [], pairLatch := [],
    pairLo := [], rd := 0, sram := [], istore := [], galley := [], lpddr := [], host := [],
    chases := .empty, ctxs := .empty, ports := .empty, lineRd := .empty, fqs := .empty, chans := .empty,
    encs := .empty, emus := .empty, barrier := Barrier.reset, tick := 0, eports := .empty,
    servos := .empty, rings := .empty, mboxes := .empty, log := [], logSeq := 0,
    fuses := Fuses.reset, mgmt := Mgmt.reset, clock := ClockSt.reset, smb := [], smbAck := false,
    tx := [], free := 0 }

end Sys2Proof.Machine
end

