-- ==== Sys2Proof/Machine/Regs.lean ====
section
/-! DEFINITION. Reading and writing the register fields by name, the accessors of the sparse tables of
`State`, and the values of the fields that are views of other state (R5 to R9, R62). -/

namespace Sys2Proof.Machine

/-- 1 for true, 0 for false. -/
def b2n (b : Bool) : Nat := if b then 1 else 0

/-- The `n`-bit two's complement reading of a value. -/
def sext (n v : Nat) : Int :=
  let u := v % 2 ^ n
  if u < 2 ^ (n - 1) then (u : Int) else (u : Int) - (2 ^ n : Nat)

/-- The `n`-bit two's complement image of an integer. -/
def wrapTo (n : Nat) (x : Int) : Nat := (x % (2 ^ n : Nat)).toNat

/-- Bits `[lo + n - 1 : lo]` of a value. -/
def bitsAt (v lo n : Nat) : Nat := v / 2 ^ lo % 2 ^ n

/-- Bit `i` of a value. -/
def bitAt (v i : Nat) : Bool := v / 2 ^ i % 2 = 1

/-! ### Tables -/

/-- Chase `n`. -/
def State.chase (s : State) (n : Nat) : Chase := s.chases.get Chase.reset n

/-- Put chase `n` back. -/
def State.setChase (s : State) (n : Nat) (c : Chase) : State := { s with chases := s.chases.set n c }

/-- Context `k`. -/
def State.context (s : State) (k : Nat) : Context := s.ctxs.get Context.reset k

/-- Put context `k` back. -/
def State.setCtx (s : State) (k : Nat) (c : Context) : State := { s with ctxs := s.ctxs.set k c }

/-- Rhasha port `p`. -/
def State.port (s : State) (p : Nat) : Port := s.ports.get Port.reset p

/-- Put port `p` back. -/
def State.setPort (s : State) (p : Nat) (x : Port) : State := { s with ports := s.ports.set p x }

/-- The fire queue of encoder `e`, nearest position first. -/
def State.fq (s : State) (e : Nat) : List FireCmd := s.fqs.get [] e

/-- Put the fire queue of encoder `e` back. -/
def State.setFq (s : State) (e : Nat) (q : List FireCmd) : State := { s with fqs := s.fqs.set e q }

/-- Field channel `c`. -/
def State.chan (s : State) (c : Nat) : ChanSt := s.chans.get ChanSt.reset c

/-- Put channel `c` back. -/
def State.setChan (s : State) (c : Nat) (x : ChanSt) : State := { s with chans := s.chans.set c x }

/-- Encoder `e`. -/
def State.enc (s : State) (e : Nat) : EncSt := s.encs.get EncSt.reset e

/-- Put encoder `e` back. -/
def State.setEnc (s : State) (e : Nat) (x : EncSt) : State := { s with encs := s.encs.set e x }

/-- Emulation output `o`. -/
def State.emu (s : State) (o : Nat) : Emu := s.emus.get Emu.reset o

/-- Put emulation output `o` back. -/
def State.setEmu (s : State) (o : Nat) (x : Emu) : State := { s with emus := s.emus.set o x }

/-- Ethernet port `p`. -/
def State.eport (s : State) (p : Nat) : EPortSt := s.eports.get EPortSt.reset p

/-- Put Ethernet port `p` back. -/
def State.setEport (s : State) (p : Nat) (x : EPortSt) : State := { s with eports := s.eports.set p x }

/-- The servo of domain `d`. -/
def State.servo (s : State) (d : Nat) : Servo := s.servos.get Servo.reset d

/-- Put the servo of domain `d` back. -/
def State.setServo (s : State) (d : Nat) (x : Servo) : State := { s with servos := s.servos.set d x }

/-- Ring `r`. -/
def State.ring (s : State) (r : Nat) : RingSt := s.rings.get RingSt.reset r

/-- Put ring `r` back. -/
def State.setRing (s : State) (r : Nat) (x : RingSt) : State := { s with rings := s.rings.set r x }

/-- Mailbox `m`. -/
def State.mbox (s : State) (m : Nat) : Mailbox := s.mboxes.get Mailbox.reset m

/-- Put mailbox `m` back. -/
def State.setMbox (s : State) (m : Nat) (x : Mailbox) : State := { s with mboxes := s.mboxes.set m x }

/-! ### Register fields -/

/-- The value a field holds: what was last put there, its Reset value where nothing was. -/
def State.get (s : State) (f : Fld) (i : Nat) : Nat :=
  match s.regs.find? (fun e => e.1 == (f, i)) with
  | some e => e.2
  | none => f.info.reset

/-- Put a value into a field, cut to the field's width. -/
def State.put (s : State) (f : Fld) (i v : Nat) : State :=
  { s with regs := ((f, i), v % 2 ^ f.info.width) :: s.regs.filter (fun e => e.1 != (f, i)) }

/-- Add to a counter of R62: it holds at 0xFFFF_FFFF. -/
def State.bumpBy (s : State) (f : Fld) (i n : Nat) : State :=
  s.put f i (min (s.get f i + n) 0xFFFFFFFF)

/-- Count one event in a counter of R62. -/
def State.bump (s : State) (f : Fld) (i : Nat) : State := s.bumpBy f i 1

/-- A one-bit field as a Bool. -/
def State.flag (s : State) (f : Fld) (i : Nat) : Bool := s.get f i != 0

/-- A 48-bit pair that counts encoder positions, read as S48 (R306). -/
def State.s48 (s : State) (f : Fld) (i : Nat) : Int := sext 48 (s.get f i)

/-- The HI half of a pair latched by the last read of its LO half, 0 where there was none (R4). -/
def State.latched (s : State) (f : Fld) (i : Nat) : Nat :=
  match s.pairLatch.find? (fun e => e.1 == (f, i)) with
  | some e => e.2
  | none => 0

/-- Latch the HI half of a pair (R4). -/
def State.latch (s : State) (f : Fld) (i v : Nat) : State :=
  { s with pairLatch := ((f, i), v) :: s.pairLatch.filter (fun e => e.1 != (f, i)) }

/-- The value most recently written to the LO half of a pair, 0 where there was none (R4; log entry 44). -/
def State.loOf (s : State) (f : Fld) (i : Nat) : Nat :=
  match s.pairLo.find? (fun e => e.1 == (f, i)) with
  | some e => e.2
  | none => 0

/-- Keep a value written to the LO half of a pair (R4). -/
def State.setLo (s : State) (f : Fld) (i v : Nat) : State :=
  { s with pairLo := ((f, i), v) :: s.pairLo.filter (fun e => e.1 != (f, i)) }

/-- Return to their Reset value the fields whose Kept across column does not satisfy `keep`, for the
indices `reach` names (R8), with the halves of their pairs (R4). -/
def State.resetRegs (s : State) (keep : Kept → Bool) (reach : Fld → Nat → Bool) : State :=
  let stays := fun (e : (Fld × Nat) × Nat) => keep e.1.1.info.kept || !reach e.1.1 e.1.2
  { s with
    regs := s.regs.filter stays, pairLatch := s.pairLatch.filter stays, pairLo := s.pairLo.filter stays }

/-! ### Views of other state -/

/-- Open handles of a chase. -/
def Chase.openItems (c : Chase) : List (Nat × Item) :=
  c.items.entries.filterMap (fun e => e.2.map (fun it => (e.1, it)))

/-- The item behind a handle, if it is open. -/
def Chase.item (c : Chase) (h : Nat) : Option Item := c.items.get none h

/-- Whether a sequencer runs. -/
def Seq.active (q : Seq) : Bool := q.run == .running

/-- SEQ_STATUS.line_wait codes (R168): what the line sequencer waits for. -/
def waitCode : SeqWait → Nat
  | .none => 0
  | .waitl .. => 1
  | .waite .. => 2
  | .barrier .. => 4
  | .units .. => 4
  | .sortRecv .. => 3
  | .inbound .. => 3

/-- SEQ_STATUS.line_state codes (R168). -/
def runCode : SeqRun → Nat
  | .idle => 0
  | .running => 1
  | .halted => 2
  | .trapped => 3

/-- The general mailbox entries of one slot header: length, channel, sender, generation, stale. -/
def Mailbox.head (m : Mailbox) : Option Msg := m.msgs.head?

/-- Whether an encoder is in wire fault (R305): a pair that is checked does not disagree. -/
def wireNow (s : State) (e : Nat) : Bool :=
  let x := s.enc e
  x.faultA || x.faultB || (x.faultZ && s.flag .encZCheck e)

/-- Whether a bit of the trip masks holds channel `c` off (R334): a latched trip names it. -/
def chanTripped (s : State) (c : Nat) : Bool :=
  (bitAt (s.get .tripLatch 0) 0 && bitAt (s.get .tripMask 0) c) ||
  (bitAt (s.get .tripLatch 0) 1 && bitAt (s.get .tripMask 1) c)

/-- Whether `us` microseconds since an output's last switch-off are still running, in fire ticks of 32.5 ns (R316,
R332). -/
def sinceOff (s : State) (c us : Nat) : Bool :=
  match (s.chan c).offTick with
  | none => false
  | some t => decide (13 * s.tick < 13 * t + Config.k4PerUs * us)

/-- The other channel of a pair. -/
def partnerOf (c : Nat) : Nat := if c % 2 = 0 then c + 1 else c - 1

/-- Whether a channel belongs to a pair (R332: `paired` on the even channel). -/
def chanPaired (s : State) (c : Nat) : Bool := s.flag .fcPaired (c - c % 2)

/-- Whether a channel is inside its dead time or its pair's crossover time (R332, R340). -/
def chanInDead (s : State) (c : Nat) : Bool :=
  sinceOff s c (s.get .fcDead c) ||
  (chanPaired s c && sinceOff s (partnerOf c) (s.get .fcCross (c - c % 2)))

/-- The gap between a 64-bit device time and a domain clock (R346): device time slews while 10 ns or more. -/
def timeSlewing (s : State) : Bool :=
  s.flag .timeValid 0 && decide (10 ≤ (sext 32 (s.get .domOffset (s.get .timeSel 0))).natAbs)

/-- The value of a field that is a view of other state. -/
def derivedField (s : State) (f : Fld) (i : Nat) : Nat :=
  match f with
  | .modPower => 2
  | .idDevice => 0x0900
  | .idStepping => s.fuses.stepping
  | .idVariant => s.fuses.variant
  | .zarsonLevel => 2
  | .zarsonLowest => 1
  | .zarsonCaps => 0x3FF
  | .secDebugDis =>
    b2n (s.get .secLifecycle 0 == 3 || (s.flag .secAdvPending 0 && s.get .secTarget 0 == 3))
  | .mbxUsed => (s.mbox i).msgs.length
  | .mbxHeadLen => ((s.mbox i).head.map (fun m => m.length)).getD 0
  | .mbxHeadChan => ((s.mbox i).head.map (fun m => b2n m.channel)).getD 0
  | .mbxHeadSender => ((s.mbox i).head.map (fun m => m.sender.toNat)).getD 0
  | .mbxHeadGen => ((s.mbox i).head.map (fun m => m.gen.toNat)).getD 0
  | .mbxHeadStale => ((s.mbox i).head.map (fun m => b2n m.stale)).getD 0
  | .mbxHeadValid => b2n (s.mbox i).head.isSome
  | .mbxCplCode => ((s.mbox i).cpls.head?.map (fun c => c.code.toNat)).getD 0
  | .mbxCplGen => ((s.mbox i).cpls.head?.map (fun c => c.gen.toNat)).getD 0
  | .mbxCplTag => ((s.mbox i).cpls.head?.map (fun c => c.tag.toNat)).getD 0
  | .mbxCplDepth => (s.mbox i).cpls.length
  | .mbxCplDetail =>
    ((s.mbox (i / 6)).cpls.head?.map (fun c => (c.details.getD (i % 6) 0).toNat)).getD 0
  | .mbxHeadData => ((s.mbox (i / 16)).head.map (fun m => (m.words.getD (i % 16) 0).toNat)).getD 0
  | .cxpSettling =>
    let x := s.context i
    b2n (x.settles.any (fun r => r.first.isSome &&
      (match r.last with
       | some l => decide ((l + 2 ^ 48 - x.nextLine) % 2 ^ 48 < 2 ^ 47)
       | none => true)))
  | .cxpCtrlBusy => b2n (s.context i).ctrl.isSome
  | .pipePending =>
    ([0, 1, 2].map (fun t => b2n ((s.context i).applies.get none t).isSome * 2 ^ t)).sum
  | .pipeStaging => b2n !(s.context i).stages.isEmpty
  | .replayActive => b2n (s.context i).replay.isSome
  | .replayLoop => ((s.context i).replay.map (fun r => b2n r.looped)).getD 0
  | .replayBuffered => ((s.context i).replay.map (fun r => r.buf.length)).getD 0
  | .galWrite => (s.context i).writeLine
  | .galRelease => (s.context i).oldest
  | .galOcc => (s.context i).slots.length
  | .galGapOpen => b2n (s.context i).gap.isSome
  | .chOrphans => ((s.chase i).openItems.filter (fun e => e.2.orphan)).length
  | .seqLineState => runCode (s.chase i).line.run
  | .seqLineWait => waitCode (s.chase i).line.wait
  | .seqStreamHalted =>
    b2n ((s.chase i).streams.entries.any (fun e => e.2.run == .halted || e.2.run == .trapped))
  | .seqOpenItems => min 255 (s.chase i).openItems.length
  | .seqItemsFull => b2n (decide (256 ≤ (s.chase i).openItems.length))
  | .timeSlewing => b2n (timeSlewing s)
  | .timeHoldover => b2n (s.get .domState (s.get .timeSel 0) == 3)
  | .lqDepth => (s.eport i).queue.length
  | .txtsId => ((s.eport i).txts.head?.map (fun e => e.1)).getD 0
  | .txtsDepth => (s.eport i).txts.length
  | .txtsNs => ((s.eport i).txts.head?.map (fun e => e.2)).getD 0
  | .encWireNow => b2n (wireNow s i)
  | .fqDepth => (s.fq i).length
  | .emuLagging => b2n (decide ((s.emu i).lag ≠ 0))
  | .fcTripped => b2n (chanTripped s i)
  | .fcInDead => b2n (chanInDead s i)
  | .supTrayEn => bitsAt (s.get .optShadow 0) 3 1
  | .buQuick => bitsAt (s.get .optShadow 0) 0 1
  | .winCtx => i
  | .winProto => s.get .helloVer (i + 1) % 256
  | .winHello => s.get .helloDone (i + 1)
  | _ => 0

/-- The value a field shows. -/
def State.field (s : State) (f : Fld) (i : Nat) : Nat :=
  if f.info.derived then derivedField s f i % 2 ^ f.info.width else s.get f i

end Sys2Proof.Machine
end

