-- ==== Sys2Proof/Machine/Line.lean ====
section
/-! DEFINITION. What a Rhasha port puts on its lanes (R276, R277, R283): the bytes of packets, their CRC-32, the ordered
sets, the striping over the active lanes and the 8b/10b code with each lane's running disparity. -/

namespace Sys2Proof.Machine

/-! ### Packets as bytes (R283, R290, R295) -/

/-- One step of the reflected CRC-32 of IEEE 802.3 (R283). -/
def crc32Bit (c : Nat) : Nat := if c % 2 = 1 then (c / 2) ^^^ 0xEDB88320 else c / 2

/-- CRC-32 of a packet (R283): polynomial 0x04C1_1DB7 reflected, initial value and final XOR 0xFFFF_FFFF. -/
def crc32 (l : List Byte) : Nat :=
  (l.foldl (fun c b => (List.range 8).foldl (fun c _ => crc32Bit c) (c ^^^ b.toNat)) 0xFFFFFFFF) ^^^ 0xFFFFFFFF

/-- One bit of CRC-16, polynomial 0x1021 (R281). -/
def crc16Bit (c : Nat) : Nat := if 32768 ≤ c then (c * 2 % 65536) ^^^ 0x1021 else c * 2

/-- CRC-16 over bytes (R281): initial 0xFFFF, no reflection, no final XOR. -/
def crc16 (l : List Byte) : Nat :=
  l.foldl (fun c b =>
    (List.range 8).foldl (fun c _ => crc16Bit c) (c ^^^ (b.toNat * 256))) 0xFFFF

/-- The 64 bytes of a sort header (R290). -/
def sortBytes (h : SortHdr) : List Byte :=
  natLe 1 h.kind.toNat ++ natLe 1 h.status.toNat ++ natLe 2 h.expert.toNat ++
    natLe 1 (h.srcMod.toNat + 16 * h.srcChase.toNat) ++ natLe 1 (h.dstMod.toNat + 16 * h.dstChase.toNat) ++
    natLe 1 h.genChase.toNat ++ natLe 1 h.genCtx.toNat ++ natLe 1 h.rank.toNat ++ natLe 1 h.context.toNat ++
    natLe 2 h.handle.toNat ++ natLe 2 h.epoch.toNat ++ natLe 2 0 ++ natLe 8 h.item.toNat ++ natLe 4 h.gate.toNat ++
    natLe 4 h.length ++ natLe 2 h.h.toNat ++ natLe 2 h.w.toNat ++ natLe 2 h.c.toNat ++ natLe 1 h.format.toNat ++ natLe 25 0

/-- The 32 bytes of a CTRL payload (R295). -/
def ctrlBytes (m : CtrlMsg) : List Byte :=
  natLe 1 m.op.toNat ++ natLe 1 m.sender.toNat ++ natLe 2 m.epoch.toNat ++ natLe 2 m.mask.toNat ++ natLe 2 0 ++
    natLe 4 m.formeId.toNat ++ natLe 16 m.digest.toNat ++ natLe 4 0

/-- A payload is a multiple of 4 bytes (R283): zeros fill it up. -/
def padFour (b : List Byte) : List Byte := b ++ List.replicate ((4 - b.length % 4) % 4) 0

/-- The payload of a data packet (R283). -/
def bodyPayload : PktBody → List Byte
  | .sort h d => padFour (sortBytes h ++ d)
  | .reply h d => padFour (sortBytes h ++ d)
  | .ctrl m => ctrlBytes m

/-- The 16-byte header (R283): type, flags, sequence, route, source, length and the acknowledgement. -/
def headerBytes (ty flags seq route src len ack : Nat) : List Byte :=
  natLe 1 ty ++ natLe 1 flags ++ natLe 2 seq ++ natLe 1 route ++ natLe 1 src ++ natLe 2 len ++ natLe 2 ack ++ natLe 6 0

/-- A sequence number as acknowledged: valid in bit 15 (R283). -/
def ackField (seq : Nat) : Nat := seq % 4096 + 2 ^ 15

/-- The header and payload of a data packet (R283). -/
def packetContent (p : Packet) : List Byte :=
  let b := bodyPayload p.body
  headerBytes p.hdr.ptype.toNat (if p.hdr.tagged then 1 else 0) p.hdr.seq.toNat (p.hdr.dest.toNat + 16 * p.hdr.hops.toNat)
    p.hdr.src.toNat b.length ((p.hdr.ack.map (fun a => ackField a.toNat)).getD 0) ++ b

/-- An ACK (type 0x10) or NAK (0x11): a header alone (R283). -/
def ackContent (ty seq : Nat) : List Byte := headerBytes ty 0 0 0 0 0 (ackField seq)

/-- Header and payload with their CRC-32 (R283). -/
def withCrc (b : List Byte) : List Byte := b ++ natLe 4 (crc32 b)

/-! ### Symbols (R277) -/

/-- A symbol before coding: a data byte or a special one. -/
inductive Sym where
  | d (b : Nat)
  | k (b : Nat)
  deriving DecidableEq, Repr

/-- COM, K28.5. -/
def symCom : Sym := .k 0xBC
/-- SOP, K27.7. -/
def symSop : Sym := .k 0xFB
/-- EOP, K29.7. -/
def symEop : Sym := .k 0xFD
/-- PAD, K23.7. -/
def symPad : Sym := .k 0xF7

/-- SOP, the bytes and EOP, then PAD up to the end of the stripe over `n` lanes (R277). -/
def frame (n : Nat) (b : List Byte) : List Sym :=
  let l := symSop :: b.map (fun x => Sym.d x.toNat) ++ [symEop]
  l ++ List.replicate ((n - l.length % n) % n) symPad

/-- The lanes of a mask, lowest first. -/
def lanesOf (mask : Nat) : List Nat := (List.range 4).filter (fun l => mask / 2 ^ l % 2 == 1)

/-- The symbols one lane of a mask carries of a striped packet (R277). -/
def stripe (mask lane : Nat) (b : List Byte) : List Sym :=
  let lanes := lanesOf mask
  let l := frame lanes.length b
  match lanes.findIdx? (fun x => x == lane) with
  | none => []
  | some i => (List.range (l.length / max 1 lanes.length)).filterMap (fun r => l[r * lanes.length + i]?)

/-- An ordered set that stands on every lane of a mask at once (R277). -/
def onLanes (mask lane : Nat) (l : List Sym) : List Sym := if mask / 2 ^ lane % 2 = 1 then l else []

/-- What one lane of port `p` carries of an event on a connector (R277): ordered sets on all active lanes, packets striped
over them, CAP on the CAP lane. -/
def laneSymbols (active cap : Nat) (lane : Nat) : Tx → List Sym
  | .hb _ gen st => onLanes active lane [symCom, .k 0x3C, .d gen, .d st]
  | .skp _ => onLanes active lane [symCom, .k 0x1C, .k 0x1C, .k 0x1C]
  | .sync _ n => onLanes active lane [symCom, .k 0x5C, .d (n % 256), .d (n / 256)]
  | .idle _ lanes => onLanes lanes lane [symCom, .d 0x95, .d 0xB5, .d 0xB5]
  | .ts _ lanes ready rate =>
    onLanes lanes lane (symCom :: .k 0x7C :: .d ready :: .d rate :: List.replicate 12 (.d 0x4A))
  | .cap _ w => if lane = cap then
      symCom :: .k 0x9C :: (natLe 8 w.toNat ++ natLe 2 (crc16 (natLe 8 w.toNat))).map (fun b => Sym.d b.toNat) else []
  | .rate _ code lanes => onLanes active lane [symCom, .k 0xDC, .d code, .d lanes]
  | .ack _ seq => stripe active lane (withCrc (ackContent 0x10 seq))
  | .nak _ seq => stripe active lane (withCrc (ackContent 0x11 seq))
  | .packet _ p => stripe active lane (withCrc (packetContent p))
  | _ => []

/-- The Rhasha port an event leaves on. -/
def rhPortOf : Tx → Option Nat
  | .hb p _ _ => some p
  | .skp p => some p
  | .sync p _ => some p
  | .idle p _ => some p
  | .ts p _ _ _ => some p
  | .cap p _ => some p
  | .rate p _ _ => some p
  | .ack p _ => some p
  | .nak p _ => some p
  | .packet p _ => some p
  | _ => none

/-! ### 8b/10b (R276; the code tables of IEEE 802.3 clause 36 are PRESUMED: log entry 100) -/

/-- The 6-bit codes abcdei of D.x for negative running disparity. -/
def code6 : List Nat :=
  [0b100111, 0b011101, 0b101101, 0b110001, 0b110101, 0b101001, 0b011001, 0b111000,
   0b111001, 0b100101, 0b010101, 0b110100, 0b001101, 0b101100, 0b011100, 0b010111,
   0b011011, 0b100011, 0b010011, 0b110010, 0b001011, 0b101010, 0b011010, 0b111010,
   0b110011, 0b100110, 0b010110, 0b110110, 0b001110, 0b101110, 0b011110, 0b101011]

/-- The 4-bit codes fghj of D.x.y for negative running disparity. -/
def code4 : List Nat := [0b1011, 0b1001, 0b0101, 0b1100, 0b1101, 0b1010, 0b0110, 0b1110]

/-- The 4-bit codes fghj of K.x.y for negative running disparity. -/
def code4k : List Nat := [0b1011, 0b0110, 0b1010, 0b1100, 0b1101, 0b0101, 0b1001, 0b0111]

/-- Ones of a code of `n` bits. -/
def onesOf (n v : Nat) : Nat := ((List.range n).map (fun i => v / 2 ^ i % 2)).sum

/-- The code of a block for a running disparity: inverted for a positive one where the block is not balanced, or where it
is one of the balanced ones that come in two forms. -/
def blockFor (n v : Nat) (twoForms pos : Bool) : Nat :=
  if pos && (twoForms || 2 * onesOf n v != n) then 2 ^ n - 1 - v else v

/-- The running disparity after a block. -/
def disparityAfter (n v : Nat) (pos : Bool) : Bool := if 2 * onesOf n v = n then pos else decide (n < 2 * onesOf n v)

/-- The 10-bit code abcdeifghj of a symbol and the running disparity after it. -/
def encodeSym (pos : Bool) (s : Sym) : Nat × Bool :=
  let b := match s with
    | .d b => b
    | .k b => b
  let special := match s with
    | .d _ => false
    | .k _ => true
  let x := b % 32
  let y := b / 32 % 8
  let v6 := if special && x == 28 then blockFor 6 0b001111 true pos else blockFor 6 (code6.getD x 0) (x == 7) pos
  let mid := disparityAfter 6 v6 pos
  let a7 := y == 7 && ((!mid && [17, 18, 20].contains x) || (mid && [11, 13, 14].contains x))
  let v4 := if special then blockFor 4 (code4k.getD y 0) true mid
    else if a7 then blockFor 4 0b0111 true mid else blockFor 4 (code4.getD y 0) (y == 3) mid
  (v6 * 16 + v4, disparityAfter 4 v4 mid)

/-- The codes of a run of symbols on one lane, and the lane's running disparity after them (R276). -/
def encodeLane (pos : Bool) : List Sym → List Nat × Bool
  | [] => ([], pos)
  | s :: t =>
    let e := encodeSym pos s
    let r := encodeLane e.2 t
    (e.1 :: r.1, r.2)

/-- The codes an event puts on a lane of its port, and the lane's running disparity after it (R276, R277). -/
def laneCodes (s : State) (p lane : Nat) (t : Tx) : List Nat × Bool :=
  encodeLane ((s.lineRd.get 0 p).toNat / 2 ^ lane % 2 == 1)
    (laneSymbols (s.get .rhLanes p) ((s.port p).capLane.getD 0) lane t)

/-- The running disparities of the lanes after an event: each lane of its port keeps its own (R276). -/
def nextDisparity (s : State) (t : Tx) : Tab (BitVec 4) :=
  match rhPortOf t with
  | none => s.lineRd
  | some p =>
    s.lineRd.set p (BitVec.ofNat 4 (((List.range 4).map (fun l => if (laneCodes s p l t).2 then 2 ^ l else 0)).sum))

end Sys2Proof.Machine
end

