-- ==== Sys2Proof/Machine/Ops.lean ====
section
/-! DEFINITION. The operations every family shares: the event log, interrupts, host rings, completions,
mailboxes, quoins, and the addresses through which a function reaches its registers. -/

namespace Sys2Proof.Machine

/-- What a command whose effect is a state answers. -/
abbrev Answer := Host.Outcome State Fault Refusal

/-- A byte of a value. -/
def byteOf (v : Nat) : Byte := BitVec.ofNat 8 v

/-- Bytes padded with zeros, or cut, to `n`. -/
def padTo (n : Nat) (b : List Byte) : List Byte := b.take n ++ List.replicate (n - b.length) 0

/-- The current device time (R342). -/
def State.now (s : State) : Nat := s.get .timeNow 0

/-- A free value of `bits` bits (log entry 4), and the state that has used it. -/
def State.fresh (s : State) (bits : Nat) : Nat × State :=
  (Config.freeValue s.free % 2 ^ bits, { s with free := s.free + 1 })

/-- Put something on a connector; what leaves on a Rhasha port moves its lanes' running disparities (R276). -/
def State.emit (s : State) (x : Tx) : State := { s with tx := x :: s.tx, lineRd := nextDisparity s x }

/-! ### Events and interrupts (R362, R387, R388) -/

/-- Fire an MSI-X vector; the host sees it only in Full (R24, R362). -/
def fireVector (s : State) (fn v : Nat) : State := s.emit (.msix fn v)

/-- Write an event-log entry (R387): code, source, severity, four detail words. -/
def logEvent (s : State) (code source severity : Nat) (details : List Nat) : State :=
  let e : LogEntry := ⟨s.now, s.logSeq, code, source, severity, details⟩
  let head := (s.get .evlogHead 0 + 1) % 4096
  let s1 := { s with log := (e :: s.log).take 4096, logSeq := (s.logSeq + 1) % 2 ^ 32 }
  let s2 := s1.put .evlogHead 0 head
  let s3 := if head = 0 then s2.put .evlogWrap 0 (s2.get .evlogWrap 0 + 1) else s2
  if s.get .evlogMinSev 0 ≤ severity then fireVector s3 0 6 else s3

/-- Record a register-access fault (R3, R365, R379): event 0x0001 with function, address and value. -/
def regFault (s : State) (fn addr val : Nat) : State := logEvent s 0x0001 fn 1 [fn, addr, val, 0]

/-- The image of a log entry in the window at 0x00D1_0000 and in EVENT (R387, R389). -/
def logBytes (e : LogEntry) : List Byte :=
  natLe 8 e.time ++ natLe 4 e.seq ++ natLe 2 e.code ++ natLe 1 e.source ++ natLe 1 e.severity ++
    ((List.range 4).map (fun i => natLe 4 (e.details.getD i 0))).flatten

/-- The entry of ring index `i`, if one has been written there (R387). -/
def logAt (s : State) (i : Nat) : Option LogEntry :=
  s.log[(s.get .evlogHead 0 + 4095 - i % 4096) % 4096]?

/-! ### Host rings (R354 to R362) -/

/-- The ring of a function: kind 0 command, 1 verdict, 2 crop, 3 event; 68 and 69 are the launch rings. -/
def ringOf (fn kind : Nat) : Nat := fn * 4 + kind

/-- The function a ring belongs to. -/
def ringFn (r : Nat) : Nat := if r < 68 then r / 4 else 0

/-- Bytes of a slot (R354). -/
def slotBytes (s : State) (r : Nat) : Nat :=
  if r ≥ 68 then 32
  else match r % 4 with
    | 2 => 2 ^ s.get .ringPageLog2 r
    | 3 => 32
    | _ => 64

/-- Whether a ring runs: enabled with a size R354 allows (R365). -/
def ringRuns (s : State) (r : Nat) : Bool :=
  let n := s.get .ringLog2 r
  s.flag .ringEnable r &&
    (if r < 68 ∧ r % 4 = 2 then
       decide (1 ≤ n) && decide (n ≤ 10) &&
         decide (12 ≤ s.get .ringPageLog2 r) && decide (s.get .ringPageLog2 r ≤ 16)
     else decide (4 ≤ n) && decide (n ≤ 16))

/-- Entries between the consumer and the producer index (R354). -/
def ringFill (s : State) (r : Nat) : Nat :=
  (s.get .ringProd r + 2 ^ 32 - s.get .ringCons r) % 2 ^ 32

/-- Whether a ring has a free slot (R354). -/
def ringFree (s : State) (r : Nat) : Bool := decide (ringFill s r < 2 ^ s.get .ringLog2 r)

/-- Where an index's slot lies (R354). -/
def slotAddr (s : State) (r idx : Nat) : Nat :=
  s.get .ringBase r + idx % 2 ^ s.get .ringLog2 r * slotBytes s r

/-- The vector a ring's producer fires (R362); a command ring has none. -/
def ringVector (r : Nat) : Option Nat :=
  if r ≥ 68 then some (r - 66)
  else match r % 4 with
    | 0 => none
    | 1 => some 1
    | 2 => some 2
    | _ => some 0

/-- A ring's producer index advanced: fire its vector, or at the end of the interval (R362). -/
def ringAdvance (s : State) (r : Nat) : State :=
  match ringVector r with
  | none => s
  | some v =>
    let st := s.ring r
    let open_ := match st.fired with
      | none => true
      | some t => decide (t + s.get .ringItr r * Config.k4PerUs ≤ s.clk)
    if open_ then fireVector (s.setRing r { st with fired := some s.clk, due := false }) (ringFn r) v
    else s.setRing r { st with due := true }

/-- Write one record into the next slot of a ring (R355). -/
def ringWrite (s : State) (r : Nat) (b : List Byte) : State :=
  let p := s.get .ringProd r
  let s1 := { s with host := memStore s.host (slotAddr s r p) (padTo (slotBytes s r) b) }
  ringAdvance (s1.put .ringProd r ((p + 1) % 2 ^ 32)) r

/-- The SPOIL record of R358. -/
def spoilRecord (s : State) (r lost first : Nat) : List Byte :=
  natLe 1 0x0F ++ natLe 1 (ringFn r - 1) ++ natLe 2 0 ++ natLe 4 lost ++ natLe 4 first ++ natLe 4 0 ++
    natLe 8 s.now

/-- Move staged records to host memory while the ring has room; after a loss one SPOIL record comes
first (R361). -/
def ringDrain : Nat → State → Nat → State
  | 0, s, _ => s
  | n + 1, s, r =>
    if ringRuns s r && ringFree s r then
      let st := s.ring r
      match st.staged with
      | [] => s
      | b :: bs =>
        if st.lost ≠ 0 then
          ringDrain n
            (ringWrite (s.setRing r { st with lost := 0, firstLost := 0 }) r
              (spoilRecord s r st.lost st.firstLost)) r
        else ringDrain n (ringWrite (s.setRing r { st with staged := bs }) r b) r
    else s

/-- Records the staging queue and one SPOIL can need. -/
def drainFuel : Nat := 66

/-- Stage a record to a verdict or event ring (R361): dropped and counted when the ring is disabled or
64 records wait. `first` is what a SPOIL names: the verdict seq, or the ring index. -/
def stageRecord (s : State) (r first : Nat) (b : List Byte) : State :=
  let st := s.ring r
  if ringRuns s r && decide (st.staged.length < 64) then
    ringDrain drainFuel (s.setRing r { st with staged := st.staged ++ [b] }) r
  else
    (s.bump .ringSpoils r).setRing r
      { st with lost := st.lost + 1, firstLost := if st.lost = 0 then first else st.firstLost }

/-- The event ring of a function. -/
def eventRing (fn : Nat) : Nat := ringOf fn 3

/-- The context byte of a function's records: VFk is context k - 1 (R351); PF0 writes 0. -/
def ctxByte (fn : Nat) : Nat := fn - 1

/-- Stage an event record (R358). -/
def stageEvent (s : State) (fn : Nat) (b : List Byte) : State :=
  stageRecord s (eventRing fn) (s.get .ringProd (eventRing fn)) b

/-! ### Mailboxes and completions (R369 to R377) -/

/-- The function a sender belongs to: a chase acts for its owner (R371, R374). -/
def senderFn (s : State) (id : Nat) : Nat :=
  if id ≤ 16 then id else if 32 ≤ id ∧ id < 48 then s.get .chOwner (id - 32) else 0

/-- The generation a sender holds (R372). -/
def senderGen (s : State) (id : Nat) : Nat :=
  if id = 0 then s.get .genPf0 0
  else if id ≤ 16 then s.get .genCtx (id - 1)
  else if 32 ≤ id ∧ id < 48 then s.get .genChase (id - 32)
  else s.get .mbxRxGen 0

/-- The firmware mailbox of a sender: 0 for PF0, k for VFk (R371). -/
def fwMbox (s : State) (id : Nat) : Nat := senderFn s id

/-- The COMPLETION record of R358. -/
def completionRecord (fn code idx : Nat) (details : List Word) : List Byte :=
  natLe 1 0x10 ++ natLe 1 (ctxByte fn) ++ natLe 1 code ++ natLe 1 0 ++ natLe 4 idx ++
    ((List.range 6).map (fun i => natLe 4 (details.getD i 0).toNat)).flatten

/-- Fire the vector of a mailbox (R362): PF0's for mailbox 0, a VF's for its own, the granted function's for
a general one (log entry 15). -/
def mailboxVector (s : State) (m : Nat) : State :=
  let fn := if m ≤ 16 then m else s.get .mbxGrantFn (m - 17)
  fireVector s fn (if fn = 0 then 1 else 3)

/-- Put a completion into the completion queue of a mailbox, or drop and count it (R374). -/
def queueCompletion (s : State) (m : Nat) (c : Cpl) : State :=
  let b := s.mbox m
  if b.cpls.length < 16 then mailboxVector (s.setMbox m { b with cpls := b.cpls ++ [c] }) m
  else s.bump .mbxCplLost m

/-- Complete a message (R374): to the event ring when a command ring brought it and that ring runs,
else to the completion queue. -/
def complete (s : State) (m fn tag : Nat) (ring : Option Word) (code : Nat) (details : List Word) : State :=
  match ring with
  | some idx =>
    if ringRuns s (eventRing fn) then stageEvent s fn (completionRecord fn code idx.toNat details)
    else queueCompletion s m
      ⟨byteOf code, byteOf (s.get .mbxRxGen m), BitVec.ofNat 16 tag, details⟩
  | none =>
    queueCompletion s m ⟨byteOf code, byteOf (s.get .mbxRxGen m), BitVec.ofNat 16 tag, details⟩

/-- Complete a firmware command (R369). -/
def answer (s : State) (r : Req) (code : Nat) (details : List Word) : State :=
  complete s (fwMbox s r.sender.toNat) (senderFn s r.sender.toNat) r.tag.toNat r.ring code details

/-- Whether a waiting message carries a request: its sender and tag on channel 0 (R369, R372). -/
def carries (r : Req) (m : Msg) : Bool :=
  !m.channel && m.sender == r.sender && (m.words.getD 0 0).toNat / 65536 == r.tag.toNat &&
    m.ring == r.ring

/-- Take the message that carries a request out of its firmware mailbox, if it still waits there. -/
def takeRequest (s : State) (r : Req) : State :=
  let m := fwMbox s r.sender.toNat
  let b := s.mbox m
  s.setMbox m { b with msgs := b.msgs.eraseP (carries r) }

/-- Whether the message that carries a request went stale (R376). -/
def requestStale (s : State) (r : Req) : Bool :=
  match (s.mbox (fwMbox s r.sender.toNat)).msgs.find? (carries r) with
  | some m => m.stale
  | none => false

/-- The completion codes of R370. -/
def cOk : Nat := 0x00
/-- Target full, held, or not in a state that serves the request. -/
def cBusy : Nat := 0x01
/-- Receiver reset before acting. -/
def cReceiverReset : Nat := 0x02
/-- Posted under a generation its sender no longer holds. -/
def cStaleGen : Nat := 0x03
/-- Expert not reachable or not served. -/
def cNoExpert : Nat := 0x04
/-- Requester has no right to the target, or it is fenced or being reset. -/
def cIsolated : Nat := 0x05
/-- Rhasha route training. -/
def cLinkTraining : Nat := 0x06
/-- Trip latch clear refused. -/
def cTripActive : Nat := 0x07
/-- Quoin acquired whose previous holder was reset. -/
def cBroken : Nat := 0x08
/-- Layout, version or protocol not accepted. -/
def cVersion : Nat := 0x09
/-- Signature, key, token or policy refused. -/
def cSignature : Nat := 0x0A
/-- The module lacks what the request needs. -/
def cCapability : Nat := 0x0B

/-- Service states of R27. -/
def svcBringup : Nat := 0
/-- READY. -/
def svcReady : Nat := 1
/-- REDUCED. -/
def svcReduced : Nat := 2
/-- FAILED. -/
def svcFailed : Nat := 3

/-- Whether the data plane is served: READY or REDUCED. -/
def serving (s : State) : Bool := s.get .modService 0 == svcReady || s.get .modService 0 == svcReduced

/-- What firmware answers before it looks at a command: stale, FAILED, no HELLO, bring-up (R376, R433,
R363, R14).  `always` marks HELLO and RESET, which bring-up and FAILED serve (R422, R433). -/
def fwGate (s : State) (r : Req) (always hello : Bool) : Option (Nat × List Word) :=
  let id := r.sender.toNat
  if requestStale s r then some (cStaleGen, [BitVec.ofNat 32 (senderGen s id)])
  else if s.get .modService 0 == svcFailed && !always then some (cCapability, [])
  else if !hello && !s.flag .helloDone (senderFn s id) then some (cVersion, [])
  else if (s.get .modService 0 == svcBringup || s.mgmt.hold != .none) && !always then some (cBusy, [])
  else none

/-- Perform a firmware command: take its message, answer the gate, else run it. -/
def firmware (s : State) (r : Req) (always hello : Bool) (run : State → State) : State :=
  let s1 := takeRequest s r
  match fwGate s r always hello with
  | some (c, d) => answer s1 r c d
  | none => run s1

/-- A command only PF0 may send (R1's commands of R391 to R408): any other requester gets ISOLATED. -/
def pf0Only (r : Req) (s : State) (run : State → State) : State :=
  if senderFn s r.sender.toNat = 0 then run s else answer s r cIsolated []

/-- Whether a requester may act on a chase: PF0, or the VF or the chases of its owner (R181). -/
def mayChase (s : State) (r : Req) (n : Nat) : Bool :=
  let f := senderFn s r.sender.toNat
  f == 0 || (s.flag .chPresent n && f == s.get .chOwner n)

/-- What a function does over PCIe: the endpoint answers in Full only (R24, R27). -/
def overPcie (s : State) (t : State) : State := if s.power = .full then t else s

/-! ### Quoins (R380 to R384) -/

/-- Whether a sender may use a quoin (R380). -/
def quoinGranted (s : State) (q id : Nat) : Bool := id == 63 || bitAt (s.get .quoinGrant q) (senderFn s id)

/-- Whether a sender holds a quoin. -/
def quoinHeldBy (s : State) (q id : Nat) : Bool := s.flag .quoinHeld q && s.get .quoinHolder q == id

/-- Acquire (R380): the code, and the state after. -/
def quoinAcquire (s : State) (q id : Nat) : Nat × State :=
  if !quoinGranted s q id then (cIsolated, s)
  else if s.flag .quoinHeld q then (cBusy, s)
  else
    let s1 := ((s.put .quoinHeld q 1).put .quoinHolder q id).put .quoinHolderGen q (senderGen s id)
    (if s.flag .quoinBroken q then cBroken else cOk, s1)

/-- Release (R380). -/
def quoinRelease (s : State) (q id : Nat) : Nat × State :=
  if !quoinGranted s q id then (cIsolated, s)
  else if quoinHeldBy s q id then
    (cOk, ((s.put .quoinHeld q 0).put .quoinHolder q 0).put .quoinHolderGen q 0)
  else (cBusy, s)

/-- Clear the BROKEN mark (R380). -/
def quoinClear (s : State) (q id : Nat) : Nat × State :=
  if !quoinGranted s q id then (cIsolated, s)
  else if quoinHeldBy s q id && s.flag .quoinBroken q then
    (cOk, ((s.put .quoinBroken q 0).put .quoinOldHolder q 0).put .quoinOldGen q 0)
  else (cBusy, s)

/-- Release as BROKEN one quoin a holder holds (R382). -/
def quoinBreak (id gen q : Nat) (s : State) : State :=
  if quoinHeldBy s q id then
    (((((s.put .quoinHeld q 0).put .quoinHolder q 0).put .quoinHolderGen q 0).put .quoinBroken q 1).put
      .quoinOldHolder q id).put .quoinOldGen q gen
  else s

/-- Release as BROKEN every quoin a holder holds (R382). -/
def quoinsBreak (s : State) (id gen : Nat) : State :=
  (List.range 64).foldl (fun s q => quoinBreak id gen q s) s

/-! ### Addresses (R29, R30, R353, R378) -/

/-- The mailbox a window offset names: its own context mailbox, or a general one granted to it (R378). -/
def windowMailbox (s : State) (fn off : Nat) : Option Nat :=
  let j := (off - 0x2000) / 0x200
  if j = 0 then some (0x300000 + 0x200 * fn + (off - 0x2000))
  else if j < 16 ∧ s.flag .mbxGrantEn (j - 1) ∧ s.get .mbxGrantFn (j - 1) = fn then
    some (0x300000 + 0x200 * (16 + j) + (off - 0x2000 - 0x200 * j))
  else none

/-- The register address a function's offset reaches: PF0 BAR0 itself, or a VF's window with its mirrored
sets at their PF0 addresses (R353). The own registers of window k lie at 0x1000_0000 + 0x10_0000 (k - 1). -/
def busAddr (s : State) (fn : Nat) (off : Nat) : Option Nat :=
  if fn = 0 then some off
  else
    let k := fn - 1
    if off = 4 then some 0x10
    else if off < 0x1080 then some (0x10000000 + 0x100000 * k + off)
    else if 0x2000 ≤ off ∧ off < 0x4000 then windowMailbox s fn off
    else if 0x4000 ≤ off ∧ off < 0x4010 then some (0x70B000 + 0x10 * k + (off - 0x4000))
    else if 0x4100 ≤ off ∧ off < 0x4140 then some (0x402000 + 0x40 * k + (off - 0x4100))
    else if 0x4200 ≤ off ∧ off < 0x4240 then some (0x601000 + 0x40 * k + (off - 0x4200))
    else if 0x4300 ≤ off ∧ off < 0x4340 then some (0x501000 + 0x40 * k + (off - 0x4300))
    else if 0x4400 ≤ off ∧ off < 0x4410 then some (0xA03000 + 0x10 * k + (off - 0x4400))
    else none

/-- The index of a field whose register holds an address, for each of its inner copies: the pairs
(index, word of a pair). -/
def fieldAt (f : Fld) (a : Nat) : List (Nat × Nat) :=
  let g := f.info
  (List.range g.inner).flatMap (fun k =>
    [0, 1].filterMap (fun h =>
      let lowest := g.base + g.off + g.innerStep * k + 4 * h
      if (h = 1 ∧ g.pair = false) ∨ a < lowest then none
      else
        let d := a - lowest
        let j := if g.stride = 0 then 0 else d / g.stride
        if d = g.stride * j ∧ j < g.count then some (j * g.inner + k, h) else none))

/-- Where the ring sets lie: the register address of ring `r`'s set (R348, R353, R356, R364). -/
def ringSetAddr (r : Nat) : Nat :=
  if r ≥ 68 then 0x901040 + 0x100 * (r - 68)
  else if r / 4 = 0 then 0x1000 + 0x20 * (r % 4)
  else 0x10000000 + 0x100000 * (r / 4 - 1) + 0x1000 + 0x20 * (r % 4)

/-- The rings that exist: PF0 has a command and an event ring, each VF four, each Ethernet port one. -/
def ringExists (r : Nat) : Bool := decide (r < 70) && !(r == 1 || r == 2)

/-- A register address in the ring sets, as the model's own place of that ring's fields. -/
def ringAddr (a : Nat) : Nat :=
  match (List.range 70).find? (fun r => ringExists r && decide (ringSetAddr r ≤ a) &&
      decide (a < ringSetAddr r + 0x20)) with
  | some r => ringSpace + 0x20 * r + (a - ringSetAddr r)
  | none => a

/-- The field copies an address holds: field, index, and 0 for the low or 1 for the high word of a pair. -/
def fieldsAt (a : Nat) : List (Fld × Nat × Nat) :=
  Fld.all.flatMap (fun f => (fieldAt f (ringAddr a)).map (fun e => (f, e.1, e.2)))

end Sys2Proof.Machine
end

