-- ==== Sys2Proof/Machine/Operands.lean ====
section
/-! DEFINITION. The operands of Zarson instructions: the fields of the instruction word (R119), the
sequencer's registers (R122 to R125), descriptors, the element addresses of every layout (R70 to R72, R80,
R33, R49), and reading and writing tensors. -/

namespace Sys2Proof.Machine

/-! ### The instruction word (R119) -/

/-- The fields of an instruction word. -/
structure Op where
  word   : Nat
  opcode : Nat
  cls    : Nat
  pred   : Nat
  pinv   : Bool
  sat    : Bool
  emask  : Nat
  pdst   : Nat
  sub    : Nat
  dd     : Nat
  da     : Nat
  db     : Nat
  dc     : Nat
  sd     : Nat
  sa     : Nat
  imm0   : Nat
  imm1   : Nat
  deriving DecidableEq, Repr

/-- Take an instruction word apart (R119). -/
def opOf (z : ZWord) : Op :=
  let w := z.toNat
  { word := w, opcode := bitsAt w 0 8, cls := bitsAt w 8 4, pred := bitsAt w 12 4, pinv := bitAt w 16,
    sat := bitAt w 17, emask := bitsAt w 18 4, pdst := bitsAt w 22 4, sub := bitsAt w 26 6,
    dd := bitsAt w 32 5, da := bitsAt w 37 5, db := bitsAt w 42 5, dc := bitsAt w 47 5,
    sd := bitsAt w 52 6, sa := bitsAt w 58 6, imm0 := bitsAt w 64 32, imm1 := bitsAt w 96 32 }

/-! ### Sequencers -/

/-- The sequencer a command names. -/
def Chase.seq (c : Chase) (core : Option CoreNo) : Seq :=
  match core with
  | none => c.line
  | some l => c.streams.get Seq.reset l.val

/-- Put a sequencer back. -/
def Chase.setSeq (c : Chase) (core : Option CoreNo) (x : Seq) : Chase :=
  match core with
  | none => { c with line := x }
  | some l => { c with streams := c.streams.set l.val x }

/-- Scalar register `r` (R122). -/
def Seq.s (x : Seq) (r : Nat) : Nat := (x.sregs.get 0 r).toNat

/-- Write a scalar register. -/
def Seq.setS (x : Seq) (r v : Nat) : Seq := { x with sregs := x.sregs.set r (BitVec.ofNat 32 v) }

/-- The 48 bits of a pair (R122). -/
def Seq.pair48 (x : Seq) (r : Nat) : Nat := x.s r + (x.s (r + 1)) % 65536 * 2 ^ 32

/-- The signed 48-bit count of a pair. -/
def Seq.count (x : Seq) (r : Nat) : Int := sext 48 (x.pair48 r)

/-- Write an unsigned value to a pair (R122: unused upper bits zero). -/
def Seq.setPair (x : Seq) (r v : Nat) : Seq := (x.setS r (v % 2 ^ 32)).setS (r + 1) (v / 2 ^ 32)

/-- Write a signed 48-bit value to a pair, sign-extended (R122). -/
def Seq.setSigned (x : Seq) (r : Nat) (v : Int) : Seq := x.setPair r (wrapTo 64 (sext 48 (wrapTo 48 v)))

/-- Predicate `p`; p0 reads 1 (R123). -/
def Seq.p (x : Seq) (i : Nat) : Bool := i == 0 || bitAt x.preds.toNat i

/-- Write a predicate; 0 writes none (R123). -/
def Seq.setP (x : Seq) (i : Nat) (b : Bool) : Seq :=
  if i = 0 then x
  else
    let v := x.preds.toNat
    let cleared := v - b2n (bitAt v i) * 2 ^ i
    { x with preds := BitVec.ofNat 16 (cleared + b2n b * 2 ^ i) }

/-- Descriptor register `r` (R123). -/
def Seq.d (x : Seq) (r : Nat) : DWord := x.dregs.get 0 r

/-- Write a descriptor register. -/
def Seq.setD (x : Seq) (r : Nat) (v : DWord) : Seq := { x with dregs := x.dregs.set r v }

/-- Whether an instruction executes (R121). -/
def Seq.executes (x : Seq) (o : Op) : Bool := x.p o.pred != o.pinv

/-- Close the loops whose body ends at an index: the next index and the loops left (R136). -/
def loopBack : List LoopFrame → Nat → Nat × List LoopFrame
  | [], pc => (pc, [])
  | f :: fs, pc =>
    if pc = f.stop then
      if 1 < f.left then (f.start, { f with left := f.left - 1 } :: fs) else loopBack fs pc
    else (pc, f :: fs)

/-- Go on at an index, closing finished loop bodies. -/
def Seq.goto (x : Seq) (pc : Nat) : Seq :=
  let r := loopBack x.loops pc
  { x with pc := r.1, loops := r.2 }

/-- Retire an instruction: the next index (R130, R136). -/
def Seq.advance (x : Seq) : Seq := x.goto (x.pc + 1)

/-- Whether an index lies in a region flagged loose (R191). -/
def Seq.inLoose (x : Seq) : Bool := x.loose.any (fun r => decide (r.1 ≤ x.pc) && decide (x.pc < r.2))

/-- Whether an index lies in the forme's early-exit section (R160). -/
def Seq.inExit (x : Seq) : Bool := decide (x.exitLo ≤ x.pc) && decide (x.pc < x.exitHi)

/-! ### Placements (R176) -/

/-- The placement in use. -/
def placementNow (s : State) (n : Nat) : Option Placement :=
  match (s.chase n).forme with
  | none => none
  | some f => f.placements[s.get .chPlacement n]?

/-- The standby core a STANDBY entry uses: the loader lists one for each such entry, in ascending placement
index (R186). -/
def standbyFor (c : Chase) (pi : Nat) : Nat :=
  let before := ((c.forme.map (fun f => f.placements)).getD []).take pi
  c.standby.getD (before.filter (fun p => p.kind == 2)).length 0

/-- The floor-plan core that serves a logical core under an entry of the placement table (R176): its chase
slot, or the standby core where the entry says 0xFE. -/
def servedIn (c : Chase) (pi : Nat) (p : Placement) (l : Nat) : Nat :=
  let m := p.map.getD l l
  if m = 0xFE then standbyFor c pi else c.cores.getD m 0

/-- The floor-plan core that serves a logical core under the placement in use (R176). -/
def servingCore (s : State) (n l : Nat) : Nat :=
  match placementNow s n with
  | none => (s.chase n).cores.getD l 0
  | some p => servedIn (s.chase n) (s.get .chPlacement n) p l

/-- The lead logical core of the placement in use (R176, R179). -/
def leadCore (s : State) (n : Nat) : Nat := ((placementNow s n).map (fun p => p.lead)).getD 0

/-- The floor-plan core whose SRAM a sequencer's space 0 is (R127, R129). -/
def ownCore (s : State) (q : SeqId) : Nat :=
  match q.core with
  | none => servingCore s q.chase.val (leadCore s q.chase.val)
  | some l => servingCore s q.chase.val l.val

/-! ### Descriptors (R125 to R127) -/

/-- A descriptor taken apart. -/
structure Desc where
  base      : Nat
  space     : Nat
  core      : Nat
  code      : Nat
  layout    : Nat
  grouped   : Bool
  zslot     : Nat
  w         : Nat
  h         : Nat
  c         : Nat
  ring      : Nat
  strideH   : Nat
  strideCb  : Nat
  scaleBase : Nat
  tscale    : Nat
  deriving DecidableEq, Repr

/-- Take a descriptor apart (R125). -/
def descOf (x : DWord) : Desc :=
  let v := x.toNat
  let hi := bitsAt v 32 3
  { base := bitsAt v 0 32 + hi * 2 ^ 32, space := bitsAt v 35 3, core := bitsAt v 38 5,
    code := bitsAt v 43 4, layout := bitsAt v 47 2, grouped := bitAt v 49, zslot := bitsAt v 50 14,
    w := bitsAt v 64 16 + 1, h := bitsAt v 80 16 + 1, c := bitsAt v 96 16 + 1, ring := bitsAt v 112 16,
    strideH := bitsAt v 128 32, strideCb := bitsAt v 160 32, scaleBase := bitsAt v 192 32 + hi * 2 ^ 32,
    tscale := bitsAt v 224 32 }

/-- The format a descriptor names; S32 stands in for a code no checked descriptor has. -/
def Desc.fmt (d : Desc) : Fmt := (fmtOf d.code).getD .s32

/-- Channels per vector (R70). -/
def Desc.blk (d : Desc) : Nat := if d.layout = 1 then 16 else 32

/-- Bytes of a vector (R70). -/
def Desc.vec (d : Desc) : Nat := d.blk * d.fmt.bits / 8

/-- Channel blocks. -/
def Desc.blocks (d : Desc) : Nat := (d.c + d.blk - 1) / d.blk

/-- Bytes of a plain row of `n` elements (R32 to R34). -/
def packedBytes (f : Fmt) (n : Nat) : Nat :=
  match f with
  | .u12p => (n + 1) / 2 * 3
  | _ => (n * f.bits + 7) / 8

/-- Lines a tensor keeps: its ring depth, or its height (R70). -/
def Desc.lines (d : Desc) : Nat := if d.ring = 0 then d.h else d.ring

/-- Line `h`'s place (R70): modulo the ring depth, or the height. -/
def Desc.line (d : Desc) (h : Nat) : Nat := h % d.lines

/-- Byte offset, from base, of the row that holds line `h` of channel block `cb`. -/
def Desc.row (d : Desc) (h cb : Nat) : Nat :=
  d.line h * d.strideH + (if d.layout = 3 then 0 else cb * d.strideCb)

/-- Bytes a row occupies. -/
def Desc.rowBytes (d : Desc) : Nat :=
  if d.layout = 3 then packedBytes d.fmt d.w
  else if d.layout = 2 then d.zslot * 64
  else d.w * d.vec

/-- Bytes from base to past the last byte of the last row (R185). -/
def Desc.bareExtent (d : Desc) : Nat :=
  (d.lines - 1) * d.strideH + (if d.layout = 3 then 0 else (d.blocks - 1) * d.strideCb) + d.rowBytes

/-- Bytes a tensor occupies from its base: its rows; an SB4 tensor occupies whole slabs of 128 bytes (R48; log entry 81:
the tensor as a whole is rounded up). -/
def Desc.extent (d : Desc) : Nat :=
  if d.fmt = .sb4 then (d.bareExtent + 127) / 128 * 128 else d.bareExtent

/-- Groups of 32 consecutive channels a line holds (R46, R49). -/
def Desc.groupsPerLine (d : Desc) : Nat :=
  if d.layout = 3 then (d.w + 31) / 32 else d.w * ((d.c + 31) / 32)

/-- Whether a tensor carries a scale plane (R46, R49).  DESIGN CHOICE (log entry 82): R51 admits a grouped E5M2 operand
to the scaled path, R46 and R49 give E5M2 no scale plane; its group scales and t are 1.0. -/
def Desc.scaled (d : Desc) : Bool :=
  d.fmt == .sb4 || (d.grouped && (d.fmt == .s8 || d.fmt == .e4m3))

/-- Round up to a granule of 64 bytes. -/
def granule (n : Nat) : Nat := (n + 63) / 64 * 64

/-- Group scale bytes of the scale plane, padded to a granule (R49). -/
def Desc.groupBytes (d : Desc) : Nat := granule (d.lines * d.groupsPerLine)

/-- Past the end of the scale plane whose second part has `entries` scales (R49); 0 without a plane. -/
def Desc.planeEnd (d : Desc) (entries : Nat) : Nat :=
  if d.scaled then d.scaleBase + d.groupBytes + (if d.fmt = .sb4 then granule (4 * entries) else 0) else 0

/-- Past the end of the scale plane of a tensor with one second-level scale a band row (R46, R49); an SB4 weight tensor
has one an output channel, which only the instruction that multiplies by it tells (log entry 81). -/
def Desc.scaleEnd (d : Desc) : Nat := d.planeEnd d.lines

/-- The number of a group in the order its first element appears in the element plane (R49). -/
def Desc.groupNo (d : Desc) (h w cb : Nat) : Nat :=
  if d.layout = 3 then d.line h * d.groupsPerLine + w / 32
  else if d.strideCb ≤ d.strideH then (d.line h * d.blocks + cb) * d.w + w
  else (cb * d.lines + d.line h) * d.w + w

/-- The place of offset 0 of a space, with its memory (0 core SRAM, 1 galley store, 2 LPDDR5X): offsets in spaces 1 to 3
are relative to the chase's region of that space, space 0 is the issuing core's own SRAM (R127). -/
def spaceBase (s : State) (q : SeqId) (d : Desc) : Nat × Nat :=
  let r := (s.chase q.chase.val).regions
  match d.space with
  | 2 => (1, r.galleyBase)
  | 3 => (2, r.lpddrBase)
  | 1 => (0, sramAddr (servingCore s q.chase.val d.core) r.sramBase)
  | _ => (0, sramAddr (ownCore s q) 0)

/-- Bytes of the chase's region of a space (R127). -/
def spaceSize (s : State) (q : SeqId) (d : Desc) : Nat :=
  let r := (s.chase q.chase.val).regions
  match d.space with
  | 2 => r.galleySize
  | 3 => r.lpddrSize
  | _ => r.sramSize

/-- Whether the offsets `[lo, hi)` of a space lie in the chase's region of it (R127). -/
def inRegion (s : State) (q : SeqId) (d : Desc) (lo hi : Nat) : Bool :=
  let low := if d.space = 0 then (s.chase q.chase.val).regions.sramBase else 0
  decide (low ≤ lo) && decide (hi ≤ low + spaceSize s q d)

/-! ### The three memories a descriptor reaches -/

/-- A memory by number: 0 core SRAM, 1 galley store, 2 LPDDR5X. -/
def State.memOf (s : State) (m : Nat) : Memory :=
  match m with
  | 0 => s.sram
  | 1 => s.galley
  | _ => s.lpddr

/-- Put a memory back. -/
def State.setMem (s : State) (m : Nat) (x : Memory) : State :=
  match m with
  | 0 => { s with sram := x }
  | 1 => { s with galley := x }
  | _ => { s with lpddr := x }

/-- A byte range: memory, first address, past the last. -/
abbrev Span := Nat × Nat × Nat

/-- Whether two byte ranges share a byte. -/
def Span.meets (a b : Span) : Bool :=
  a.1 == b.1 && decide (a.2.1 < b.2.2) && decide (b.2.1 < a.2.2)

/-- The byte ranges a descriptor covers: its elements and its scale plane. -/
def Desc.spans (s : State) (q : SeqId) (d : Desc) : List Span :=
  if 4 ≤ d.space then []
  else
    let m := spaceBase s q d
    (m.1, m.2 + d.base, m.2 + d.base + d.extent) ::
      (if d.scaled then [(m.1, m.2 + d.scaleBase, m.2 + d.scaleEnd)] else [])

/-- How an instruction reads a descriptor's memory: plainly, or, where a unit is still writing bytes of it,
as free values (R132, log entry 9); `first` is the first line its ring has seen (R87). -/
structure Src where
  d     : Desc
  mem   : Memory
  at0   : Nat
  free  : Option Nat
  first : Option Nat

/-- A source byte at an offset of the tensor's space. -/
def Src.byte (x : Src) (a : Nat) : Byte :=
  match x.free with
  | some n => byteOf (Config.freeValue (n + a))
  | none => memRead x.mem (x.at0 + a)

/-- The little-endian value of `n` source bytes. -/
def Src.le (x : Src) (a n : Nat) : Nat := leNat ((List.range n).map (fun i => x.byte (a + i)))

/-- The first line a ring has taken since the reset or spoil marker of R87, if a line was written to it by number. -/
def ringFirst (s : State) (q : SeqId) (d : Desc) : Option Nat :=
  let m := spaceBase s q d
  ((s.chase q.chase.val).seen.find? (fun e => e.1 == (m.1, m.2 + d.base))).map (fun e => e.2)

/-- Keep the first line a ring takes (R87). -/
def noteLine (s : State) (q : SeqId) (d : Desc) (h0 : Nat) : State :=
  let n := q.chase.val
  let m := spaceBase s q d
  if d.ring = 0 ∨ (ringFirst s q d).isSome then s
  else s.setChase n { s.chase n with seen := ((m.1, m.2 + d.base), h0) :: (s.chase n).seen }

/-- Whether a line of a ring lies before the first line the ring has seen (R87): it reads as zero. -/
def Src.unseen (x : Src) (h : Nat) : Bool :=
  x.d.ring != 0 && (x.first.map (fun f => decide (sext 32 (wrapTo 32 ((h : Int) - f)) < 0))).getD false

/-- The source a descriptor names (R132: free where a unit of the chase still writes it), as it is stored. -/
def srcOf (s : State) (q : SeqId) (d : Desc) : Src :=
  let m := spaceBase s q d
  let sp := d.spans s q
  let hazard := (s.chase q.chase.val).busy.any (fun b => b.writes.any (fun w => sp.any (Span.meets w)))
  { d := d, mem := s.memOf m.1, at0 := m.2, free := if hazard then some s.free else none,
    first := none }

/-- The source an instruction of class T reads, whose rings are read by line number (R87, R145). -/
def lineSrc (s : State) (q : SeqId) (d : Desc) : Src := { srcOf s q d with first := ringFirst s q d }

/-! ### Elements -/

/-- Codes of `n` packed elements of `bits` bits from a byte offset (R32, R33). -/
def Src.packed (x : Src) (f : Fmt) (a i : Nat) : Nat :=
  match f with
  | .u12p =>
    let v := x.le (a + i / 2 * 3) 3
    if i % 2 = 0 then v % 4096 else v / 4096
  | .s4 | .sb4 => bitsAt (x.byte (a + i / 2)).toNat (4 * (i % 2)) 4
  | _ => x.le (a + i * (f.bits / 8)) (f.bits / 8)

/-- The mask of a run-zero record at an offset and the offset of the next record (R80). -/
def Src.zrec (x : Src) (f : Fmt) (a : Nat) : Nat × Nat :=
  let mask := x.le a 4
  let k := ((List.range 32).filter (bitAt mask)).length
  (mask, a + 4 + (packedBytes f k + 3) / 4 * 4)

/-- Offset of vector `w` in a run-zero row. -/
def Src.zseek (x : Src) (f : Fmt) : Nat → Nat → Nat
  | 0, a => a
  | w + 1, a => x.zseek f w (x.zrec f a).2

/-- Element `i` of the run-zero vector at an offset (R80). -/
def Src.zelem (x : Src) (f : Fmt) (a i : Nat) : Nat :=
  let mask := (x.zrec f a).1
  if bitAt mask i then x.packed f (a + 4) ((List.range i).filter (bitAt mask)).length else 0

/-- The code of element (h, w, c) (R70, R80); channels past the tensor (R71) and lines before the first line of a ring
(R87) read as zero. -/
def Src.elem (x : Src) (h w c : Nat) : Nat :=
  let d := x.d
  if (d.c ≤ c ∧ d.layout ≠ 3) ∨ x.unseen h then 0
  else
    let row := d.base + d.row h (c / d.blk)
    if d.layout = 3 then x.packed d.fmt row w
    else if d.layout = 2 then x.zelem d.fmt (x.zseek d.fmt w row) (c % d.blk)
    else x.packed d.fmt (row + w * d.vec) (c % d.blk)

/-- A group scale byte: the value it stands for, and whether it is a bad scale (R46, R47). -/
def scaleVal (b : Nat) : Val × Bool :=
  if b ≤ 0x07 then (.zero false, false)
  else if b ≤ 0x7E then (decodeVal .e4m3 b, false)
  else (.zero false, true)

/-- The scale of a group of the tensor (R49); 1.0 without group scales (R51). -/
def Src.gscale (x : Src) (g : Nat) : Val × Bool :=
  if x.d.scaled then scaleVal (x.byte (x.d.scaleBase + g)).toNat else (.nat 1, false)

/-- The second-level scale (R46, R49): the tensor scale, or for SB4 the entry of a band row or channel. -/
def Src.tscale (x : Src) (groups i : Nat) : Val :=
  if x.d.fmt = .sb4 then f32 (x.le (x.d.scaleBase + granule groups + 4 * i) 4)
  else if x.d.scaled then f32 x.d.tscale
  else .nat 1

/-- Bad groups among the groups of some elements that are read (R47): an instruction counts each group it reads once (log
entry 83). -/
def Src.badGroups (x : Src) (cells : List (Nat × Nat × Nat)) : Nat :=
  if x.d.scaled then
    ((((cells.filter (fun e => (x.d.layout == 3 || decide (e.2.2 < x.d.c)) && !x.unseen e.1)).map
      (fun e => x.d.groupNo e.1 e.2.1 (e.2.2 / 32))).dedup).filter (fun g => (x.gscale g).2)).length
  else 0

/-- The scale of the group an element belongs to: zero for an all-zero or bad group (R46, R47). -/
def Src.scaleOf (x : Src) (h w c : Nat) : Val := (x.gscale (x.d.groupNo h w (c / 32))).1

/-- The value of element (h, w, c) of a vector-unit source: e × g × t for a scaled tensor (R46), formed
exactly; the plain element otherwise. -/
def Src.val (x : Src) (h w c : Nat) : Val :=
  let e := decodeVal x.d.fmt (x.elem h w c)
  if x.d.scaled then
    let g := x.scaleOf h w c
    if g.isZero then .zero false
    else (mulExact (mulExact e g).val
      (x.tscale (x.d.lines * x.d.groupsPerLine) (x.d.line h))).val
  else e

/-! ### Writing tensors -/

/-- Pack element codes into bytes (R32 to R34): the last byte or triple is padded with zero elements. -/
def packCodes (f : Fmt) (l : List Nat) : List Byte :=
  match f with
  | .s4 | .sb4 =>
    (List.range ((l.length + 1) / 2)).map
      (fun k => byteOf (l.getD (2 * k) 0 % 16 + 16 * (l.getD (2 * k + 1) 0 % 16)))
  | .u12p =>
    (List.range ((l.length + 1) / 2)).flatMap
      (fun k => natLe 3 (l.getD (2 * k) 0 % 4096 + 4096 * (l.getD (2 * k + 1) 0 % 4096)))
  | _ => l.flatMap (natLe (f.bits / 8))

/-- One run-zero record of 32 codes (R80). -/
def zRecord (f : Fmt) (codes : List Nat) : List Byte :=
  let nz := codes.filter (fun v => v != 0)
  let mask := ((List.range 32).map (fun i => b2n (codes.getD i 0 != 0) * 2 ^ i)).sum
  let body := packCodes f nz
  natLe 4 mask ++ padTo ((body.length + 3) / 4 * 4) body

/-- Store complete vectors as long as they fit `room` bytes, an empty record for each that does not (R82):
the bytes and the non-zero elements lost. -/
def zRow (f : Fmt) : List (List Nat) → Nat → List Byte × Nat
  | [], _ => ([], 0)
  | v :: vs, room =>
    let r := zRecord f v
    if r.length + 4 * vs.length ≤ room then
      let t := zRow f vs (room - r.length)
      (r ++ t.1, t.2)
    else
      let t := zRow f vs (room - 4)
      (natLe 4 0 ++ t.1, t.2 + (v.filter (fun e => e != 0)).length)

/-- The bytes of one row: line `h`, channel block `cb`, from the codes of its elements; and the elements a
run-zero slot lost.  DESIGN CHOICE (log entry 84): R80 pads a row to its granule and says nothing of the rest of its
slot; the whole slot is filled with zeros. -/
def rowImage (d : Desc) (code : Nat → Nat → Nat) (cb : Nat) : List Byte × Nat :=
  let elem := fun w c => if d.layout ≠ 3 ∧ d.c ≤ c then 0 else code w c
  if d.layout = 3 then (packCodes d.fmt ((List.range d.w).map (fun w => elem w 0)), 0)
  else
    let vecs := (List.range d.w).map
      (fun w => (List.range d.blk).map (fun i => elem w (cb * d.blk + i)))
    if d.layout = 2 then
      let r := zRow d.fmt vecs (d.zslot * 64)
      (padTo (d.zslot * 64) r.1, r.2)
    else (vecs.flatMap (packCodes d.fmt), 0)

/-- Write a whole tensor whose first line is line `h0`: the codes of element (h, w, c) come from `code`; the groups of an
SB4 tensor's last slab past its rows take 0 (R48).  The memory after, and the elements lost (R82). -/
def writeTensor (s : State) (q : SeqId) (d : Desc) (h0 : Nat) (code : Nat → Nat → Nat → Nat) :
    State × Nat :=
  let m := spaceBase s q d
  let blocks := if d.layout = 3 then 1 else d.blocks
  let r := (List.range d.h).foldl (fun acc i =>
    (List.range blocks).foldl (fun acc cb =>
      let row := rowImage d (code (h0 + i)) cb
      (memStore acc.1 (m.2 + d.base + d.row (h0 + i) cb) row.1, acc.2 + row.2)) acc)
    (s.memOf m.1, 0)
  (s.setMem m.1 (memZero r.1 (m.2 + d.base + d.bareExtent) (m.2 + d.base + d.extent)), r.2)

end Sys2Proof.Machine
end

