-- ==== Sys2Proof/Machine/Flags.lean ====
section
/-! DEFINITION. The flag computations: the numeric status of a chase (R61 to R64), and the outcomes
instructions write to predicates and scalar registers (R135, R138 to R143). -/

namespace Sys2Proof.Machine

/-- Add events to a chase's numeric status registers and flags (R62, R63). -/
def countNums (s : State) (n : Nat) (e : Nums) : State :=
  let s1 := if e.sat = 0 then s else (s.bumpBy .numSat n e.sat).put .nfSat n 1
  let s2 := if e.nan = 0 then s1 else (s1.bumpBy .numNan n e.nan).put .nfNan n 1
  let s3 := if e.bad = 0 then s2 else (s2.bumpBy .numBad n e.bad).put .nfBad n 1
  if e.inf = 0 then s3 else s3.put .nfInf n 1

/-- The second operand of ALU and CMP (R135). -/
def aluOperand (x : Seq) (o : Op) : Nat := if bitAt o.sub 5 then x.s (o.imm0 % 64) else o.imm0

/-- The 32-bit ALU operations of R135. -/
def alu32 (code a b : Nat) : Nat :=
  let x : Word := BitVec.ofNat 32 a
  let y : Word := BitVec.ofNat 32 b
  let sh := b % 32
  (match code with
    | 0 => x + y
    | 1 => x - y
    | 2 => x &&& y
    | 3 => x ||| y
    | 4 => x ^^^ y
    | 5 => x <<< sh
    | 6 => x >>> sh
    | 7 => x.sshiftRight sh
    | 8 => x * y
    | 9 => if x.slt y then x else y
    | _ => if x.slt y then y else x).toNat

/-- The conditions of CMP (R135). -/
def cmpHolds (code a b : Nat) : Bool :=
  let x : Word := BitVec.ofNat 32 a
  let y : Word := BitVec.ofNat 32 b
  match code with
  | 0 => x == y
  | 1 => x != y
  | 2 => x.slt y
  | 3 => !x.slt y
  | 4 => x.ult y
  | _ => !x.ult y

/-- ALU (R135): the 32-bit operations write s[sd]; ADD48 and SUB48 write the pair at sd modulo 2⁴⁸ with
bits above copied from bit 47 (R122). -/
def aluWrite (x : Seq) (o : Op) : Seq :=
  let b := aluOperand x o
  match o.sub % 32 with
  | 11 => x.setSigned o.sd ((x.pair48 o.sa : Int) + sext 32 b)
  | 12 => x.setSigned o.sd ((x.pair48 o.sa : Int) - sext 32 b)
  | code => x.setS o.sd (alu32 code (x.s o.sa) b)

/-- CMP (R135): the condition goes to p[pdst]. -/
def cmpWrite (x : Seq) (o : Op) : Seq :=
  x.setP o.pdst (cmpHolds (o.sub % 8) (x.s o.sa) (aluOperand x o))

/-- The signed 32-bit difference between a count target and a live position (R17). -/
def countAhead (target live : Int) : Int := sext 32 (wrapTo 32 (target - live))

/-- Whether a live position has reached a target (R17, R139): the signed difference live - target is zero
or positive. -/
def countReached (target live : Int) : Bool := decide (0 ≤ sext 32 (wrapTo 32 (live - target)))

/-- The signed 48-bit difference of two line numbers (R138, R439). -/
def lineDiff (a b : Nat) : Int := sext 48 (wrapTo 48 ((a : Int) - b))

end Sys2Proof.Machine
end

