-- ==== Sys2Proof/Machine/Links.lean ====
section
/-! DEFINITION. Rhasha packets, sorts and replies (R283 to R294): sending and replay buffers, routes, the
acceptance of replies, the inbound slots of home chases. -/

namespace Sys2Proof.Machine

/-! ### Link states and routes -/

/-- DISABLED (R280). -/
def lnkDisabled : Nat := 0
/-- DETECT. -/
def lnkDetect : Nat := 1
/-- CAP. -/
def lnkCap : Nat := 2
/-- WIDEN. -/
def lnkWiden : Nat := 3
/-- STEP. -/
def lnkStep : Nat := 4
/-- ACTIVE. -/
def lnkActive : Nat := 5
/-- RETRAIN. -/
def lnkRetrain : Nat := 6
/-- DOWN. -/
def lnkDown : Nat := 7

/-- Whether a port is ACTIVE. -/
def linkActive (s : State) (p : Nat) : Bool := s.get .rhState p == lnkActive

/-- Whether a Rhasha lane, numbered 4p + l, has qualified at its port's rate or a higher one (R430). -/
def rhLaneQualified (s : State) (lane : Nat) : Bool :=
  match s.mgmt.qualRate.get none (16 + lane) with
  | some r => decide (s.get .rhRate (lane / 4) ≤ r)
  | none => false

/-- Whether a port carries the module's traffic: ACTIVE, with no lane in use still qualifying (R429). -/
def linkServes (s : State) (p : Nat) : Bool :=
  linkActive s p && (List.range 4).all (fun l => !bitAt (s.get .rhLanes p) l || rhLaneQualified s (4 * p + l))

/-- The module number (R288). -/
def ownModule (s : State) : Nat := s.get .rhModule 0

/-- The route code of a destination module (R300). -/
def routeCode (s : State) (m : Nat) : Nat :=
  if m < 8 then bitsAt (s.get .rhRoute0 0) (4 * m) 4 else bitsAt (s.get .rhRoute1 0) (4 * (m - 8)) 4

/-- The port a destination's route leads to; nothing when it is local or unreachable (R300). -/
def routePort (s : State) (m : Nat) : Option Nat :=
  let c := routeCode s m
  if c < 4 then some c else none

/-- Whether a module can be reached now: it is this one, or its route leads to an ACTIVE port. -/
def canReach (s : State) (m : Nat) : Bool :=
  m == ownModule s || ((routePort s m).map (fun p => linkServes s p)).getD false

/-! ### Sending (R283 to R285) -/

/-- Bytes of a packet's payload: 64 and the features or output, or 32 of a CTRL message (R290, R295). -/
def bodyBytes : PktBody → Nat
  | .sort _ d => 64 + d.length
  | .reply _ d => 64 + d.length
  | .ctrl _ => 32

/-- The type byte of a data packet (R283). -/
def bodyType : PktBody → Nat
  | .sort _ _ => 1
  | .reply _ _ => 2
  | .ctrl _ => 3

/-- Bytes a packet takes in the replay buffer: header, payload, a multiple of 4 (R283), and CRC (log entry 18). -/
def packetBytes (p : Packet) : Nat := 20 + (bodyBytes p.body + 3) / 4 * 4

/-- Whether the replay buffer takes another packet: at most 1,024 packets and 256 KiB (R285). -/
def bufferRoom (l : List Packet) (n : Nat) : Bool :=
  decide (l.length < 1024) && decide ((l.map packetBytes).sum + n ≤ 262144)

/-- Number a data packet, keep it in the replay buffer and send it when the link runs (R283, R285); an
acknowledgement that is due rides along (R284). -/
def transmit (s : State) (p : Nat) (pkt : Packet) : State :=
  let x := s.port p
  let ack := if x.ackDue then some (BitVec.ofNat 12 (x.rxExpected + 4095)) else none
  let pkt1 := { pkt with hdr := { pkt.hdr with seq := BitVec.ofNat 12 x.txSeq, ack := ack } }
  let s1 := s.setPort p { x with
    txSeq := (x.txSeq + 1) % 4096, unacked := x.unacked ++ [pkt1], ackDue := false, accepted := 0 }
  if linkActive s p then s1.emit (.packet p pkt1) else s1

/-- Whether a port can send a packet of its module or of another at once: nothing waits, and the replay buffer has room
(R285). -/
def portFree (x : Port) (pkt : Packet) : Bool :=
  x.waiting.isEmpty && x.through.isEmpty && bufferRoom x.unacked (packetBytes pkt)

/-- Hand a data packet of this module to a port: sent, or kept waiting while the replay buffer is full (R285). -/
def sendOn (s : State) (p : Nat) (pkt : Packet) : State :=
  let x := s.port p
  if portFree x pkt then transmit (s.setPort p { x with lastThrough := false }) p pkt
  else s.setPort p { x with waiting := x.waiting ++ [pkt] }

/-- Hand a packet that only passes through to a port (R288). -/
def sendThrough (s : State) (p : Nat) (pkt : Packet) : State :=
  let x := s.port p
  if portFree x pkt then transmit (s.setPort p { x with lastThrough := true }) p pkt
  else s.setPort p { x with through := x.through ++ [pkt] }

/-- The packet a port sends next of those that wait, and the port without it (R288): through traffic and the module's own
alternate, through traffic first on a tie. -/
def nextWaiting (x : Port) : Option (Packet × Port) :=
  match x.through, x.waiting with
  | [], [] => none
  | t :: ts, [] => some (t, { x with through := ts, lastThrough := true })
  | [], w :: ws => some (w, { x with waiting := ws, lastThrough := false })
  | t :: ts, w :: ws =>
    if x.lastThrough then some (w, { x with waiting := ws, lastThrough := false })
    else some (t, { x with through := ts, lastThrough := true })

/-- Send what waits as far as the replay buffer has room (R285, R288). -/
def drainWaiting : Nat → State → Nat → State
  | 0, s, _ => s
  | n + 1, s, p =>
    match nextWaiting (s.port p) with
    | none => s
    | some e =>
      if bufferRoom (s.port p).unacked (packetBytes e.1) then drainWaiting n (transmit (s.setPort p e.2) p e.1) p
      else s

/-- Send everything that waits as far as there is room. -/
def drainPort (s : State) (p : Nat) : State :=
  drainWaiting ((s.port p).waiting.length + (s.port p).through.length) s p

/-- A packet of this module's own (R288): hops left 3, tagged where the link honours tags (R290). -/
def ownPacket (s : State) (p dest : Nat) (ty : BitVec 8) (body : PktBody) : Packet :=
  { hdr := { ptype := ty, tagged := s.flag .rhOrderTags p && ty != 3, seq := 0, dest := BitVec.ofNat 4 dest,
             hops := 3, src := BitVec.ofNat 4 (ownModule s), ack := none },
    body := body }

/-- Send a CTRL packet to a module that can be reached; otherwise it is dropped and counted (R288). -/
def sendCtrl (s : State) (dest : Nat) (m : CtrlMsg) : State :=
  match routePort s dest with
  | some p => if linkServes s p then sendOn s p (ownPacket s p dest 3 (.ctrl m)) else s.bump .rhUnroutable 0
  | none => s.bump .rhUnroutable 0

/-! ### Replies (R292) -/

/-- NO_EXPERT and LINK_TRAINING count the ranks marked missing with each code (R299). -/
def countMissing (s : State) (n code : Nat) : State :=
  if code = cLinkTraining then s.bump .rhLinkTraining n else s.bump .rhNoExpert n

/-- Whether a sort still awaits its reply. -/
def SortOut.awaits (x : SortOut) : Bool := x.fate == .waiting

/-- Mark missing every awaited sort of a chase that `p` holds for (R292). -/
def markMissing (s : State) (n code : Nat) (p : SortOut → Bool) : State :=
  let c := s.chase n
  let hit := c.sorts.filter (fun x => x.awaits && p x)
  hit.foldl (fun s _ => countMissing s n code)
    (s.setChase n { c with
      sorts := c.sorts.map (fun x => if x.awaits && p x then { x with fate := .missing code } else x) })

/-- Whether a reply answers a sort that still awaits one (R292): handle, item and generations agree. -/
def answersSort (h : SortHdr) (x : SortOut) : Bool :=
  x.awaits && x.hdr.handle == h.handle && x.hdr.item == h.item && x.hdr.genChase == h.genChase &&
    x.hdr.genCtx == h.genCtx

/-- A reply reaches the sender chase (R292): accepted into its rank (arrivals stand at the end of the list, in
their order), marked missing by NO_EXPERT, or stale. -/
def acceptReply (s : State) (h : SortHdr) (output : List Byte) : State :=
  let n := h.srcChase.toNat
  let c := s.chase n
  match c.sorts.find? (answersSort h) with
  | none => s.bump .rhStale n
  | some x =>
    let rest := c.sorts.erase x
    if h.status = 0 then
      s.setChase n { c with sorts := rest ++ [{ x with fate := .arrived output }] }
    else
      countMissing (s.setChase n { c with sorts := rest ++ [{ x with fate := .missing cNoExpert }] }) n
        cNoExpert

/-- The header of the reply to a sort (R290): every field unchanged but kind, status and length. -/
def replyHdr (h : SortHdr) (status n : Nat) : SortHdr :=
  { h with kind := 2, status := byteOf status, length := n }

/-- Send the reply to a sort towards its sender (R288, R290); an undeliverable one is dropped and counted. -/
def sendReply (s : State) (h : SortHdr) (status : Nat) (output : List Byte) : State :=
  let r := replyHdr h status output.length
  if h.srcMod.toNat = ownModule s then acceptReply s r output
  else
    match routePort s h.srcMod.toNat with
    | some p =>
      if linkServes s p then sendOn s p (ownPacket s p h.srcMod.toNat 2 (.reply r output))
      else s.bump .rhUnroutable 0
    | none => s.bump .rhUnroutable 0

/-! ### The inbound slots of a home chase (R293) -/

/-- The lowest free inbound slot. -/
def freeSlot (c : Chase) : Option Nat := (List.range 64).find? (fun i => (c.inbound.get none i).isNone)

/-- Whether an epoch is another or the one before it, in 16 bits (R293, R295). -/
def nearEpoch (epoch now : Nat) : Bool := epoch == now || (epoch + 1) % 65536 == now

/-- Whether a home chase accepts a sort's epoch: its current one, the committed one, or the one before either (R293,
R296). -/
def epochServed (s : State) (n epoch : Nat) : Bool :=
  nearEpoch epoch (s.get .rhEpoch n) ||
    (match (s.chase n).pendEpoch with
     | some e => nearEpoch epoch e.1
     | none => false)

/-- A sort reaches its home module (R293): it takes a slot of the home chase, or is refused at once. -/
def deliverSort (s : State) (h : SortHdr) (payload : List Byte) : State :=
  let n := h.dstChase.toNat
  let c := s.chase n
  let refuse := fun (s : State) => sendReply (s.bump .rhSortRefused n) h cNoExpert []
  if s.get .chState n != 3 || !epochServed s n h.epoch.toNat then refuse s
  else
    match freeSlot c with
    | none => refuse s
    | some i =>
      s.setChase n { c with inbound := c.inbound.set i (some ⟨h, payload, false⟩),
                            inOrder := c.inOrder ++ [i] }

/-- A CHASE reset, CHASE_STOP or trap of a home chase answers every occupied slot with NO_EXPERT (R293). -/
def answerInbound (s : State) (n : Nat) : State :=
  let held := (List.range 64).filterMap (fun i => (s.chase n).inbound.get none i)
  let c := s.chase n
  held.foldl (fun s x => sendReply s x.hdr cNoExpert [])
    (s.setChase n { c with inbound := .empty, inOrder := [] })

end Sys2Proof.Machine
end

