-- ==== Sys2Proof/Machine/Issue.lean ====
section
/-! DEFINITION. The issue of a Zarson instruction: the checks of R464 and R128 in their order, the trap
(R165, R169), predication (R121), the units an instruction names (R130) and retirement. -/

namespace Sys2Proof.Machine

/-! ### Orphans and traps -/

/-- Every open item becomes an orphan (R196). -/
def Chase.orphanAll (c : Chase) : Chase :=
  { c with items := ⟨c.items.entries.map (fun e => (e.1, e.2.map (fun it => { it with orphan := true })))⟩ }

/-- Stop a sequencer that runs. -/
def Seq.stop (x : Seq) (r : SeqRun) : Seq :=
  if x.run = .running then { x with run := r, wait := .none } else x

/-- Stop every sequencer of a chase. -/
def Chase.stopAll (c : Chase) : Chase :=
  { c with line := c.line.stop .idle,
           streams := ⟨c.streams.entries.map (fun e => (e.1, e.2.stop .idle))⟩ }

/-- The logical core a trap names (R169): the line sequencer's is the lead core. -/
def trapCoreOf (s : State) (q : SeqId) : Nat :=
  match q.core with
  | none => leadCore s q.chase.val
  | some l => l.val

/-- Whether a trap comes before the one latched in the same cycle (R169): the line sequencer's first, then that of the
lowest logical core. -/
def trapFirst (s : State) (q : SeqId) : Bool :=
  let n := q.chase.val
  match (s.chase n).trapPeers with
  | some (t, true, _) =>
    t == s.clk && !s.flag .trapLine n &&
      (q.core.isNone || decide (trapCoreOf s q < s.get .trapCore n))
  | _ => false

/-- Latch a trap (R169): the first since valid was cleared, of those of one cycle the line sequencer's or the lowest
core's; every other one sets only multiple. -/
def latchTrap (s : State) (q : SeqId) (o : Op) (pc cause : Nat) : State :=
  let n := q.chase.val
  let s1 := s.bump .trapCount n
  if s.flag .trapValid n && !trapFirst s q then s1.put .trapMultiple n 1
  else
    (((((((s1.put .trapCause n cause).put .trapCore n (trapCoreOf s q)).put .trapLine n (b2n q.core.isNone)).put
      .trapMultiple n (b2n (s.flag .trapValid n))).put .trapPc n pc).put .trapW0 n (o.word % 2 ^ 32)).put
      .trapW2 n (bitsAt o.word 64 32)).put .trapValid n 1

/-- The sequencers of a chase that could issue in the cycle of a trap: theirs may trap in the same cycle (R169). -/
def trapPeersOf (s : State) (q : SeqId) : List (Option Nat) :=
  let c := s.chase q.chase.val
  let others := (none, c.line) :: c.streams.entries.map (fun e => (some e.1, e.2))
  (others.filter (fun e => e.1 != q.core.map Fin.val && e.2.run == .running && e.2.wait == .none)).map (fun e => e.1)

/-- Whether a sequencer that another's trap has just stopped traps in the same cycle (R169). -/
def canTrapToo (s : State) (q : SeqId) : Bool :=
  match (s.chase q.chase.val).trapPeers with
  | some (t, _, l) => s.get .chState q.chase.val == 5 && t == s.clk && l.contains (q.core.map Fin.val)
  | none => false

/-- What a chase keeps of the traps of one cycle (R169): the cycle, whether the trap latched is of it, and the sequencers
that may still trap in it. -/
def notePeers (s : State) (q : SeqId) : Option (Nat × Bool × List (Option Nat)) :=
  let n := q.chase.val
  if canTrapToo s q then
    (s.chase n).trapPeers.map (fun p => (p.1, p.2.1, p.2.2.filter (fun l => l != q.core.map Fin.val)))
  else some (s.clk, !s.flag .trapValid n, trapPeersOf s q)

/-- Raise a trap (R165): the sequencers of the chase stop, TRAP_CAUSE latches, the chase becomes TRAPPED,
its items become orphans (R196), its inbound sorts are answered (R293) and event 0x0004 is logged. -/
def raiseTrap (s : State) (q : SeqId) (o : Op) (pc cause : Nat) : State :=
  let n := q.chase.val
  let s1 := latchTrap s q o pc cause
  let c := { s1.chase n with trapPeers := notePeers s q }
  let c1 := (c.setSeq q.core { c.seq q.core with run := .trapped, wait := .none }).stopAll.orphanAll
  let s2 := answerInbound ((s1.setChase n c1).put .chState n 5) n
  logEvent s2 0x0004 (0x20 + n) 2 [n, cause, pc, 0]

/-! ### Undefined codes, reserved fields, capabilities, register numbers -/

/-- Field ranges of the word (R119): first bit and length. -/
def fSat : Nat × Nat := (17, 1)
/-- emask. -/
def fEmask : Nat × Nat := (18, 4)
/-- pdst. -/
def fPdst : Nat × Nat := (22, 4)
/-- sub bits `[i + n - 1 : i]`. -/
def fSub (i n : Nat) : Nat × Nat := (26 + i, n)
/-- dd. -/
def fDd : Nat × Nat := (32, 5)
/-- da. -/
def fDa : Nat × Nat := (37, 5)
/-- db. -/
def fDb : Nat × Nat := (42, 5)
/-- dc. -/
def fDc : Nat × Nat := (47, 5)
/-- sd. -/
def fSd : Nat × Nat := (52, 6)
/-- sa. -/
def fSa : Nat × Nat := (58, 6)
/-- imm0 bits from 0. -/
def fImm0 (n : Nat) : Nat × Nat := (64, n)
/-- imm1 bits from 0. -/
def fImm1 (n : Nat) : Nat × Nat := (96, n)

/-- Bits `[i + n - 1 : i]` of imm0. -/
def fImm0At (i n : Nat) : Nat × Nat := (64 + i, n)
/-- Bits `[i + n - 1 : i]` of imm1. -/
def fImm1At (i n : Nat) : Nat × Nat := (96 + i, n)

/-- The fields an instruction names (R134, R142, R145, R151, R153, R157, R162), by class and opcode; none
for an undefined opcode.  Of sub, imm0 and imm1 only the bits the tables name, and no register field the instruction's
mode does not use (R120).  `ring` tells that a class T instruction names a ring, whose line is sa (R145); `galley` that
an LD.T reads a galley, the one form that uses sa, sd and pdst (R143). -/
def namedFields (o : Op) (ring galley : Bool) : Option (List (Nat × Nat)) :=
  let t := fun l => some (if ring then fSa :: l else l)
  let bias := fun l => if bitAt o.sub 0 then fDc :: l else l
  let second := if bitAt o.sub 5 then fImm0 6 else fImm0 32
  match o.cls, o.opcode with
  | 0, 0x00 => some [fImm0 16]
  | 0, 0x01 => some [fSd, fSub 0 1, fImm0 32, fImm1 32]
  | 0, 0x02 => some [fSd, fSa, fSub 0 6, second]
  | 0, 0x03 => some [fPdst, fSa, fSub 0 3, fSub 5 1, second]
  | 0, 0x04 => some [fDd, fImm0 12]
  | 0, 0x05 => some [fDd, fSa]
  | 0, 0x08 =>
    if bitAt o.sub 0 then some [fSa, fSub 0 1, fImm0 32, fImm1 13] else some [fSub 0 1, fImm0 32, fImm1 13]
  | 0, 0x09 => some [fImm0 13]
  | 0, 0x0A => if o.sub % 4 = 0 then some [fSub 0 2, fImm0 7] else some [fSub 0 2, fImm0 4, fImm1 32]
  | 0, 0x0C => some [fSd, fSa, fPdst, fSub 0 4, fImm0 32]
  | 0, 0x0D => some [fSd, fSa, fPdst, fSub 0 4, fImm0 32]
  | 0, 0x0E => some []
  | 0, 0x0F => some [fImm0 16]
  | 1, 0x01 => if galley then some [fDd, fDa, fSa, fSd, fPdst] else some [fDd, fDa]
  | 1, 0x02 => some [fDd, fDa]
  | 1, 0x03 => some [fDd, fDa, fSub 0 1]
  | 1, 0x04 => some [fDd, fDa]
  | 2, 0x01 => t (bias [fDd, fDa, fDb, fEmask, fSub 0 1, fImm0 14])
  | 2, 0x02 => t (bias [fDd, fDa, fDb, fEmask, fSub 0 1, fImm0 14])
  | 2, 0x03 => some (bias [fDd, fDa, fDb, fEmask, fSub 0 1])
  | 2, 0x04 => t [fDd, fDa, fImm0 14]
  | 2, 0x05 => t [fDd, fDa, fImm0 14]
  | 2, 0x06 => t [fDd, fDa, fDb, fSat]
  | 2, 0x07 => t [fDd, fDa, fDb, fSat]
  | 2, 0x08 => t [fDd, fDa, fSub 0 4, fImm0 32, fImm1 32, fSat]
  | 2, 0x09 =>
    if bitAt o.sub 0 then t [fDd, fDa, fSub 0 3, fImm0 32, fImm1 5, fImm1At 8 8, fSat]
    else t [fDd, fDa, fSub 0 3, fImm0 32, fImm1 8, fSat]
  | 2, 0x0A => if bitAt o.sub 0 then t [fDd, fDa, fSub 0 1, fImm0 32, fImm1 8] else t [fDd, fDa, fSub 0 1]
  | 2, 0x0B => t [fDd, fDa, fImm0 2]
  | 3, 0x01 => some [fDd, fDa, fDb, fImm0 1, fImm0At 4 4, fImm0At 16 10, fImm1 32]
  | 3, 0x02 => some [fDd, fDa, fSd, fImm0 9, fImm0At 16 8]
  | 3, 0x03 =>
    match o.sub % 4 with
    | 0 => some [fDb, fSa, fSub 0 2]
    | 1 => some [fDd, fDa, fDc, fSa, fSub 0 2]
    | _ => some [fDd, fSa, fSub 0 2]
  | 3, 0x04 => some [fDd, fDa, fImm0 8]
  | 4, 0x01 => some [fDd, fDa, fImm0 3]
  | 4, 0x02 => if bitAt o.sub 0 then some [fDa, fSa, fSd, fSub 0 1] else some [fDa, fDb, fSa, fSd, fSub 0 1]
  | 4, 0x03 =>
    if bitAt o.sub 0 then some [fDd, fSd, fPdst, fSub 0 1, fImm0 32]
    else some [fDd, fSd, fSa, fPdst, fSub 0 1, fImm0 32]
  | 4, 0x04 => some [fDd, fDa, fDb]
  | 5, 0x01 =>
    if bitAt o.sub 5 then some [fSa, fPdst, fSub 5 1, fImm0 24, fImm1 32]
    else some [fSa, fSd, fPdst, fSub 0 4]
  | 5, 0x02 => some [fSa, fPdst, fSub 0 4, fImm1 32]
  | 5, 0x03 => some [fSa, fPdst, fSub 0 4, fImm0 4, fImm0At 8 8]
  | 5, 0x04 => some [fSd, fSub 0 4]
  | 6, 0x01 => some [fSa, fSd, fPdst, fSub 0 4, fImm0 3]
  | 6, 0x02 => some [fPdst, fImm0 2, fImm1 32]
  | 6, 0x03 => some [fSa, fSd, fPdst, fImm0 5]
  | 6, 0x04 => some [fSd, fPdst, fSub 0 2, fImm0 6]
  | _, _ => none

/-- Whether every bit outside the guard, the opcode and the named fields is 0 (R120). -/
def reservedZero (o : Op) (named : List (Nat × Nat)) : Bool :=
  (List.range 111).all (fun i =>
    let b := i + 17
    !bitAt o.word b || named.any (fun r => decide (r.1 ≤ b) && decide (b < r.1 + r.2)))

/-- An undefined value of a named code field (R166 cause 0x02, R137). -/
def codeUndefined (o : Op) (line : Bool) : Bool :=
  match o.cls, o.opcode with
  | 0, 0x02 => decide (12 < o.sub % 32)
  | 0, 0x03 => decide (5 < o.sub % 8)
  | 0, 0x0A => o.sub % 4 == 3 || (o.sub % 4 == 1 && line)
  | 2, 0x08 => decide (8 ≤ o.sub % 16)
  | 2, 0x0B => o.imm0 % 4 == 3
  | 3, 0x03 => o.sub % 4 == 3
  | 6, 0x02 => o.imm0 % 4 == 3
  | 6, 0x04 => o.sub % 4 == 3
  | _, _ => false

/-- Whether a class runs on this kind of sequencer (R129). -/
def classRuns (cls : Nat) (line : Bool) : Bool :=
  if line then cls == 0 || cls == 1 || cls == 4 || cls == 5 || cls == 6
  else decide (cls ≤ 3)

/-- How an instruction names a descriptor: register, spaces allowed (R127, R142), arithmetic operand. -/
structure Use where
  reg    : Nat
  spaces : List Nat
  arith  : Bool

/-- The descriptors an instruction names, in the order dd, da, db, dc (R128). -/
def uses (o : Op) : List Use :=
  let own := fun r => (⟨r, [0], true⟩ : Use)
  let raw := fun r => (⟨r, [0], false⟩ : Use)
  match o.cls, o.opcode with
  | 1, 0x01 => [⟨o.dd, [0], false⟩, ⟨o.da, [1, 2, 3, 5], false⟩]
  | 1, 0x02 => [⟨o.dd, [1, 2, 3, 4], false⟩, ⟨o.da, [0], false⟩]
  | 1, 0x03 => [⟨o.dd, [0, 1, 2, 3], false⟩, ⟨o.da, [0, 1, 2, 3], false⟩]
  | 1, 0x04 => [raw o.dd, raw o.da]
  | 2, 0x01 => [own o.dd, own o.da, own o.db] ++ (if bitAt o.sub 0 then [own o.dc] else [])
  | 2, 0x02 => [own o.dd, own o.da, own o.db] ++ (if bitAt o.sub 0 then [own o.dc] else [])
  | 2, 0x03 => [own o.dd, own o.da, own o.db] ++ (if bitAt o.sub 0 then [own o.dc] else [])
  | 2, 0x06 => [own o.dd, own o.da, own o.db]
  | 2, 0x07 => [own o.dd, own o.da, own o.db]
  | 2, _ => [own o.dd, own o.da]
  | 3, 0x01 => [raw o.dd, own o.da, own o.db]
  | 3, 0x02 => [raw o.dd, raw o.da]
  | 3, 0x03 =>
    match o.sub % 4 with
    | 0 => [raw o.db]
    | 1 => [own o.da, own o.dc]
    | _ => [raw o.dd]
  | 3, 0x04 => [raw o.dd, own o.da]
  | 4, 0x01 => [raw o.dd, own o.da]
  | 4, 0x02 => if bitAt o.sub 0 then [raw o.da] else [raw o.da, raw o.db]
  | 4, 0x03 => [raw o.dd]
  | 4, 0x04 => [raw o.dd, raw o.da, raw o.db]
  | _, _ => []

/-- The descriptors an instruction names, taken apart. -/
def usedDescs (x : Seq) (o : Op) : List Desc := (uses o).map (fun u => descOf (x.d u.reg))

/-- The capability bits an instruction needs (R171): formats, group scales, ROT, run-zero, DIMS, proof-mode
COMBINE, TRIG. -/
def capsNeeded (s : State) (n : Nat) (x : Seq) (o : Op) : List Nat :=
  let ds := usedDescs x o
  let fmts := ds.map (fun d => d.code)
  (if fmts.any (fun f => f == 7 || f == 8) then [0] else []) ++
  (if fmts.any (fun f => f == 4 || f == 12) then [1] else []) ++
  (if ds.any (fun d => d.grouped && (d.code == 5 || d.code == 7)) then [2] else []) ++
  (if o.cls = 2 ∧ o.opcode = 0x0B then [3] else []) ++
  (if (o.cls = 1 ∧ o.opcode = 0x04) ∨ ds.any (fun d => d.layout == 2) then [4] else []) ++
  (if o.cls = 3 ∧ o.opcode = 0x03 then [5] else []) ++
  (if o.cls = 4 ∧ o.opcode = 0x04 ∧ s.flag .chProof n then [6] else []) ++
  (if o.cls = 5 ∧ o.opcode = 0x03 then [9] else [])

/-- Whether an instruction lies beyond the forme's level or capability mask (R170, R171). -/
def beyondLevel (s : State) (n : Nat) (x : Seq) (o : Op) : Bool :=
  match (s.chase n).forme with
  | none => false
  | some f =>
    (capsNeeded s n x o).any (fun b => !bitAt f.caps b) ||
      (f.level == 1 && o.cls == 6 && (o.opcode == 0x02 || (o.opcode == 0x04 && o.sub % 4 == 2)))

/-- Whether a register pair, quad or group is misaligned (R122). -/
def misaligned (x : Seq) (o : Op) : Bool :=
  let odd := fun r => r % 2 != 0
  match o.cls, o.opcode with
  | 0, 0x01 => bitAt o.sub 0 && odd o.sd
  | 0, 0x02 => (o.sub % 32 == 11 || o.sub % 32 == 12) && (odd o.sd || odd o.sa)
  | 0, 0x0C => odd o.sd || odd o.sa
  | 0, 0x0D => odd o.sa
  | 1, 0x01 => (descOf (x.d o.da)).space == 5 && odd o.sa
  | 4, 0x03 => bitAt o.sub 0 && odd o.sd
  | 5, 0x01 => !bitAt o.sub 5 && o.sa % 4 != 0
  | 5, 0x02 => odd o.sa
  | 5, 0x03 => odd o.sa
  | 5, 0x04 => o.sd % 4 != 0
  | 6, 0x01 => odd o.sa || odd o.sd
  | 6, 0x03 => o.sa % 16 != 0
  | _, _ => false

/-- Branch target or loop body outside the program region, then nesting (R136, R464). -/
def flowTrap (x : Seq) (o : Op) : Option Nat :=
  match o.cls, o.opcode with
  | 0, 0x08 =>
    if x.hi < x.pc + 1 + o.imm1 % 8192 then some 0x0B
    else if 4 ≤ x.loops.length then some 0x0A
    else none
  | 0, 0x09 => if o.imm0 % 8192 < x.lo ∨ x.hi ≤ o.imm0 % 8192 then some 0x0B else none
  | _, _ => none

/-! ### Descriptors (R128) -/

/-- The layouts a format may take (R71, R80). -/
def layoutOk (f : Fmt) (l : Nat) : Bool :=
  match f with
  | .u8 | .s8 | .s4 | .e4m3 | .e5m2 => l == 0 || l == 2 || l == 3
  | .sb4 | .s32 | .f32 => l == 0 || l == 3
  | .f16 | .bf16 | .u16 => l == 1 || l == 3
  | .u12p => l == 3

/-- Alignment and stride rules of R72; the smallest record of a run-zero row is its masks (R80). -/
def strideBad (d : Desc) : Bool :=
  (d.space != 5 && d.base % (if d.fmt = .s4 then 32 else 64) != 0) ||
    (if d.layout = 3 then d.strideCb != 0 || decide (d.strideH < max 1 d.rowBytes)
     else d.strideH % 64 != 0 || d.strideCb % 64 != 0 || decide (d.strideCb < d.w * d.vec)) ||
    (d.layout == 2 && decide (d.zslot * 64 < d.w * 4))

/-- Kernel or window height of R146. -/
def kernH (o : Op) : Nat := bitsAt o.imm0 0 4 + 1
/-- Kernel or window width. -/
def kernW (o : Op) : Nat := bitsAt o.imm0 4 4 + 1
/-- Vertical stride. -/
def kernSh (o : Op) : Nat := bitsAt o.imm0 8 3 + 1
/-- Horizontal stride. -/
def kernSw (o : Op) : Nat := bitsAt o.imm0 11 3 + 1

/-- Slices an engine takes per cycle (R73). -/
def slicesPerCycle (f : Fmt) : Nat :=
  match f with
  | .s4 | .sb4 => 4
  | .f16 | .bf16 => 1
  | _ => 2

/-- Elements the weight tensor of an engine instruction must hold (R147). -/
def weightElems (o : Op) (dd da db : Desc) : Nat :=
  let q := slicesPerCycle db.fmt
  if o.opcode = 0x02 then (dd.c + 31) / 32 * (kernH o * kernW o) * 32
  else (dd.c + 31) / 32 * ((kernH o * kernW o * ((da.c + 31) / 32) + q - 1) / q) * (32 * q * 32)

/-- The paths of R51. -/
inductive Path where
  | integer | scaled | float
  deriving DecidableEq, Repr

/-- The path an activation and a weight operand take, if R51 has the pair. -/
def pathOf (a w : Desc) : Option Path :=
  match a.fmt, w.fmt with
  | .u8, .s8 => if a.grouped || w.grouped then none else some .integer
  | .s8, .s8 => if a.grouped || w.grouped then some .scaled else some .integer
  | .s4, .s4 => some .integer
  | .sb4, .sb4 => some .scaled
  | .f16, .f16 => some .float
  | .bf16, .bf16 => some .float
  | .e4m3, .e4m3 => if a.grouped || w.grouped then some .scaled else some .float
  | .e4m3, .e5m2 => if a.grouped || w.grouped then some .scaled else some .float
  | .e5m2, .e4m3 => if a.grouped || w.grouped then some .scaled else some .float
  | .e5m2, .e5m2 => if a.grouped || w.grouped then some .scaled else some .float
  | _, _ => none

/-- Whether an instruction is an engine instruction. -/
def isEngineOp (o : Op) : Bool := o.cls == 2 && (o.opcode == 1 || o.opcode == 2 || o.opcode == 3)

/-- Elements of a tensor. -/
def Desc.elems (d : Desc) : Nat := d.w * d.h * (if d.layout = 3 then 1 else d.c)

/-- Shape limits of the `i`-th descriptor an instruction names (R86, R92, R95, R106, R142, R145, R147, R153): an engine
instruction without an engine (log entry 105), a GEMM with a ring, a ZPACK that is not from dense CB32 to run-zero, values past those a
unit takes. -/
def shapeBad (x : Seq) (o : Op) (i : Nat) (d : Desc) : Bool :=
  let ds := usedDescs x o
  match o.cls, o.opcode with
  | 1, 0x03 => d.layout != 3 || decide (65536 < d.rowBytes)
  | 1, 0x04 => d.layout != (if i = 0 then 2 else 0)
  | 3, 0x04 => i == 1 && (d.fmt != .f32 || decide (65536 < d.elems))
  | 4, 0x01 => i == 1 && decide (256 < d.elems)
  | 4, 0x02 => bitAt o.sub 0 && decide (512 < d.elems)
  | 4, 0x04 => i == 0 && decide (512 < d.elems)
  | 2, 0x04 => decide (8 < kernH o) || decide (8 < kernW o)
  | 2, 0x05 => decide (8 < kernH o) || decide (8 < kernW o)
  | _, _ =>
    if isEngineOp o then
      (o.opcode == 0x03 && decide (i ≤ 1) && d.ring != 0) ||
      match i with
      | 0 => o.emask == 0
      | 2 => d.layout != 3 ||
          d.w * d.h != weightElems o (ds.getD 0 d) (ds.getD 1 d) d
      | 3 => d.layout != 3 || d.w * d.h != (ds.getD 0 d).c
      | _ => false
    else false

/-- Whether an instruction would convert the `i`-th descriptor's values where R44 has no conversion: into SB4 without
QUANT with group scales, out of SB4 without DEQ, into U12P; a move between two tensors of one format converts nothing.
DESIGN CHOICE (log entry 88): R44 names no trap; the instruction traps as with a pair that is not allowed, 0x07.  So does
a ROT whose destination is not F32: R60 sends ROT's output to F32 and lets only QUANT narrow it. -/
def convBad (x : Seq) (o : Op) (i : Nat) (d : Desc) : Bool :=
  let dst := descOf (x.d o.dd)
  match o.cls, o.opcode with
  | 1, 0x03 => false
  | 1, _ =>
    i == 1 &&
      (if o.opcode = 0x01 ∧ d.space = 5 then dst.fmt == .sb4 || dst.fmt == .u12p
       else (d.fmt == .sb4 || dst.fmt == .sb4 || dst.fmt == .u12p) && d.fmt != dst.fmt)
  | 2, _ =>
    !isEngineOp o &&
      ((i == 1 && ((dst.fmt == .sb4 && !(o.opcode == 0x09 && bitAt o.sub 2)) || (o.opcode == 0x0B && dst.fmt != .f32)))
        || (decide (1 ≤ i) && d.fmt == .sb4 && o.opcode != 0x0A))
  | 3, 0x01 => decide (1 ≤ i) && d.fmt == .sb4
  | 4, 0x01 => i == 1 && d.fmt == .sb4
  | _, _ => false

/-- Format pairs (R51), conversions (R44) and U12P as an arithmetic operand (R34), for the `i`-th descriptor. -/
def pairBad (x : Seq) (o : Op) (i : Nat) (u : Use) (d : Desc) : Bool :=
  let ds := usedDescs x o
  (u.arith && d.fmt == .u12p) || convBad x o i d ||
    (isEngineOp o &&
      (match i with
       | 2 => (pathOf (ds.getD 1 d) d).isNone
       | 3 => match pathOf (ds.getD 1 d) (ds.getD 2 d) with
          | some .integer => d.fmt != .s32
          | _ => d.fmt != .f32
       | _ => false))

/-- The context bound to a slot of a chase (R180). -/
def slotCtx (s : State) (n slot : Nat) : Option Nat :=
  (List.range 16).find? (fun k =>
    s.flag .ctxBound k && s.get .ctxChase k == n && s.get .ctxSlot k == slot)

/-- Past the last byte of the scale plane an instruction reads or writes of its `i`-th descriptor (R49, R149): SB4 weights
have a second-level scale an output channel, QUANT's per-channel factors take 8 or 4 bytes a channel; 0 without a plane. -/
def planeOf (x : Seq) (o : Op) (i : Nat) (d : Desc) : Nat :=
  if isEngineOp o ∧ i = 2 then d.planeEnd (descOf (x.d o.dd)).c
  else if o.cls = 2 ∧ o.opcode = 0x09 ∧ i = 0 ∧ bitAt o.sub 1 then
    max d.scaleEnd (d.scaleBase + (if bitAt o.sub 0 then 8 else 4) * (if d.layout = 3 then d.w else d.c))
  else d.scaleEnd

/-- Space not allowed, or an address outside the chase's region (R92, R127). -/
def spaceBad (s : State) (q : SeqId) (x : Seq) (o : Op) (i : Nat) (u : Use) (d : Desc) : Bool :=
  !u.spaces.contains d.space ||
    (d.space == 1 && decide ((s.chase q.chase.val).cores.length ≤ d.core)) ||
    (decide (4 ≤ d.space) && (slotCtx s q.chase.val (d.core % 16)).isNone) ||
    (decide (d.space < 4) &&
      (!inRegion s q d d.base (d.base + d.extent) ||
        (planeOf x o i d != 0 && !inRegion s q d d.scaleBase (planeOf x o i d))))

/-- grouped or the tensor scale not as the format has them (R125, R128). -/
def scalesBad (d : Desc) : Bool :=
  (d.fmt == .sb4 && !d.grouped) ||
    (!(d.grouped && (d.fmt == .s8 || d.fmt == .e4m3)) && d.tscale != 0x3F800000)

/-- The first failing check of one descriptor, in the order of R128's table. -/
def descTrap (s : State) (q : SeqId) (x : Seq) (o : Op) (i : Nat) (u : Use) : Option Nat :=
  let d := descOf (x.d u.reg)
  match fmtOf d.code with
  | none => some 0x06
  | some f =>
    if !layoutOk f d.layout then some 0x06
    else if scalesBad d then some 0x06
    else if strideBad d then some 0x06
    else if shapeBad x o i d then some 0x06
    else if pairBad x o i u d then some 0x07
    else if spaceBad s q x o i u d then some 0x08
    else if d.space = 3 ∧ !x.inLoose then some 0x09
    else none

/-- The first failing descriptor check of an instruction. -/
def descsTrap (s : State) (q : SeqId) (x : Seq) (o : Op) : List Use → Nat → Option Nat
  | [], _ => none
  | u :: us, i =>
    match descTrap s q x o i u with
    | some c => some c
    | none => descsTrap s q x o us (i + 1)

/-- The entries of the descriptor table bank of the placement in use (R465): its place in the image and the
number of entries. -/
def descBank (s : State) (n : Nat) : Nat × Nat :=
  match (s.chase n).forme with
  | none => (0, 0)
  | some f =>
    match f.sections.find? (fun sec => sec.ty == 0x04) with
    | none => (0, 0)
    | some sec =>
      let at0 := f.addr + sec.offset
      let per := memNat s.lpddr (at0 + 2) 2
      (at0 + 16 + s.get .chPlacement n * per * 32, per)

/-- Whether two rectangles of equal row count overlap as byte sets (R95). -/
def rectOverlap (b1 s1 l1 b2 s2 l2 rows : Nat) : Bool :=
  (List.range rows).any (fun i => (List.range rows).any (fun j =>
    decide (b1 + i * s1 < b2 + j * s2 + l2) && decide (b2 + j * s2 < b1 + i * s1 + l1)))

/-- Illegal copy geometry (R95): an overlapping pair with unequal strides (L > S fails R72 before).  DESIGN CHOICE (log
entry 89): the spec does not say what a copy does whose rectangles differ in row length or row count; it is an illegal
geometry too. -/
def copyGeometryBad (s : State) (q : SeqId) (x : Seq) (o : Op) : Bool :=
  let d := descOf (x.d o.dd)
  let a := descOf (x.d o.da)
  let md := spaceBase s q d
  let ma := spaceBase s q a
  decide (d.rowBytes ≠ a.rowBytes) || decide (d.h ≠ a.h) ||
    (md.1 == ma.1 && d.strideH != a.strideH &&
      rectOverlap (md.2 + d.base) d.strideH d.rowBytes (ma.2 + a.base) a.strideH a.rowBytes d.h)

/-- Bytes of a sort's payload: the elements of the descriptor (R290, R153). -/
def payloadBytes (d : Desc) : Nat := packedBytes d.fmt d.elems

/-- The checks after the descriptors: QUOIN outside a loose section, DLD beyond its bank, copy geometry,
sort payload, reduction length, TRAP (R464 steps 8 to 10). -/
def lateTrap (s : State) (q : SeqId) (x : Seq) (o : Op) : Option Nat :=
  match o.cls, o.opcode with
  | 0, 0x04 => if (descBank s q.chase.val).2 ≤ o.imm0 % 4096 then some 0x06 else none
  | 0, 0x0F => some 0x0E
  | 1, 0x03 => if copyGeometryBad s q x o then some 0x06 else none
  | 2, 0x01 => if 2 ^ 24 < kernH o * kernW o * (descOf (x.d o.da)).c then some 0x0F else none
  | 2, 0x03 => if 2 ^ 24 < (descOf (x.d o.da)).c then some 0x0F else none
  | 4, 0x02 => if bitAt o.sub 0 = false ∧ 1920 < payloadBytes (descOf (x.d o.da)) then some 0x0D else none
  | 6, 0x04 => if x.inLoose then none else some 0x09
  | _, _ => none

/-- The trap an instruction raises at issue, if any: the first failing check of R464, made whether or not
the instruction executes (R121).  The TRAP instruction itself traps only when it executes. -/
def issueTrap (s : State) (q : SeqId) (x : Seq) (o : Op) : Option Nat :=
  let line := q.core.isNone
  let ring := (usedDescs x o).any (fun d => d.ring != 0)
  if 7 ≤ o.cls then some 0x01
  else if !classRuns o.cls line then some 0x03
  else
    match namedFields o ring ((descOf (x.d o.da)).space == 5) with
    | none => some 0x02
    | some named =>
      if codeUndefined o line then some 0x02
      else if !reservedZero o named then some 0x04
      else if beyondLevel s q.chase.val x o then some 0x05
      else if misaligned x o then some 0x0C
      else
        match flowTrap x o with
        | some c => some c
        | none =>
          match descsTrap s q x o (uses o) 0 with
          | some c => some c
          | none =>
            if o.cls = 0 ∧ o.opcode = 0x0F ∧ x.executes o = false then none
            else lateTrap s q x o

/-! ### Units (R130) -/

/-- The cluster of a floor-plan core (R434). -/
def clusterOf (core : Nat) : Nat := core / 8

/-- The units an M, T or P instruction is handed to, with the core or cluster they belong to (R130, R142,
R145, R151). -/
def unitsOf (s : State) (q : SeqId) (o : Op) : List (Nat × UnitId) :=
  let core := ownCore s q
  let port : Fin 2 := if q.core.isNone then 1 else 0
  match o.cls, o.opcode with
  | 1, 0x01 => [(core, .port port)]
  | 1, 0x02 => [(core, .port port)]
  | 1, 0x03 => [(clusterOf core, .copy (if bitAt o.sub 0 then 1 else 0))]
  | 1, 0x04 => [(core, .vector)]
  | 2, _ =>
    if isEngineOp o then
      ([0, 1, 2, 3] : List (Fin 4)).filterMap
        (fun e => if bitAt o.emask e.val then some (core, .engine e) else none)
    else [(core, .vector)]
  | 3, _ => [(clusterOf core, .post)]
  | _, _ => []

/-- Whether a unit is at work for this chase. -/
def unitBusy (s : State) (n : Nat) (u : Nat × UnitId) : Bool :=
  (s.chase n).busy.any (fun b => b.place == u.1 && b.unit == u.2)

/-- Overwrite a byte range with free values (R132). -/
def havoc (s : State) (w : Span) : State :=
  let bytes := (List.range (w.2.2 - w.2.1)).map (fun i => byteOf (Config.freeValue (s.free + i)))
  let s1 := s.setMem w.1 (memStore (s.memOf w.1) w.2.1 bytes)
  { s1 with free := s.free + bytes.length }

/-- Where an instruction writes bytes another unit is still reading, that unit's result is not defined: its
destination takes free values (R132, log entry 9). -/
def disturb (s : State) (n : Nat) (writes : List Span) : State :=
  ((s.chase n).busy.filter (fun b => b.reads.any (fun r => writes.any (Span.meets r)))).foldl
    (fun s b => b.writes.foldl havoc s) s

/-- Mark the units of an instruction busy until their UNIT_COMPLETION (R130): with the bytes it reads and writes, whether
it runs as furniture (R121), and a copy's rows as they were (R96). -/
def occupy (s : State) (q : SeqId) (o : Op) (reads writes : List Span) (furniture : Bool)
    (rows : List (Nat × Nat × List Byte)) : State :=
  let n := q.chase.val
  let c := s.chase n
  s.setChase n { c with
    busy := (unitsOf s q o).map (fun u => ⟨u.1, u.2, reads, writes, furniture, rows⟩) ++ c.busy }

/-! ### Issue -/

/-- Whether the line sequencer goes on during a failover: only the stream sequencers stop, unless the lead core it
fetches from is the one lost (R129, R201). -/
def lineGoesOn (s : State) (q : SeqId) : Bool :=
  s.get .chState q.chase.val == 6 && q.core.isNone &&
    s.flag .fpcPresent (servingCore s q.chase.val (leadCore s q.chase.val))

/-- Whether a sequencer can issue: its chase is RUNNING, it runs and waits for nothing (R130, R182, R201). -/
def canIssue (s : State) (q : SeqId) : Bool :=
  let x := (s.chase q.chase.val).seq q.core
  (s.get .chState q.chase.val == 3 || lineGoesOn s q) && x.run == .running && x.wait == .none

/-- Whether an index lies past the end of the program region (R136). -/
def pastEnd (x : Seq) : Bool := decide (x.hi ≤ x.pc) || decide (x.pc < x.lo)

/-- Change the sequencer a command names. -/
def modSeq (s : State) (q : SeqId) (f : Seq → Seq) : State :=
  let c := s.chase q.chase.val
  s.setChase q.chase.val (c.setSeq q.core (f (c.seq q.core)))

/-- Retire: the sequencer goes on at the next index. -/
def retire (q : SeqId) (s : State) : State := modSeq s q Seq.advance

/-- What happens to an instruction at issue. -/
inductive Gate where
  /-- The sequencer cannot issue it now, or the word is not the row's: nothing happens. -/
  | stay
  /-- It traps with a cause. -/
  | trap (cause : Nat)
  /-- It is predicated off (R121). -/
  | off
  /-- It executes. -/
  | go
  deriving DecidableEq, Repr

/-- The gate of an instruction of a row: `row` tells the row's class, opcode and sub-function.  A sequencer that the trap
of another has just stopped can only trap, in the same cycle (R169). -/
def gateOf (s : State) (q : SeqId) (o : Op) (row : Bool) : Gate :=
  let x := (s.chase q.chase.val).seq q.core
  if !canIssue s q && !canTrapToo s q then .stay
  else if pastEnd x then .trap 0x0B
  else
    match issueTrap s q x o with
    | some c => if row || (namedFields o false false).isNone || !classRuns o.cls q.core.isNone then .trap c
                else .stay
    | none =>
      if !canIssue s q || !row || (unitsOf s q o).any (unitBusy s q.chase.val) then .stay
      else if x.executes o then .go else .off

/-- Issue the word `w` as an instruction of a row: trap, retire without effect, or take `on` (R121, R165).
`on` retires the instruction itself. -/
def issue (q : SeqId) (w : ZWord) (s : State) (row : Op → Bool) (on : Op → Seq → State → State) : State :=
  let o := opOf w
  let x := (s.chase q.chase.val).seq q.core
  match gateOf s q o (row o) with
  | .stay => s
  | .trap c => raiseTrap s q o x.pc c
  | .off => retire q (occupy s q o [] [] true [])
  | .go => on o x s

/-- Issue an instruction that only changes its sequencer's registers, then retires. -/
def issueRegs (q : SeqId) (w : ZWord) (s : State) (row : Op → Bool) (f : Op → Seq → Seq) : State :=
  issue q w s row (fun o _ s => retire q (modSeq s q (f o)))

/-- A row of the table: class and opcode. -/
def isOp (cls code : Nat) (o : Op) : Bool := o.cls == cls && o.opcode == code

end Sys2Proof.Machine
end

