-- ==== Sys2Proof/Machine/Crops.lean ====
section
/-! DEFINITION. The crop ring's two page buffers (R144, R255, R358 to R360). -/

namespace Sys2Proof.Machine

/-- The crop ring of a context. -/
def cropRing (k : Nat) : Nat := ringOf (k + 1) 2

/-- Bytes a page holds after its header (R358). -/
def pageRoom (s : State) (k : Nat) : Nat := slotBytes s (cropRing k) - 64

/-- A record: header (type, context, length, record seq) and payload padded to 8 bytes (R358). -/
def cropRecord (k ty seq : Nat) (payload : List Byte) : List Byte :=
  natLe 1 ty ++ natLe 1 k ++ natLe 2 0 ++ natLe 4 payload.length ++ natLe 4 seq ++ natLe 4 0 ++
    padTo ((payload.length + 7) / 8 * 8) payload

/-- The SPOIL record that stands for abandoned pages and lost records (R358, R360). -/
def cropSpoil (k : Nat) (c : Crop) : List Byte :=
  cropRecord k 0x0F c.recSeq
    (natLe 4 c.abandoned ++ natLe 4 c.lost ++ natLe 4 (c.firstLost.getD 0) ++ natLe 4 0)

/-- Whether a loss waits to be reported. -/
def Crop.owes (c : Crop) : Bool := c.abandoned != 0 || c.lost != 0

/-- A loss has been reported. -/
def Crop.told (c : Crop) : Crop := { c with abandoned := 0, lost := 0, firstLost := none }

/-- An empty page begun now; after a loss it begins with the SPOIL record, if a record of `n` bytes still
fits behind it (R360). -/
def Crop.newPage (c : Crop) (k now clk room n : Nat) : Page × Crop :=
  let sp := cropSpoil k c
  if c.owes && decide (sp.length + n ≤ room) then
    (⟨c.pageSeq, 1, true, now, clk, sp⟩,
      { c.told with pageSeq := (c.pageSeq + 1) % 2 ^ 32, recSeq := (c.recSeq + 1) % 2 ^ 32 })
  else (⟨c.pageSeq, 0, false, now, clk, []⟩, { c with pageSeq := (c.pageSeq + 1) % 2 ^ 32 })

/-- After a page is abandoned the page that follows it begins with the SPOIL record, where that still fits (R360; log entry
103); else the one after it does. -/
def Crop.spoilNext (c : Crop) (k room : Nat) : Crop :=
  let sp := cropSpoil k c
  match c.filling with
  | some p =>
    if p.bytes.length + sp.length ≤ room then
      { c.told with
        filling := some { p with records := p.records + 1, spoil := true, bytes := sp ++ p.bytes },
        recSeq := (c.recSeq + 1) % 2 ^ 32 }
    else c
  | none => c

/-- A record is dropped and counted; the next SPOIL covers it (R360). -/
def cropDrop (s : State) (k : Nat) : State :=
  let x := s.context k
  (s.bump .ringSpoils (cropRing k)).setCtx k
    { x with crop := { x.crop with lost := x.crop.lost + 1,
                                   firstLost := some (x.crop.firstLost.getD x.crop.pageSeq) } }

/-- Put one record into a crop state whose filling page can take it or is begun now. -/
def Crop.place (c : Crop) (k now clk room ty : Nat) (payload : List Byte) : Crop :=
  let n := (cropRecord k ty 0 payload).length
  let (p, c1) := match c.filling with
    | some p => (p, c)
    | none => c.newPage k now clk room n
  let r := cropRecord k ty c1.recSeq payload
  { c1 with filling := some { p with records := p.records + 1, bytes := p.bytes ++ r },
            recSeq := (c1.recSeq + 1) % 2 ^ 32 }

/-- Add a record to a context's crop pages (R144, R359, R360): a full page becomes ready; with one page
held and the other full the record is dropped. -/
def addCropRecord (s : State) (k ty : Nat) (payload : List Byte) : State :=
  let x := s.context k
  let c := x.crop
  let room := pageRoom s k
  let n := (cropRecord k ty 0 payload).length
  if !ringRuns s (cropRing k) || decide (room < n) then cropDrop s k
  else
    match c.filling with
    | none => s.setCtx k { x with crop := c.place k s.now s.clk room ty payload }
    | some p =>
      if p.bytes.length + n ≤ room then s.setCtx k { x with crop := c.place k s.now s.clk room ty payload }
      else if c.held.isNone then
        s.setCtx k { x with
          crop := ({ c with held := some { p with since := s.clk }, filling := none } : Crop).place k s.now s.clk room ty
            payload }
      else cropDrop s k

/-- The 64-byte page header (R358). -/
def pageHeader (k : Nat) (p : Page) : List Byte :=
  padTo 64 (natLe 1 0x20 ++ natLe 1 k ++ natLe 1 1 ++ natLe 1 (b2n p.spoil) ++ natLe 4 p.seq ++
    natLe 4 p.bytes.length ++ natLe 4 p.records ++ natLe 8 p.first)

/-- Deliver the page that is ready: its data, then its header, then the producer index (R359, R355). -/
def deliverPage (s : State) (k : Nat) (p : Page) : State :=
  let r := cropRing k
  let x := s.context k
  let a := slotAddr s r (s.get .ringProd r)
  let h := memStore (memStore s.host (a + 64) p.bytes) a (pageHeader k p)
  let s1 := { s with host := h }.setCtx k { x with crop := { x.crop with held := none } }
  ringAdvance (s1.put .ringProd r ((s1.get .ringProd r + 1) % 2 ^ 32)) r

end Sys2Proof.Machine
end

