-- ==== Sys2Proof/Machine/Mailbox.lean ====
section
/-! DEFINITION. Mailboxes and quoins as functions reach them (R371 to R384). -/

namespace Sys2Proof.Machine

/-- Whether a function may post to a mailbox (R371). -/
def mayPost (s : State) (fn m : Nat) : Bool :=
  if m ≤ 16 then fn == m
  else s.flag .mbxGrantEn (m - 17) && s.get .mbxGrantFn (m - 17) == fn

/-- Post one message (R371, R372): the result and the state. -/
def postMessage (s : State) (fn id m len : Nat) (chan : Bool) (words : List Word) (ring : Option Word) :
    Nat × State :=
  if !mayPost s fn m then (cIsolated, s)
  else
    let b := s.mbox m
    if len = 0 ∨ 64 < len ∨ 16 ≤ b.msgs.length then (cBusy, s)
    else
      let msg : Msg := ⟨words.take 16, len, chan, BitVec.ofNat 6 id, byteOf (senderGen s id), false, ring⟩
      let s1 := s.setMbox m { b with msgs := b.msgs ++ [msg] }
      (cOk, if m ≤ 16 then s1 else mailboxVector s1 m)

/-- Words 0 to 15 written to MBX_POST_DATA (R372). -/
def postData (s : State) (m : Nat) : List Word :=
  (List.range 16).map (fun i => BitVec.ofNat 32 (s.get .mbxPostData (m * 16 + i)))

/-- MBX_POST (R372): the message of MBX_POST_DATA goes into the next free slot; the result to
MBX_POST_RESULT. -/
def postFrom (s : State) (fn m len : Nat) (chan : Bool) : State :=
  let r := postMessage s fn fn m len chan (postData s m) none
  r.2.put .mbxPostResult m r.1

/-- MBX_POST (R372). -/
def execMbxPost (fn : Fn) (m : MbxNo) (len : BitVec 7) (channel : Bool) (s : State) : Answer :=
  .next (overPcie s (postFrom s fn.val m.val len.toNat channel))

/-- Whether a taker may take from a mailbox (R371, R373): firmware from 0 to 16, the granted function or PF0
from the general ones. -/
def mayTake (s : State) (fn : Option Nat) (m : Nat) : Bool :=
  match fn with
  | none => decide (m ≤ 16)
  | some f => decide (17 ≤ m) && (f == 0 || mayPost s f m)

/-- MBX_TAKE (R373, R374): remove the head message and complete it with the taker's code. -/
def takeHead (s : State) (fn : Option Nat) (m code : Nat) : State :=
  let b := s.mbox m
  match b.msgs with
  | [] => s
  | h :: t =>
    if mayTake s fn m then
      complete (s.setMbox m { b with msgs := t }) m (senderFn s h.sender.toNat)
        ((h.words.getD 0 0).toNat / 65536) h.ring code []
    else s

/-- MBX_TAKE (R373). -/
def execMbxTake (fn : Option Fn) (m : MbxNo) (code : BitVec 8) (s : State) : Answer :=
  let t := takeHead s (fn.map (fun f => f.val)) m.val code.toNat
  .next (if fn.isNone then t else overPcie s t)

/-- MBX_CPL_POP (R374, R378): the oldest completion is removed. -/
def popCompletion (s : State) (m : Nat) : State :=
  let b := s.mbox m
  s.setMbox m { b with cpls := b.cpls.drop 1 }

/-- MBX_CPL_POP (R378); a function other than PF0 reaches only a mailbox its window shows (R353). -/
def execMbxCplPop (fn : Fn) (m : MbxNo) (s : State) : Answer :=
  if fn.val = 0 ∨ mayPost s fn.val m.val then .next (overPcie s (popCompletion s m.val)) else .next s

/-- QACQ_q (R381): a read is an acquire by the reading function; it returns the code. -/
def execQacqRead (fn : Fn) (q : QuoinNo) (s : State) : Answer :=
  let r := quoinAcquire s q.val fn.val
  .next (overPcie s { r.2 with rd := BitVec.ofNat 32 r.1 })

/-- A QOP operation of a function, its code kept for reading QOP (R381); any other operation code does nothing
and reads BUSY (log entry 16). -/
def quoinPort (s : State) (fn op q : Nat) : State :=
  let r := match op with
    | 1 => quoinRelease s q fn
    | 2 => quoinClear s q fn
    | _ => (cBusy, s)
  r.2.put .qopCode fn r.1

/-- QOP release (R381). -/
def execQopRelease (fn : Fn) (q : QuoinNo) (s : State) : Answer := 
  .next (overPcie s (quoinPort s fn.val 1 q.val))

/-- QOP clear (R381). -/
def execQopClear (fn : Fn) (q : QuoinNo) (s : State) : Answer := 
  .next (overPcie s (quoinPort s fn.val 2 q.val))

/-! ### Resets of receivers and senders (R375, R376) -/

/-- Discard the messages of a mailbox whose receiver is reset (R375): each completes RECEIVER_RESET. -/
def discardMessages (s : State) (m : Nat) : State :=
  let b := s.mbox m
  let gen := BitVec.ofNat 32 (s.get .mbxRxGen m)
  b.msgs.foldl (fun s h =>
    (complete s m (senderFn s h.sender.toNat) ((h.words.getD 0 0).toNat / 65536) none cReceiverReset
      [gen]).bump .mbxDiscarded m) (s.setMbox m { b with msgs := [] })

/-- Reset the receiver of a mailbox: its generation moves on, its messages are discarded (R375). -/
def resetReceiver (s : State) (m : Nat) : State :=
  discardMessages (s.put .mbxRxGen m ((s.get .mbxRxGen m + 1) % 256)) m

/-- Mark the messages of a sender that was reset (R376). -/
def staleSender (s : State) (id : Nat) : State :=
  { s with mboxes := ⟨s.mboxes.entries.map (fun e =>
      (e.1, { e.2 with msgs := e.2.msgs.map (fun m =>
        if m.sender.toNat = id then { m with stale := true } else m) }))⟩ }

end Sys2Proof.Machine
end

