-- ==== Sys2Proof/Machine/Galley.lean ====
section
/-! DEFINITION. Galleys: slugs, gaps and markers, the commit of a line (R215, R216, R225 to R234). -/

namespace Sys2Proof.Machine

/-- The reason bits of R227: galley full. -/
def rsFull : Nat := 0x1000
/-- Missed. -/
def rsMissed : Nat := 0x2000
/-- Link down. -/
def rsLink : Nat := 0x4000
/-- Triggered during a CONTEXT reset. -/
def rsReset : Nat := 0x8000

/-! ### Formats (R215, R216, R249) -/

/-- Samples per pixel of a camera format: 3 for RGB8 (R215). -/
def cameraComps (s : State) (k : Nat) : Nat := if s.get .cxpFmt k = 7 then 3 else 1

/-- The tensor format code of a bypassed slug (R215): 1 U8, 2 U12P, 3 U16. -/
def bypassFormat (s : State) (k : Nat) : Nat :=
  match s.get .cxpFmt k with
  | 1 => 1
  | 5 => 1
  | 7 => 1
  | 3 => if s.flag .cxpStoreU16 k then 3 else 2
  | 6 => if s.flag .cxpStoreU16 k then 3 else 2
  | _ => 3

/-- Whether a context's lines pass a pipe (R240). -/
def piped (s : State) (k : Nat) : Bool := s.get .pipeSel k == 1 || s.get .pipeSel k == 2

/-- Whether the source is Coord3D_C16 (R243). -/
def rangeSource (s : State) (k : Nat) : Bool := s.get .cxpFmt k == 8

/-- Bytes of `n` values in a format code: U12P packs two in three bytes (R34, R215). -/
def codeBytes (fmt n : Nat) : Nat :=
  match fmt with
  | 1 => n
  | 2 => (n + 1) / 2 * 3
  | _ => 2 * n

/-- Format code, components and width of a context's slugs (R215, R249). -/
def slugShape (s : State) (k : Nat) : Nat × Nat × Nat :=
  if piped s k then
    (if rangeSource s k then 3 else s.get .pipeOutFmt k,
      if s.get .cxpFmt k = 7 ∨ s.get .cxpFmt k = 5 ∨ s.get .cxpFmt k = 6 then 3 else 1,
      s.get .pipeOutWidthM1 k + 1)
  else (bypassFormat s k, cameraComps s k, s.get .cxpWidthM1 k + 1)

/-- Payload bytes of a slug before padding. -/
def payloadSize (s : State) (k : Nat) : Nat :=
  let f := slugShape s k
  codeBytes f.1 (f.2.1 * f.2.2)

/-- The stride of a galley (R225). -/
def slugStride (s : State) (k : Nat) : Nat := 64 + (payloadSize s k + 63) / 64 * 64

/-- Payload bytes of a line in the slug format of its camera format (R215), before a pipe. -/
def cameraPayload (s : State) (k : Nat) : Nat :=
  codeBytes (bypassFormat s k) (cameraComps s k * (s.get .cxpWidthM1 k + 1))

/-- Whether CXP_FMT and the pipe output enable the context (R216, R238, R249, R274). -/
def formatOk (s : State) (k : Nat) : Bool :=
  decide (1 ≤ s.get .cxpFmt k) && decide (s.get .cxpFmt k ≤ 8) && decide (s.get .cxpWidthM1 k < 32768) &&
    decide (cameraPayload s k ≤ 65536) &&
    decide (payloadSize s k ≤ 65536) && s.get .pipeSel k != 3 &&
    (!piped s k || [1, 3, 9, 10].contains (s.get .pipeOutFmt k))

/-- Whether the galley fits its window with an allowed depth (R228, R239). -/
def galleyFits (s : State) (k : Nat) : Bool :=
  let d := s.get .galDepth k
  decide (256 ≤ d) && decide (d ≤ 65536) && decide (d * slugStride s k ≤ s.get .galLimit k * 64)

/-! ### Gaps (R231, R232) -/

/-- A line is lost for a reason: it joins the open gap; a gap of 0xFFFF_FFFF lines is closed (R231, R232). -/
def joinGap (c : Context) (t : Trig) (reason : Nat) : Context :=
  match c.gap with
  | none => { c with gap := some ⟨t.line, 1, BitVec.ofNat 32 reason, t.count⟩ }
  | some g =>
    let g1 : Gap := { g with lost := g.lost + 1, reasons := g.reasons ||| BitVec.ofNat 32 reason }
    if g1.lost = 0xFFFFFFFF then { c with gap := none, closedGaps := c.closedGaps ++ [g1] }
    else { c with gap := some g1 }

/-- The marker of a gap (R225, R226, R227). -/
def marker (s : State) (k : Nat) (g : Gap) : Slug :=
  let f := slugShape s k
  { line := g.first, format := f.1, components := f.2.1, flags := g.reasons ||| 1, widthM1 := f.2.2 - 1,
    crcPackets := 0, trigCount := g.count, commitTime := s.now, lost := g.lost, payload := [] }

/-- Lines a slug or marker covers: its last line. -/
def Slug.lastLine (g : Slug) : Nat :=
  (g.line + (if bitAt g.flags.toNat 0 then g.lost - 1 else 0)) % 2 ^ 48

/-- Put an entry into the ring: occupancy, peak and the write point follow (R225, R239). -/
def pushSlot (s : State) (k : Nat) (g : Slug) : State :=
  let c := s.context k
  let slots := c.slots ++ [g]
  (s.setCtx k { c with slots := slots, writeLine := (g.lastLine + 1) % 2 ^ 48 }).put .galPeak k
    (max (s.get .galPeak k) slots.length)

/-- Place a marker (R231): counted in GAL_MARKERS, the next slug carries after_gap. -/
def placeMarker (s : State) (k : Nat) (g : Gap) : State :=
  let s1 := (pushSlot s k (marker s k g)).bump .galMarkers k
  s1.setCtx k { s1.context k with afterGap := true }

/-- Free slots of a galley. -/
def freeSlots (s : State) (k : Nat) : Nat := s.get .galDepth k - (s.context k).slots.length

/-- Waiting closed ranges take free slots first, in order (R232). -/
def placeClosed : Nat → State → Nat → State
  | 0, s, _ => s
  | n + 1, s, k =>
    match (s.context k).closedGaps with
    | [] => s
    | g :: gs =>
      if freeSlots s k = 0 then s
      else placeClosed n (placeMarker (s.setCtx k { s.context k with closedGaps := gs }) k g) k

/-- Every closed range for which a slot is free is placed (R232). -/
def placeWaiting (s : State) (k : Nat) : State := placeClosed (s.context k).closedGaps.length s k

/-- A lost line is not held in the stage ring (R247), the line after it is demosaiced alone (R245), and its statistics
block sees a gap (R255). -/
def Context.forgetLine (x : Context) (line : Nat) : Context :=
  { x with prevRaw := none, ring := x.ring.filter (fun e => e.1 != line), lastLost := some line }

/-- A line of a bound context joins the gap; a range this closes is placed at once where a slot is free (R231, R232). -/
def gapLine (s : State) (k : Nat) (t : Trig) (reason : Nat) : State :=
  placeWaiting (s.setCtx k ((joinGap (s.context k) t reason).forgetLine t.line)) k

/-- Lose a line: it joins the gap; missed and link-down lines are counted in LINES_MISSED, lines a galley
cannot take in GAL_DROPPED (R213, R218, R219, R231). -/
def loseLine (s : State) (k : Nat) (t : Trig) (reason : Nat) : State :=
  let s1 := gapLine s k t reason
  if reason = rsFull then s1.bump .galDropped k
  else if reason = rsReset then s1
  else s1.bump .linesMissed k

/-- Whether the galley can take a line now: a free slot, two when a gap is open, beside one for every waiting
closed range (R231, R232). -/
def canTake (s : State) (k : Nat) : Bool :=
  let c := s.context k
  decide ((if c.gap.isSome then 2 else 1) + c.closedGaps.length ≤ freeSlots s k)

/-- Commit a line's slug, or drop it into the gap (R231). -/
def commitSlug (s : State) (k : Nat) (t : Trig) (g : Slug) : State :=
  let s0 := placeWaiting s k
  if canTake s0 k then
    let s1 := match (s0.context k).gap with
      | some gp => placeMarker (s0.setCtx k { s0.context k with gap := none }) k gp
      | none => s0
    let c := s1.context k
    let g1 := if c.afterGap then { g with flags := g.flags ||| 64 } else g
    pushSlot (s1.setCtx k { c with afterGap := false }) k g1
  else loseLine s0 k t rsFull

/-- Whether a line lies in a settling range (R222). -/
def settlingLine (c : Context) (line : Nat) : Bool :=
  c.settles.any (fun r =>
    (match r.first with
     | some f => decide (0 ≤ lineDiff line f)
     | none => false) &&
    (match r.last with
     | some l => decide (lineDiff line l ≤ 0)
     | none => true))

/-- The window late_lines (R219, R238). -/
def lateLines (s : State) (k : Nat) : Nat := max 1 (s.get .cxpLateLines k)

/-- A context's triggers whose lines are not accounted for yet, oldest first; the deferred packet of a line that is
already lost is none of them. -/
def Context.triggered (x : Context) : List Trig :=
  x.rx.map (fun r => r.trig) ++ x.outstanding ++ (x.deferred.filter (fun t => t.lost == 0)).toList

/-- The triggered lines that are not committed join the reset gap (R233). -/
def joinTriggered (x : Context) : Context :=
  x.triggered.foldl (fun c t => joinGap c t rsReset)
    { x with rx := [], outstanding := [], deferred := x.deferred.filter (fun t => t.lost != 0) }

/-- Empty a galley at a reset (R233): the open gap, the line arriving and the triggered lines form one gap with
context_reset; numbering runs on. -/
def emptyGalley (s : State) (k : Nat) : State :=
  let c1 := joinTriggered (s.context k)
  let gap := c1.gap.map (fun g => { g with reasons := g.reasons ||| BitVec.ofNat 32 rsReset })
  s.setCtx k { c1 with
    gap := gap, slots := [], oldest := c1.writeLine, bandFrom := c1.writeLine, firstBand := true,
    afterGap := false, quiet := lateLines s k, prevRaw := none, ring := [], stats := none,
    statBase := c1.nextLine, lastSwitch := none, lastLost := none }

end Sys2Proof.Machine
end

