-- ==== Sys2Proof/Machine/Scalar.lean ====
section
/-! DEFINITION. Class S: sequencing and scalars (R134 to R141). -/

namespace Sys2Proof.Machine

/-- NOP (R134): does nothing and retires. -/
def execNop (q : SeqId) (w : ZWord) (s : State) : Answer :=
  .next (issueRegs q w s (isOp 0 0x00) (fun _ x => x))

/-- SETS (R134): s[sd] takes imm0, and with sub[0] s[sd + 1] takes imm1. -/
def execSets (q : SeqId) (w : ZWord) (s : State) : Answer :=
  .next (issueRegs q w s (isOp 0 0x01) (fun o x =>
    let x1 := x.setS o.sd o.imm0
    if bitAt o.sub 0 then x1.setS (o.sd + 1) o.imm1 else x1))

/-- ALU (R135). -/
def execAlu (q : SeqId) (w : ZWord) (s : State) : Answer :=
  .next (issueRegs q w s (isOp 0 0x02) (fun o x => aluWrite x o))

/-- CMP (R135). -/
def execCmp (q : SeqId) (w : ZWord) (s : State) : Answer :=
  .next (issueRegs q w s (isOp 0 0x03) (fun o x => cmpWrite x o))

/-- DLD (R134, R465): d[dd] takes the descriptor-table entry of the bank in use. -/
def execDld (q : SeqId) (w : ZWord) (s : State) : Answer :=
  .next (issue q w s (isOp 0 0x04) (fun o _ s =>
    let v := memNat s.lpddr ((descBank s q.chase.val).1 + 32 * (o.imm0 % 4096)) 32
    retire q (modSeq s q (fun x => x.setD o.dd (BitVec.ofNat 256 v)))))

/-- Move the 35-bit base of a descriptor by a signed amount (R134, R125). -/
def addBase (v : DWord) (d : Int) : DWord :=
  let n := v.toNat
  let base := bitsAt n 0 35
  BitVec.ofNat 256 (n - base + wrapTo 35 ((base : Int) + d))

/-- DADD (R134): the base of d[dd] moves by s[sa]. -/
def execDadd (q : SeqId) (w : ZWord) (s : State) : Answer :=
  .next (issueRegs q w s (isOp 0 0x05) (fun o x =>
    x.setD o.dd (addBase (x.d o.dd) (sext 32 (x.s o.sa)))))

/-- Start a loop (R136): a count or a body of 0 skips the body. -/
def Seq.startLoop (x : Seq) (count len : Nat) : Seq :=
  if count = 0 ∨ len = 0 then x.goto (x.pc + 1 + len)
  else { x with pc := x.pc + 1, loops := ⟨x.pc + 1, x.pc + 1 + len, count⟩ :: x.loops }

/-- LOOP (R136). -/
def execLoop (q : SeqId) (w : ZWord) (s : State) : Answer :=
  .next (issue q w s (isOp 0 0x08) (fun o x s =>
    modSeq s q (fun y => y.startLoop (if bitAt o.sub 0 then x.s o.sa else o.imm0) (o.imm1 % 8192))))

/-- Branch (R136): loops whose body does not hold the target end. -/
def Seq.branch (x : Seq) (target : Nat) : Seq :=
  { x with pc := target,
           loops := x.loops.dropWhile (fun f => decide (target < f.start) || decide (f.stop ≤ target)) }

/-- BR (R134, R136). -/
def execBr (q : SeqId) (w : ZWord) (s : State) : Answer :=
  .next (issue q w s (isOp 0 0x09) (fun o _ s => modSeq s q (fun y => y.branch (o.imm0 % 8192))))

/-! ### SYNC (R137) -/

/-- Whether a unit belongs to a SYNC mask: [3:0] engines, [4] vector, [5] ports and copy engines, [6] post. -/
def unitInMask (mask : Nat) (u : UnitId) : Bool :=
  match u with
  | .engine e => bitAt mask e.val
  | .vector => bitAt mask 4
  | .port _ => bitAt mask 5
  | .copy _ => bitAt mask 5
  | .post => bitAt mask 6

/-- Whether every unit a mask names is idle for a sequencer's core (R137 sub 0). -/
def unitsIdle (s : State) (q : SeqId) (mask : Nat) : Bool :=
  let core := ownCore s q
  !(s.chase q.chase.val).busy.any (fun b =>
    unitInMask mask b.unit &&
      (match b.unit with
       | .copy _ => b.place == clusterOf core
       | .post => b.place == clusterOf core
       | _ => b.place == core))

/-- Whether a sequencer waits at a barrier. -/
def Seq.atBarrier (x : Seq) (id : Nat) : Bool :=
  match x.wait with
  | .barrier i _ _ _ => x.run == .running && i == id
  | _ => false

/-- The mask and line flag a waiting sequencer named. -/
def Seq.barrierMask (x : Seq) : Nat × Bool :=
  match x.wait with
  | .barrier _ m l _ => (m, l)
  | _ => (0, false)

/-- Whether every participant of a sequencer's own mask has arrived (R137). -/
def barrierComplete (c : Chase) (id : Nat) (x : Seq) : Bool :=
  let m := x.barrierMask
  (List.range 32).all (fun l => !bitAt m.1 l || (c.streams.get Seq.reset l).atBarrier id) &&
    (!m.2 || c.line.atBarrier id)

/-- SYNC on units (R137 sub 0): the sequencer goes on once they are idle. -/
def syncUnits (q : SeqId) (o : Op) (s : State) : State :=
  if unitsIdle s q o.imm0 then retire q s
  else modSeq s q (fun x => { x with wait := .units (o.imm0 % 128) })

/-- SYNC (R137): on units it retires once they are idle; at a barrier it waits for BARRIER_RELEASE.  Predicated off, a
SYNC on units takes the wait it would have taken, a barrier none (R121). -/
def execSync (q : SeqId) (w : ZWord) (s : State) : Answer :=
  let o := opOf w
  if o.sub % 4 = 0 ∧ gateOf s q o (isOp 0 0x0A o) = .off then .next (syncUnits q o s)
  else .next (issue q w s (isOp 0 0x0A) (fun o _ s =>
    if o.sub % 4 = 0 then syncUnits q o s
    else
      modSeq s q (fun x =>
        { x with wait := .barrier (o.imm0 % 16) o.imm1 (o.sub % 4 == 2) s.clk })))

/-- Release a sequencer whose barrier is complete. -/
def Seq.release (c : Chase) (id : Nat) (x : Seq) : Seq :=
  if x.atBarrier id && barrierComplete c id x then { x with wait := .none }.advance else x

/-- BARRIER_RELEASE (R137): every participant whose own mask has arrived goes on, all together. -/
def execBarrierRelease (n : ChaseNo) (barrier : Fin 16) (s : State) : Answer :=
  let c := s.chase n.val
  if s.get .chState n.val = 3 then
    .next (s.setChase n.val { c with
      line := c.line.release c barrier.val,
      streams := ⟨c.streams.entries.map (fun e => (e.1, e.2.release c barrier.val))⟩ })
  else .next s

/-! ### WAITL (R138, R193) -/

/-- What a WAITL finds (R138): status and second word, or nothing when the line is still awaited. -/
def waitlOutcome (s : State) (n slot line : Nat) : Option (Nat × Nat) :=
  match slotCtx s n slot with
  | none => some (3, 0)
  | some k =>
    let c := s.context k
    if c.resetting || s.flag .genDraining k then some (3, 0)
    else if lineDiff line c.oldest < 0 then some (4, 0)
    else
      match c.slots.find? (fun g => decide (0 ≤ lineDiff line g.line) &&
          decide (lineDiff line g.line < max 1 (if bitAt g.flags.toNat 0 then g.lost else 1))) with
      | none => none
      | some g =>
        if bitAt g.flags.toNat 0 then some (1, g.lost) else some (0, g.flags.toNat)

/-- Write the outcome of a wait: the words at sd, p[pdst] when the status is not 0, and go on. -/
def Seq.waitDone (x : Seq) (sd pdst status second : Nat) (pair : Bool) : Seq :=
  let x1 := x.setS sd status
  let x2 := if pair then x1.setS (sd + 1) second else x1
  { x2.setP pdst (status != 0) with wait := .none }.advance

/-- The expiry of a timeout in K4 cycles; 0 means none. -/
def expiryOf (s : State) (imm : Nat) : Option Nat := if imm = 0 then none else some (s.clk + imm)

/-- Release the leading slugs and markers whose last line is more than `keep` lines older than a band's
first line (R192, R230); the oldest line held moves past them. -/
def releaseSlugs (c : Context) (bandFirst keep : Nat) : Context :=
  let old := fun (g : Slug) => decide ((keep : Int) < lineDiff bandFirst g.lastLine)
  let gone := c.slots.takeWhile old
  { c with
    slots := c.slots.dropWhile old,
    oldest := gone.foldl (fun _ g => (g.lastLine + 1) % 2 ^ 48) c.oldest }

/-- The first line of the band a WAITL on a line opens (R234): the line is the band's last one, or the one cut_lines
names (DEDUCED: log entry 95). -/
def bandOpened (cut band line : Nat) : Option Nat :=
  let first := line / band * band
  let c := if cut = 0 ∨ band < cut then band else cut
  if band = 0 then none
  else if line + 1 = first + band ∨ line + 1 = first + c then some first else none

/-- BAND_START (R193, R192, R234): the line sequencer's WAITL on a band's last line, or on the line of its cut, starts
the band and releases old slugs; the first band after a bind, reset or start releases every line before it.  Waiting
closed ranges take the freed slots (R232). -/
def bandStart (s : State) (n slot line : Nat) : State :=
  match slotCtx s n slot, (s.chase n).forme with
  | some k, some f =>
    let c := s.context k
    match bandOpened (s.get .galCut k) f.bandLines line with
    | some first =>
      if 0 ≤ lineDiff first c.bandFrom then
        let keep := if c.firstBand then 0 else f.reprime + f.bandLines
        let s1 := s.setCtx k { releaseSlugs c first keep with
          bandFrom := (first + f.bandLines) % 2 ^ 48, firstBand := false }
        placeWaiting (s1.setChase n { s1.chase n with band := some (k, first) }) k
      else s
    | none => s
  | _, _ => s

/-- A spoil marker passed to the stack: every ring of the chase begins again (R87). -/
def forgetLines (s : State) (n : Nat) : State := s.setChase n { s.chase n with seen := [] }

/-- A WAITL of the line sequencer that ends with a slug or a marker may start its band (R193); a marker also begins the
chase's rings again (R87). -/
def afterWaitl (q : SeqId) (slot line status : Nat) (s : State) : State :=
  let n := q.chase.val
  if q.core.isNone && status ≤ 1 then
    bandStart (if status = 1 then forgetLines s n else s) n slot line
  else s

/-- WAITL (R138): goes on at once when the line is accounted for or no longer held, else waits. -/
def execWaitl (q : SeqId) (w : ZWord) (s : State) : Answer :=
  .next (issue q w s (isOp 0 0x0C) (fun o x s =>
    let slot := o.sub % 16
    let line := x.pair48 o.sa
    match waitlOutcome s q.chase.val slot line with
    | some r => afterWaitl q slot line r.1 (modSeq s q (fun y => y.waitDone o.sd o.pdst r.1 r.2 true))
    | none => modSeq s q (fun y =>
        { y with wait := .waitl slot line o.sd o.pdst (expiryOf s o.imm0) })))

/-- WAITL_RELEASE (R138): the awaited line is accounted for, so WAITL writes its outcome and goes on. -/
def execWaitlRelease (q : SeqId) (s : State) : Answer :=
  match ((s.chase q.chase.val).seq q.core).wait with
  | .waitl slot line sd pdst _ =>
    match waitlOutcome s q.chase.val slot line with
    | some r =>
      .next (afterWaitl q slot line r.1 (modSeq s q (fun y => y.waitDone sd pdst r.1 r.2 true)))
    | none => .next s
  | _ => .next s

/-- Whether a wait's timeout has run out. -/
def expired (s : State) : Option Nat → Bool
  | some t => decide (t ≤ s.clk)
  | none => false

/-- WAITL_TIMEOUT (R138, R140): status 2 when the timeout runs out first; an arrival in the same cycle wins. -/
def execWaitlTimeout (q : SeqId) (s : State) : Answer :=
  match ((s.chase q.chase.val).seq q.core).wait with
  | .waitl slot line sd pdst e =>
    if expired s e then
      match waitlOutcome s q.chase.val slot line with
      | some r =>
        .next (afterWaitl q slot line r.1 (modSeq s q (fun y => y.waitDone sd pdst r.1 r.2 true)))
      | none => .next (modSeq s q (fun y => y.waitDone sd pdst 2 0 true))
    else .next s
  | _ => .next s

/-! ### WAITE (R139) -/

/-- The live position of a context's encoder (R139). -/
def livePos (s : State) (k : Nat) : Int := s.s48 .encPos (s.get .ctxEncoder k)

/-- What a WAITE finds (R139): 0 once the position is reached, 3 for an unbound slot. -/
def waiteOutcome (s : State) (n slot target : Nat) : Option Nat :=
  match slotCtx s n slot with
  | none => some 3
  | some k =>
    if s.flag .genDraining k then some 3
    else if !wireNow s (s.get .ctxEncoder k) && countReached (sext 48 target) (livePos s k) then some 0
    else none

/-- WAITE (R139): goes on once the live position has reached the target. -/
def execWaite (q : SeqId) (w : ZWord) (s : State) : Answer :=
  .next (issue q w s (isOp 0 0x0D) (fun o x s =>
    let slot := o.sub % 16
    let target := x.pair48 o.sa
    match waiteOutcome s q.chase.val slot target with
    | some r => modSeq s q (fun y => y.waitDone o.sd o.pdst r 0 false)
    | none => modSeq s q (fun y =>
        { y with wait := .waite slot target o.sd o.pdst (expiryOf s o.imm0) })))

/-- WAITE_RELEASE (R139): the live position has reached the target. -/
def execWaiteRelease (q : SeqId) (s : State) : Answer :=
  match ((s.chase q.chase.val).seq q.core).wait with
  | .waite slot target sd pdst _ =>
    match waiteOutcome s q.chase.val slot target with
    | some r => .next (modSeq s q (fun y => y.waitDone sd pdst r 0 false))
    | none => .next s
  | _ => .next s

/-- WAITE_TIMEOUT (R139, R140). -/
def execWaiteTimeout (q : SeqId) (s : State) : Answer :=
  match ((s.chase q.chase.val).seq q.core).wait with
  | .waite slot target sd pdst e =>
    if expired s e then
      match waiteOutcome s q.chase.val slot target with
      | some r => .next (modSeq s q (fun y => y.waitDone sd pdst r 0 false))
      | none => .next (modSeq s q (fun y => y.waitDone sd pdst 2 0 false))
    else .next s
  | _ => .next s

/-! ### HALT and TRAP (R141, R134) -/

/-- HALT (R141, R182): the issuing sequencer stops; the line sequencer's HALT makes the chase HALTED and its
items orphans (R196); during a failover the chase becomes HALTED when that ends (R201). -/
def execHalt (q : SeqId) (w : ZWord) (s : State) : Answer :=
  .next (issue q w s (isOp 0 0x0E) (fun _ _ s =>
    let n := q.chase.val
    let s1 := modSeq s q (fun x => { x with run := .halted })
    if q.core.isNone && s.get .chState n == 3 then (s1.setChase n (s1.chase n).orphanAll).put .chState n 4 else s1))

/-- TRAP (R134): raises cause 0x0E when it executes (R121). -/
def execTrap (q : SeqId) (w : ZWord) (s : State) : Answer :=
  .next (issue q w s (isOp 0 0x0F) (fun _ _ s => retire q s))

end Sys2Proof.Machine
end

