-- ==== Sys2Proof/Machine/Kernel.lean ====
section
/-! DEFINITION. Class K: parameters, bandwidth, mailboxes and quoins (R162 to R164, R13, R194). -/

namespace Sys2Proof.Machine

/-- The line after every line accounted for or lost (R231). -/
def lineAhead (c : Context) : Nat :=
  (c.writeLine + (c.closedGaps.map (fun g => g.lost)).sum + (c.gap.map (fun g => g.lost)).getD 0) % 2 ^ 48

/-- The first line of a context that has not begun entering its pipe (R13). -/
def firstUnbegun (s : State) (k : Nat) : Nat :=
  let x := s.context k
  match x.rx.getLast? with
  | some r => (r.trig.line + 1) % 2 ^ 48
  | none => lineAhead x

/-- The line an apply that names `line` is used from (R13). -/
def lineUsed (s : State) (k line : Nat) : Nat :=
  let first := firstUnbegun s k
  if lineDiff line first < 0 then first else line

/-- Register an apply (R13, R163): a pending one for the same target is replaced, never takes effect and is
counted in SEQ_REFUSED of the chase serving the context; a host's request so replaced completes BUSY (log
entry 17). -/
def applyBank (s : State) (k target bank line : Nat) (req : Option Req) : State :=
  let old := (s.context k).applies.get none target
  let s1 := match old with
    | none => s
    | some a =>
      let s2 := s.bump .seqRefused (s.get .ctxChase k)
      match a.req with
      | some r => answer s2 r cBusy []
      | none => s2
  let x := s1.context k
  s1.setCtx k { x with applies := x.applies.set target (some ⟨bank, lineUsed s k line, req⟩) }

/-! ### Parameter banks in the galley store (R247, R250) -/

/-- Where a bank of targets 0 to 2 lies in the galley store: the six banks stand in target order, each rounded
to granules (R250; the order is log entry 24). -/
def bankAddr (s : State) (k t b : Nat) : Nat :=
  64 * (s.get .pipePbase k +
    (match t with
     | 0 => 2 * b
     | 1 => 4 + 1121 * b
     | _ => 2246 + 2089 * b))

/-- A U16 field of a bank. -/
def bankU16 (s : State) (a : Nat) : Nat := memNat s.galley a 2

/-- The largest look-back of a mesh bank, in 1/64 line (R247). -/
def lookBack (s : State) (a : Nat) : Nat :=
  (List.range (bankU16 s a * bankU16 s (a + 2))).foldl (fun m i => max m (bankU16 s (a + 16 + 8 * i + 4))) 0

/-- Lines the stage ring holds with a mesh bank (R247). -/
def ringLines (s : State) (a : Nat) : Nat := (lookBack s a + 63) / 64 + 2

/-- Whether a source is Bayer. -/
def bayerSource (s : State) (k : Nat) : Bool := s.get .cxpFmt k == 5 || s.get .cxpFmt k == 6

/-- Whether a staged mesh needs a larger stage window than granted (R247, R251). -/
def meshTooLarge (s : State) (k b : Nat) : Bool :=
  let comps := if cameraComps s k = 3 ∨ bayerSource s k then 3 else 1
  decide (64 * s.get .pipeSlimit k <
    ringLines s (bankAddr s k 2 b) * 2 * comps * (s.get .cxpWidthM1 k + 1))

/-- PARAM (R162, R163, R13); an unbound slot, or a mesh too large for its stage window (R247), refuses it: p[pdst]
is cleared, nothing is applied (log entry 14). -/
def execParam (q : SeqId) (w : ZWord) (s : State) : Answer :=
  .next (issue q w s (isOp 6 0x01) (fun o x s =>
    let line := x.pair48 o.sa
    let refused := retire q (modSeq (s.bump .seqRefused q.chase.val) q (fun y => y.setP o.pdst false))
    match slotCtx s q.chase.val (o.sub % 16) with
    | none => refused
    | some k => if o.imm0 % 4 = 2 ∧ meshTooLarge s k (b2n (bitAt o.imm0 2)) = true then refused else
      let used := lineUsed s k line
      retire q (modSeq (applyBank s k (o.imm0 % 4) (b2n (bitAt o.imm0 2)) line none) q
        (fun y => (y.setPair o.sd used).setP o.pdst (used == line)))))

/-- The granted ceiling of a regulator (R194, R206). -/
def ceiling (s : State) (n res : Nat) : Nat :=
  match res with
  | 0 => s.get .bwCeilLpddr n
  | 1 => s.get .bwCeilGalley n
  | _ => s.get .bwCeilRhasha n

/-- Set a regulator's rate, clamped to its ceiling; whether it was not clamped (R162). -/
def setRate (s : State) (n res rate : Nat) : Bool × State :=
  let c := s.chase n
  let top := ceiling s n res
  let s1 := s.setChase n { c with rates := c.rates.set res (min rate top) }
  if top < rate then (false, s1.bump .seqRefused n) else (true, s1)

/-- BWSET (R162, R194). -/
def execBwset (q : SeqId) (w : ZWord) (s : State) : Answer :=
  .next (issue q w s (isOp 6 0x02) (fun o _ s =>
    let r := setRate s q.chase.val (o.imm0 % 4) o.imm1
    retire q (modSeq r.2 q (fun y => y.setP o.pdst r.1))))

/-- The sender id of a chase (R372). -/
def chaseSender (n : Nat) : Nat := 32 + n

/-- MBX (R162, R372): post s[sa] to s[sa + 15] as one message of 64 bytes. -/
def execMbx (q : SeqId) (w : ZWord) (s : State) : Answer :=
  .next (issue q w s (isOp 6 0x03) (fun o x s =>
    let n := q.chase.val
    let words := (List.range 16).map (fun i => BitVec.ofNat 32 (x.s (o.sa + i)))
    let r := postMessage s (s.get .chOwner n) (chaseSender n) (o.imm0 % 32) 64 false words none
    retire q (modSeq r.2 q (fun y => (y.setS o.sd r.1).setP o.pdst (r.1 == cOk)))))

/-- The words of a QUOIN row: its sub-function, and the undefined sub-function 3, which traps in whichever row names it
(R162, R166). -/
def isQuoin (sub : Nat) (o : Op) : Bool := isOp 6 0x04 o && (o.sub % 4 == sub || o.sub % 4 == 3)

/-- A QUOIN row: the sub-function performs `op` for the chase, its code goes to s[sd], p[pdst] is set when
`held` says so (R164). -/
def quoinRow (q : SeqId) (w : ZWord) (s : State) (sub : Nat) (op : State → Nat → Nat → Nat × State)
    (held : Nat → Bool) : State :=
  issue q w s (isQuoin sub) (fun o _ s =>
    let r := op s (o.imm0 % 64) (chaseSender q.chase.val)
    retire q (modSeq r.2 q (fun y => (y.setS o.sd r.1).setP o.pdst (held r.1))))

/-- QUOIN acquire (R164, R380): p[pdst] is set when the quoin is now held. -/
def execQuoinAcquire (q : SeqId) (w : ZWord) (s : State) : Answer :=
  .next (quoinRow q w s 0 quoinAcquire (fun c => c == cOk || c == cBroken))

/-- QUOIN release (R164, R380). -/
def execQuoinRelease (q : SeqId) (w : ZWord) (s : State) : Answer :=
  .next (quoinRow q w s 1 quoinRelease (fun _ => false))

/-- QUOIN clear (R164, R380): after an OK the quoin is still held. -/
def execQuoinClear (q : SeqId) (w : ZWord) (s : State) : Answer :=
  .next (quoinRow q w s 2 quoinClear (fun c => c == cOk))

end Sys2Proof.Machine
end

