-- ==== Sys2Proof/Machine/Pipe.lean ====
section
/-! DEFINITION. The image pipe: parameter banks, the eight stages, statistics and the bank commands (R243 to
R255). -/

namespace Sys2Proof.Machine

/-! ### Banks (R250) -/

/-- The active bank of a target (R252). -/
def activeBank (s : State) (k t : Nat) : Nat :=
  if t = 3 then (s.context k).paramBank else b2n (bitAt (s.get .pipeActive k) t)

/-- The address of the active bank of a target. -/
def activeAddr (s : State) (k t : Nat) : Nat := bankAddr s k t (activeBank s k t)

/-- A U32 field of a bank. -/
def bankU32 (s : State) (a : Nat) : Nat := memNat s.galley a 4

/-- An F32 field of a bank. -/
def bankF32 (s : State) (a : Nat) : Val := decodeVal .f32 (bankU32 s a)

/-- Whether a stage is enabled by the active bank of target 0 (R243, R250). -/
def stageOn (s : State) (k bit : Nat) : Bool := bitAt (bankU32 s (activeAddr s k 0)) bit

/-- Whether an image breaks R250: a target's size, the bits and bytes that are 0, or the counts and ranges of R248. -/
def imageBad (s : State) (k t : Nat) (b : List Byte) : Bool :=
  let u16 := fun o => leNat ((b.drop o).take 2)
  let u32 := fun o => leNat ((b.drop o).take 4)
  let zero := fun o n => ((b.drop o).take n).all (fun v => v == 0)
  match t with
  | 0 => b.length != 128 || decide (256 ≤ u32 0) || !zero 0x0A 2 || !zero 0x52 46
  | 1 => decide (71696 < b.length) || decide (b.length < 0x1810 + 2 * u32 0) || !zero 4 12
  | 2 =>
    let cols := u16 0
    let rows := u16 2
    let pl := (b.getD 4 0).toNat
    decide (133656 < b.length) || decide (b.length < 16 + 8 * cols * rows) || cols == 0 ||
      decide (257 < cols) || rows == 0 || decide ((if rangeSource s k then 65 else 1) < rows) ||
      decide (pl < 4) || decide (10 < pl) || decide (2 ^ pl * (cols - 1) < s.get .pipeOutWidthM1 k) ||
      !zero 5 11 ||
      (List.range (cols * rows)).any (fun i => decide (4032 < u16 (16 + 8 * i + 4)) || !zero (16 + 8 * i + 6) 2)
  | _ => false

/-- The lines the ring holds now: 2 with no mesh (R247). -/
def ringDepth (s : State) (k : Nat) : Nat := if stageOn s k 6 then ringLines s (activeAddr s k 2) else 2

/-! ### Stages 1 to 6 (R243 to R246) -/

/-- in_max of R244. -/
def inMax (s : State) (k : Nat) : Nat :=
  match s.get .cxpFmt k with
  | 1 => 255
  | 5 => 255
  | 7 => 255
  | 2 => 1023
  | 3 => 4095
  | 6 => 4095
  | _ => 65535

/-- The colour of a Bayer site by phase, line parity and column parity (R238, R245): 0 R, 1 G, 2 B. -/
def bayerColour (phase line x : Nat) : Nat :=
  let site := line % 2 * 2 + x % 2
  (match phase with
   | 0 => [0, 1, 1, 2]
   | 1 => [1, 0, 2, 1]
   | 2 => [1, 2, 0, 1]
   | _ => [2, 1, 1, 0]).getD site 0

/-- The channel a source sample belongs to. -/
def sampleChan (s : State) (k line i : Nat) : Nat :=
  if bayerSource s k then bayerColour (s.get .cxpBayer k) line i
  else if s.get .cxpFmt k = 7 then i % 3
  else 0

/-- Stage 1's max(x - black, 0), in source codes (R244); the code itself with the stage disabled. -/
def blackOff (s : State) (k line i x : Nat) : Nat :=
  if stageOn s k 0 then x - bankU16 s (activeAddr s k 0 + 4 + 2 * sampleChan s k line i) else x

/-- The gain of a source column (R250); for a column past src_width the spec states none: a free value. -/
def gainAt (s : State) (k free col : Nat) : Nat :=
  let a := activeAddr s k 1
  if col < bankU32 s a then bankU16 s (a + 0x1810 + 2 * col) else Config.freeValue (free + col) % 65536

/-- Stages 1 and 2 of one sample (R244). -/
def stage12 (s : State) (k line free i x : Nat) : Val :=
  let v := (div32 (.nat (blackOff s k line i x)) (.nat (inMax s k))).val
  if stageOn s k 1 then (mul32 v (.fin false (gainAt s k free (i / cameraComps s k)) 4096)).val else v

/-- The mean of values summed in order (R245); the mean of none, in an image too narrow to hold the colour, is
a free value. -/
def meanOf (free : Nat) (l : List Val) : Val :=
  match l with
  | [] => decodeVal .f32 (Config.freeValue free % 2 ^ 32)
  | v :: vs =>
    if vs.isEmpty then v
    else (div32 (vs.foldl (fun a b => (add32 a b).val) v) (.nat l.length)).val

/-- Demosaic of one pixel channel (R245) from the samples of line n - 1, with the parity they were taken at, and of line
n; where line n stands in for line n - 1 its samples keep their own colours (log entry 97). -/
def demosaicAt (phase line free : Nat) (prev : List Val × Nat) (cur : List Val) (x c : Nat) : Val :=
  if bayerColour phase line x = c then cur.getD x (.zero false)
  else
    let site := fun (l : List Val) (ln : Nat) (dx : Nat) =>
      if x + dx = 0 ∨ l.length < x + dx then none
      else if bayerColour phase ln (x + dx - 1) = c then l[x + dx - 1]? else none
    meanOf (free + 3 * x + c)
      ([0, 1, 2].filterMap (site prev.1 prev.2) ++ [0, 1, 2].filterMap (site cur line))

/-- The pixels of a line as channel lists after stage 3: three channels from RGB8 and demosaiced Bayer, one
otherwise (R243; Bayer with the stage disabled is log entry 24). -/
def stage3 (s : State) (k line free : Nat) (prev : Option (List Val)) (cur : List Val) : List (List Val) :=
  if s.get .cxpFmt k = 7 then
    (List.range (cur.length / 3)).map (fun x => [0, 1, 2].map (fun c => cur.getD (3 * x + c) (.zero false)))
  else if bayerSource s k && stageOn s k 2 then
    let p := match prev with
      | some l => (l, line + 1)
      | none => (cur, line)
    (List.range cur.length).map (fun x =>
      [0, 1, 2].map (demosaicAt (s.get .cxpBayer k) line free p cur x))
  else cur.map (fun v => [v])

/-- Stage 4: white balance (R244). -/
def stage4 (s : State) (k : Nat) (px : List Val) : List Val :=
  if stageOn s k 3 then
    px.zipIdx.map (fun e => (mul32 e.1 (bankF32 s (activeAddr s k 0 + 0x0C + 4 * e.2))).val)
  else px

/-- Stage 5: the colour matrix, the sum in ascending j (R244); three channels only. -/
def stage5 (s : State) (k : Nat) (px : List Val) : List Val :=
  if stageOn s k 4 && px.length == 3 then
    let a := activeAddr s k 0
    (List.range 3).map (fun i =>
      let t := fun j => (mul32 (bankF32 s (a + 0x18 + 4 * (3 * i + j))) (px.getD j (.zero false))).val
      (add32 (add32 (add32 (t 0) (t 1)).val (t 2)).val (bankF32 s (a + 0x3C + 4 * i))).val)
  else px

/-- clamp(v, 0, 1). -/
def clamp01 (v : Val) : Val :=
  if v.lt (.nat 0) then .zero false else if (Val.nat 1).lt v then .nat 1 else v

/-- Integer part of a value that is not negative. -/
def floorVal : Val → Nat
  | .fin _ n d => n / d
  | _ => 0

/-- Stage 6 of one channel (R246): the U16 the stage ring stores. -/
def stage6 (s : State) (k c : Nat) (v : Val) : Nat :=
  let w := clamp01 v
  let t :=
    if stageOn s k 5 then
      let u := (mul32 w (.nat 1023)).val
      let i := floorVal u
      let a := activeAddr s k 1 + 0x10 + 2048 * c
      let lo := bankU16 s (a + 2 * i)
      let hi := bankU16 s (a + 2 * min (i + 1) 1023)
      let f := (sub32 u (.nat i)).val
      let d := (sub32 (.nat hi) (.nat lo)).val
      (div32 (add32 (.nat lo) (mul32 f d).val).val (.nat 65535)).val
    else w
  (convert (mul32 t (.nat 65535)).val .u16 false).val

/-! ### Stages 7 and 8 (R247 to R249) -/

/-- A value to the nearest integer, halves away from zero (R39). -/
def roundInt : Val → Int
  | .fin false n d => (roundAway n d : Int)
  | .fin true n d => -(roundAway n d : Int)
  | _ => 0

/-- An integer as an F32 value. -/
def int32 (x : Int) : Val := (round32 (.int x)).val

/-- Linear interpolation in F32 (R244, R248): `a + num / den × (b - a)`, each operation rounded, then rounded to a unit. -/
def lerpUnits (a b : Int) (num den : Nat) : Int :=
  roundInt (add32 (int32 a) (mul32 (div32 (.nat num) (.nat den)).val (sub32 (int32 b) (int32 a)).val).val).val

/-- Integer quotient to nearest, halves away from zero (R39). -/
def roundDiv (x : Int) (d : Nat) : Int :=
  if 0 ≤ x then (roundAway x.toNat d : Int) else -(roundAway x.natAbs d : Int)

/-- A control point of the mesh: sx and dy (R250). -/
def meshPoint (s : State) (a row i : Nat) : Int × Nat :=
  let p := a + 16 + 8 * (row * bankU16 s a + i)
  (sext 32 (bankU32 s p), bankU16 s (p + 4))

/-- Linear interpolation between two control points, rounded to 1/64 (R248). -/
def meshBetween (p q : Int × Nat) (num den : Nat) : Int × Nat :=
  (lerpUnits p.1 q.1 num den, (lerpUnits p.2 q.2 num den).toNat)

/-- The mapping of an output column in one mesh row (R248). -/
def meshRow (s : State) (a row x : Nat) : Int × Nat :=
  let pitch := 2 ^ (memRead s.galley (a + 4)).toNat
  let i := x / pitch
  if bankU16 s a ≤ i + 1 then meshPoint s a row (bankU16 s a - 1)
  else meshBetween (meshPoint s a row i) (meshPoint s a row (i + 1)) (x % pitch) pitch

/-- The lines of the ring. -/
abbrev RingRows := List (Nat × List (List Nat))

/-- A line of the ring, if it is held. -/
def ringRow (r : RingRows) (line : Nat) : Option (List (List Nat)) :=
  (r.find? (fun e => e.1 == line)).map (fun e => e.2)

/-- A ring value; columns outside the image and lines not held read as zero (R247, R248). -/
def ringAt (row : Option (List (List Nat))) (col : Int) (c : Nat) : Nat :=
  if col < 0 then 0 else ((row.getD []).getD col.toNat []).getD c 0

/-- The nearest sample of a source point (R248): its value and whether its line is held. -/
def nearest (r : RingRows) (line : Nat) (p : Int × Nat) : Nat × Bool :=
  let ln := (line + 2 ^ 48 - (p.2 + 31) / 64) % 2 ^ 48
  let row := ringRow r ln
  (ringAt row (roundDiv p.1 64) 0, row.isSome)

/-- The mapping of an output column of a range source (R248): row 0 gives the height that picks two rows. -/
def rangeMap (s : State) (k : Nat) (r : RingRows) (line x : Nat) : Int × Nat :=
  let a := activeAddr s k 2
  let p0 := meshRow s a 0 x
  let rows := bankU16 s (a + 2)
  if rows ≤ 1 then p0
  else
    let h := (nearest r line p0).1
    let i := min (h / 1024) (rows - 1)
    let j := min (i + 1) (rows - 1)
    meshBetween (meshRow s a i x) (meshRow s a j x) (h % 1024) 1024

/-- The source point of an output column (R248). -/
def sourcePoint (s : State) (k : Nat) (r : RingRows) (line x : Nat) : Int × Nat :=
  if stageOn s k 6 then
    if rangeSource s k then rangeMap s k r line x else meshRow s (activeAddr s k 2) 0 x
  else
    let a := activeAddr s k 0
    (roundInt (add32 (int32 (bankU32 s (a + 0x48))) (mul32 (.nat x) (int32 (bankU32 s (a + 0x4C)))).val).val, 0)

/-- `a + f × (b - a)` with weight `f / 64` (R248). -/
def lerp64 (a b : Val) (f : Nat) : Val :=
  if f = 0 then a else (add32 a (mul32 (.fin false f 64) (sub32 b a).val).val).val

/-- The bilinear sample of one channel, in ring codes (R248). -/
def bilinear (lo hi : Option (List (List Nat))) (sx : Int) (fy c : Nat) : Val :=
  let x0 := sx / 64
  let fx := (sx % 64).toNat
  let across := fun row => lerp64 (.nat (ringAt row x0 c)) (.nat (ringAt row (x0 + 1) c)) fx
  lerp64 (across lo) (across hi) fy

/-- Stage 8 of one value in ring codes (R249): its code in the output format. -/
def stage8 (fmt : Nat) (v : Val) : Nat :=
  let f := (fmtOf fmt).getD .u8
  let top := match fmt with
    | 1 => 255
    | 3 => 65535
    | _ => 1
  (convert (mul32 (div32 v (.nat 65535)).val (.nat top)).val f false).val

/-- One output pixel: its channel codes, and whether a line it reads is not held. -/
def outPixel (s : State) (k : Nat) (r : RingRows) (line comps x : Nat) : List Nat × Bool :=
  let p := sourcePoint s k r line x
  if rangeSource s k then
    let n := nearest r line p
    let low := nearest r line (if stageOn s k 6 then meshRow s (activeAddr s k 2) 0 x else p)
    ([n.1], !n.2 || !low.2)
  else
    let y0 := (line + 2 ^ 48 - (p.2 + 63) / 64) % 2 ^ 48
    let fy := (64 - p.2 % 64) % 64
    let lo := ringRow r y0
    let hi := ringRow r ((y0 + 1) % 2 ^ 48)
    ((List.range comps).map (fun c => stage8 (s.get .pipeOutFmt k) (bilinear lo hi p.1 fy c)),
      lo.isNone || (fy != 0 && hi.isNone))

/-! ### Statistics (R254, R255) -/

/-- An empty block of the line numbers from statBase (R254); what changed or was lost in its lines before it was opened
counts for its flags (R255). -/
def newStats (s : State) (k line : Nat) : Stats :=
  let x := s.context k
  let base := x.statBase
  let b := (line + 2 ^ 48 - base) % 2 ^ 48 / 1024
  let within := fun (l : Option Nat) => match l with
    | some l => decide (0 ≤ lineDiff l ((base + 1024 * b) % 2 ^ 48))
    | none => false
  { block := b % 2 ^ 32, first := (base + 1024 * b) % 2 ^ 48, lines := 0, hist := .empty, wb := .empty,
    wbCount := 0, focus := 0, cols := .empty, changed := within x.lastSwitch, gap := within x.lastLost }

/-- A U64 that saturates. -/
def sat64 (n : Nat) : Nat := min n (2 ^ 64 - 1)

/-- The STATS record's payload (R255). Column sums divide by the samples taken, under R39; the mean of no
sample is a free value. -/
def statsPayload (s : State) (k : Nat) (b : Stats) : List Byte :=
  let width := bankU32 s (activeAddr s k 1)
  let n := b.lines * cameraComps s k
  let mean := fun i => if n = 0 then Config.freeValue (s.free + i) % 65536 else roundAway (b.cols.get 0 i) n
  let cols := (List.range width).flatMap (fun i => natLe 2 (mean i))
  padTo 64 (natLe 1 k ++ natLe 3 0 ++ natLe 4 b.block ++ natLe 8 b.first ++ natLe 4 b.lines ++
      natLe 4 (b2n b.changed + 2 * b2n b.gap)) ++
    (List.range 768).flatMap (fun i => natLe 4 (b.hist.get 0 i)) ++
    padTo 64 ((List.range 3).flatMap (fun c => natLe 8 (b.wb.get 0 c)) ++ natLe 8 b.wbCount ++
      natLe 8 b.focus) ++
    padTo ((cols.length + 63) / 64 * 64) cols

/-- Write the open block as a record (R255) and leave no block open. -/
def closeStats (s : State) (k : Nat) : State :=
  let x := s.context k
  match x.stats with
  | none => s
  | some b =>
    let s1 := s.setCtx k { x with stats := none }
    let s2 := if b.lines = 0 then { s1 with free := s1.free + bankU32 s (activeAddr s k 1) } else s1
    addCropRecord s2 k 0x22 (statsPayload s k b)

/-- The block a line belongs to: a block whose last line is behind is written first. -/
def openStats (s : State) (k line : Nat) : State × Stats :=
  let s1 := match (s.context k).stats with
    | some b => if 1024 ≤ (line + 2 ^ 48 - b.first) % 2 ^ 48 then closeStats s k else s
    | none => s
  (s1, ((s1.context k).stats).getD (newStats s1 k line))

/-- Keep the block, and write it once the line was its last (R255). -/
def keepStats (s : State) (k line : Nat) (b : Stats) : State :=
  let x := s.context k
  let s1 := s.setCtx k { x with stats := some b }
  if (line + 2 ^ 48 - b.first) % 2 ^ 48 = 1023 then closeStats s1 k else s1

/-- Whether a context's lines are counted into statistics (R243, R254). -/
def statsOn (s : State) (k : Nat) : Bool := piped s k && !rangeSource s k && stageOn s k 7

/-- A line was lost: a gap falls in its block (R254, R255). -/
def statsLost (s : State) (k line : Nat) : State :=
  if statsOn s k then
    let r := openStats s k line
    keepStats r.1 k line { r.2 with gap := true }
  else s

/-- Add a line's ring values and black-corrected codes to its block (R254). -/
def statsLine (s : State) (k line : Nat) (px : List (List Nat)) (black : List Nat) : State :=
  if statsOn s k then
    let r := openStats s k line
    let b := r.2
    let clip := bankU16 s (activeAddr s k 0 + 0x50)
    let hist := px.foldl (fun h p => p.zipIdx.foldl (fun h e =>
      let i := 256 * e.2 + e.1 / 256
      h.set i ((h.get 0 i + 1) % 2 ^ 32)) h) b.hist
    let below := px.filter (fun p => p.all (fun v => decide (v < clip)))
    let wb := (List.range 3).foldl (fun t c =>
      t.set c (sat64 (t.get 0 c + (below.map (fun p => p.getD c 0)).sum))) b.wb
    let g := px.map (fun p => p.getD (if p.length = 3 then 1 else 0) 0)
    let focus := (List.zip g (g.drop 1)).foldl (fun a e => a + ((e.2 : Int) - e.1).natAbs ^ 2) 0
    let n := cameraComps s k
    let cols := black.zipIdx.foldl (fun t e => t.set (e.2 / n) (t.get 0 (e.2 / n) + e.1)) b.cols
    keepStats r.1 k line { b with
      lines := b.lines + 1, hist := hist, wb := wb, wbCount := sat64 (b.wbCount + below.length),
      focus := sat64 (b.focus + focus), cols := cols }
  else s

/-! ### Bank switches (R13, R163, R252) -/

/-- One pending apply takes effect (R252): the active bank, PIPE_APPLIED, the host's completion with the line
actually used. -/
def switchBank (s : State) (k line t : Nat) : State :=
  let x := s.context k
  match x.applies.get none t with
  | none => s
  | some a =>
    if lineDiff line a.line < 0 then s
    else
      let stats := if t < 2 then x.stats.map (fun b =>
        if (line + 2 ^ 48 - b.first) % 2 ^ 48 < 1024 then { b with changed := true } else b) else x.stats
      let s1 := s.setCtx k { x with
        applies := x.applies.set t none, stats := stats,
        lastSwitch := if t < 2 then some line else x.lastSwitch,
        paramBank := if t = 3 then a.bank else x.paramBank }
      let act := s1.get .pipeActive k
      let s2 := if t = 3 then s1
        else s1.put .pipeActive k (act - b2n (bitAt act t) * 2 ^ t + a.bank * 2 ^ t)
      let s3 := s2.put .pipeApplied k line
      match a.req with
      | some r => answer s3 r cOk [BitVec.ofNat 32 line, BitVec.ofNat 32 (line / 2 ^ 32)]
      | none => s3

/-- The applies of every target whose line has come. -/
def switchBanks (s : State) (k line : Nat) : State :=
  [0, 1, 2, 3].foldl (fun s t => switchBank s k line t) s

/-! ### One line (R224, R240, R243) -/

/-- What a line becomes: format, components, width, payload; and for the statistics its ring values and black-corrected
codes. -/
structure Product where
  format  : Nat
  comps   : Nat
  width   : Nat
  payload : List Byte
  values  : List (List Nat)
  black   : List Nat

/-- A bypassed line (R215). -/
def bypassLine (s : State) (k : Nat) (samples : List Nat) : Product :=
  let f := bypassFormat s k
  ⟨f, cameraComps s k, s.get .cxpWidthM1 k + 1, packCodes ((fmtOf f).getD .u8) samples, [], []⟩

/-- The ring after a line enters: at most `depth` lines. -/
def enterRing (r : RingRows) (depth line : Nat) (px : List (List Nat)) : RingRows :=
  ((line, px) :: r).filter (fun e => decide (lineDiff line e.1 < (depth : Int)))

/-- Stages 1 to 6 of a line: the ring values, the black-corrected codes and the demosaic memory (R243). -/
def frontStages (s : State) (k line : Nat) (samples : List Nat) :
    List (List Nat) × List Nat × Option (Nat × List Nat) :=
  if rangeSource s k then (samples.map (fun v => [v]), [], none)
  else
    let x := s.context k
    let cur := samples.zipIdx.map (fun e => stage12 s k line s.free e.2 e.1)
    let prev := match x.prevRaw with
      | some p => if (p.1 + 1) % 2 ^ 48 = line then some (p.2.map (decodeVal .f32)) else none
      | none => none
    let px := (stage3 s k line (s.free + samples.length) prev cur).map (fun p =>
      ((stage5 s k (stage4 s k p)).zipIdx.map (fun e => stage6 s k e.2 e.1)))
    (px, samples.zipIdx.map (fun e => blackOff s k line e.2 e.1), some (line, cur.map bits32))

/-- Whether a context is the one its pipe serves in-line (R240). -/
def servedInline (s : State) (k : Nat) : Bool :=
  let p := s.get .pipeSel k - 1
  s.flag .pipeInlineValid p && s.get .pipeInlineCtx p == k

/-- The pixels of a context served through memory pass its stage buffer (R240, R242). -/
def stagePixels (s : State) (k : Nat) (samples : List Nat) : State :=
  if servedInline s k then s else s.setCtx k { s.context k with stageBuf := samples }

/-- A piped line (R243 to R249): the state with ring, demosaic memory and PIPE_PARTIAL, and the output. -/
def pipeLine (s : State) (k line : Nat) (samples : List Nat) : State × Product :=
  let f := frontStages s k line samples
  let x := s.context k
  let ring := enterRing x.ring (ringDepth s k) line f.1
  let comps := (f.1.head?.map List.length).getD 1
  let fmt := if rangeSource s k then 3 else s.get .pipeOutFmt k
  let w := s.get .pipeOutWidthM1 k + 1
  let out := (List.range w).map (outPixel s k ring line comps)
  let bytes := packCodes ((fmtOf fmt).getD .u8) (out.flatMap (fun p => p.1))
  let s1 := { s with free := s.free + 4 * samples.length }.setCtx k { x with ring := ring, prevRaw := f.2.2 }
  let s2 := if out.any (fun p => p.2) then s1.bump .pipePartial k else s1
  (s2, ⟨fmt, comps, w, bytes, f.1, f.2.1⟩)

/-- The service path of a closed line: bank switches, then the pipe or the bypass (R224, R240, R252). -/
def serveLine (s : State) (k line : Nat) (samples : List Nat) : State × Product :=
  let s1 := switchBanks s k line
  if piped s1 k then pipeLine (stagePixels s1 k samples) k line samples else (s1, bypassLine s1 k samples)

/-! ### The bank commands (R251, R253) -/

/-- Whether a requester may act on a context: PF0, or the VF it belongs to and that VF's chases (R180, R251). -/
def mayContext (s : State) (r : Req) (k : Nat) : Bool :=
  let f := senderFn s r.sender.toNat
  f == 0 || f == k + 1

/-- Whether a bank is the active one. -/
def bankActive (s : State) (k t b : Nat) : Bool := activeBank s k t == b

/-- Whether an apply of a bank is pending. -/
def bankPending (s : State) (k t b : Nat) : Bool :=
  match (s.context k).applies.get none t with
  | some a => a.bank == b
  | none => false

/-- Whether a bank is being staged. -/
def bankStaging (s : State) (k t b : Nat) : Bool :=
  (s.context k).stages.any (fun e => e.target == t && e.bank == b)

/-- PIPE_STAGE (R251); a context being reset does not serve it (R14). -/
def execPipeStage (r : Req) (k : Ctx) (target : Fin 4) (bank : Fin 2) (addr size : Nat) (s : State) : Answer :=
  .next (firmware s r false false (fun s =>
    let n := k.val
    let t := target.val
    let b := bank.val
    if !mayContext s r n then answer s r cIsolated []
    else if (s.context n).resetting || bankActive s n t b || bankPending s n t b || bankStaging s n t b then answer s r cBusy []
    else if imageBad s n t (memBytes s.lpddr addr size) then answer s r cVersion [0x10]
    else
      let x := s.context n
      s.setCtx n { x with stages := x.stages ++ [⟨t, b, addr, size, r⟩] }))

/-- PIPE_STAGE_DONE (R251): the oldest copy is done and its command completes. -/
def execPipeStageDone (k : Ctx) (s : State) : Answer :=
  let x := s.context k.val
  match x.stages with
  | [] => .next s
  | e :: es =>
    let img := memBytes s.lpddr e.addr e.size
    let s1 := s.setCtx k.val { x with
      stages := es, paramBlocks := if e.target = 3 then x.paramBlocks.set e.bank img else x.paramBlocks }
    let s2 := if e.target = 3 then s1
      else { s1 with galley := memStore s1.galley (bankAddr s k.val e.target e.bank) img }
    .next (answer s2 e.req cOk [])

/-- PIPE_APPLY (R251, R13, R163): it completes with the line used when the bank switches; a context being reset
does not serve it (R14). -/
def execPipeApply (r : Req) (k : Ctx) (target : Fin 4) (bank : Fin 2) (line : BitVec 48) (s : State) : Answer :=
  .next (firmware s r false false (fun s =>
    let n := k.val
    if !mayContext s r n then answer s r cIsolated []
    else if (s.context n).resetting || bankStaging s n target.val bank.val then answer s r cBusy []
    else if target.val = 2 ∧ meshTooLarge s n bank.val then answer s r cCapability []
    else applyBank s n target.val bank.val line.toNat (some r)))

end Sys2Proof.Machine
end

