-- ==== Sys2Proof/Machine/Tensor.lean ====
section
/-! DEFINITION. What every tensor instruction shares: storing a computed tensor with its counted events,
occupying its units, and the token buckets of regulated transfers (R62, R82, R130, R194). -/

namespace Sys2Proof.Machine

/-- The element positions a descriptor computes, lines counted from `h0`. -/
def Desc.cells (d : Desc) (h0 : Nat) : List (Nat × Nat × Nat) :=
  (List.range d.h).flatMap (fun i => (List.range d.w).flatMap (fun w =>
    (List.range (if d.layout = 3 then 1 else d.c)).map (fun c => (h0 + i, w, c))))

/-- The first position of each group of a tensor. -/
def Desc.groupFirsts (d : Desc) (h0 : Nat) : List (Nat × Nat × Nat) :=
  (d.cells h0).filter (fun e => if d.layout = 3 then e.2.1 % 32 == 0 else e.2.2 % 32 == 0)

/-- The padding of the two parts of a scale plane with 0x00 to their granules (R49): from the last group scale, and from
the last second-level scale, on. -/
def padPlane (d : Desc) (mem : Memory) (at0 : Nat) : Memory :=
  let p := at0 + d.scaleBase
  let m1 := memZero mem (p + d.lines * d.groupsPerLine) (p + d.groupBytes)
  if d.fmt = .sb4 then memZero m1 (p + d.groupBytes + 4 * d.lines) (p + d.groupBytes + granule (4 * d.lines)) else m1

/-- The events of one element: the counters of R62 count elements, not operations. -/
def Nums.once (e : Nums) : Nums := ⟨min e.sat 1, min e.nan 1, e.bad, min e.inf 1⟩

/-- All events of a tensor's elements. -/
def cellEvents (l : List (Nat × Nat × Nat)) (f : Nat → Nat → Nat → Ev Nat) : Nums :=
  l.foldl (fun acc e => acc.plus (f e.1 e.2.1 e.2.2).ev.once) .zero

/-- Store a tensor, counting its events for the chase (R62) and its losses for the core (R82). -/
def storeCells (s : State) (q : SeqId) (d : Desc) (h0 : Nat) (f : Nat → Nat → Nat → Ev Nat) : State :=
  let r := writeTensor s q d h0 (fun h w c => (f h w c).val)
  let s1 := countNums r.1 q.chase.val (cellEvents (d.cells h0) f)
  if r.2 = 0 then s1 else s1.bumpBy .zovf (ownCore s q) r.2

/-- Store a tensor whose lines are numbered from `h0`: a ring keeps the first line it takes (R87).  DESIGN CHOICE (log
entry 85): a result other than QUANT's that goes to a grouped S8 or E4M3 destination is written as plain converted codes,
and the scale plane stays as it was. -/
def storeTensor (s : State) (q : SeqId) (d : Desc) (h0 : Nat) (f : Nat → Nat → Nat → Ev Nat) : State :=
  storeCells (noteLine s q d h0) q d h0 f

/-- Count the bad groups among the elements read of a source (R47). -/
def badScales (x : Src) (cells : List (Nat × Nat × Nat)) : Nums := ⟨0, 0, x.badGroups cells, 0⟩

/-- Count the bad groups of a source that is read whole (R47). -/
def countBad (s : State) (q : SeqId) (x : Src) : State :=
  countNums s q.chase.val (badScales x (x.d.cells 0))

/-! ### Corrected reads (R78) -/

/-- The words of a byte range of core SRAM whose read finds a corrected error (R78; log entry 80). -/
def correctedWords (s : State) (sp : Span) : List Nat :=
  if sp.1 = 0 then
    (List.range ((sp.2.2 + 7) / 8 - sp.2.1 / 8)).filterMap (fun i =>
      if Config.correctedRead s.free (sp.2.1 / 8 + i) then some (sp.2.1 / 8 + i) else none)
  else []

/-- A read of a byte range counts its corrected words in SRAM_CE, and SRAM_ERR_ADDR latches the first where it holds none
(R78, R114, R115): found by no scrub.  The words stay as they are until a scrub visits their row. -/
def readCorrected (s : State) (sp : Span) : State :=
  let core := sp.2.1 / 0x400000
  let ws := correctedWords s sp
  let take := !ws.isEmpty && !s.flag .errValid core
  let keep := fun (f : Fld) (v : Nat) => if take then v else s.get f core
  (((((s.bumpBy .sramCe core ws.length).put .errWord core
    (keep .errWord (ws.headD 0 % 0x80000))).put .errIstore core (keep .errIstore 0)).put
    .errUncorr core (keep .errUncorr 0)).put .errByScrub core (keep .errByScrub 0)).put
    .errValid core (keep .errValid 1)

/-- The reads of an instruction's sources (R78): each may find corrected errors. -/
def readSources (s : State) (spans : List Span) : State :=
  let t := (spans.filter (fun sp => sp.1 == 0)).foldl readCorrected s
  { t with free := t.free + 1 }

/-- Skip the free values a hazardous read may have used (R132). -/
def skipFree (s : State) (l : List Src) : State :=
  if l.any (fun x => x.free.isSome) then { s with free := s.free + 2 ^ 36 } else s

/-! ### Regulated transfers (R194) -/

/-- Depth of a bucket: 16 KiB, in units of 2⁻¹⁶ bytes. -/
def bucketDepth : Nat := 16384 * 65536

/-- The regulator a transfer goes through: LPDDR5X, or the galley store in a loose section. -/
def regulator (x : Seq) (d : Desc) : Option Nat :=
  if d.space = 3 then some 0 else if d.space = 2 ∧ x.inLoose then some 1 else none

/-- Bytes a transfer moves. -/
def transferBytes (d : Desc) : Nat := d.h * (if d.layout = 3 then 1 else d.blocks) * d.rowBytes

/-- Whether a regulated transfer may pass a regulator now: it was granted, or its bucket holds its bytes and nothing of
the chase waits before it (R194). -/
def bucketReady (c : Chase) (res bytes : Nat) : Bool :=
  decide (0 < c.bwCred.get 0 res) ||
    (c.bwWait.get 0 res == 0 && decide (bytes * 65536 ≤ c.buckets.get bucketDepth res))

/-- Take a transfer's bytes (R194): from its grant, or from the bucket. -/
def bucketTake (c : Chase) (res bytes : Nat) : Chase :=
  if 0 < c.bwCred.get 0 res then { c with bwCred := c.bwCred.set res 0 }
  else { c with buckets := c.buckets.set res (c.buckets.get bucketDepth res - bytes * 65536) }

/-- The bytes a transfer moves through a regulator: those of every descriptor it names there (R194). -/
def demand (x : Seq) (ds : List Desc) (r : Nat) : Nat :=
  ((ds.filter (fun d => regulator x d == some r)).map transferBytes).sum

/-- The regulators a transfer goes through, with its bytes (R194): LPDDR5X, the galley store. -/
def demands (x : Seq) (ds : List Desc) : List (Nat × Nat) :=
  ([0, 1].filter (fun r => ds.any (fun d => regulator x d == some r))).map (fun r => (r, demand x ds r))

/-- Run a transfer through its regulators (R194): it takes its bytes from each and goes, or it waits where they are not
there for BUCKET_GRANT and issues again then. -/
def regulated (s : State) (q : SeqId) (x : Seq) (ds : List Desc) (go : State → State) : State :=
  let n := q.chase.val
  let l := demands x ds
  match l.find? (fun e => !bucketReady (s.chase n) e.1 e.2) with
  | some (r, bytes) => s.setChase n { s.chase n with bwWait := (s.chase n).bwWait.set r bytes }
  | none => go (s.setChase n (l.foldl (fun c e => bucketTake c e.1 e.2) (s.chase n)))

/-- Run an instruction on its units: results another unit still reads or writes are disturbed (R132), reads may find
corrected errors (R78), the units become busy, the sequencer goes on.  `rows` are a copy's rows before it (R96). -/
def onUnitsWith (q : SeqId) (o : Op) (srcs dsts : List Desc) (rows : List (Nat × Nat × List Byte)) (s : State)
    (f : State → State) : State :=
  let reads := srcs.flatMap (fun d => d.spans s q)
  let writes := dsts.flatMap (fun d => d.spans s q)
  let s1 := disturb s q.chase.val writes
  let s2 := skipFree (f s1) (srcs.map (srcOf s1 q))
  retire q (occupy (readSources s2 reads) q o reads writes false rows)

/-- Run an instruction that is no copy on its units. -/
def onUnits (q : SeqId) (o : Op) (srcs dsts : List Desc) (s : State) (f : State → State) : State :=
  onUnitsWith q o srcs dsts [] s f

/-- The first line an instruction of class T computes: s[sa] where a named tensor is a ring (R145). -/
def lineBase (x : Seq) (o : Op) : Nat :=
  if (usedDescs x o).any (fun d => d.ring != 0) then x.s o.sa else 0

end Sys2Proof.Machine
end

