-- ==== Sys2Proof/Machine/Records.lean ====
section
/-! DEFINITION. Record files, replay injection and the trainer feeder (R256 to R271). -/

namespace Sys2Proof.Machine

/-! ### Record files (R256 to R261) -/

/-- One step of the reflected CRC-32C. -/
def crc32cBit (c : Nat) : Nat := if c % 2 = 1 then (c / 2) ^^^ 0x82F63B78 else c / 2

/-- CRC-32C (R256). -/
def crc32c (l : List Byte) : Nat :=
  (l.foldl (fun c b => (List.range 8).foldl (fun c _ => crc32cBit c) (c ^^^ b.toNat)) 0xFFFFFFFF) ^^^ 0xFFFFFFFF

/-- An entry of a file's index block (R260). -/
structure IndexEntry where
  recId  : Nat
  offset : Nat
  count  : Nat
  ty     : Nat

/-- A file in LPDDR5X. -/
structure RecFile where
  addr : Nat
  size : Nat

/-- Bytes of a file. -/
def RecFile.bytes (f : RecFile) (s : State) (o n : Nat) : List Byte := memBytes s.lpddr (f.addr + o) n

/-- A number of a file. -/
def RecFile.num (f : RecFile) (s : State) (o n : Nat) : Nat := memNat s.lpddr (f.addr + o) n

/-- Where the index block lies, and its entry count. -/
def RecFile.index (f : RecFile) (s : State) : Nat × Nat :=
  let o := f.num s 0x18 8
  (o, f.num s (o + 4) 4)

/-- Entry `i` of the index. -/
def RecFile.entry (f : RecFile) (s : State) (i : Nat) : IndexEntry :=
  let o := (f.index s).1 + 16 + 24 * i
  ⟨f.num s o 8, f.num s (o + 8) 8, f.num s (o + 16) 4, f.num s (o + 20) 2⟩

/-- Whether the index block lies inside the file, passes its CRC and is strictly ascending. -/
def RecFile.indexOk (f : RecFile) (s : State) : Bool :=
  let x := f.index s
  let n := 16 + 24 * x.2
  decide (x.1 + 20 ≤ f.size) && decide (x.1 + n + 4 ≤ f.size) && f.num s x.1 4 == 0x58444942 &&
    crc32c (f.bytes s x.1 n) == f.num s (x.1 + n) 4 &&
    (List.range (x.2 - 1)).all (fun i => decide ((f.entry s i).recId < (f.entry s (i + 1)).recId))

/-- The check of R261: the reason of the first failure. -/
def RecFile.check (f : RecFile) (s : State) : Option Nat :=
  if f.size < 64 ∨ f.num s 0 4 ≠ 0x4E595242 ∨ f.num s 4 2 ≠ 1 ∨ crc32c (f.bytes s 0 0x3C) ≠ f.num s 0x3C 4 then
    some 0x11
  else if !f.indexOk s then some 0x12
  else if (f.index s).2 ≠ f.num s 0x10 8 then some 0x13
  else none

/-- Whether a record agrees with its index entry (R261): magic, CRC, type, count, inside the file. -/
def RecFile.sound (f : RecFile) (s : State) (e : IndexEntry) : Bool :=
  let n := f.num s (e.offset + 16) 4
  decide (e.offset + 36 + n ≤ f.size) && f.num s e.offset 4 == 0x43455242 &&
    f.num s (e.offset + 4) 2 == e.ty && f.num s (e.offset + 20) 4 == e.count &&
    crc32c (f.bytes s e.offset (32 + n)) == f.num s (e.offset + 32 + n) 4

/-! ### Replay (R262 to R264) -/

/-- The tag and payload of a recorded slug (R226). -/
def slugFrom (f : RecFile) (s : State) (o : Nat) : Slug :=
  { line := f.num s o 6, format := f.num s (o + 6) 1, components := f.num s (o + 7) 1,
    flags := BitVec.ofNat 32 (f.num s (o + 8) 4), widthM1 := f.num s (o + 12) 2,
    crcPackets := f.num s (o + 14) 2, trigCount := f.num s (o + 16) 8, commitTime := f.num s (o + 24) 8,
    lost := f.num s (o + 32) 4, payload := f.bytes s (o + 64) (min 65536 (f.num s (o + 36) 4)) }

/-- Whether a recorded slug is of the context's CXP_FMT and width (R262). -/
def slugMatches (s : State) (k : Nat) (g : Slug) : Bool :=
  let fmt := s.get .cxpFmt k
  g.components == cameraComps s k && g.widthM1 == s.get .cxpWidthM1 k &&
    (g.format == bypassFormat s k || ((fmt == 3 || fmt == 6) && (g.format == 2 || g.format == 3)))

/-- Whether every slug of a run matches; markers match always. -/
def runMatches (s : State) (k : Nat) (f : RecFile) (e : IndexEntry) : Bool :=
  let stride := f.num s (e.offset + 40) 4
  (List.range e.count).all (fun i =>
    let g := slugFrom f s (e.offset + 48 + i * stride)
    bitAt g.flags.toNat 0 || slugMatches s k g)

/-- The next line run at or after an index position. -/
def nextRun (f : RecFile) (s : State) (i : Nat) : Option Nat :=
  ((List.range (f.index s).2).drop i).find? (fun j => (f.entry s j).ty == 1)

/-- REPLAY_START (R262). -/
def execReplayStart (r : Req) (k : Ctx) (addr size : Nat) (start : BitVec 48) (looped : Bool) (s : State) :
    Answer :=
  .next (firmware s r false false (fun s =>
    let n := k.val
    let x := s.context n
    let f : RecFile := ⟨addr, size⟩
    if !mayContext s r n then answer s r cIsolated []
    else if !s.flag .ctxBound n || x.resetting || x.replay.isSome then answer s r cBusy []
    else match f.check s with
      | some d => answer s r cVersion [BitVec.ofNat 32 d]
      | none =>
        let first := nextRun f s 0
        if s.get .galLimit n * 64 < (s.get .galDepth n + 16) * s.get .galStride n ∨
            !(match first with
              | some i => (f.entry s i).count != 0 && runMatches s n f (f.entry s i)
              | none => false) then
          answer s r cCapability []
        else
          answer (s.setCtx n { x with
            replay := some { addr := addr, size := size, start := start.toNat, looped := looped, begun := false,
                             stopping := false, ended := false, entry := 0, within := 0, charged := 0, buf := [] } }) r cOk []))

/-- REPLAY_STOP (R264): the replay ends at the next trigger hit; a context being reset does not serve it (R14). -/
def execReplayStop (r : Req) (k : Ctx) (s : State) : Answer :=
  .next (firmware s r false false (fun s =>
    let x := s.context k.val
    if !mayContext s r k.val then answer s r cIsolated []
    else if x.resetting then answer s r cBusy []
    else match x.replay with
      | none => answer s r cBusy []
      | some p => answer (s.setCtx k.val { x with replay := some { p with stopping := true } }) r cOk []))

/-- The read position after a slug of run `i` (R262, R263): the next slug, the next run, the first run again
when looped, or the end. -/
def Replay.advance (p : Replay) (f : RecFile) (s : State) (i : Nat) (whole : Bool) : Replay :=
  if !whole && p.within + 1 < (f.entry s i).count then { p with entry := i, within := p.within + 1 }
  else match nextRun f s (i + 1) with
    | some j => { p with entry := j, within := 0 }
    | none =>
      if p.looped then { p with entry := 0, within := 0 } else { p with ended := true }

/-- One prefetch (R262, R263): the next slug into the buffer; a marker or a corrupt run stands for the hits it
covers. A run that holds slugs of another format is treated as corrupt (log entry 25). -/
def Replay.fetch (p : Replay) (s : State) (k : Nat) : Replay :=
  if p.ended || decide (16 ≤ p.buf.length) then p
  else
    let f : RecFile := ⟨p.addr, p.size⟩
    match nextRun f s p.entry with
    | none => { p with ended := true }
    | some i =>
      let e := f.entry s i
      if e.count = 0 then ({ p with within := 0 }).advance f s i true
      else if !f.sound s e || !runMatches s k f e then
        ({ p with buf := p.buf ++ [ReplayEntry.missed e.count true], within := 0 }).advance f s i true
      else
        let g := slugFrom f s (e.offset + 48 + p.within * f.num s (e.offset + 40) 4)
        let x := if bitAt g.flags.toNat 0 then ReplayEntry.missed g.lost false else .slug g
        ({ p with buf := p.buf ++ [x] }).advance f s i false

/-- Bytes the next prefetch reads (R262): one slug of the run it stands in. -/
def Replay.slugBytes (p : Replay) (s : State) : Nat :=
  let f : RecFile := ⟨p.addr, p.size⟩
  match nextRun f s p.entry with
  | some i => min 65600 (f.num s ((f.entry s i).offset + 40) 4)
  | none => 0

/-- Charge the next piece of a prefetch, a bucket's depth at most, to the LPDDR bucket of the chase that serves the context
(R194, R262; pieces are log entry 98): the state and the replay, and whether the slug is paid for. -/
def chargePrefetch (s : State) (k : Nat) (p : Replay) : Option (State × Replay × Bool) :=
  let n := s.get .ctxChase k
  let c := s.chase n
  let left := p.slugBytes s - p.charged
  let piece := min left 16384
  if piece = 0 then some (s, { p with charged := 0 }, true)
  else if c.bwWait.get 0 0 = 0 ∧ piece * 65536 ≤ c.buckets.get bucketDepth 0 then
    some (s.setChase n { c with buckets := c.buckets.set 0 (c.buckets.get bucketDepth 0 - piece * 65536) },
      { p with charged := if piece = left then 0 else p.charged + piece }, piece == left)
  else none

/-- REPLAY_PREFETCH (R262): the next slug comes into the buffer once the bucket has paid for it. -/
def execReplayPrefetch (k : Ctx) (s : State) : Answer :=
  let x := s.context k.val
  match x.replay with
  | none => .next s
  | some p =>
    if p.ended || decide (16 ≤ p.buf.length) then .next s
    else match chargePrefetch s k.val p with
      | none => .next s
      | some (s1, q, paid) =>
        .next (s1.setCtx k.val { x with replay := some (if paid then q.fetch s k.val else q) })

/-- The source codes of a recorded slug's payload. -/
def slugCodes (g : Slug) : List Nat :=
  (List.range ((g.widthM1 + 1) * g.components)).map (fun i =>
    let v := fun a n => leNat ((g.payload.drop a).take n)
    match g.format with
    | 1 => v i 1
    | 2 => if i % 2 = 0 then v (i / 2 * 3) 3 % 4096 else v (i / 2 * 3) 3 / 4096
    | _ => v (2 * i) 2)

/-- The flags a recorded slug keeps (R263): damaged, length_error, late, settling, trig_deferred. -/
def replayFlags (g : Slug) : BitVec 32 := g.flags &&& 0x3E

/-! ### The trainer feeder (R265 to R271) -/

/-- splitmix64 (R266). -/
def splitmix64 (x : BitVec 64) : BitVec 64 :=
  let z := x + 0x9E3779B97F4A7C15
  let z1 := (z ^^^ (z >>> 30)) * 0xBF58476D1CE4E5B9
  let z2 := (z1 ^^^ (z1 >>> 27)) * 0x94D049BB133111EB
  z2 ^^^ (z2 >>> 31)

/-- epoch_key (R266). -/
def epochKey (seed : BitVec 64) (e : Nat) : BitVec 64 :=
  splitmix64 (seed ^^^ splitmix64 (BitVec.ofNat 64 e))

/-- The upper half of a 128-bit product. -/
def high64 (a b : Nat) : Nat := a * b / 2 ^ 64 % 2 ^ 64

/-- Swap two positions. -/
def swapAt (l : List Nat) (i j : Nat) : List Nat := (l.set i (l.getD j 0)).set j (l.getD i 0)

/-- order (R266): the permutation of an epoch. -/
def epochOrder (seed : BitVec 64) (e n : Nat) : List Nat :=
  ((List.range n).drop 1).reverse.foldl (fun perm i =>
    swapAt perm i (high64 (splitmix64 (epochKey seed e + BitVec.ofNat 64 i)).toNat (i + 1))) (List.range n)

/-- sample_draw (R266). -/
def sampleDraw (seed : BitVec 64) (e recIndex k : Nat) : Nat :=
  (splitmix64 (splitmix64 (epochKey seed e ^^^ splitmix64 (BitVec.ofNat 64 recIndex)) +
    BitVec.ofNat 64 k)).toNat

/-- The file of a training run. -/
def trainFile (p : TrainParams) : RecFile := ⟨p.fileAddr, p.fileSize⟩

/-- Record indices of the samples (type 2). -/
def sampleIndices (s : State) (p : TrainParams) : List Nat :=
  let f := trainFile p
  (List.range (f.index s).2).filter (fun i => (f.entry s i).ty == 2)

/-- Whether a record is a valid sample of the run (R267). -/
def sampleValid (s : State) (p : TrainParams) (i : Nat) : Bool :=
  let f := trainFile p
  let e := f.entry s i
  let o := e.offset + 32
  f.sound s e && f.num s o 2 == p.shapeH && f.num s (o + 2) 2 == p.shapeW && f.num s (o + 4) 2 == p.shapeC &&
    f.num s (o + 6) 1 == p.format

/-- Bytes of a sample tensor: `shapeH` rows of W × C packed elements, channel fastest (R259, R32 to R34). -/
def tensorBytes (p : TrainParams) : Nat :=
  p.shapeH * packedBytes ((fmtOf p.format).getD .u8) (p.shapeW * p.shapeC)

/-- The code of a packed element. -/
def packedCode (f : Fmt) (b : List Byte) (i : Nat) : Nat :=
  let v := fun a n => leNat ((b.drop a).take n)
  match f with
  | .u12p => if i % 2 = 0 then v (i / 2 * 3) 3 % 4096 else v (i / 2 * 3) 3 / 4096
  | .s4 | .sb4 => bitsAt (v (i / 2) 1) (4 * (i % 2)) 4
  | _ => v (i * (f.bits / 8)) (f.bits / 8)

/-- The gain of R268, in F32 steps (log entry 26). -/
def sampleGain (g : Word) (draw : Nat) : Val :=
  let u := (sub32 (.fin false (draw / 2 ^ 40) (2 ^ 23)) (.nat 1)).val
  (add32 (.nat 1) (mul32 (decodeVal .f32 g.toNat) u).val).val

/-- The augmented tensor of a sample (R268): flip, shift, gain. -/
def augment (s : State) (p : TrainParams) (epoch i : Nat) : List Byte × Bool :=
  let fm := (fmtOf p.format).getD .u8
  let draw := sampleDraw p.seed epoch i
  let flip := decide (draw 0 % 256 < p.pFlip)
  let shift : Int := (high64 (draw 1 / 2 ^ 32 * (2 * p.shift + 1)) (2 ^ 32) : Int) - p.shift
  let gain := sampleGain p.gain (draw 2)
  let f := trainFile p
  let rowLen := packedBytes fm (p.shapeW * p.shapeC)
  let row := fun h =>
    let b := f.bytes s ((f.entry s i).offset + 32 + 64 + h * rowLen) rowLen
    (List.range (p.shapeW * p.shapeC)).map (fun j =>
      let w : Int := (j / p.shapeC : Nat) - shift
      let src := if flip then (p.shapeW : Int) - 1 - w else w
      let x := if w < 0 ∨ (p.shapeW : Int) ≤ w then .zero false
        else decodeVal fm (packedCode fm b (src.toNat * p.shapeC + j % p.shapeC))
      (convert (mul32 x gain).val fm false).val)
  ((List.range p.shapeH).flatMap (fun h => packCodes fm (row h)), flip)

/-- Bytes of a batch entry (R269). -/
def entryBytes (p : TrainParams) : Nat := 64 + (tensorBytes p + 63) / 64 * 64

/-- A batch entry (R269): the header and the tensor padded to a granule. -/
def batchEntry (s : State) (p : TrainParams) (epoch : Nat) (i : Option Nat) : List Byte :=
  match i with
  | none => natLe 8 0xFFFFFFFFFFFFFFFF ++ natLe 4 0 ++ natLe 2 0 ++ natLe 2 2 ++
      List.replicate (entryBytes p - 16) 0
  | some i =>
    let f := trainFile p
    let e := f.entry s i
    let a := augment s p epoch i
    natLe 8 e.recId ++ f.bytes s (e.offset + 32 + 12) 4 ++ f.bytes s (e.offset + 32 + 8) 2 ++ natLe 2 (b2n a.2) ++
      f.bytes s (e.offset + 32 + 16) 48 ++ padTo (entryBytes p - 64) a.1

/-- Take records in order: up to `room` valid ones, skipping (and counting) corrupt ones, also those that follow
the last taken; the rest begins with a valid record. -/
def takeSamples (ok : Nat → Bool) : Nat → List Nat → List Nat × Nat × List Nat
  | _, [] => ([], 0, [])
  | room, i :: is =>
    if ok i then
      match room with
      | 0 => ([], 0, i :: is)
      | room + 1 =>
        let r := takeSamples ok room is
        (i :: r.1, r.2.1, r.2.2)
    else
      let r := takeSamples ok room is
      (r.1, r.2.1 + 1, r.2.2)

/-- Whether an F32 lies from 0 to 1. -/
def unitF32 (g : Word) : Bool :=
  match decodeVal .f32 g.toNat with
  | .fin neg n d => n == 0 || (!neg && decide (n ≤ d))
  | _ => false

/-- The parameter ranges of R265; the format is one R126 names. -/
def trainParamsOk (p : TrainParams) : Bool :=
  decide (1 ≤ p.epochs) && decide (p.epochs ≤ 65535) && decide (1 ≤ p.batch) && decide (p.batch ≤ 4096) &&
    decide (p.pFlip ≤ 256) && decide (p.shift ≤ 255) && decide (2 ≤ p.ringBufs) && decide (p.ringBufs ≤ 8) &&
    decide (1 ≤ p.format) && decide (p.format ≤ 12) && decide (1 ≤ p.shapeC) && unitF32 p.gain

/-- CHASE_STATE codes (R182, R203). -/
def chEmpty : Nat := 0
/-- LOADING. -/
def chLoading : Nat := 1
/-- STOPPED. -/
def chStopped : Nat := 2
/-- RUNNING. -/
def chRunning : Nat := 3
/-- HALTED. -/
def chHalted : Nat := 4
/-- TRAPPED. -/
def chTrapped : Nat := 5
/-- FAILOVER. -/
def chFailover : Nat := 6

/-- TRAIN_START (R265, R261); parameters outside their ranges complete CAPABILITY_MISSING, a second run BUSY
(log entry 26). -/
def execTrainStart (r : Req) (n : ChaseNo) (p : TrainParams) (s : State) : Answer :=
  .next (firmware s r false false (fun s =>
    let k := n.val
    let c := s.chase k
    if !mayChase s r k then answer s r cIsolated []
    else if s.get .chState k ≠ chRunning ∨ c.trainer.isSome then answer s r cBusy []
    else if !trainParamsOk p then answer s r cCapability []
    else match (trainFile p).check s with
      | some d => answer s r cVersion [BitVec.ofNat 32 d]
      | none =>
        let t : Trainer :=
          { p := p, epoch := p.firstEpoch.toNat, batch := 0, buf := 0, pos := 0, delivered := [], stopping := false }
        let s1 := ((((s.setChase k { c with trainer := some t }).put .trnState k 1).put .trnMode k
          (b2n p.ordered)).put .trnEpoch k t.epoch).put .trnBatch k 0
        answer s1 r cOk []))

/-- TRAIN_STOP (R251, R271): the run ends after the batch being filled. -/
def execTrainStop (r : Req) (n : ChaseNo) (s : State) : Answer :=
  .next (firmware s r false false (fun s =>
    let c := s.chase n.val
    if !mayChase s r n.val then answer s r cIsolated []
    else match c.trainer with
      | none => answer s r cBusy []
      | some t => answer (s.setChase n.val { c with trainer := some { t with stopping := true } }) r cOk []))

/-- The records still to deliver in the epoch, in delivery order: the shuffled order, or the order `arrival`
gives with every other record after it (R266, R270). -/
def remaining (s : State) (t : Trainer) (arrival : List Nat) : List Nat :=
  let idx := sampleIndices s t.p
  if t.p.ordered then
    let first := (arrival.filter (fun i => idx.contains i && !t.delivered.contains i)).dedup
    first ++ idx.filter (fun i => !first.contains i && !t.delivered.contains i)
  else ((epochOrder t.p.seed t.epoch idx.length).drop t.pos).map (fun j => idx.getD j 0)

/-- Fill the free buffer of the ring (R267 to R271). -/
def fillBatch (s : State) (n : Nat) (t : Trainer) (arrival : List Nat) : State :=
  let c := s.chase n
  let p := t.p
  let a := p.ringAddr + t.buf * (64 + p.batch * entryBytes p)
  if memNat s.lpddr a 4 ≠ 0 then s.put .trnState n 2
  else
    let todo := remaining s t arrival
    let r := takeSamples (sampleValid s p) p.batch todo
    let rest := r.2.2
    let used := todo.take (todo.length - rest.length)
    let epochEnd := rest.isEmpty
    let last := t.stopping || (epochEnd && decide (p.firstEpoch.toNat + p.epochs ≤ t.epoch + 1))
    let corrupt := min (s.get .trnCorrupt n + r.2.1) 0xFFFFFFFF
    let items := r.1.map some ++ List.replicate (p.batch - r.1.length) none
    let head := natLe 4 1 ++ natLe 4 t.epoch ++ natLe 4 t.batch ++ natLe 4 r.1.length ++ natLe 4 corrupt ++
      natLe 4 (b2n last) ++ List.replicate 40 0
    let s1 := { s with lpddr := memStore s.lpddr a (head ++ items.flatMap (batchEntry s p t.epoch)) }
    let s2 := s1.put .trnCorrupt n corrupt
    if last then (s2.setChase n { c with trainer := none }).put .trnState n 3
    else
      let t1 := if epochEnd
        then { t with epoch := t.epoch + 1, batch := 0, pos := 0, delivered := [], buf := (t.buf + 1) % p.ringBufs }
        else { t with batch := t.batch + 1, pos := t.pos + used.length, delivered := t.delivered ++ used,
                      buf := (t.buf + 1) % p.ringBufs }
      (((s2.setChase n { c with trainer := some t1 }).put .trnState n 1).put .trnEpoch n t1.epoch).put
        .trnBatch n t1.batch

/-- BATCH_FILL (R269). -/
def execBatchFill (n : ChaseNo) (arrival : List Nat) (s : State) : Answer :=
  match (s.chase n.val).trainer with
  | none => .next s
  | some t => .next (fillBatch s n.val t arrival)

end Sys2Proof.Machine
end

