-- ==== Sys2Proof/Machine/Epochs.lean ====
section
/-! DEFINITION. Imposition epochs (R294 to R296) and the loss of a link (R286 to R289, R292). -/

namespace Sys2Proof.Machine

/-- The event-log source of a hardware block (R387). -/
def srcBlock (b : Nat) : Nat := 0x40 + b

/-- The imposition table of the resident forme of a chase. -/
def impoOf (s : State) (n : Nat) : Option Impo := ((s.chase n).forme.bind (fun f => f.impo))

/-- Modules of a mask for which a condition holds. -/
def maskOf (p : Nat → Bool) : BitVec 16 :=
  BitVec.ofNat 16 (((List.range 16).map (fun m => b2n (p m) * 2 ^ m)).sum)

/-- Whether module `m` is in a mask. -/
def inMask (mask : BitVec 16) (m : Nat) : Bool := bitAt mask.toNat m

/-- Whether a module can be reached and no UNREACH has named it since its last JOIN (R295). -/
def present (s : State) (n m : Nat) : Bool := canReach s m && !inMask (s.chase n).lost m

/-- The present mask of the current epoch. -/
def presentMask (s : State) (n : Nat) : BitVec 16 := BitVec.ofNat 16 (s.get .rhPresent n)

/-- The present mask of an epoch: the current one, the committed one, or an earlier one (R296). -/
def epochMask (s : State) (n epoch : Nat) : BitVec 16 :=
  if epoch = s.get .rhEpoch n then presentMask s n
  else
    match (s.chase n).pendEpoch with
    | some e => if e.1 = epoch then e.2 else (s.chase n).prevEpochs.get 0 epoch
    | none => (s.chase n).prevEpochs.get 0 epoch

/-- The epoch an item opened now takes: the committed one as soon as its COMMIT was received (R296). -/
def openEpoch (s : State) (n : Nat) : Nat :=
  match (s.chase n).pendEpoch with
  | some e => e.1
  | none => s.get .rhEpoch n

/-- The present mask of the epoch that is current or committed (R295, R296). -/
def latestMask (s : State) (n : Nat) : BitVec 16 :=
  match (s.chase n).pendEpoch with
  | some e => e.2
  | none => presentMask s n

/-- The modules among which the leader is sought (R295): the present ones that can be reached. -/
def electorate (s : State) (n : Nat) : BitVec 16 :=
  maskOf (fun m => m == ownModule s || (inMask (latestMask s n) m && present s n m))

/-- Whether a chase of this module has received a JOIN since it entered RUNNING (R295). -/
def gotJoin (s : State) (n : Nat) : Bool := (s.chase n).joined &&& ~~~maskOf (fun m => m == ownModule s) != 0

/-- Whether this module leads a chase's imposition (R295): the lowest-numbered of the present mask; in epoch 0 a module
that has received a JOIN, which gives way to a lower one that proposes (log entry 99). -/
def isLeader (s : State) (n : Nat) : Bool :=
  (impoOf s n).isSome && s.get .chState n == 3 &&
    (if openEpoch s n = 0 then gotJoin s n
     else (List.range 16).find? (inMask (electorate s n)) == some (ownModule s))

/-- RH_IMPO_STATUS.role (R302). -/
def setRole (s : State) (n : Nat) : State :=
  s.put .rhRole n (if (impoOf s n).isNone || s.get .chState n != 3 then 0 else if isLeader s n then 2 else 1)

/-- The CTRL message of a chase (R295). -/
def ctrlMsg (s : State) (n op epoch : Nat) (mask : BitVec 16) : CtrlMsg :=
  let f := (s.chase n).forme
  { op := byteOf op, sender := BitVec.ofNat 4 (ownModule s), epoch := BitVec.ofNat 16 epoch, mask := mask,
    formeId := BitVec.ofNat 32 ((f.map (fun x => x.id)).getD 0),
    digest := BitVec.ofNat 128 ((f.map (fun x => x.digest.toNat)).getD 0) }

/-- Send a CTRL message to every other module of a mask. -/
def sendToMask (s : State) (mask : BitVec 16) (m : CtrlMsg) : State :=
  (List.range 16).foldl (fun s d =>
    if inMask mask d && d != ownModule s then sendCtrl s d m else s) s

/-- The epoch after the latest one this chase knows (R295). -/
def nextEpoch (s : State) (n : Nat) : Nat := (openEpoch s n + 1) % 65536

/-- COMMIT (R295, R296): every module of the mask is told, and the epoch is pending here too. -/
def commitEpoch (s : State) (n epoch : Nat) (mask : BitVec 16) : State :=
  let s1 := sendToMask s mask (ctrlMsg s n 4 epoch mask)
  s1.setChase n { s1.chase n with pendEpoch := some (epoch, mask), proposal := none }

/-- The mask the leader proposes (R295): participants reachable and joined; in proof mode none whose route
passes a link without ordering tags. -/
def proposedMask (s : State) (n : Nat) : BitVec 16 :=
  let parts := ((impoOf s n).map (fun i => i.participants)).getD 0
  let known := (s.chase n).joined ||| presentMask s n
  maskOf (fun m => m == ownModule s ||
    (inMask parts m && inMask known m && present s n m &&
      (!s.flag .chProof n ||
        ((routePort s m).map (fun p => s.flag .rhOrderTags p)).getD false)))

/-- Propose the next epoch (R295); with nobody else in the mask it commits at once. -/
def propose (s : State) (n : Nat) : State :=
  let mask := proposedMask s n
  let epoch := nextEpoch s n
  let s1 := s.setChase n { s.chase n with
    proposal := some ⟨epoch, mask, 0⟩, proposeHold := true, proposeDue := false }
  if mask = maskOf (fun m => m == ownModule s) then commitEpoch s1 n epoch mask
  else sendToMask s1 mask (ctrlMsg s1 n 2 epoch mask)

/-- The leader wants to propose: at most once per 100 µs (R295). -/
def wantPropose (s : State) (n : Nat) : State :=
  if isLeader s n then
    if (s.chase n).proposeHold then s.setChase n { s.chase n with proposeDue := true } else propose s n
  else s

/-- A module whose chase enters RUNNING (R295): JOIN to every participant it can reach, epoch 0 with itself as
the only present module. -/
def joinImposition (s : State) (n : Nat) : State :=
  let own := maskOf (fun m => m == ownModule s)
  let c := s.chase n
  let s1 := ((s.put .rhEpoch n 0).put .rhPresent n
      (if c.forme.bind (fun f => f.impo) = none then 0 else own.toNat)).setChase n
    { c with joined := own, lost := 0, pendEpoch := none, prevEpochs := .empty, proposal := none,
             proposeDue := false, proposeHold := false }
  match impoOf s1 n with
  | none => setRole (s1.put .rhJoining n 0) n
  | some i =>
    let mask := maskOf (fun m => inMask i.participants m && canReach s1 m)
    setRole (sendToMask (s1.put .rhJoining n 1) mask (ctrlMsg s1 n 1 0 own)) n

/-- The imposition state after a CHASE reset or a stop (R302). -/
def leaveImposition (s : State) (n : Nat) : State :=
  let c := s.chase n
  ((((s.put .rhEpoch n 0).put .rhPresent n 0).put .rhRole n 0).put .rhJoining n 0).setChase n
    { c with joined := 0, lost := 0, pendEpoch := none, prevEpochs := .empty, proposal := none,
             proposeDue := false, proposeHold := false }

/-! ### Losing a link (R286, R289, R292) -/

/-- Whether the reference may follow the designated port (R289); the partner's stratum is known from a heartbeat of this
link. -/
def clkFollows (s : State) : Bool :=
  let p := s.get .rhClkPort 0
  let st := (s.port p).hbState.toNat
  s.flag .rhClkEn 0 && linkActive s p && (s.port p).clkLock && (s.port p).hbSeen && decide (st % 8 < 7) &&
    !(bitAt st 3 && st / 16 == ownModule s)

/-- CLK_STATUS.source codes (R420). -/
def srcCode : ClkSource → Nat
  | .ref => 0
  | .port => 1
  | .osc => 2
  | .holdover => 3

/-- Enter HOLDOVER (R402): the divider keeps its setting, a ramp ends where it is. -/
def enterHoldover (s : State) : State :=
  logEvent ({ (s.put .clkSource 0 3).put .clkRamping 0 0 with clock := { s.clock with steps := 0 } }.put .clkSwitched 0 1)
    0x0006 (srcBlock 1) 1 [3, 0, 0, 0]

/-- Choose a source (R402, R403): a ramp of `steps` begins, or replaces the one that runs. -/
def chooseSource (s : State) (src : ClkSource) (steps : Int) : State :=
  if src = .holdover then enterHoldover s
  else
    logEvent ({ ((s.put .clkSource 0 (srcCode src)).put .clkSwitched 0 1).put .clkRamping 0 1 with
      clock := { s.clock with steps := steps } }) 0x0006 (srcBlock 1) 0 [srcCode src, 0, 0, 0]

/-- The root leaves a port whose clock it may no longer follow (R289, R402): to REF, over a distance that is open (log
entry 33), or into HOLDOVER. -/
def leavePort (s : State) : State :=
  if s.get .clkSource 0 ≠ 1 then s
  else if s.flag .clkRefOk 0 then
    let f := s.fresh 20
    chooseSource f.2 .ref f.1
  else enterHoldover s

/-- RH_CLK follows the conditions of R289: own stratum, locked and locked_to while the reference follows the port; the
reference leaves the port when a condition fails. -/
def updateClk (s : State) : State :=
  let p := s.get .rhClkPort 0
  if clkFollows s && s.get .clkSource 0 == 1 then
    ((s.put .rhClkStratum 0 ((s.port p).hbState.toNat % 8 + 1)).put .rhClkLocked 0 1).put .rhClkLockedTo 0
      (s.get .rhPartner p)
  else
    let s1 := ((s.put .rhClkStratum 0 0).put .rhClkLocked 0 0).put .rhClkLockedTo 0 0
    if clkFollows s then s1 else leavePort s1

/-- The link layer of a port starts anew (R286, R287): empty replay buffer, both directions at sequence 0. -/
def clearLink (s : State) (p : Nat) : State :=
  s.setPort p { s.port p with
    txSeq := 0, rxExpected := 0, nakSent := false, unacked := [], waiting := [], through := [],
    lastThrough := false, resends := 0, accepted := 0, ackDue := false, hbSeen := false, suspended := false }

/-- Modules became unreachable: sorts to them are marked missing, a leader of a chase that counted one of them
present proposes (R292, R295). -/
def modulesLost (s : State) (mask : BitVec 16) (hit : SortOut → Bool) (named : Bool) : State :=
  (List.range 16).foldl (fun s n =>
    let s1 := markMissing s n cNoExpert hit
    let s2 := if named then s1.setChase n { s1.chase n with lost := (s1.chase n).lost ||| mask } else s1
    if named || presentMask s2 n &&& mask != 0 then setRole (wantPropose s2 n) n else s2) s

/-- Send UNREACH to every participant this module can still reach (R288). -/
def sendUnreach (s : State) (mask : BitVec 16) : State :=
  let parts := (List.range 16).foldl
    (fun a n => a ||| ((impoOf s n).map (fun i => i.participants)).getD 0) (0 : BitVec 16)
  sendToMask s (maskOf (fun m => inMask parts m && canReach s m))
    { op := 5, sender := BitVec.ofNat 4 (ownModule s), epoch := 0, mask := mask, formeId := 0, digest := 0 }

/-- The link goes down (R286): replay buffer discarded, RH_DOWN counted, DOWN entered, sorts whose route port
it was marked missing, UNREACH sent, event 0x0020. -/
def linkDown (s : State) (p : Nat) : State :=
  let s1 := (((clearLink s p).bump .rhDown p).put .rhState p lnkDown).emit (.idle p (s.get .rhLanes p))
  let s2 := logEvent s1 0x0020 (srcBlock 8) 1 [p, s1.get .rhPartner p, 0, 0]
  let mask := maskOf (fun m => routePort s2 m == some p && m != ownModule s2)
  let s3 := modulesLost s2 mask (fun x => x.port == some p) false
  updateClk (sendUnreach s3 mask)

end Sys2Proof.Machine
end

