-- ==== Sys2Proof/Machine/Fire.lean ====
section
/-! DEFINITION. Pushing into the fire queues (R161, R312 to R315).  A push lands in the first empty stage of
the chain, behind the entries held, with the cycle's exchanges or after a tick's take; FIRE_QUEUE_EXCHANGE moves it forward
(R314; log entry 13). -/

namespace Sys2Proof.Machine

/-- Whether a channel is assigned to a context as an output (R161). -/
def assignedOutput (s : State) (k c : Nat) : Bool :=
  s.get .fcMode c == 3 && s.flag .fcAssigned c && s.get .fcContext c == k

/-- The channels of a mask that are assigned to a context as outputs (R161). -/
def filterChannels (s : State) (k mask : Nat) : Nat :=
  ((List.range 16).map (fun c => b2n (bitAt mask c && assignedOutput s k c) * 2 ^ c)).sum

/-- What became of a push. -/
inductive Push where
  | accepted | late | dropped
  deriving DecidableEq, Repr

/-- The FIRE_SPOIL record (R315, R358). -/
def fireSpoilRecord (ctx e seq dropped : Nat) : List Byte :=
  natLe 1 0x13 ++ natLe 1 ctx ++ natLe 1 e ++ natLe 1 0 ++ natLe 4 seq ++ natLe 4 dropped

/-- A dropped push opens or extends the spoil marker (R315). -/
def fireDrop (s : State) (e : Nat) (c : FireCmd) : State :=
  let s1 := s.bump .fqDropped e
  if s1.flag .fqSpoilOpen e then
    s1.put .fqSpoilDropped e (min (s1.get .fqSpoilDropped e + 1) 0xFFFF)
  else
    (((s1.put .fqSpoilOpen e 1).put .fqSpoilDropped e 1).put .fqSpoilCtx e c.context).put .fqSpoilSeq e c.seq

/-- An accepted push closes an open spoil marker and one FIRE_SPOIL record goes to its context (R315). -/
def fireCloseSpoil (s : State) (e : Nat) : State :=
  if s.flag .fqSpoilOpen e then
    let k := s.get .fqSpoilCtx e
    stageEvent (s.put .fqSpoilOpen e 0) (k + 1)
      (fireSpoilRecord k e (s.get .fqSpoilSeq e) (s.get .fqSpoilDropped e))
  else s

/-- Push a fire command into its context's encoder's queue: refused late (R313) before its depth is
considered, dropped when 32 entries are held (R315), else accepted. -/
def pushFire (s : State) (c : FireCmd) : Push × State :=
  let e := s.get .ctxEncoder c.context
  if countAhead (sext 48 c.position) (s.s48 .encPos e) ≤ 0 then (.late, s.bump .fqLateRefused e)
  else if 32 ≤ (s.fq e).length then (.dropped, fireDrop s e c)
  else (.accepted, fireCloseSpoil (s.setFq e (s.fq e ++ [c])) e)

/-- The fire command of R312 on its way into the chain. -/
def fireCmd (pos channels width ctx source seq : Nat) : FireCmd :=
  { position := pos % 2 ^ 48, channels := channels % 65536, width := width % 65536, context := ctx,
    source := source, seq := seq, landed := none, reached := none }

end Sys2Proof.Machine
end

