-- ==== Sys2Proof/Machine/Verdict.lean ====
section
/-! DEFINITION. The deadline monitor (R158 to R160, R195 to R199) and class V (R157 to R161, R311). -/

namespace Sys2Proof.Machine

/-- The class code of the no-read action (R199). -/
def noReadClass : Nat := 0xFFFF

/-- The OR of the tag flags [15:0] of the lines held from an item's leading edge on (R160, R357). -/
def tagOr (s : State) (k line : Nat) : Nat :=
  ((s.context k).slots.filter (fun g => decide (0 ≤ lineDiff g.lastLine line))).foldl
    (fun a g => a ||| g.flags.toNat % 65536) 0

/-- The 64-byte verdict record (R357). -/
def verdictRecord (s : State) (it : Item) (path forme cls channels width seq flags : Nat) : List Byte :=
  natLe 1 0x01 ++ natLe 1 it.ctx ++ natLe 1 forme ++ natLe 1 (s.get .genCtx it.ctx) ++ natLe 4 seq ++
    natLe 4 (path + flags) ++ natLe 2 cls ++ natLe 2 channels ++ natLe 6 it.line ++ natLe 2 width ++
    natLe 6 it.firePos ++ natLe 2 0 ++ natLe 8 s.now ++ natLe 24 0

/-- What a decision states: class, forme flags, channel mask and pulse width. -/
structure Decision where
  cls      : Nat
  forme    : Nat
  channels : Nat
  width    : Nat
  deriving DecidableEq, Repr

/-- The verdict counter of a path (R206). -/
def pathCounter : Nat → Fld
  | 0 => .fullCount
  | 1 => .exitCount
  | _ => .noreadCount

/-- Issue an item's one verdict (R159, R160, R357): the next sequence number of the context, the fire
command when the pulse width is not 0, with the channels left to it (R161, R312), the counter of its path and its
record. -/
def issueVerdict (s : State) (n : Nat) (it : Item) (path : Nat) (d : Decision) (unbound : Bool) :
    Push × State :=
  let k := it.ctx
  let x := s.context k
  let seq := x.verdictSeq
  let chans := filterChannels s k d.channels
  let fires := d.width != 0
  let s1 := (s.setCtx k { x with verdictSeq := (seq + 1) % 2 ^ 32 }).bump (pathCounter path) n
  let r := if fires then pushFire s1 (fireCmd it.firePos chans d.width k path seq) else (.accepted, s1)
  let flags := b2n it.fallback * 4 + b2n it.refused * 8 + b2n (r.1 == .late) * 16 +
    b2n (r.1 == .dropped) * 32 + b2n unbound * 64 + tagOr s k it.line * 65536
  let rec_ := verdictRecord s it path d.forme d.cls chans (if fires then d.width else 0) seq flags
  (r.1, stageRecord r.2 (ringOf (k + 1) 1) seq rec_)

/-- The no-read action of a context (R199). -/
def noRead (s : State) (k : Nat) : Decision :=
  ⟨noReadClass, 0, s.get .ctxNrMask k, s.get .ctxNrWidth k⟩

/-- Free a handle; `mon` tells whether the monitor decided it (R159). -/
def freeHandle (s : State) (n h : Nat) (mon : Bool) : State :=
  let c := s.chase n
  s.setChase n { c with items := c.items.set h none, monDecided := c.monDecided.set h mon }

/-- The monitor decides an item (R195, R196). -/
def monitorDecide (s : State) (n h : Nat) (it : Item) (path : Nat) (d : Decision) (unbound : Bool) : State :=
  (issueVerdict (freeHandle s n h true) n it path d unbound).2

/-- Where exit record `h` lies: exit_base in the lead core's SRAM (R197). -/
def exitAddr (s : State) (n h : Nat) : Nat :=
  let b := ((s.chase n).forme.map (fun f => f.exitBase)).getD 0
  sramAddr (servingCore s n (leadCore s n)) (b + 16 * h)

/-- The exit record of a handle, if it is valid and was not lost (R197, R201). -/
def exitRecord (s : State) (n h : Nat) (it : Item) : Option Decision :=
  let a := exitAddr s n h
  if it.exitLost || memNat s.sram (a + 3) 1 != 1 then none
  else some ⟨memNat s.sram a 2, memNat s.sram (a + 2) 1, memNat s.sram (a + 4) 2, memNat s.sram (a + 6) 2⟩

/-- The live position of an item's encoder (R195). -/
def itemLive (s : State) (it : Item) : Int := livePos s it.ctx

/-- Whether the live position has reached an item's deadline: its fire position minus the margin (R16); nothing of an
encoder in wire fault matches (R305). -/
def pastDeadline (s : State) (it : Item) : Bool :=
  !wireNow s (s.get .ctxEncoder it.ctx) && countReached (sext 48 it.firePos - s.get .ctxMargin it.ctx) (itemLive s it)

/-- Whether the live position has reached an item's exit limit (R195, R305). -/
def pastExitLimit (s : State) (it : Item) : Bool :=
  !wireNow s (s.get .ctxEncoder it.ctx) && countReached (sext 48 it.firePos - s.get .ctxGuard it.ctx) (itemLive s it)

/-- Hand an item over to the early-exit head (R195, R20).  A DECIDE of the cycle still wins (R159), so the monitor decides
the item from its exit record, where that is valid, from the next cycle on (R196). -/
def handOver (s : State) (n h : Nat) (it : Item) : State :=
  let c := s.chase n
  s.setChase n { c with items := c.items.set h (some { it with handed := true, handedAt := s.clk }) }

/-- The handles whose items were handed over in an earlier cycle and have a valid exit record, lowest first (R195). -/
def dueItem (s : State) (n : Nat) : Option (Nat × Item × Decision) :=
  (List.range 256).findSome? (fun h =>
    match (s.chase n).item h with
    | some it =>
      if it.handed && decide (it.handedAt < s.clk) then (exitRecord s n h it).map (fun d => (h, it, d)) else none
    | none => none)

/-- The monitor of a chase decides one item a cycle from its exit record, the lowest handle first (R195, R196). -/
def monitorTick (s : State) (n : Nat) : State :=
  match dueItem s n with
  | some e => monitorDecide s n e.1 e.2.1 1 e.2.2 false
  | none => s

/-- DEADLINE_REACHED (R195): an open item whose deadline the live position reached is handed over. -/
def execDeadlineReached (n : ChaseNo) (h : BitVec 8) (s : State) : Answer :=
  match (s.chase n.val).item h.toNat with
  | some it =>
    if !it.handed && pastDeadline s it then .next (handOver s n.val h.toNat it) else .next s
  | none => .next s

/-- EXIT_RECORD_VALID (R195, R197): a handed item with a valid record is decided from it. -/
def execExitRecordValid (n : ChaseNo) (h : BitVec 8) (s : State) : Answer :=
  match (s.chase n.val).item h.toNat with
  | some it =>
    match exitRecord s n.val h.toNat it with
    | some d => if it.handed && decide (it.handedAt < s.clk) then .next (monitorDecide s n.val h.toNat it 1 d false) else .next s
    | none => .next s
  | none => .next s

/-- EXIT_LIMIT_REACHED (R195, R199): a handed item without a valid record takes the no-read action.  A DECIDE of the cycle
of the handover still wins (R159). -/
def execExitLimitReached (n : ChaseNo) (h : BitVec 8) (s : State) : Answer :=
  match (s.chase n.val).item h.toNat with
  | some it =>
    if it.handed && decide (it.handedAt < s.clk) && pastExitLimit s it && (exitRecord s n.val h.toNat it).isNone then
      .next (monitorDecide s n.val h.toNat it 2 (noRead s it.ctx) false)
    else .next s
  | none => .next s

/-! ### OPEN and DECIDE (R158, R159) -/

/-- The lowest free handle. -/
def freeHandleNo (c : Chase) : Option Nat := (List.range 256).find? (fun h => (c.item h).isNone)

/-- Clear the valid byte of an exit record (R197). -/
def clearExit (s : State) (n h : Nat) : State :=
  { s with sram := memWrite s.sram (exitAddr s n h + 3) 0 }

/-- Open an item for a context (R158): the handle and the state; with no free handle the no-read action is
issued at once. -/
def openItem (s : State) (n k slot line fire : Nat) : Option Nat × State :=
  let it : Item := ⟨k, slot, line, fire, false, false, false, false, false, openEpoch s n, 0⟩
  match freeHandleNo (s.chase n) with
  | none => (none, (issueVerdict s n { it with refused := true } 2 (noRead s k) false).2)
  | some h =>
    let s1 := clearExit s n h
    let c := s1.chase n
    let s2 := s1.setChase n { c with items := c.items.set h (some it), monDecided := c.monDecided.set h false }
    (some h, if pastDeadline s2 it then handOver s2 n h it else s2)

/-- VERDICT OPEN (R157, R158); an unbound slot is refused without a verdict (log entry 14). -/
def execVerdictOpen (q : SeqId) (w : ZWord) (s : State) : Answer :=
  .next (issue q w s (fun o => isOp 5 0x01 o && !bitAt o.sub 5) (fun o x s =>
    let n := q.chase.val
    let r := match slotCtx s n (o.sub % 16) with
      | none => (none, s)
      | some k => openItem s n k (o.sub % 16) (x.pair48 o.sa) (x.pair48 (o.sa + 2))
    retire q (modSeq r.2 q (fun y =>
      (y.setS o.sd (r.1.getD 0xFFFFFFFF)).setP o.pdst r.1.isSome))))

/-- The path of a DECIDE (R160, R195, R199): the early exit from its section, the no-read action by its class code. -/
def decidePath (early : Bool) (d : Decision) : Nat := if d.cls = noReadClass then 2 else b2n early

/-- What DECIDE on a handle does (R159, R195): whether its verdict went out with its fire command, and the state.  It wins
over a handover of the same cycle; an orphan's handle is open like any other (R196); class code 0xFFFF is the forme's
no-read action for an item with no common expert, which goes out on the no-read path (R155, R199). -/
def decideItem (s : State) (n h : Nat) (early : Bool) (d : Decision) : Bool × State :=
  let c := s.chase n
  match if h < 256 then c.item h else none with
  | some it =>
    if it.handed && decide (it.handedAt < s.clk) && !early then (false, s.bump .verdictLate n)
    else
      let r := issueVerdict (freeHandle s n h false) n it (decidePath early d) d false
      (r.1 == .accepted, r.2)
  | none =>
    if decide (h < 256) && c.monDecided.get false h then (false, s.bump .verdictLate n)
    else (false, s.bump .seqRefused n)

/-- VERDICT DECIDE (R157, R159, R160). -/
def execVerdictDecide (q : SeqId) (w : ZWord) (s : State) : Answer :=
  .next (issue q w s (fun o => isOp 5 0x01 o && bitAt o.sub 5) (fun o x s =>
    let r := decideItem s q.chase.val (x.s o.sa) x.inExit
      ⟨o.imm0 % 65536, bitsAt o.imm0 16 8, o.imm1 % 65536, o.imm1 / 65536⟩
    retire q (modSeq r.2 q (fun y => y.setP o.pdst r.1))))

/-! ### FIRE, TRIG and TSTAMP (R157, R161, R311) -/

/-- FIRE: push a command not tied to an item; none left, no width or no context is refused. -/
def fireNow (s : State) (n slot pos mask width : Nat) : Bool × State :=
  match slotCtx s n slot with
  | none => (false, s.bump .seqRefused n)
  | some k =>
    let chans := filterChannels s k mask
    if chans = 0 ∨ width = 0 then (false, s.bump .seqRefused n)
    else
      let r := pushFire s (fireCmd pos chans width k 3 0)
      (r.1 == .accepted, r.2)

/-- FIRE (R157, R161). -/
def execFire (q : SeqId) (w : ZWord) (s : State) : Answer :=
  .next (issue q w s (isOp 5 0x02) (fun o x s =>
    let r := fireNow s q.chase.val (o.sub % 16) (x.pair48 o.sa) (o.imm1 % 65536) (o.imm1 / 65536)
    retire q (modSeq r.2 q (fun y => y.setP o.pdst r.1))))

/-- Whether a connection supplies the lines of a context (R161, R238). -/
def supplies (s : State) (conn : Nat) : Bool :=
  (List.range 16).any (fun k => s.flag .ctxBound k && bitAt (s.get .cxpSrcLanes k) conn)

/-- TRIG: arm the lowest free one-shot of a context (R157, R161, R311). -/
def armOneShot (s : State) (n slot pos conn tag : Nat) : Bool × State :=
  match slotCtx s n slot with
  | none => (false, s.bump .seqRefused n)
  | some k =>
    let x := s.context k
    match (List.range 4).find? (fun i => (x.oneshots.get none i).isNone) with
    | none => (false, s.bump .seqRefused n)
    | some i =>
      if supplies s conn then (false, s.bump .seqRefused n)
      else (true, s.setCtx k { x with oneshots := x.oneshots.set i (some ⟨pos, conn, tag⟩) })

/-- TRIG (R157, R161, R311). -/
def execTrig (q : SeqId) (w : ZWord) (s : State) : Answer :=
  .next (issue q w s (isOp 5 0x03) (fun o x s =>
    let r := armOneShot s q.chase.val (o.sub % 16) (x.pair48 o.sa) (o.imm0 % 16) (bitsAt o.imm0 8 8)
    retire q (modSeq r.2 q (fun y => y.setP o.pdst r.1))))

/-- TSTAMP (R157): device time and live position, sampled together; an unbound slot's position is 0 (log
entry 14). -/
def execTstamp (q : SeqId) (w : ZWord) (s : State) : Answer :=
  .next (issueRegs q w s (isOp 5 0x04) (fun o x =>
    let pos := match slotCtx s q.chase.val (o.sub % 16) with
      | some k => livePos s k
      | none => 0
    (x.setPair o.sd s.now).setSigned (o.sd + 2) pos))

/-! ### Emptying the monitor (R196) -/

/-- Decide at once every item of a context that is unbound: no-read action, unbound flag (R196). -/
def unbindItems (s : State) (n k : Nat) : State :=
  let mine := (s.chase n).openItems.filter (fun e => e.2.ctx == k)
  let s1 := (List.range 256).foldl (fun s h =>
    match (s.chase n).item h with
    | some it => if it.ctx = k then monitorDecide s n h it 2 (noRead s k) true else s
    | none => s) s
  logEvent s1 0x0060 (0x20 + n) 0 [k, mine.length, n, 0]

/-- A FABRIC or wider reset empties the monitor: no verdicts, the number left undecided is logged for each
context (R196). -/
def emptyMonitor (s : State) (n : Nat) : State :=
  let open_ := (s.chase n).openItems
  let s1 := (List.range 16).foldl (fun s k =>
    let m := (open_.filter (fun e => e.2.ctx == k)).length
    if m = 0 then s else logEvent s 0x0061 (0x20 + n) 1 [k, m, n, 0]) s
  s1.setChase n { s1.chase n with items := .empty, monDecided := .empty }

end Sys2Proof.Machine
end

