-- ==== Sys2Proof/Machine/Camera.lean ====
section
/-! DEFINITION. The camera front end: lanes, triggers, lines and camera control (R208 to R224, R241). -/

namespace Sys2Proof.Machine

/-! ### Lines lost (R213, R218, R219, R231) -/

/-- A line that is already known, and counted, to be lost joins the gap (R231); its statistics block sees a gap. -/
def joinLost (s : State) (k : Nat) (t : Trig) : State :=
  statsLost (gapLine s k t t.lost) k t.line

/-- Lost triggers at the head of the order join the gap once no earlier line is arriving (R219, R231). -/
def settleOrder : Nat → State → Nat → State
  | 0, s, _ => s
  | n + 1, s, k =>
    let x := s.context k
    match x.rx, x.outstanding with
    | r :: rs, _ =>
      if r.trig.lost = 0 then s else settleOrder n (joinLost (s.setCtx k { x with rx := rs }) k r.trig) k
    | [], t :: ts =>
      if t.lost = 0 then s else settleOrder n (joinLost (s.setCtx k { x with outstanding := ts }) k t) k
    | [], [] => s

/-- Resolve every line that can be resolved now. -/
def resolveLines (s : State) (k : Nat) : State :=
  let x := s.context k
  settleOrder (x.rx.length + x.outstanding.length) s k

/-- Mark a trigger lost for a reason, once. -/
def Trig.lose (t : Trig) (reason : Nat) : Trig := if t.lost = 0 then { t with lost := reason } else t

/-- Every line of a context that is triggered and not complete is lost, each counted in LINES_MISSED (R213). -/
def loseTriggered (s : State) (k reason : Nat) : State :=
  let x := s.context k
  let all := x.triggered
  let n := (all.filter (fun t => t.lost == 0)).length
  let s1 := (s.setCtx k { x with
    rx := [], deferred := x.deferred.filter (fun t => t.lost != 0),
    outstanding := all.map (fun t => t.lose reason) }).bumpBy .linesMissed k n
  resolveLines s1 k

/-! ### Lanes (R211 to R214, R237, R429) -/

/-- CXP_LANE_STATUS states (R237). -/
def lnDown : Nat := 0
/-- Discovery, and qualification (R429). -/
def lnDiscovery : Nat := 1
/-- Stepping. -/
def lnStepping : Nat := 2
/-- Up. -/
def lnUp : Nat := 3
/-- Excluded. -/
def lnExcluded : Nat := 4

/-- The lanes CXP_SRC names. -/
def sourceLanes (s : State) (k : Nat) : List Nat := (List.range 16).filter (bitAt (s.get .cxpSrcLanes k))

/-- The lanes that still belong to a device group. -/
def groupLanes (s : State) (dev : Nat) : List Nat :=
  (List.range 16).filter (fun l => s.get .cxpLaneDevice l == dev &&
    [lnDiscovery, lnStepping, lnUp].contains (s.get .cxpLaneState l))

/-- Whether discovery has grouped a lane (R211). -/
def laneKnown (s : State) (l : Nat) : Bool := (s.mgmt.laneTop.get none l).isSome

/-- Whether a lane is excluded: it could not lock at CXP-1 (R212), or qualification excluded it (R429, R430). -/
def laneOut (s : State) (l : Nat) : Bool :=
  s.get .cxpLaneState l == lnExcluded || bitAt (s.get .buExclCxp 0) l

/-- The lanes of a context's device (R213): those CXP_SRC names and the others of their device group. -/
def deviceLanes (s : State) (k : Nat) : List Nat :=
  let src := sourceLanes s k
  let devs := (src.filter (laneKnown s)).map (fun l => s.get .cxpLaneDevice l)
  (List.range 16).filter (fun l => src.contains l || (laneKnown s l && devs.contains (s.get .cxpLaneDevice l)))

/-- Whether a context's device can be received (R213): every lane of it that is not excluded is up, its master lane among
them. -/
def sourceUp (s : State) (k : Nat) : Bool :=
  ((deviceLanes s k).filter (fun l => !laneOut s l)).all (fun l => s.get .cxpLaneState l == lnUp) &&
    s.get .cxpLaneState (s.get .cxpSrcMaster k) == lnUp && !(sourceLanes s k).isEmpty

/-- The lines of every bound context whose device has a lane in a list are lost with link_down (R213). -/
def loseDevices (s : State) (lanes : List Nat) : State :=
  (List.range 16).foldl (fun s k =>
    if s.flag .ctxBound k && (deviceLanes s k).any (fun l => lanes.contains l) then loseTriggered s k rsLink else s) s

/-- Firmware writes ConnectionConfig for a group, the number of its connections and a rate (R211, R212): every lane of
the group steps, and its device's lines are lost meanwhile (R213). -/
def configGroup (s : State) (dev rate : Nat) : State :=
  let lanes := groupLanes s dev
  loseDevices (lanes.foldl (fun s l =>
    ((s.put .cxpLaneState l lnStepping).put .cxpLaneRate l rate).emit (.connConfig l lanes.length rate)) s) lanes

/-- The highest rate that a device and every lane of its group support (R211). -/
def groupRate (s : State) (dev : Nat) : Nat :=
  (groupLanes s dev).foldl (fun m l => min m ((s.mgmt.laneTop.get none l).getD 6)) 6

/-- Exclude a lane (R212, R429): it leaves its group, the floor plan and the log say so, and its group is
discovered again without it. -/
def excludeLane (s : State) (l : Nat) (byError : Bool) : State :=
  let dev := s.get .cxpLaneDevice l
  let lanes := s.get .fpLanesCxp 0
  let s1 := (s.put .cxpLaneState l lnExcluded).put .fpLanesCxp 0 (lanes - b2n (bitAt lanes l) * 2 ^ l)
  let excl := s.get .buExclCxp 0
  let s2 := if byError then s1.put .buExclCxp 0 (excl - b2n (bitAt excl l) * 2 ^ l + 2 ^ l) else s1
  let s3 := logEvent s2 0x0010 (srcBlock 4) 1 [l, 0, 0, 0]
  configGroup s3 dev (groupRate s3 dev)

/-- Whether a lane qualified at its rate or a higher one (R430). -/
def laneQualifiedAt (s : State) (lane rate : Nat) : Bool :=
  match s.mgmt.qualRate.get none lane with
  | some r => decide (rate ≤ r)
  | none => false

/-! ### The pipe-entry rule (R241) -/

/-- Payload of a lane in 0.1 Gb/s at a rate code (R241). -/
def ratePayload (rate : Nat) : Nat := [10, 20, 25, 40, 50, 80, 100].getD rate 0

/-- Wire bits of a pixel by CXP_FMT (R241). -/
def wireBits (fmt : Nat) : Nat := [8, 8, 10, 12, 16, 8, 12, 24, 16].getD fmt 8

/-- Entries a context needs. -/
def entriesNeeded (s : State) (k : Nat) : Nat :=
  let sum := ((sourceLanes s k).map (fun l => ratePayload (s.get .cxpLaneRate l))).sum
  let den := 10 * wireBits (s.get .cxpFmt k)
  (sum + den - 1) / den

/-- Entries a context holds on its pipe's wheel. -/
def entriesHeld (s : State) (k : Nat) : Nat :=
  let p := s.get .pipeSel k - 1
  ((List.range 8).filter (fun i => bitAt (s.get .pipeWheelEn p) i &&
    bitsAt (s.get .pipeWheel p) (4 * i) 4 == k)).length

/-- Whether a context keeps the pipe-entry rule; a bypassed one has none to keep. -/
def wheelOk (s : State) (k : Nat) : Bool := !piped s k || decide (entriesNeeded s k ≤ entriesHeld s k)

/-- After a completed discovery of a context's lanes (R241): a bound context that now breaks the rule loses its
lines until it is unbound, and the event log names it. -/
def checkOverrate (s : State) (k : Nat) : State :=
  let done := (sourceLanes s k).all (fun l => [lnDiscovery, lnUp, lnExcluded].contains (s.get .cxpLaneState l))
  if s.flag .ctxBound k && done && !wheelOk s k && !(s.context k).overRate then
    logEvent (s.setCtx k { s.context k with overRate := true }) 0x0011 (srcBlock 5) 1 [k, 0, 0, 0]
  else s

/-! ### Camera control (R221, R222) -/

/-- Open a settling range (R222): its first line is the next trigger's. -/
def openSettle (x : Context) : Context := { x with settles := x.settles ++ [⟨none, none, false⟩] }

/-- The range of the request whose outcome is known: its last line follows from the next trigger. -/
def endSettle (x : Context) : Context := { x with settles := x.settles.map (fun r => { r with ended := true }) }

/-- Send queued requests until one is outstanding (R221): with the master lane down a request completes at once
with outcome 2. -/
def sendControl : Nat → State → Nat → State
  | 0, s, _ => s
  | n + 1, s, k =>
    let x := s.context k
    match x.ctrl, x.ctrlQueue with
    | none, c :: cs =>
      if s.get .cxpLaneState (s.get .cxpSrcMaster k) = lnUp then
        let x1 := if c.settle then openSettle x else x
        (s.setCtx k { x1 with ctrl := some c, ctrlQueue := cs }).emit (.control k c.write c.addr c.data)
      else sendControl n (answer (s.setCtx k { x with ctrlQueue := cs }) c.req cOk [2]) k
    | _, _ => s

/-- Send what can be sent. -/
def pumpControl (s : State) (k : Nat) : State := sendControl (s.context k).ctrlQueue.length s k

/-- The outstanding request has its outcome (R221): it completes OK with the outcome and the reply bytes, and
the next is sent. -/
def endControl (s : State) (k outcome : Nat) (data : List Byte) : State :=
  let x := s.context k
  match x.ctrl with
  | none => s
  | some c =>
    let words := (List.range 5).map (fun i => BitVec.ofNat 32 (leNat ((data.drop (4 * i)).take 4)))
    let x1 := if c.settle then endSettle x else x
    pumpControl (answer (s.setCtx k { x1 with ctrl := none }) c.req cOk (BitVec.ofNat 32 outcome :: words)) k

/-- Whether a waiting control message carries a request: channel 1 of the sender's mailbox (R221, R372). -/
def carriesControl (r : Req) (m : Msg) : Bool :=
  m.channel && m.sender == r.sender && (m.words.getD 0 0).toNat / 65536 == r.tag.toNat && m.ring == r.ring

/-- A posted control request (R221): ISOLATED unless the posting function owns the context. -/
def postControl (s : State) (k : Nat) (c : CtrlReq) : State :=
  let m := fwMbox s c.req.sender.toNat
  let b := s.mbox m
  let stale := ((b.msgs.find? (carriesControl c.req)).map (fun e => e.stale)).getD false
  let s1 := s.setMbox m { b with msgs := b.msgs.eraseP (carriesControl c.req) }
  if stale then answer s1 c.req cStaleGen [BitVec.ofNat 32 (senderGen s c.req.sender.toNat)]
  else if senderFn s c.req.sender.toNat ≠ k + 1 then answer s1 c.req cIsolated []
  else if !serving s || s.mgmt.hold != .none || (s.context k).resetting then answer s1 c.req cBusy []
  else
    let x := s1.context k
    pumpControl (s1.setCtx k { x with ctrlQueue := x.ctrlQueue ++ [c] }) k

/-- CAMERA_CONTROL_READ (R221). -/
def execCameraControlRead (r : Req) (k : Ctx) (settle : Bool) (addr : Word) (len : BitVec 7) (s : State) : Answer :=
  .next (postControl s k.val ⟨r, false, settle, addr, [BitVec.ofNat 8 len.toNat]⟩)

/-- CAMERA_CONTROL_WRITE (R221): 56 bytes of data at most. -/
def execCameraControlWrite (r : Req) (k : Ctx) (settle : Bool) (addr : Word) (data : List Byte) (s : State) :
    Answer :=
  .next (postControl s k.val ⟨r, true, settle, addr, data.take 56⟩)

/-- CAMERA_REPLY (R221): outcome 0, with the reply bytes. -/
def execCameraReply (k : Ctx) (data : List Byte) (s : State) : Answer := .next (endControl s k.val 0 data)

/-- CAMERA_REPLY_TIMEOUT (R221): outcome 1. -/
def execCameraReplyTimeout (k : Ctx) (s : State) : Answer := .next (endControl s k.val 1 [])

/-! ### Lane rows -/

/-- Discovery of a lane (R211): at CXP-1 with the low-speed upconnection its bootstrap registers are read, and it joins
its device's group. -/
def discoverLane (s : State) (l : Nat) (info : LaneInfo) : State :=
  let s1 := ((((s.put .cxpLaneState l lnDiscovery).put .cxpLaneRate l 0).put .cxpLaneHsUp l 0).put .cxpLaneDevice l
    info.device.toNat).put .cxpLaneConn l info.connection.toNat
  ({ s1 with mgmt := { s1.mgmt with laneTop := s1.mgmt.laneTop.set l (some info.rate.toNat) } }).emit (.bootstrap l)

/-- LANE_LOCK (R211, R212, R429, R430): a down lane that locks is discovered, its group gets the highest rate all
support, and the high-speed upconnection when the device declares it; a lane that qualification excluded takes no part.  A
stepping lane that locks at the new rate is up when it is qualified there, else in qualification. -/
def gainLock (s : State) (l : Nat) (info : LaneInfo) : State :=
  let st := s.get .cxpLaneState l
  if bitAt (s.get .buExclCxp 0) l then s.put .cxpLaneState l lnExcluded
  else if st = lnDown then
    let s1 := discoverLane s l info
    configGroup (s1.put .cxpLaneHsUp l (b2n info.highSpeed)) info.device.toNat (groupRate s1 info.device.toNat)
  else if st = lnStepping then
    let up := laneQualifiedAt s l (s.get .cxpLaneRate l)
    let s1 := s.put .cxpLaneState l (if up then lnUp else lnDiscovery)
    (List.range 16).foldl (fun s k =>
      if (deviceLanes s k).contains l then checkOverrate s k else s) s1
  else s

/-- LANE_LOCK (R211). -/
def execLaneLock (l : CxpLane) (info : LaneInfo) (s : State) : Answer := .next (gainLock s l.val info)

/-- LANE_LOCK_TIMEOUT (R212): the group steps down a rate; a lane that cannot lock at CXP-1 is left out. -/
def execLaneLockTimeout (l : CxpLane) (s : State) : Answer :=
  if s.get .cxpLaneState l.val ≠ lnStepping then .next s
  else if s.get .cxpLaneRate l.val = 0 then .next (excludeLane s l.val false)
  else .next (configGroup s (s.get .cxpLaneDevice l.val) (s.get .cxpLaneRate l.val - 1))

/-- A lane whose qualification is set back; the third time it is excluded (R429). -/
def setBack (s : State) (l : Nat) : State :=
  let n := s.mgmt.laneResets.get 0 l + 1
  let s1 := { s with mgmt := { s.mgmt with laneResets := s.mgmt.laneResets.set l n } }
  if 3 ≤ n then excludeLane s1 l true else s1

/-- A lane goes down (R213): its contexts' lines are lost, a request outstanding on it ends with outcome 2. -/
def lockLost (s : State) (l : Nat) : State :=
  let st := s.get .cxpLaneState l
  let s0 := s.bump .cxpLockLoss l
  if st = lnDown ∨ st = lnExcluded then s0
  else
    let s1 := ((s0.put .cxpLaneState l lnDown).put .cxpLaneRate l 0).put .cxpLaneHsUp l 0
    let s2 := if st = lnDiscovery then setBack s1 l else s1
    (List.range 16).foldl (fun s k =>
      if bitAt (s.get .cxpSrcLanes k) l && s.get .cxpSrcMaster k == l then endControl s k 2 [] else s) (loseDevices s2 [l])

/-- LANE_LOCK_LOSS (R213). -/
def execLaneLockLoss (l : CxpLane) (s : State) : Answer := .next (lockLost s l.val)

/-- DEVICE_EVENT_PACKET (R210): discarded and counted. -/
def execDeviceEventPacket (l : CxpLane) (s : State) : Answer := .next (s.bump .cxpCodeErr l.val)

/-! ### Triggers (R15, R217 to R219, R263, R308, R309) -/

/-- The settling ranges at a hit (R222): a range not begun begins at this line, a range whose outcome is known
gets its last line; ranges past every line still to come are dropped. -/
def settlesAt (s : State) (k line : Nat) (x : Context) : List Settle :=
  let fill := x.settles.map (fun r =>
    let f := some (r.first.getD line)
    if r.ended && r.last.isNone then
      { r with first := f, last := some ((line + 2 ^ 48 + s.get .cxpSettleLines k - 1) % 2 ^ 48) }
    else { r with first := f })
  fill.filter (fun r => match r.last with
    | some l => decide (0 ≤ lineDiff l (lineAhead x))
    | none => true)

/-- One hit older: triggers late_lines hits old whose line has not begun are missed (R219). -/
def ageTriggers (s : State) (k : Nat) : State :=
  let x := s.context k
  let late := lateLines s k
  let old := x.outstanding.map (fun t => { t with age := t.age + 1 })
  let gone := fun (t : Trig) => decide (late ≤ t.age) && t.lost == 0
  let s1 := s.bumpBy .linesMissed k (old.filter gone).length
  s1.setCtx k { x with
    outstanding := old.map (fun t => if gone t then { t with lost := rsMissed } else t),
    deferred := x.deferred.map (fun t => { t with age := t.age + 1 }),
    rx := x.rx.map (fun r => { r with trig := { r.trig with age := r.trig.age + 1 } }),
    quiet := if x.resetting then x.quiet else x.quiet - 1 }

/-- Put a lost trigger into the order, counted in LINES_MISSED. -/
def pushLost (s : State) (k reason : Nat) (t : Trig) : State :=
  let x := s.context k
  (s.bump .linesMissed k).setCtx k { x with outstanding := x.outstanding ++ [t.lose reason] }

/-- A further hit falls due while a trigger is deferred (R218): the deferred one is never sent, its line is missed. -/
def dropDeferred (s : State) (k : Nat) : State :=
  let x := s.context k
  match x.deferred with
  | none => s
  | some d =>
    let s1 := s.setCtx k { x with deferred := none }
    if d.lost = 0 then pushLost s1 k rsMissed d else s1

/-- Queue the packet of a hit on the master connection (R217), or defer it behind the packet going out (R218); a line not
lost yet awaits its answer from then on.  With the master lane down there is no upconnection to send it on. -/
def sendTrigger (s : State) (k : Nat) (t : Trig) : State :=
  let x := s.context k
  if s.get .cxpLaneState (s.get .cxpSrcMaster k) ≠ lnUp then (if t.lost = 0 then pushLost s k rsLink t else s)
  else if x.pktBusy then (s.bump .trigDeferred k).setCtx k { x with deferred := some { t with deferred := true } }
  else
    let out := if t.lost = 0 then x.outstanding ++ [t] else x.outstanding
    (s.setCtx k { x with outstanding := out, pktBusy := true }).emit (.trigger k t.line)

/-- What becomes of a trigger served live (R213, R217, R218, R231): its packet is sent whether or not its line can be
received. -/
def serveTrigger (s : State) (k : Nat) (t : Trig) : State :=
  let s0 := dropDeferred s k
  if (s0.context k).resetting then
    sendTrigger (gapLine s0 k t rsReset) k { t with lost := rsReset }
  else if !sourceUp s0 k then sendTrigger (pushLost s0 k rsLink t) k { t with lost := rsLink }
  else sendTrigger s0 k t

/-- The tag of a line that is committed (R226, R227). -/
def slugTag (s : State) (t : Trig) (p : Product) (flags : Nat) (crc : Nat) : Slug :=
  { line := t.line, format := p.format, components := p.comps, flags := BitVec.ofNat 32 flags, widthM1 := p.width - 1,
    crcPackets := min crc 0xFFFF, trigCount := t.count, commitTime := s.now, lost := 0, payload := p.payload }

/-- A closed line takes its service path and is committed and counted into its statistics block (R224, R254), or is dropped
as missed while the pipe-entry rule fails (R241). -/
def closeLine (s : State) (k : Nat) (t : Trig) (samples : List Nat) (flags crc : Nat) : State :=
  if (s.context k).overRate then
    joinLost ((s.bump .pipeOverrate k).bump .linesMissed k) k { t with lost := rsMissed }
  else
    let r := serveLine s k t.line samples
    let taken := canTake (placeWaiting r.1 k) k
    let s1 := commitSlug r.1 k t (slugTag s t r.2 flags crc)
    if taken then statsLine s1 k t.line r.2.values r.2.black else statsLost s1 k t.line

/-- A hit served by replay (R262, R263): the next recorded slug is injected, or the line is missed. -/
def injectLine (s : State) (k : Nat) (p : Replay) (t : Trig) : State :=
  let x := s.context k
  let keep := fun (q : Replay) => s.setCtx k { x with replay := some q }
  let missed := fun (a : State) => joinLost (a.bump .linesMissed k) k { t with lost := rsMissed }
  match p.buf with
  | [] => missed ((keep p).bump .replayUnderrun k)
  | .missed n corrupt :: es =>
    let q := { p with buf := if n ≤ 1 then es else ReplayEntry.missed (n - 1) corrupt :: es }
    let q1 := if q.buf.isEmpty && q.ended then { q with stopping := true } else q
    let a := if corrupt then (keep q1).bump .replayCorrupt k else keep q1
    missed a
  | .slug g :: es =>
    let q := { p with buf := es }
    let q1 := if es.isEmpty && q.ended then { q with stopping := true } else q
    let desync := if x.desync then 128 else 0
    closeLine (keep q1) k t (slugCodes g) ((replayFlags g).toNat + desync) g.crcPackets

/-- TRIGGER_COMPARE_HIT (R15, R217 to R219, R262, R308, R309): the compare advances by its pitch, the line number
by one. -/
def compareHit (s : State) (k : Nat) : State :=
  let x := s.context k
  let line := x.nextLine
  let live := livePos s k
  let count := wrapTo 64 live
  let target := wrapTo 48 ((x.trigTarget : Int) + x.trigPitch)
  let t : Trig := ⟨line, count, false, 0, 0⟩
  let x1 := { x with
    nextLine := (line + 1) % 2 ^ 48, trigTarget := target, c0 := some (x.c0.getD (wrapTo 48 live)),
    settles := settlesAt s k line x,
    replay := match x.replay with
      | some p => if p.stopping || (p.ended && p.buf.isEmpty) then none else some p
      | none => none }
  let s1 := (s.setCtx k x1).put .trigNext k target
  match x1.replay with
  | some p =>
    if p.begun || decide (0 ≤ lineDiff line p.start) then
      let s2 := if p.begun then s1 else loseTriggered s1 k rsMissed
      if (s2.context k).resetting then serveTrigger s2 k t
      else injectLine s2 k { p with begun := true } t
    else resolveLines (serveTrigger (ageTriggers s1 k) k t) k
  | none => resolveLines (serveTrigger (ageTriggers s1 k) k t) k

/-- Whether a compare on an encoder may hit: Full, and no wire fault on the encoder (R308). -/
def compareLive (s : State) (e : Nat) : Bool := s.power == .full && !wireNow s e

/-- TRIGGER_COMPARE_HIT (R217, R308). -/
def execTriggerCompareHit (k : Ctx) (s : State) : Answer :=
  let x := s.context k.val
  if x.armed && compareLive s (s.get .ctxEncoder k.val) &&
      countReached (sext 48 x.trigTarget) (livePos s k.val) then
    .next (compareHit s k.val)
  else .next s

/-- TRIGGER_PACKET_END (R218): the packet is out; a deferred trigger is sent now. -/
def execTriggerPacketEnd (k : Ctx) (s : State) : Answer :=
  let x := s.context k.val
  if !x.pktBusy then .next s
  else match x.deferred with
    | some d =>
      .next (sendTrigger (s.setCtx k.val { x with deferred := none, pktBusy := false }) k.val d)
    | none => .next (s.setCtx k.val { x with pktBusy := false })

/-! ### Lines (R216, R219, R220, R222, R223) -/

/-- Whether replay serves a context now (R262). -/
def replaying (x : Context) : Bool :=
  match x.replay with
  | some p => p.begun
  | none => false

/-- LINE_BEGIN (R219, R220): the line answers the oldest trigger outstanding that is not lost, or is unsolicited. -/
def beginLine (s : State) (k : Nat) : State :=
  let x := s.context k
  if !s.flag .ctxBound k || replaying x || !sourceUp s k then s
  else match x.outstanding.dropWhile (fun t => t.lost != 0) with
    | t :: ts =>
      let lost := x.outstanding.takeWhile (fun t => t.lost != 0)
      s.setCtx k { x with outstanding := ts, rx := x.rx ++ (lost ++ [t]).map (fun t => ⟨t, false, 0⟩) }
    | [] =>
      let s1 := s.bump .linesUnsol k
      if x.resetting || x.quiet != 0 then s1 else (s1.setCtx k { s1.context k with desync := true }).put .cxpDesync k 1

/-- LINE_BEGIN (R219). -/
def execLineBegin (k : Ctx) (s : State) : Answer := .next (beginLine s k.val)

/-- STREAM_PACKET (R223): errors count in the lane that carried the packet; a failing packet, or one whose framing
is destroyed, damages every line with pixels in it: those that have begun and are not complete (log entry 96). -/
def execStreamPacket (l : CxpLane) (k : Ctx) (crcOk : Bool) (codeErrors : Nat) (framed : Bool) (s : State) : Answer :=
  let s1 := if crcOk then s else s.bump .cxpCrcErr l.val
  let s2 := s1.bumpBy .cxpCodeErr l.val codeErrors
  let x := s2.context k.val
  if (crcOk && framed) || !(deviceLanes s k.val).contains l.val then .next s2
  else .next (s2.setCtx k.val { x with
    rx := x.rx.map (fun r => { r with damaged := true, crc := min (r.crc + b2n (!crcOk)) 0xFFFF }) })

/-- Bits of a source sample (R244). -/
def sourceBits (s : State) (k : Nat) : Nat :=
  match s.get .cxpFmt k with
  | 1 => 8
  | 5 => 8
  | 7 => 8
  | 2 => 10
  | 3 => 12
  | 6 => 12
  | _ => 16

/-- A line is complete (R216, R219, R222 to R224): cut or padded to W, flagged, counted, committed. -/
def completeLine (s : State) (k : Nat) (r : LineRx) (samples : List Nat) : State :=
  let x := s.context k
  let n := (s.get .cxpWidthM1 k + 1) * cameraComps s k
  let codes := (samples.map (fun v => v % 2 ^ sourceBits s k)).take n
  let full := codes ++ List.replicate (n - codes.length) 0
  let wrong := samples.length != n
  let late := r.trig.age != 0
  let flags := 2 * b2n r.damaged + 4 * b2n wrong + 8 * b2n late + 16 * b2n (settlingLine x r.trig.line) +
    32 * b2n r.trig.deferred + 128 * b2n x.desync
  let s1 := s.setCtx k { x with rx := x.rx.tail }
  let s2 := if r.damaged || wrong then s1.bump .linesDamaged k else s1
  let s3 := if late then s2.bump .linesLate k else s2
  resolveLines (closeLine s3 k r.trig full flags r.crc) k

/-- LINE_COMPLETE (R224). -/
def execLineComplete (k : Ctx) (samples : List Nat) (s : State) : Answer :=
  match (s.context k.val).rx with
  | r :: _ => .next (completeLine s k.val r samples)
  | [] => .next s

end Sys2Proof.Machine
end

