-- ==== Sys2Proof/Machine/Bind.lean ====
section
/-! DEFINITION. Binding a context to a chase and unbinding it (R15, R180, R181, R207, R214, R228, R309). -/

namespace Sys2Proof.Machine

/-! ### What the teardowns share (R253, R376, R382, R418) -/

/-- Discard the pending applies of a context (R253): a host's request completes RECEIVER_RESET. -/
def discardApplies (s : State) (k : Nat) : State :=
  let x := s.context k
  let reqs := ([0, 1, 2, 3] : List Nat).filterMap (fun t => (x.applies.get none t).bind (fun a => a.req))
  reqs.foldl (fun s r => answer s r cReceiverReset [BitVec.ofNat 32 (s.get .mbxRxGen (fwMbox s r.sender.toNat))])
    (s.setCtx k { x with applies := .empty })

/-- Disarm the TRIG one-shots of a context (R311). -/
def disarmOneShots (s : State) (k : Nat) : State := s.setCtx k { s.context k with oneshots := .empty }

/-- The generation of a sender moves on: its quoins are released BROKEN, its waiting messages go stale (R376,
R382, R418). -/
def nextGeneration (s : State) (f : Fld) (i id : Nat) : State :=
  let old := s.get f i
  staleSender (quoinsBreak (s.put f i ((old + 1) % 256)) id old) id

/-- The generation of a context, which is its VF's (R372, R418). -/
def nextCtxGen (s : State) (k : Nat) : State := nextGeneration s .genCtx k (k + 1)

/-- The generation of a chase (R372, R418). -/
def nextChaseGen (s : State) (n : Nat) : State := nextGeneration s .genChase n (chaseSender n)

/-- The contexts bound to a chase, with their slots. -/
def boundTo (s : State) (n : Nat) : List Nat :=
  (List.range 16).filter (fun k => s.flag .ctxBound k && s.get .ctxChase k == n)

/-! ### CONTEXT_BIND -/

/-- What R214, R216, R228, R241 and R249 say of a context's camera, galley and pipe: the code of a refusal. -/
def bindRefusal (s : State) (k : Nat) : Option Nat :=
  let lanes := sourceLanes s k
  let known := lanes.filter (fun l => s.get .cxpLaneState l != lnDown || laneKnown s l)
  let devs := known.map (fun l => s.get .cxpLaneDevice l)
  if lanes.isEmpty || !lanes.contains (s.get .cxpSrcMaster k) ||
      lanes.any (laneOut s) || devs.any (fun d => d != devs.headD 0) then
    some cCapability
  else if lanes.any (fun l => s.get .cxpLaneState l == lnDiscovery || s.get .cxpLaneState l == lnStepping) then
    some cBusy
  else if !formatOk s k || !galleyFits s k || !wheelOk s k then some cCapability
  else none

/-- Enter a binding (R15, R207, R228, R234, R309): the trigger compare is armed one pitch ahead, the galley is
enabled and empty, numbering continues. -/
def bindContext (s : State) (n slot k : Nat) (p : BindParams) : State :=
  let x := s.context k
  let n0 := if x.everBound then x.nextLine else 0
  let live := s.s48 .encPos p.encoder.val
  let target := wrapTo 48 (live + p.pitch)
  let s1 := (((((((s.put .ctxChase k n).put .ctxSlot k slot).put .ctxEncoder k p.encoder.val).put .ctxBound k
    1).put .ctxMargin k p.margin).put .ctxGuard k p.guard).put .ctxNrMask k p.nrMask.toNat).put .ctxNrWidth k
      p.nrWidth.toNat
  let s2 := (((s1.put .trigNext k target).put .trigPitch k p.pitch).put .galEnabled k 1).put .galStride k
    (slugStride s k)
  let s3 := match (s.chase n).forme with
    | some f => s2.put .galBand k f.bandLines
    | none => s2
  s3.setCtx k { x with
    everBound := true, n0 := n0, c0 := none, nextLine := n0, trigTarget := target, trigPitch := p.pitch,
    armed := true, outstanding := [], deferred := none, pktBusy := false, rx := [], quiet := 0, gap := none,
    closedGaps := [], slots := [], writeLine := n0, oldest := n0, bandFrom := n0, firstBand := true,
    afterGap := false, ring := [], prevRaw := none, stats := none, statBase := n0,
    lastSwitch := none, lastLost := none,
    overRate := false, replay := none }

/-- CONTEXT_BIND (R180, R181, R198, R214, R228, R241, R309).  Values outside R309's range complete
CAPABILITY_MISSING; a slot in use, like a guard of 0, completes BUSY (log entry 27).  A chase of PF0 may be given any context
(log entry 90). -/
def execContextBind (r : Req) (n : ChaseNo) (slot : Fin 16) (k : Ctx) (p : BindParams) (s : State) : Answer :=
  .next (firmware s r false false (fun s =>
    let c := n.val
    let i := k.val
    if !mayChase s r c then answer s r cIsolated []
    else if p.pitch = 0 ∨ 65535 < p.pitch ∨ 2 ^ 31 ≤ p.margin ∨ 65536 ≤ p.guard then answer s r cCapability []
    else if s.get .chOwner c ≠ 0 ∧ s.get .chOwner c ≠ i + 1 then answer s r cIsolated []
    else if !s.flag .chPresent c || s.get .chState c == chLoading || (s.chase c).draining || (s.context i).resetting ||
        s.flag .ctxBound i || (slotCtx s c slot.val).isSome || p.guard == 0 || decide (p.margin < p.guard) then
      answer s r cBusy []
    else match bindRefusal s i with
      | some code => answer s r code []
      | none => answer (bindContext s c slot.val i p) r cOk []))

/-! ### CONTEXT_UNBIND -/

/-- Undo a binding (R196, R207, R233, R253, R311, R418): the context's items are decided, its applies discarded,
its galley emptied and disabled. -/
def unbindContext (s : State) (n k : Nat) : State :=
  let s1 := nextCtxGen (disarmOneShots (discardApplies (unbindItems s n k) k) k) k
  let s2 := ((((((((((s1.put .ctxChase k 0).put .ctxSlot k 0).put .ctxEncoder k 0).put .ctxBound k 0).put .ctxMargin
    k 0).put .ctxGuard k 16).put .ctxNrMask k 0).put .ctxNrWidth k 0).put .galEnabled k 0).put .trigNext k 0).put
    .trigPitch k 0
  let x := s2.context k
  s2.setCtx k { x with
    c0 := none, armed := false, outstanding := [], deferred := none, pktBusy := false, rx := [], quiet := 0,
    gap := none, closedGaps := [], slots := [], writeLine := x.nextLine, oldest := x.nextLine, afterGap := false,
    ring := [], prevRaw := none, stats := none, overRate := false, replay := none }

/-- CONTEXT_UNBIND (R181); an empty slot completes BUSY (log entry 27). -/
def execContextUnbind (r : Req) (n : ChaseNo) (slot : Fin 16) (s : State) : Answer :=
  .next (firmware s r false false (fun s =>
    let c := n.val
    if !mayChase s r c then answer s r cIsolated []
    else if !s.flag .chPresent c || (s.chase c).draining || !(s.get .chState c == chStopped || s.get .chState c == chEmpty)
    then answer s r cBusy []
    else match slotCtx s c slot.val with
      | none => answer s r cBusy []
      | some k =>
        if (s.context k).resetting then answer s r cBusy [] else answer (unbindContext s c k) r cOk []))

end Sys2Proof.Machine
end

