-- ==== Sys2Proof/Machine/Rhasha.lean ====
section
/-! DEFINITION. The Rhasha ports: training (R279 to R282), the link layer (R278, R283 to R287), packets and
epoch agreement (R288, R292 to R296). -/

namespace Sys2Proof.Machine

/-! ### Training (R279 to R282) -/

/-- Lanes of a port that bring-up found good: they pass loopback and are not excluded (R422, R429). -/
def soundLanes (s : State) (p : Nat) : Nat :=
  bitsAt ((s.mgmt.findings.map (fun f => f.lanesRh.toNat)).getD 0xFFFF) (4 * p) 4 &&&
    (15 - bitsAt (s.get .buExclRh 0) (4 * p) 4)

/-- Lanes a port offers: enabled when it last entered DETECT, and good at bring-up (R281, R301, R429). -/
def goodLanes (s : State) (p : Nat) : Nat := (s.port p).laneEn &&& soundLanes s p

/-- Lanes good at both ends (R281). -/
def commonLanes (s : State) (p : Nat) : Nat := goodLanes s p &&& bitsAt (s.get .rhPartnerCap p) 10 4

/-- Highest rate code a port offers, as set when it last entered DETECT: 6 and 7 read as 5 (R301). -/
def ownMaxRate (s : State) (p : Nat) : Nat := min 5 (s.port p).maxRate

/-- The capability word a port sends (R281). -/
def capWord (s : State) (p : Nat) (ack : Bool) : Nat :=
  2 + 0x3F * 16 + goodLanes s p * 2 ^ 10 + ownModule s * 2 ^ 14 + 2 ^ 18 + 2 ^ 19 + b2n ack * 2 ^ 20

/-- Send a CAP. -/
def sendCap (s : State) (p : Nat) (ack : Bool) : State :=
  let w : BitVec 64 := BitVec.ofNat 64 (capWord s p ack)
  s.emit (.cap p w)

/-- A port sends TS on some lanes, with the lanes it has ready and a rate code (R277, R280). -/
def sendTs (s : State) (p lanes rate : Nat) : State := s.emit (.ts p lanes (s.port p).ready.toNat rate)

/-- Enter DETECT (R280), which takes lane_en and max_rate (R301) and sends TS on every lane, or DISABLED where port_en is
0 or no good lane is left (R429). -/
def enterDetect (s : State) (p : Nat) : State :=
  let x := s.port p
  let s1 := s.setPort p { x with
    capRun := [], capLane := none, capAcked := false, sweep := .empty, ready := 0, target := 0,
    stepFrom := 0, failedCode := none, laneEn := s.get .rhLaneEn p, maxRate := s.get .rhMaxRate p, hbSeen := false }
  let st := if s.flag .rhPortEn p && soundLanes s p != 0 then lnkDetect else lnkDisabled
  let s2 := updateClk ((((s1.put .rhState p st).put .rhRate p 0).put .rhLanes p 0).put .rhNarrowed p 0)
  if st = lnkDetect then sendTs s2 p 15 0 else s2

/-- Enter ACTIVE (R280, R286): IDLE fills the lanes in use, and what waits in the replay buffer is sent, in order. -/
def enterActive (s : State) (p : Nat) : State :=
  let s1 := ((s.setPort p { s.port p with suspended := false }).put .rhState p lnkActive).emit (.idle p (s.get .rhLanes p))
  let s2 := (s1.port p).unacked.foldl (fun s pkt => s.emit (.packet p pkt)) s1
  updateClk (drainPort s2 p)

/-- The rate codes stepped through (R282). -/
def stepCodes (top : Nat) : List Nat :=
  if top = 3 then [1, 2, 3] else [1, 2, 4, 5].filter (fun c => decide (c ≤ top))

/-- Begin the next rate step, or enter ACTIVE at the last one (R282); the end with the lower module number
sends RATE. -/
def nextStep (s : State) (p : Nat) : State :=
  let x := s.port p
  match (stepCodes x.maxCode).find? (fun c => decide (s.get .rhRate p < c)) with
  | none => enterActive s p
  | some c =>
    let s1 := (s.setPort p { x with target := c, stepFrom := s.get .rhRate p, sweep := .empty, ready := 0 }).put
      .rhState p lnkStep
    if ownModule s < s.get .rhPartner p then sendTs (s1.emit (.rate p c (s.get .rhLanes p))) p (s.get .rhLanes p) c
    else s1

/-- Whether the sweep of a lane found no error-free code (R279). -/
def laneFailed (x : Port) (l : Nat) : Bool :=
  let w := x.sweep.get [] l
  decide (16 ≤ w.length) && w.all (fun e => !e.2)

/-- Lanes whose sweep did not fail. -/
def sweptLanes (x : Port) : Nat := ((List.range 4).map (fun l => b2n (!laneFailed x l) * 2 ^ l)).sum

/-- A lane lock for 32 TS at both ends, by state (R280, R282); `lanes` are those locked and within the skew of R277.  A port
that tunes again after a failed step enters ACTIVE (R282). -/
def locked (s : State) (p lanes : Nat) : State :=
  let x := s.port p
  let st := s.get .rhState p
  if st = lnkDetect then
    let l := lanes &&& goodLanes s p
    if l = 0 then s
    else
      sendCap ((s.setPort p { x with
        ready := BitVec.ofNat 4 l, capLane := (List.range 4).find? (bitAt l), capRun := [],
        capAcked := false }).put .rhState p lnkCap) p false
  else if st = lnkWiden then
    let l := lanes &&& commonLanes s p &&& sweptLanes x
    let s1 := s.setPort p { x with ready := BitVec.ofNat 4 l }
    if l = commonLanes s p then nextStep (s1.put .rhLanes p l) p else sendTs s1 p (commonLanes s p) 0
  else if st = lnkStep then
    let l := lanes &&& s.get .rhLanes p &&& sweptLanes x
    if l = 0 then s
    else
      let s1 := (s.setPort p { x with ready := BitVec.ofNat 4 l }).put .rhRate p x.target
      let s2 := if l = s.get .rhLanes p then s1 else s1.put .rhNarrowed p 1
      if x.failedCode.isSome then enterActive (s2.put .rhLanes p l) p else nextStep (s2.put .rhLanes p l) p
  else s

/-- TS_LOCKED (R280). -/
def execTsLocked (p : RhPort) (lanes : BitVec 4) (s : State) : Answer := .next (locked s p.val lanes.toNat)

/-- The longest run of error-free codes: first code and length; the first of equals (R279). -/
def longestRun (l : List Bool) : Nat × Nat :=
  let r := l.foldl (fun (a : (Nat × Nat) × (Nat × Nat)) good =>
      let cur := if good then (a.1.1, a.1.2 + 1) else (a.1.1 + a.1.2 + 1, 0)
      (cur, if a.2.2 < cur.2 then cur else a.2)) ((0, 0), (0, 0))
  r.2

/-- The code a finished sweep chooses (R279): the middle of the longest run, the lower of two. -/
def sweepChoice (l : List (Nat × Bool)) : Option Nat :=
  let r := longestRun (l.map (fun e => e.2))
  if r.2 = 0 then none else some (r.1 + (r.2 - 1) / 2)

/-- EQ_CODE_DWELL (R279): one more code judged; after code 15 the sweep chooses. -/
def execEqCodeDwell (p : RhPort) (lane : Fin 4) (errors : Nat) (s : State) : Answer :=
  let x := s.port p.val
  let i := p.val * 4 + lane.val
  let done := x.sweep.get [] lane.val
  if s.flag .rhEqOverride i || decide (16 ≤ done.length) ||
      !(s.get .rhState p.val == lnkWiden || s.get .rhState p.val == lnkStep) then .next s
  else
    let l := done ++ [(done.length, errors == 0)]
    let s1 := s.setPort p.val { x with sweep := x.sweep.set lane.val l }
    match if l.length = 16 then sweepChoice l else none with
    | some c => .next (s1.put .rhEqCode i c)
    | none => .next s1

/-- Enter WIDEN with the settings both words give (R281). -/
def enterWiden (s : State) (p : Nat) : State :=
  let w := s.get .rhPartnerCap p
  let rates := (List.range 6).filter (fun c => bitAt w (4 + c) && decide (c ≤ ownMaxRate s p))
  let s1 := s.setPort p { s.port p with
    maxCode := rates.foldl max 0, clkLock := bitAt w 19, sweep := .empty, ready := 0 }
  sendTs (((s1.put .rhState p lnkWiden).put .rhRhasha1 p (b2n (bitsAt w 0 4 == 1))).put .rhOrderTags p
    (b2n (bitAt w 18))) p (commonLanes s p) 0

/-- A CAP with good CRC (R281): three identical ones give the partner's word; the module's own number in it
sets dup_id and holds the port in CAP. -/
def capGood (s : State) (p : Nat) (w : BitVec 64) : State :=
  let x := s.port p
  let run := if x.capRun.all (fun v => v == w) then w :: x.capRun else [w]
  let s1 := s.setPort p { x with capRun := run.take 3 }
  let s2 :=
    if run.length < 3 || x.capAcked then s1
    else if bitsAt w.toNat 14 4 = ownModule s then s1.put .rhDupId p 1
    else
      sendCap ((((s1.setPort p { s1.port p with capAcked := true }).put .rhDupId p 0).put .rhPartnerCap p
        w.toNat).put .rhPartner p (bitsAt w.toNat 14 4)) p true
  if (s2.port p).capAcked && bitAt w.toNat 20 then enterWiden s2 p else s2

/-- CAP_RECEIVED (R281). -/
def execCapReceived (p : RhPort) (word : BitVec 64) (crc : BitVec 16) (s : State) : Answer :=
  if s.get .rhState p.val = lnkCap then
    if crc16 (natLe 8 word.toNat) = crc.toNat then .next (capGood s p.val word)
    else .next (s.setPort p.val { s.port p.val with capRun := [] })
  else .next s

/-- CAP_TIMEOUT (R280, R281): back to DETECT, but a port with dup_id stays in CAP. -/
def execCapTimeout (p : RhPort) (s : State) : Answer :=
  if s.get .rhState p.val = lnkCap ∧ s.flag .rhDupId p.val = false then .next (enterDetect s p.val) else .next s

/-- WIDEN_TIMEOUT (R280): the lanes ready by then, or the CAP lane alone (log entry 19). -/
def execWidenTimeout (p : RhPort) (s : State) : Answer :=
  if s.get .rhState p.val = lnkWiden then
    let x := s.port p.val
    let l := if x.ready = 0 then 2 ^ x.capLane.getD 0 else x.ready.toNat
    .next (nextStep (s.put .rhLanes p.val l) p.val)
  else .next s

/-- Send an ACTIVE port to RETRAIN (R280): RATE with code 0, the heartbeat rule suspended (R286). -/
def enterRetrain (s : State) (p : Nat) : State :=
  if linkActive s p then
    updateClk (((s.setPort p { s.port p with suspended := true }).put .rhState p lnkRetrain).emit (.rate p 0 15))
  else s

/-- RATE_RECEIVED (R282, R286): the step the partner announces; code 0 on an ACTIVE link begins its
retraining (log entry 19). -/
def execRateReceived (p : RhPort) (code : BitVec 8) (lanes : BitVec 4) (s : State) : Answer :=
  let x := s.port p.val
  let st := s.get .rhState p.val
  if st = lnkActive ∧ code = 0 then
    .next (enterDetect (s.setPort p.val { x with suspended := true }) p.val)
  else if (st = lnkWiden ∨ st = lnkStep) ∧ code.toNat ∈ stepCodes x.maxCode then
    let l := if s.get .rhLanes p.val = 0 then lanes.toNat else s.get .rhLanes p.val &&& lanes.toNat
    .next (sendTs (((s.setPort p.val { x with
      target := code.toNat, stepFrom := s.get .rhRate p.val, sweep := .empty, ready := 0 }).put .rhState p.val
        lnkStep).put .rhLanes p.val l) p.val l code.toNat)
  else .next s

/-- STEP_TIMEOUT (R282): the step fails, and the port tunes again at the previous code, to enter ACTIVE there once its
lanes are locked; where they do not lock there either it detects anew (log entry 19). -/
def execStepTimeout (p : RhPort) (s : State) : Answer :=
  if s.get .rhState p.val = lnkStep then
    let x := s.port p.val
    if x.failedCode.isSome then .next (enterDetect s p.val)
    else
      .next (sendTs (s.setPort p.val { x with
        failedCode := some x.target, target := x.stepFrom, sweep := .empty, ready := 0 }) p.val (s.get .rhLanes p.val)
          x.stepFrom)
  else .next s

/-- RETRAIN_END (R280). -/
def execRetrainEnd (p : RhPort) (s : State) : Answer :=
  if s.get .rhState p.val = lnkRetrain then .next (enterDetect s p.val) else .next s

/-- DOWN_END (R280): DETECT after 10 µs. -/
def execDownEnd (p : RhPort) (s : State) : Answer :=
  if s.get .rhState p.val = lnkDown then
    .next (enterDetect (s.setPort p.val { s.port p.val with lastGen := none }) p.val)
  else .next s

/-- RH_RETRAIN: PF0 writes retrain (R301). -/
def execRhRetrain (fn : Fn) (p : RhPort) (s : State) : Answer :=
  if fn.val = 0 then .next (enterRetrain s p.val) else .next s

/-! ### Heartbeats, SKP and SYNC (R278, R286, R287, R404) -/

/-- The state byte of a heartbeat (R278). -/
def hbStateByte (s : State) : Nat :=
  s.get .rhClkStratum 0 + s.get .rhClkLocked 0 * 8 + s.get .rhClkLockedTo 0 * 16

/-- HB_SEND (R278). -/
def execHbSend (p : RhPort) (s : State) : Answer :=
  if linkActive s p.val && s.mgmt.hold == .none then .next (s.emit (.hb p.val (s.get .rhGen 0) (hbStateByte s))) else .next s

/-- SKP_SEND (R278). -/
def execSkpSend (p : RhPort) (s : State) : Answer :=
  if s.get .rhState p.val = lnkDisabled then .next s else .next (s.emit (.skp p.val))

/-- SYNC_SEND (R278): the count advances by one per SYNC. -/
def execSyncSend (p : RhPort) (s : State) : Answer :=
  if linkActive s p.val then
    let x := s.port p.val
    .next ((s.setPort p.val { x with syncCount := x.syncCount + 1 }).emit (.sync p.val x.syncCount.toNat))
  else .next s

/-- SYNC_RECEIVED (R404): consecutive sets are counted towards a trim window of 100 intervals. -/
def execSyncReceived (p : RhPort) (count : BitVec 16) (s : State) : Answer :=
  if linkActive s p.val then
    let x := s.port p.val
    let run := if x.rxSync = some (count - 1) then min 100 (x.syncRun + 1) else 0
    .next (s.setPort p.val { x with rxSync := some count, syncRun := run })
  else .next s

/-- Whether a port's link layer runs: ACTIVE, and no reset holds the module (R287). -/
def linkRuns (s : State) (p : Nat) : Bool := linkActive s p && s.mgmt.hold == .none

/-- HB_RECEIVED (R286, R287, R289): a changed gen takes an ACTIVE link down; a new gen with the lanes still
locked returns a port from DOWN to ACTIVE. -/
def execHbReceived (p : RhPort) (gen : BitVec 8) (st : BitVec 8) (s : State) : Answer :=
  let x := s.port p.val
  if s.mgmt.hold != .none then .next s
  else if linkActive s p.val then
    if x.lastGen.isSome ∧ x.lastGen ≠ some gen then .next (linkDown s p.val)
    else .next (updateClk (s.setPort p.val { x with lastGen := some gen, hbState := st, hbSeen := true }))
  else if s.get .rhState p.val = lnkDown ∧ s.get .rhLanes p.val ≠ 0 ∧ x.lastGen ≠ some gen then
    .next (enterActive ((clearLink s p.val).setPort p.val
      { (clearLink s p.val).port p.val with lastGen := some gen, hbState := st, hbSeen := true }) p.val)
  else .next s

/-- HB_TIMEOUT (R286); while a reset holds the module its lanes stay trained (R287). -/
def execHbTimeout (p : RhPort) (s : State) : Answer :=
  if linkRuns s p.val then .next (linkDown s p.val) else .next s

/-- SUSPENSION_TIMEOUT (R286): beyond 1 ms the link is down; a DISABLED port stays so. -/
def execSuspensionTimeout (p : RhPort) (s : State) : Answer :=
  if !(s.port p.val).suspended || linkActive s p.val then .next s
  else if s.get .rhState p.val = lnkDisabled then .next ((linkDown s p.val).put .rhState p.val lnkDisabled)
  else .next (linkDown s p.val)

/-! ### Sequence numbers and replay (R284, R285) -/

/-- The signed difference of sequence numbers (R284). -/
def seqDiff (a b : Nat) : Int := (((a : Int) - b + 2048) % 4096) - 2048

/-- One NAK carrying expected - 1, none until a good packet is accepted (R284). -/
def sendNak (s : State) (p : Nat) : State :=
  let x := s.port p
  if x.nakSent then s
  else (s.setPort p { x with nakSent := true }).emit (.nak p ((x.rxExpected + 4095) % 4096))

/-- An ACK packet carrying expected - 1 (R284). -/
def sendAck (s : State) (p : Nat) : State :=
  let x := s.port p
  (s.setPort p { x with ackDue := false, accepted := 0 }).emit (.ack p ((x.rxExpected + 4095) % 4096))

/-- An acknowledgement frees the packets up to it (R285); outside the range it is counted. -/
def acknowledge (s : State) (p n : Nat) : State :=
  let x := s.port p
  match x.unacked.findIdx? (fun k => k.hdr.seq.toNat == n) with
  | none => s.bump .rhCodeErr p
  | some i =>
    drainPort (s.setPort p { x with unacked := x.unacked.drop (i + 1), resends := 0 }) p

/-- Resend the packets of a list, oldest first; a second replay of the same cycle is none (R285). -/
def resend (s : State) (p : Nat) (l : List Packet) : State :=
  l.foldl (fun s k => s.emit (.packet p k)) (s.setPort p { s.port p with replayAt := some s.clk })

/-- Whether a port has replayed in this cycle already (R285). -/
def replayedNow (s : State) (p : Nat) : Bool := (s.port p).replayAt == some s.clk

/-- Resend every packet that is not acknowledged; the oldest having been resent four times in a row, the port retrains
(R285). -/
def resendAll (s : State) (p : Nat) : State :=
  let x := s.port p
  if 4 ≤ x.resends then enterRetrain s p else resend (s.setPort p { x with resends := x.resends + 1 }) p x.unacked

/-- A NAK resends every packet after the one it names (R285), unless a replay has run in the same cycle. -/
def negative (s : State) (p n : Nat) : State :=
  let x := s.port p
  match x.unacked with
  | [] => s.bump .rhCodeErr p
  | k :: _ =>
    if (n + 1) % 4096 = k.hdr.seq.toNat then (if replayedNow s p then s else resendAll s p)
    else
      match x.unacked.findIdx? (fun k => k.hdr.seq.toNat == n) with
      | none => s.bump .rhCodeErr p
      | some i => if replayedNow s p then s else resend s p (x.unacked.drop (i + 1))

/-- ACK (R285). -/
def execAck (p : RhPort) (seq : BitVec 12) (s : State) : Answer :=
  if linkRuns s p.val then .next (acknowledge s p.val seq.toNat) else .next s

/-- NAK (R285). -/
def execNak (p : RhPort) (seq : BitVec 12) (s : State) : Answer :=
  if linkRuns s p.val then .next (negative s p.val seq.toNat) else .next s

/-- ACK_TIMER (R284). -/
def execAckTimer (p : RhPort) (s : State) : Answer :=
  if linkRuns s p.val && (s.port p.val).ackDue then .next (sendAck s p.val) else .next s

/-- REPLAY_TIMEOUT (R285): everything is resent and counted; after four resends the port retrains. -/
def execReplayTimeout (p : RhPort) (s : State) : Answer :=
  let x := s.port p.val
  if !linkRuns s p.val || x.unacked.isEmpty || replayedNow s p.val then .next s
  else .next (resendAll (if 4 ≤ x.resends then s else s.bump .rhReplay p.val) p.val)

/-- PACKET_CRC_ERROR (R284). -/
def execPacketCrcError (p : RhPort) (s : State) : Answer :=
  if linkRuns s p.val then .next (sendNak (s.bump .rhCrcErr p.val) p.val) else .next s

/-- DUPLICATE_PACKET (R284): an old sequence number is answered with an ACK. -/
def execDuplicatePacket (p : RhPort) (seq : BitVec 12) (s : State) : Answer :=
  if linkRuns s p.val && decide (seqDiff seq.toNat (s.port p.val).rxExpected < 0) then
    .next (sendAck s p.val)
  else .next s

/-- A data packet arrives (R284): delivered in order, discarded with a NAK ahead of it, acknowledged again when
old. -/
def receive (s : State) (p : Nat) (h : PktHdr) (deliver : State → State) : State :=
  if !linkRuns s p then s
  else
    let x := s.port p
    let d := seqDiff h.seq.toNat x.rxExpected
    if d < 0 then sendAck s p
    else if 0 < d then sendNak s p
    else
      let s1 := s.setPort p { x with
        rxExpected := (x.rxExpected + 1) % 4096, nakSent := false, accepted := x.accepted + 1,
        ackDue := true }
      let s2 := match h.ack with
        | some a => acknowledge s1 p a.toNat
        | none => s1
      let s3 := if 16 ≤ (s2.port p).accepted then sendAck s2 p else s2
      deliver s3

/-! ### Epoch agreement (R295, R296) -/

/-- The chase of this module that runs the forme a CTRL message names. -/
def ctrlChase (s : State) (m : CtrlMsg) : Option Nat :=
  (List.range 16).find? (fun n =>
    s.get .chState n == 3 &&
      (match (s.chase n).forme with
       | some f => f.impo.isSome && f.id == m.formeId.toNat &&
           f.digest.toNat % 2 ^ 128 == m.digest.toNat
       | none => false))

/-- One module as a mask. -/
def oneModule (m : Nat) : BitVec 16 := maskOf (fun i => i == m)

/-- A JOIN (R295): the sender has joined; the leader proposes. -/
def onJoin (s : State) (m : CtrlMsg) : State :=
  match ctrlChase s m with
  | none => s
  | some n =>
    let c := s.chase n
    let b := oneModule m.sender.toNat
    setRole (wantPropose (s.setChase n { c with joined := c.joined ||| b, lost := c.lost &&& ~~~b }) n) n

/-- A PROPOSE (R295): a module in the mask whose chase runs this forme answers ACCEPT; between two proposals the
lower-numbered module's goes on (log entry 99). -/
def onPropose (s : State) (m : CtrlMsg) : State :=
  match ctrlChase s m with
  | none => s
  | some n =>
    let c := s.chase n
    if !inMask m.mask (ownModule s) || (c.proposal.isSome && decide (ownModule s < m.sender.toNat)) then s
    else sendCtrl (s.setChase n { c with proposal := none }) m.sender.toNat (ctrlMsg s n 3 m.epoch.toNat m.mask)

/-- An ACCEPT (R295): when every module of the mask has answered, the leader commits. -/
def onAccept (s : State) (m : CtrlMsg) : State :=
  match ctrlChase s m with
  | none => s
  | some n =>
    let c := s.chase n
    match c.proposal with
    | none => s
    | some pr =>
      if pr.epoch = m.epoch.toNat then
        let acc := pr.accepted ||| oneModule m.sender.toNat
        let s1 := s.setChase n { c with proposal := some { pr with accepted := acc } }
        if pr.mask &&& ~~~(acc ||| oneModule (ownModule s)) = 0 then commitEpoch s1 n pr.epoch pr.mask
        else s1
      else s

/-- A COMMIT (R296): the epoch is pending until the next item boundary; items opened under one committed before it keep
its mask. -/
def onCommit (s : State) (m : CtrlMsg) : State :=
  match ctrlChase s m with
  | none => s
  | some n =>
    let c := s.chase n
    let prev := match c.pendEpoch with
      | some e => c.prevEpochs.set e.1 e.2
      | none => c.prevEpochs
    s.setChase n { c with pendEpoch := some (m.epoch.toNat, m.mask), prevEpochs := prev, proposal := none }

/-- An UNREACH (R292, R295). -/
def onUnreach (s : State) (m : CtrlMsg) : State :=
  let mask := m.mask &&& ~~~oneModule (ownModule s)
  modulesLost s mask (fun x => inMask mask x.hdr.dstMod.toNat) true

/-- A CTRL packet at its destination, by its op (R295); other ops do nothing. -/
def onCtrl (s : State) (m : CtrlMsg) : State :=
  match m.op.toNat with
  | 1 => onJoin s m
  | 2 => onPropose s m
  | 3 => onAccept s m
  | 4 => onCommit s m
  | 5 => onUnreach s m
  | _ => s

/-! ### Packets (R288, R292, R293) -/

/-- An undeliverable packet (R288): counted; a SORT is answered with NO_EXPERT. -/
def undeliverable (s : State) (body : PktBody) : State :=
  let s1 := s.bump .rhUnroutable 0
  match body with
  | .sort h _ => sendReply s1 h cNoExpert []
  | _ => s1

/-- Forward a packet for another module (R288): one hop fewer, towards an ACTIVE port. -/
def forward (s : State) (h : PktHdr) (body : PktBody) : State :=
  if h.hops = 0 then undeliverable s body
  else
    match routePort s h.dest.toNat with
    | some o =>
      if linkServes s o then sendThrough s o ⟨{ h with hops := h.hops - 1 }, body⟩ else undeliverable s body
    | none => undeliverable s body

/-- A packet at this module (R288): delivered when it is the destination, forwarded when not. -/
def route (s : State) (h : PktHdr) (body : PktBody) : State :=
  if h.dest.toNat = ownModule s then
    match body with
    | .sort hd d => deliverSort s hd d
    | .reply hd d => acceptReply s hd d
    | .ctrl m => onCtrl s m
  else forward s h body

/-- A packet arrives whole and checked (R283, R284): one longer than a payload may be has broken framing, a type byte that
is not its own kind's is counted and discarded. -/
def arrive (s : State) (p : Nat) (h : PktHdr) (body : PktBody) : State :=
  if !linkRuns s p then s
  else if 2112 < bodyBytes body then sendNak (s.bump .rhCrcErr p) p
  else if h.ptype.toNat ≠ bodyType body then s.bump .rhCodeErr p
  else receive s p h (fun s => route s h body)

/-- PACKET_FORWARD (R288). -/
def execPacketForward (p : RhPort) (pkt : Packet) (s : State) : Answer :=
  .next (arrive s p.val pkt.hdr pkt.body)

/-- SORT (R293). -/
def execSort (p : RhPort) (hdr : PktHdr) (h : SortHdr) (payload : List Byte) (s : State) : Answer :=
  .next (arrive s p.val hdr (.sort h payload))

/-- REPLY (R292). -/
def execReply (p : RhPort) (hdr : PktHdr) (h : SortHdr) (payload : List Byte) (s : State) : Answer :=
  .next (arrive s p.val hdr (.reply h payload))

/-- JOIN (R295). -/
def execJoin (p : RhPort) (hdr : PktHdr) (m : CtrlMsg) (s : State) : Answer :=
  .next (arrive s p.val hdr (.ctrl { m with op := 1 }))

/-- PROPOSE (R295). -/
def execPropose (p : RhPort) (hdr : PktHdr) (m : CtrlMsg) (s : State) : Answer :=
  .next (arrive s p.val hdr (.ctrl { m with op := 2 }))

/-- ACCEPT (R295). -/
def execAccept (p : RhPort) (hdr : PktHdr) (m : CtrlMsg) (s : State) : Answer :=
  .next (arrive s p.val hdr (.ctrl { m with op := 3 }))

/-- COMMIT (R296). -/
def execCommit (p : RhPort) (hdr : PktHdr) (m : CtrlMsg) (s : State) : Answer :=
  .next (arrive s p.val hdr (.ctrl { m with op := 4 }))

/-- UNREACH (R292, R295). -/
def execUnreach (p : RhPort) (hdr : PktHdr) (m : CtrlMsg) (s : State) : Answer :=
  .next (arrive s p.val hdr (.ctrl { m with op := 5 }))

/-- ACCEPT_TIMEOUT (R295): who has not answered is dropped from the mask, and the leader proposes again. -/
def execAcceptTimeout (n : ChaseNo) (s : State) : Answer :=
  let c := s.chase n.val
  match c.proposal with
  | none => .next s
  | some pr =>
    let silent := pr.mask &&& ~~~(pr.accepted ||| oneModule (ownModule s))
    .next (wantPropose (s.setChase n.val { c with
      proposal := none, joined := c.joined &&& ~~~silent, lost := c.lost ||| silent }) n.val)

/-- EPOCH_APPLY (R296): the committed epoch becomes current. -/
def execEpochApply (n : ChaseNo) (s : State) : Answer :=
  let c := s.chase n.val
  match c.pendEpoch with
  | none => .next s
  | some e =>
    let s1 := s.setChase n.val { c with
      pendEpoch := none, joined := c.joined ||| e.2,
      prevEpochs := c.prevEpochs.set (s.get .rhEpoch n.val) (presentMask s n.val) }
    let s2 := (s1.put .rhEpoch n.val e.1).put .rhPresent n.val e.2.toNat
    .next (setRole (if inMask e.2 (ownModule s) then s2.put .rhJoining n.val 0 else s2) n.val)

/-- PROPOSE_INTERVAL_END (R295): a deferred proposal is sent. -/
def execProposeIntervalEnd (n : ChaseNo) (s : State) : Answer :=
  let c := s.chase n.val
  let s1 := s.setChase n.val { c with proposeHold := false, proposeDue := false }
  if c.proposeDue then .next (wantPropose s1 n.val) else .next s1

end Sys2Proof.Machine
end

