-- ==== Sys2Proof/Machine/Loader.lean ====
section
/-! DEFINITION. Forme images: their layout and the loader's checks in the order of R185 (R89, R108, R120, R133,
R170 to R178, R186, R294, R435, R465 to R468). -/

namespace Sys2Proof.Machine

/-! ### Fields of an image (R173, R174) -/

/-- A little-endian field of `n` bytes at an offset of the image staged at `a`. -/
def imgNum (s : State) (a o n : Nat) : Nat := memNat s.lpddr (a + o) n

/-- Whether the bytes `[lo, hi)` of an image are all 0. -/
def imgZero (s : State) (a lo hi : Nat) : Bool :=
  (List.range (hi - lo)).all (fun i => memRead s.lpddr (a + lo + i) == 0)

/-- Entry `i` of the section table (R174). -/
def sectionAt (s : State) (a i : Nat) : Section :=
  let o := 0x100 + 16 * i
  { ty := imgNum s a o 1, core := imgNum s a (o + 1) 1, placement := imgNum s a (o + 2) 1,
    flags := imgNum s a (o + 3) 1, offset := imgNum s a (o + 4) 4, size := imgNum s a (o + 8) 4,
    dest := imgNum s a (o + 12) 4 }

/-- The section table. -/
def sectionsAt (s : State) (a : Nat) : List Section :=
  (List.range (imgNum s a 0x24 2)).map (sectionAt s a)

/-- The first section of a type. -/
def sectionOf (l : List Section) (ty : Nat) : Option Section := l.find? (fun x => x.ty == ty)

/-- The placement table (R176). -/
def placementsAt (s : State) (a : Nat) (sec : Section) : List Placement :=
  (List.range (sec.size / 48)).map (fun i =>
    let o := sec.offset + 48 * i
    { kind := imgNum s a o 1, answers := imgNum s a (o + 1) 1, lead := imgNum s a (o + 2) 1,
      bandCycles := imgNum s a (o + 4) 4, maxRate := imgNum s a (o + 8) 4, peak := imgNum s a (o + 12) 4,
      map := (List.range 32).map (fun l => imgNum s a (o + 16 + l) 1) })

/-- The imposition table (R294). -/
def impoAt (s : State) (a : Nat) (sec : Section) : Impo :=
  let o := sec.offset
  { participants := BitVec.ofNat 16 (imgNum s a (o + 8) 2), proof := bitAt (imgNum s a (o + 10) 1) 0,
    outLen := imgNum s a (o + 12) 2,
    experts := (List.range (imgNum s a (o + 6) 2)).map (fun e =>
      ⟨imgNum s a (o + 0x20 + 4 * e) 1, imgNum s a (o + 0x21 + 4 * e) 1, imgNum s a (o + 0x22 + 4 * e) 1 == 1⟩) }

/-- The forme an image describes (R173). -/
def formeAt (s : State) (a : Nat) : Forme :=
  let secs := sectionsAt s a
  let size := imgNum s a 0x20 4
  { id := imgNum s a 0x18 4, build := imgNum s a 0x1C 4, level := imgNum s a 0x08 1, caps := imgNum s a 0x0C 4,
    bandLines := imgNum s a 0x30 2, reprime := imgNum s a 0x32 2, exitBase := imgNum s a 0x28 4, addr := a,
    size := size, digest := Config.sha384 (memBytes s.lpddr a size), sections := secs,
    placements := ((sectionOf secs 0x01).map (placementsAt s a)).getD [],
    impo := (sectionOf secs 0x0A).map (impoAt s a) }

/-! ### Reason 0x01: the layout (R173 to R175, R294, R465 to R468) -/

/-- The types of R175, and those a forme holds exactly one of. -/
def typesKnown : List Nat := [1, 2, 3, 4, 5, 6, 7, 8, 9, 0x0A, 0x0F]

/-- How often a type occurs. -/
def countTy (l : List Section) (ty : Nat) : Nat := (l.filter (fun x => x.ty == ty)).length

/-- Section counts of R175; the early-exit head's absence is reason 0x0B. -/
def countsBad (l : List Section) : Bool :=
  [1, 4, 5, 6, 8, 0x0F].any (fun t => countTy l t != 1) || [2, 3].any (fun t => countTy l t == 0) ||
    [7, 9, 0x0A].any (fun t => decide (1 < countTy l t))

/-- Whether any two sections share a byte. -/
def overlapping : List Section → Bool
  | [] => false
  | x :: xs =>
    xs.any (fun y => decide (x.offset < y.offset + y.size) && decide (y.offset < x.offset + x.size)) || overlapping xs

/-- Header and section table (R173, R174). -/
def headerBad (s : State) (a size : Nat) : Bool :=
  let n := imgNum s a 0x24 2
  let secs := sectionsAt s a
  let last := sectionAt s a (n - 1)
  decide (size < 0x100) || imgNum s a 0 4 != 0x454D5246 || imgNum s a 4 2 != 1 || imgNum s a 6 2 != 256 ||
    !imgZero s a 9 0x0C || !imgZero s a 0x38 0x100 || imgNum s a 0x20 4 != size || decide (2 ^ 30 < size) ||
    decide (n < 2) || decide (512 < n) || decide (size < 0x100 + 16 * n) ||
    decide (imgNum s a 0x30 2 < 16) || decide (256 < imgNum s a 0x30 2) ||
    secs.any (fun x => !typesKnown.contains x.ty || decide (8 ≤ x.flags) || x.offset % 64 != 0 ||
      decide (x.offset < 0x100 + 16 * n) || decide (size < x.offset + x.size)) ||
    overlapping secs || countsBad secs || last.ty != 0x0F || last.size != 128 || last.offset + 128 != size

/-- Where each kerf record begins (R466); none once a record leaves the section. -/
def kerfRecords (s : State) (a stop : Nat) : Nat → Nat → Option (List Nat)
  | 0, _ => some []
  | n + 1, o =>
    let layers := imgNum s a (o + 4) 1
    let next := (o + 8 + 4 * layers + 7) / 8 * 8
    if stop < o + 8 ∨ layers = 0 ∨ 64 < layers ∨ stop < next ∨ !imgZero s a (o + 5) (o + 8) ∨
        !imgZero s a (o + 8 + 4 * layers) next then none
    else (kerfRecords s a stop n next).map (fun l => o :: l)

/-- The records of a kerf table section. -/
def kerfTable (s : State) (a : Nat) (x : Section) : Option (List Nat) :=
  kerfRecords s a (x.offset + x.size) (imgNum s a x.offset 2) (x.offset + 16)

/-- Layout of one table section (R176, R294, R465 to R468). -/
def tableBad (s : State) (a places : Nat) (x : Section) : Bool :=
  let o := x.offset
  match x.ty with
  | 0x01 => x.size == 0 || x.size % 48 != 0
  | 0x04 =>
    let banks := imgNum s a o 2
    let per := imgNum s a (o + 2) 2
    decide (x.size < 16 + 32 * banks * per) || banks != places || per == 0 || decide (4096 < per) ||
      !imgZero s a (o + 4) (o + 16)
  | 0x05 => decide (x.size < 16) || !imgZero s a (o + 2) (o + 16) || (kerfTable s a x).isNone
  | 0x06 =>
    let n := imgNum s a o 2
    decide (x.size < 16 + 16 * n) || !imgZero s a (o + 4) (o + 16) ||
      (List.range n).any (fun i =>
        let e := o + 16 + 16 * i
        decide (3 < imgNum s a (e + 5) 1) || !imgZero s a (e + 6) (e + 8) || !imgZero s a (e + 12) (e + 16))
  | 0x08 =>
    let n := imgNum s a o 2
    decide (x.size < 16 + 16 * n) || !imgZero s a (o + 2) (o + 16) ||
      (List.range n).any (fun i =>
        let e := o + 16 + 16 * i
        let runs := imgNum s a (e + 4) 4
        let first := imgNum s a (e + 8) 4
        !imgZero s a (e + 3) (e + 4) || !imgZero s a (e + 12) (e + 16) || first % 4 != 0 ||
          decide (x.size < first + 12 * runs) ||
          (List.range runs).any (fun j =>
            imgNum s a (o + first + 12 * j + 4) 4 == 0 || !imgZero s a (o + first + 12 * j + 10) (o + first + 12 * j + 12)))
  | 0x0A =>
    let e := imgNum s a (o + 6) 2
    decide (x.size < 32 + 4 * e) || imgNum s a o 4 != 0x4F504D49 || imgNum s a (o + 4) 2 != 1 || e == 0 ||
      decide (256 < e) || decide (2 ≤ imgNum s a (o + 10) 1) || imgNum s a (o + 12) 2 == 0 ||
      decide (512 < imgNum s a (o + 12) 2)
  | _ => false

/-- Reason 0x01. -/
def layoutBad (s : State) (a size : Nat) : Bool :=
  headerBad s a size ||
    (let secs := sectionsAt s a
     let places := ((sectionOf secs 0x01).map (fun x => x.size / 48)).getD 0
     secs.any (tableBad s a places))

/-! ### Reason 0x03: the signature (R178, R392) -/

/-- The key bytes of a slot: the vendor key, or a key of the key store (R392). -/
def keyBytes (s : State) (slot : Nat) : List Byte := if slot = 0 then Config.vendorKey else s.fuses.keys.get [] slot

/-- Whether a key slot is filled and not revoked. -/
def keyUsable (s : State) (slot : Nat) : Bool := bitAt (s.get .secFilled 0) slot && !bitAt (s.get .secRevoked 0) slot

/-- Whether a signature block at an offset of the image at `a` is accepted (R178, R392). -/
def signatureGood (s : State) (a o : Nat) : Bool :=
  let slot := imgNum s a (o + 6) 2
  imgNum s a o 4 == 0x4E474953 && imgNum s a (o + 4) 2 == 1 && decide (slot ≤ 6) && keyUsable s slot &&
    imgNum s a (o + 8) 4 == o &&
    Config.ecdsaVerify (keyBytes s slot) (memBytes s.lpddr a o) (memBytes s.lpddr (a + o + 16) 96)

/-- Whether the lifecycle accepts an image that fails its signature: BLANK and OPEN (R392). -/
def unsignedOk (s : State) : Bool := decide (s.get .secLifecycle 0 ≤ 1)

/-- An unsigned image was accepted (R392). -/
def noteUnsigned (s : State) (n : Nat) : State :=
  logEvent (s.put .secUnsigned 0 1) 0x0050 (srcBlock 2) 1 [n, 0, 0, 0]

/-! ### The code and the descriptors of an image -/

/-- A path of the deadline table (R467): its index of entry, that of its last V-class instruction, placement, kind and
cost. -/
structure Path467 where
  entry     : Nat
  stop      : Nat
  placement : Nat
  kind      : Nat
  cost      : Nat
  deriving DecidableEq, Repr

/-- The paths of the deadline table of an image at `a` (R177, R467). -/
def pathsAt (s : State) (a : Nat) (secs : List Section) : List Path467 :=
  match sectionOf secs 0x06 with
  | none => []
  | some x =>
    (List.range (imgNum s a x.offset 2)).map (fun i =>
      let e := x.offset + 16 + 16 * i
      ⟨imgNum s a e 2, imgNum s a (e + 2) 2, imgNum s a (e + 4) 1, imgNum s a (e + 5) 1, imgNum s a (e + 8) 4⟩)

/-- Instructions of a section: all of an instruction section; of the early-exit head, which holds a program and weights
(R175), the indices up to the last V-class instruction of its early-exit paths (log entry 92). -/
def codeLength (s : State) (a : Nat) (secs : List Section) (x : Section) : Nat :=
  let n := x.size / 16
  if x.ty = 7 then
    ((pathsAt s a secs).filter (fun p => p.kind == 1 && decide (x.dest ≤ p.entry) && decide (p.entry < x.dest + n))).foldl
      (fun m p => max m (min n (p.stop + 1 - x.dest))) 0
  else n

/-- The instructions of an instruction section or of the early-exit head. -/
def codeOf (s : State) (a : Nat) (secs : List Section) (x : Section) : List Op :=
  (List.range (codeLength s a secs x)).map (fun i => opOf (BitVec.ofNat 128 (imgNum s a (x.offset + 16 * i) 16)))

/-- Whether an instruction is a COMBINE. -/
def isCombine (o : Op) : Bool := o.cls == 4 && o.opcode == 4

/-- The sections that hold code: instruction sections and the early-exit head. -/
def codeSections (f : Forme) : List Section := f.sections.filter (fun x => x.ty == 2 || x.ty == 7)

/-- Whether a section holds line-sequencer code. -/
def Section.isLine (x : Section) : Bool := x.ty == 7 || bitAt x.flags 2

/-- Every descriptor of the descriptor table, with its bank. -/
def tableDescs (s : State) (f : Forme) : List (Nat × Desc) :=
  match sectionOf f.sections 0x04 with
  | none => []
  | some x =>
    let per := imgNum s f.addr (x.offset + 2) 2
    (List.range (f.placements.length * per)).filterMap (fun i =>
      let v := imgNum s f.addr (x.offset + 16 + 32 * i) 32
      if v = 0 then none else some (i / per, descOf (BitVec.ofNat 256 v)))

/-! ### Reasons 0x04 to 0x0E -/

/-- The space of entry `i` of a bank of the descriptor table. -/
def tableSpace (s : State) (f : Forme) (b i : Nat) : Option Nat :=
  match sectionOf f.sections 0x04 with
  | none => none
  | some x =>
    let per := imgNum s f.addr (x.offset + 2) 2
    if per ≤ i then none
    else some (descOf (BitVec.ofNat 256 (imgNum s f.addr (x.offset + 16 + 32 * (b * per + i)) 32))).space

/-- Capability bits an opcode needs by itself (R171). -/
def opCaps (o : Op) : List Nat :=
  match o.cls, o.opcode with
  | 2, 0x0B => [3]
  | 1, 0x04 => [4]
  | 3, 0x03 => [5]
  | 5, 0x03 => [9]
  | _, _ => []

/-- Capability bits a descriptor needs (R171). -/
def descCaps (d : Desc) : List Nat :=
  (if d.code = 7 ∨ d.code = 8 then [0] else []) ++ (if d.code = 4 ∨ d.code = 12 then [1] else []) ++
    (if d.grouped ∧ (d.code = 5 ∨ d.code = 7) then [2] else []) ++ (if d.layout = 2 then [4] else [])

/-- Reason 0x04 (R170 to R172): the level, the mask, and what the code uses beyond them. -/
def capsBad (s : State) (n : Nat) (f : Forme) : Bool :=
  let ops := (codeSections f).flatMap (codeOf s f.addr f.sections)
  let need := ops.flatMap opCaps ++ (tableDescs s f).flatMap (fun e => descCaps e.2) ++
    (if 1 < ((s.chase n).cores.map clusterOf).dedup.length then [7] else []) ++
    (match f.impo with
     | none => []
     | some i => (if i.proof && ops.any isCombine then [6] else []) ++
        (if i.experts.any (fun e => e.homeMod != ownModule s) then [8] else []))
  f.level == 0 || decide (2 < f.level) || decide (0x400 ≤ f.caps) ||
    (f.level == 1 && (decide (0 < f.caps % 256) ||
      ops.any (fun o => o.cls == 6 && (o.opcode == 2 || (o.opcode == 4 && o.sub % 4 == 2))))) ||
    need.any (fun b => !bitAt f.caps b)

/-- Engine slots code needs: one past the highest named in an emask. -/
def slotsNeeded (l : List Op) : Nat :=
  l.foldl (fun m o => if isEngineOp o then
    max m (((List.range 4).filter (bitAt o.emask)).foldl (fun _ e => e + 1) 0) else m) 0

/-- Slots a logical core's stream programs need in a placement. -/
def streamSlots (s : State) (f : Forme) (pi l : Nat) : Nat :=
  slotsNeeded ((f.sections.filter (fun x => x.ty == 2 && !x.isLine && x.core == l &&
    (x.placement == pi || x.placement == 0xFF))).flatMap (codeOf s f.addr f.sections))

/-- Whether every engine slot a placement's programs name exists (R435); standby cores are judged when they are
selected. -/
def enginesOk (s : State) (n : Nat) (f : Forme) : Bool :=
  let c := s.chase n
  f.placements.zipIdx.all (fun e =>
    (List.range 32).all (fun l =>
      let m := e.1.map.getD l 0xFF
      if 0xFE ≤ m then true
      else decide (m < c.cores.length) &&
        decide (streamSlots s f e.2 l ≤ s.get .fpcEngines (c.cores.getD m 0))))

/-- Whether `[lo, hi)` of a core's SRAM leaves the chase's region of it (R185). -/
def sramOutside (r : Regions) (lo hi : Nat) : Bool :=
  decide (lo < r.sramBase) || decide (r.sramBase + r.sramSize < hi)

/-- Whether a descriptor's extent leaves the chase's region of its space (R185): offsets of space 0 are the core's own,
those of spaces 1 to 3 the region's (R127). -/
def descOutside (r : Regions) (d : Desc) : Bool :=
  let hi := max (d.base + d.extent) d.scaleEnd
  match d.space with
  | 0 => sramOutside r (if d.scaled then min d.base d.scaleBase else d.base) hi
  | 1 => decide (r.sramSize < hi)
  | 2 => decide (r.galleySize < hi)
  | 3 => decide (r.lpddrSize < hi)
  | _ => false

/-- Reason 0x05. -/
def fitBad (s : State) (n : Nat) (f : Forme) : Bool :=
  let c := s.chase n
  imgNum s f.addr 0x26 2 != c.cores.length || !enginesOk s n f ||
    sramOutside c.regions f.exitBase (f.exitBase + 4096) ||
    f.sections.any (fun x => x.ty == 3 && sramOutside c.regions x.dest (x.dest + x.size)) ||
    (tableDescs s f).any (fun e => descOutside c.regions e.2)

/-- Reason 0x06 (R120): reserved fields; which tensors are rings or galleys is known only at issue, so the register
fields of class T and LD.T that this decides are not judged here. -/
def reservedBad (s : State) (f : Forme) : Bool :=
  (codeSections f).any (fun x => (codeOf s f.addr f.sections x).any (fun o =>
    match namedFields o true true with
    | some l => !reservedZero o l
    | none => false))

/-- Reason 0x07 (R133). -/
def rulesBad (s : State) (f : Forme) : Bool :=
  (codeSections f).any (fun x => !bitAt x.flags 0 && (codeOf s f.addr f.sections x).any (fun o =>
    (!x.isLine && o.cls == 0 && (o.opcode == 8 || o.opcode == 9) &&
      (o.pred != 0 || o.pinv || (o.opcode == 8 && bitAt o.sub 0))) ||
    (o.cls == 6 && o.opcode == 4) ||
    (o.cls == 0 && o.opcode == 4 &&
      (List.range f.placements.length).any (fun b => (x.placement == 0xFF || x.placement == b) &&
        tableSpace s f b (o.imm0 % 4096) == some 3))))

/-- The kerf sum of R89 over (k, s) pairs. -/
def kerfSum : List (Nat × Nat) → Nat → Nat
  | [], _ => 0
  | (k, st) :: l, prod => (k - 1 + 1) / 2 * prod + kerfSum l (prod * st)

/-- Reason 0x08 (R466): kerf and lag agree with R89. -/
def kerfBad (s : State) (f : Forme) : Bool :=
  match (sectionOf f.sections 0x05).bind (kerfTable s f.addr) with
  | none => true
  | some recs => recs.any (fun o =>
    let layer := fun i j => imgNum s f.addr (o + 8 + 4 * i + j) 1
    let n := imgNum s f.addr (o + 4) 1
    imgNum s f.addr o 2 != kerfSum ((List.range n).map (fun i => (layer i 0, layer i 1))) 1 ||
      imgNum s f.addr (o + 2) 2 != kerfSum ((List.range n).map (fun i => (layer i 2, layer i 3))) 1)

/-- Whether runs cover `[t, stop)` once, in order (R468). -/
def runsCover : List (Nat × Nat) → Nat → Nat → Bool
  | [], t, stop => t == stop
  | (start, len) :: l, t, stop => start == t && runsCover l (t + len) stop

/-- A run of a unit (R468). -/
structure Run where
  start : Nat
  len   : Nat
  kind  : Nat
  chase : Nat
  deriving DecidableEq, Repr

/-- A unit record with its runs (R468). -/
structure UnitRec where
  unit      : Nat
  placement : Nat
  runs      : List Run
  deriving DecidableEq, Repr

/-- The type of a unit word (R468): 0 engine slot, 1 vector unit, 2 port, 3 copy engine, 4 post-processing unit. -/
def UnitRec.ty (u : UnitRec) : Nat := u.unit / 4096

/-- The logical core or cluster of a unit word. -/
def UnitRec.place (u : UnitRec) : Nat := bitsAt u.unit 4 8

/-- The unit records of a forme's schedule table (R468). -/
def unitRecs (s : State) (f : Forme) : List UnitRec :=
  match sectionOf f.sections 0x08 with
  | none => []
  | some x =>
    let a := f.addr
    let o := x.offset
    (List.range (imgNum s a o 2)).map (fun i =>
      let e := o + 16 + 16 * i
      ⟨imgNum s a e 2, imgNum s a (e + 2) 1, (List.range (imgNum s a (e + 4) 4)).map (fun j =>
        let r := o + imgNum s a (e + 8) 4 + 12 * j
        ⟨imgNum s a r 4, imgNum s a (r + 4) 4, imgNum s a (r + 8) 1, imgNum s a (r + 9) 1⟩)⟩)

/-- The band schedule length of a placement. -/
def Forme.cyclesOf (f : Forme) (pi : Nat) : Nat := ((f.placements[pi]?).map (fun p => p.bandCycles)).getD 0

/-- The logical cores a placement uses. -/
def Placement.used (p : Placement) : List Nat := (List.range 32).filter (fun l => p.map.getD l 0xFF != 0xFF)

/-- Engine slots of a logical core in a placement: those of the core that serves it; of a standby core those its programs
name (R435). -/
def slotsIn (s : State) (n : Nat) (f : Forme) (pi : Nat) (p : Placement) (l : Nat) : Nat :=
  let m := p.map.getD l 0xFF
  if m = 0xFE then streamSlots s f pi l else s.get .fpcEngines ((s.chase n).cores.getD m 0)

/-- The cluster of the core that serves a logical core; a standby core lies in the cluster of the one lost (R186). -/
def clusterIn (s : State) (n : Nat) (f : Forme) (p : Placement) (l : Nat) : Nat :=
  let m := p.map.getD l 0xFF
  let primary := ((f.placements[0]?).map (fun q => q.map)).getD []
  clusterOf ((s.chase n).cores.getD (if m = 0xFE then primary.getD p.answers 0 else m) 0)

/-- The units of a placement, each of which has a record (R189, R468): for a core its engine slots, vector unit and ports,
for a cluster its copy engines and post-processing unit (floor-plan clusters; log entry 92). -/
def neededUnits (s : State) (n : Nat) (f : Forme) (pi : Nat) (p : Placement) : List Nat :=
  p.used.flatMap (fun l =>
    (List.range (slotsIn s n f pi p l)).map (fun e => 16 * l + e) ++
      [4096 + 16 * l, 2 * 4096 + 16 * l, 2 * 4096 + 16 * l + 1]) ++
  ((p.used.map (clusterIn s n f p)).dedup).flatMap (fun k =>
    [3 * 4096 + 16 * k, 3 * 4096 + 16 * k + 1, 4 * 4096 + 16 * k])

/-- Whether one unit record is refused (R468): reserved codes, a placement that is not there, runs that do not cover the
band once. -/
def recordBad (f : Forme) (u : UnitRec) : Bool :=
  decide (4 < u.ty) || decide ([3, 0, 1, 1, 0].getD u.ty 0 < u.unit % 16) || decide (f.placements.length ≤ u.placement) ||
    u.runs.any (fun r => decide (6 < r.kind) || (r.kind != 5 && r.chase != 0)) ||
    !runsCover (u.runs.map (fun r => (r.start, r.len))) 0 (f.cyclesOf u.placement)

/-- Whether starts lie at most `gap` cycles apart. -/
def spaced (gap : Nat) : List Nat → Bool
  | a :: b :: t => decide (b ≤ a + gap) && spaced gap (b :: t)
  | _ => true

/-- Whether an engine has its test slots (R108): one of 256 K1 cycles (64 K4) in every 65,536 K4 cycles, bands following
one another. -/
def tested (f : Forme) (u : UnitRec) : Bool :=
  let starts := (u.runs.filter (fun r => r.kind == 2 && decide (64 ≤ r.len))).map (fun r => r.start)
  match starts with
  | [] => false
  | a :: _ => spaced 65536 (starts ++ [a + f.cyclesOf u.placement])

/-- Whether a core is scrubbed (R190): in no 64 K4 cycles of the band is none of its units in a furniture or scrub slot. -/
def scrubbed (runs : List Run) (cycles : Nat) : Bool :=
  let free := runs.filter (fun r => r.kind == 1 || r.kind == 3)
  (0 :: free.map (fun r => r.start + r.len)).all (fun g =>
    decide (cycles < g + 64) || free.any (fun r => decide (r.start < g + 64) && decide (g < r.start + r.len)))

/-- Reason 0x09 (R108, R189, R190, R468): every unit of every placement declares its cycles once, with test and scrub
slots. -/
def scheduleBad (s : State) (n : Nat) (f : Forme) : Bool :=
  let us := unitRecs s f
  let key := fun (u : UnitRec) => (u.unit, u.placement)
  us.any (fun u => recordBad f u || decide (1 < (us.filter (fun v => key v == key u)).length) ||
      (u.ty == 0 && !tested f u)) ||
    f.placements.zipIdx.any (fun e =>
      (neededUnits s n f e.2 e.1).any (fun w => !us.any (fun u => u.unit == w && u.placement == e.2)) ||
        e.1.used.any (fun l => !scrubbed ((us.filter (fun u =>
          decide (u.ty ≤ 2) && u.place == l && u.placement == e.2)).flatMap (fun u => u.runs)) e.1.bandCycles))

/-- The numbers of a unit record, with the chase it belongs to. -/
def UnitRec.nums (n : Nat) (u : UnitRec) : List Nat :=
  n :: u.unit :: u.placement :: u.runs.flatMap (fun r => [r.start, r.len, r.kind, r.chase])

/-- Whether two chases use one unit through two records: the same copy engine or post-processing unit, or the galley store
through ports (R97, R131, R185). -/
def sharesUnit (u v : UnitRec) : Bool :=
  (decide (3 ≤ u.ty) && u.unit == v.unit) || (u.ty == 2 && v.ty == 2)

/-- Reason 0x0A (R97, R131, R468): the slots of the image collide with those of another chase's forme. -/
def slotsBad (s : State) (n : Nat) (f : Forme) : Bool :=
  (List.range 16).any (fun m =>
    m != n && (match (s.chase m).forme with
      | none => false
      | some g => (unitRecs s f).any (fun u => (unitRecs s g).any (fun v =>
          sharesUnit u v && Config.slotsCollide (u.nums n) (v.nums m)))))

/-- The ring depth a band redo needs of each layer of a stack (R200): its kernel height less one and its input lines of
the band, from the layers in order and the product of the strides before. -/
def depthsOf (band : Nat) : List (Nat × Nat) → Nat → List Nat
  | [], _ => []
  | (k, st) :: l, prod => (k - 1 + (band + prod - 1) / prod) :: depthsOf band l (prod * max 1 st)

/-- The ring depths a forme's stacks need (R200). -/
def depthsNeeded (s : State) (f : Forme) : List Nat :=
  match (sectionOf f.sections 0x05).bind (kerfTable s f.addr) with
  | none => []
  | some recs => recs.flatMap (fun o =>
    depthsOf f.bandLines ((List.range (imgNum s f.addr (o + 4) 1)).map (fun i =>
      (imgNum s f.addr (o + 8 + 4 * i + 2) 1, imgNum s f.addr (o + 8 + 4 * i + 3) 1))) 1)

/-- The rings of a bank of the descriptor table: place and depth. -/
def bankRings (s : State) (f : Forme) (b : Nat) : List (Nat × Nat) :=
  (((tableDescs s f).filter (fun e => e.1 == b && e.2.ring != 0)).map (fun e => (e.2.base, e.2.ring))).dedup

/-- Reason 0x0D (R200): in some bank there are not enough rings as deep as the layers need; which ring is which layer's is
not told by the image (log entry 6). -/
def ringsBad (s : State) (f : Forme) : Bool :=
  let need := depthsNeeded s f
  (List.range f.placements.length).any (fun b =>
    need.any (fun k => decide (((bankRings s f b).filter (fun r => decide (k ≤ r.2))).length <
      (need.filter (fun j => decide (k ≤ j))).length))) ||
  !Config.loaderCheck 0x0D (memBytes s.lpddr f.addr f.size)

/-- Reason 0x0E (R177, R467): each listed cost is compared with the schedule table. -/
def costsBad (s : State) (n : Nat) (f : Forme) : Bool :=
  (pathsAt s f.addr f.sections).any (fun p =>
    !Config.costAgrees [p.entry, p.stop, p.placement, p.kind, p.cost] ((unitRecs s f).map (UnitRec.nums n)))

/-- Cores that belong to a chase or are reserved as standby cores. -/
def coreTaken (s : State) (core : Nat) : Bool :=
  (List.range 16).any (fun n => ((s.chase n).cores ++ (s.chase n).standby).contains core)

/-- The standby cores of a forme's STANDBY entries, in ascending placement index (R186); none when an entry finds no
core. -/
def standbyCores (s : State) (n : Nat) (f : Forme) : Option (List Nat) :=
  let c := s.chase n
  let primary := ((f.placements[0]?).map (fun p => p.map)).getD []
  (f.placements.zipIdx.filter (fun e => e.1.kind == 2)).foldl (fun acc e =>
    acc.bind (fun got =>
      let lost := c.cores.getD (primary.getD e.1.answers 0xFF) 0
      let need := ((List.range 32).filter (fun l => e.1.map.getD l 0xFF == 0xFE)).foldl
        (fun m l => max m (streamSlots s f e.2 l)) 0
      ((List.range 32).find? (fun k => s.flag .fpcPresent k && !coreTaken s k && !got.contains k &&
        clusterOf k == clusterOf lost && decide (need ≤ s.get .fpcEngines k))).map (fun k => got ++ [k]))) (some [])

/-- Reason 0x0B (R175, R176, R186). -/
def placementsBad (s : State) (n : Nat) (f : Forme) : Bool :=
  (sectionOf f.sections 0x07).isNone ||
    (match f.placements with
     | [] => true
     | p :: ps => p.kind != 0 || ps.any (fun q => q.kind != 1 && q.kind != 2) ||
        (List.range 32).any (fun l => p.map.getD l 0xFF != 0xFF &&
          (ps.filter (fun q => q.answers == l)).length != 1)) ||
    (standbyCores s n f).isNone

/-- Reason 0x0C (R118). -/
def storeBad (s : State) (n : Nat) (f : Forme) : Bool :=
  let c := s.chase n
  (codeSections f).any (fun x => decide (0x20000 < 16 * x.dest + x.size)) ||
    f.sections.any (fun x => x.ty == 3 &&
      (decide (c.cores.length ≤ x.core) || sramOutside c.regions x.dest (x.dest + x.size)))

/-- The loader's first failure (R185, R294): code and first detail word. -/
def loaderRefusal (s : State) (n a size : Nat) : Option (Nat × Nat) :=
  if layoutBad s a size then some (cVersion, 0x01)
  else
    let f := formeAt s a
    let fw := s.get .fwVersion 0
    if fw < imgNum s a 0x10 4 ∨ imgNum s a 0x14 4 < fw then some (cVersion, 0x02)
    else if !signatureGood s a (size - 128) && !unsignedOk s then some (cSignature, 0x03)
    else if capsBad s n f then some (cCapability, 0x04)
    else if fitBad s n f then some (cCapability, 0x05)
    else if reservedBad s f then some (cCapability, 0x06)
    else if rulesBad s f then some (cCapability, 0x07)
    else if kerfBad s f then some (cCapability, 0x08)
    else if scheduleBad s n f then some (cCapability, 0x09)
    else if slotsBad s n f then some (cCapability, 0x0A)
    else if placementsBad s n f then some (cCapability, 0x0B)
    else if storeBad s n f then some (cCapability, 0x0C)
    else if ringsBad s f then some (cCapability, 0x0D)
    else if costsBad s n f then some (cCapability, 0x0E)
    else match f.impo with
      | none => none
      | some i =>
        if !inMask i.participants (ownModule s) ||
            i.experts.any (fun e => e.homeMod == ownModule s && e.homeChase != n) then
          some (cCapability, 0x20)
        else none

end Sys2Proof.Machine
end

