-- ==== Sys2Proof/Machine/Chases.lean ====
section
/-! DEFINITION. Chases and formes: creation, loading, patching, starting and stopping, loose sections and bandwidth
grants (R124, R141, R179 to R194). -/

namespace Sys2Proof.Machine

/-! ### Creation and deletion (R179, R181, R194, R204) -/

/-- Whether cores are a shape R179 allows: 1, 2, 4 or 8 cores of one cluster, or whole clusters. -/
def shapeOk (cores : List Nat) : Bool :=
  let clusters := (cores.map clusterOf).dedup
  ([1, 2, 4, 8].contains cores.length && clusters.length == 1) ||
    (decide (2 ≤ clusters.length) && cores.length == 8 * clusters.length)

/-- Create a chase (R179, R194, R204). -/
def createChase (s : State) (n owner : Nat) (cores : List Nat) (g : Regions) (lp ga rh : Nat) : State :=
  let s1 := ((((s.put .chPresent n 1).put .chFirstCore n (cores.headD 0)).put .chCoreCount n cores.length).put .chOwner
    n owner).put .chState n chEmpty
  let s2 := ((s1.put .bwCeilLpddr n lp).put .bwCeilGalley n ga).put .bwCeilRhasha n rh
  s2.setChase n { Chase.reset with
    cores := cores, regions := g, rates := ((Tab.empty.set 0 lp).set 1 ga).set 2 rh }

/-- CHASE_CREATE (R179, R181). -/
def execChaseCreate (r : Req) (n : ChaseNo) (owner : Fn) (cores : BitVec 32) (regions : Regions)
    (ceilLpddr ceilGalley ceilRhasha : Word) (s : State) : Answer :=
  .next (firmware s r false false (fun s => pf0Only r s (fun s =>
    let l := (List.range 32).filter (bitAt cores.toNat)
    if s.flag .chPresent n.val then answer s r cBusy []
    else if !shapeOk l then answer s r cCapability []
    else if l.any (coreTaken s) then answer s r cBusy []
    else if !l.all (fun c => s.flag .fpcPresent c) then answer s r cCapability []
    else answer (createChase s n.val owner.val l regions ceilLpddr.toNat ceilGalley.toNat ceilRhasha.toNat) r cOk [])))

/-- The registers of a chase without a forme (R205, R206). -/
def clearFormeRegs (s : State) (n : Nat) : State :=
  ((((((s.put .chPlacement n 0).put .chAltUsed n 0).put .chPatched n 0).put .formeId n 0).put .bandCycles n 0).put
    .failoverTime n 0).put .chProof n 0

/-- The pending patches are discarded: their commands complete RECEIVER_RESET. -/
def dropPatch (s : State) (n : Nat) : State :=
  let c := s.chase n
  c.patches.foldl (fun s p => answer s p.req cReceiverReset []) (s.setChase n { c with patches := [] })

/-- Every sequencer register 0, no item state beside the open items, no work under way (R124, R183), the rings before
their first line (R87). -/
def Chase.zeroed (c : Chase) : Chase :=
  { c with line := Seq.reset, streams := .empty, busy := [], band := none, dims := [], sorts := [], inbound := .empty,
           inOrder := [], bwWait := .empty, bwCred := .empty, seen := [], trapPeers := none, doomed := false }

/-! ### Copies that stop (R96, R117) -/

/-- The CE_STATUS index of the copy engine a unit is, if it is one. -/
def Busy.copyIndex (b : Busy) : Option Nat :=
  match b.unit with
  | .copy e => if b.furniture then none else some (2 * b.place + e.val)
  | _ => none

/-- A copy stops at a row boundary (R96): how many rows it has written is free; the rows after those stand as before. -/
def undoRows (s : State) (b : Busy) : State :=
  let kept := Config.freeValue s.free % (b.rows.length + 1)
  let t := (b.rows.drop kept).foldl (fun s r => s.setMem r.1 (memStore (s.memOf r.1) r.2.1 r.2.2)) s
  { t with free := t.free + 1 }

/-- Stop the copies of a chase that `hit` names (R96): the units are free again. -/
def stopCopies (s : State) (n : Nat) (hit : Busy → Bool) : State :=
  let x := s.chase n
  let gone := fun (b : Busy) => b.copyIndex.isSome && hit b
  (x.busy.filter gone).foldl undoRows (s.setChase n { x with busy := x.busy.filter (fun b => !gone b) })

/-- The copy engines at work for a chase on a copy that `hit` names. -/
def copiesOf (s : State) (n : Nat) (hit : Busy → Bool) : List Nat :=
  ((s.chase n).busy.filter hit).filterMap Busy.copyIndex

/-- CE_STATUS of copy engines whose copy has ended with a code (R117). -/
def endCopies (s : State) (engines : List Nat) (code : Nat) : State :=
  engines.foldl (fun s e => (s.put .ceBusy e 0).put .ceCode e code) s

/-- The copies of a chase that `hit` names stop and complete ISOLATED (R96). -/
def isolateCopies (s : State) (n : Nat) (hit : Busy → Bool) : State :=
  endCopies (stopCopies s n hit) (copiesOf s n hit) 1

/-- Take the forme out of a chase (R183, R185): sequencers zeroed, standby cores released, a trainer's feeder idle
(R275), EMPTY. -/
def dropForme (s : State) (n : Nat) : State :=
  let s1 := isolateCopies (dropPatch s n) n (fun _ => true)
  let c := s1.chase n
  let s2 := if c.trainer.isSome then s1.put .trnState n 0 else s1
  clearFormeRegs ((s2.setChase n { c.zeroed with
    forme := none, standby := [], load := none, failedOver := [], failPlace := none, trainer := none,
    dimsSlots := .empty }).put .chState n
      chEmpty) n

/-- CHASE_DELETE (R179, R181, R186, R418): its contexts are unbound first (log entry 28), BUSY while one is being reset
(R14). -/
def execChaseDelete (r : Req) (n : ChaseNo) (s : State) : Answer :=
  .next (firmware s r false false (fun s => pf0Only r s (fun s =>
    let k := n.val
    if !s.flag .chPresent k || (s.chase k).draining || (boundTo s k).any (fun c => (s.context c).resetting) ||
        !(s.get .chState k == chEmpty || s.get .chState k == chStopped) then answer s r cBusy []
    else
      let s1 := nextChaseGen (dropForme ((boundTo s k).foldl (fun s c => unbindContext s k c) s) k) k
      let s2 := ((((s1.put .chPresent k 0).put .chFirstCore k 0).put .chCoreCount k 0).put .chOwner k 0)
      let s3 := ((s2.put .bwCeilLpddr k 0).put .bwCeilGalley k 0).put .bwCeilRhasha k 0
      answer (s3.setChase k Chase.reset) r cOk [])))

/-! ### Copying an image (R183, R186) -/

/-- The logical core whose store a section goes to in a placement: the lead core for line-sequencer code. -/
def sectionCore (x : Section) (p : Placement) : Nat := if x.isLine then p.lead else x.core

/-- Copy one section for one placement into the stores of the core that serves it. -/
def copySection (s : State) (n : Nat) (f : Forme) (x : Section) (e : Placement × Nat) : State :=
  let c := s.chase n
  let l := sectionCore x e.1
  if !(x.placement == e.2 || x.placement == 0xFF) || e.1.map.getD l 0xFF == 0xFF then s
  else
    let core := servedIn c e.2 e.1 l
    let bytes := memBytes s.lpddr (f.addr + x.offset) x.size
    match x.ty with
    | 2 => { s with istore := memStore s.istore (istoreAddr core (16 * x.dest)) bytes }
    | 7 => { s with istore := memStore s.istore (istoreAddr core (16 * x.dest)) bytes }
    | 3 => { s with sram := memStore s.sram (sramAddr core x.dest) bytes }
    | _ => s

/-- Copy every instruction and weight section of the resident forme. -/
def copyImage (s : State) (n : Nat) : State :=
  match (s.chase n).forme with
  | none => s
  | some f => f.sections.foldl (fun s x => f.placements.zipIdx.foldl (fun s e => copySection s n f x e) s) s

/-- Clear the rings of the placement in use (R183): every tensor of its descriptor bank that is a ring in core SRAM,
its scale plane included; their first lines are still to come (R87). -/
def clearRings (s : State) (n : Nat) : State :=
  match (s.chase n).forme with
  | none => s
  | some f =>
    let c := s.chase n
    let bank := (tableDescs s f).filter (fun e => e.1 == s.get .chPlacement n && e.2.ring != 0 && decide (e.2.space ≤ 1))
    bank.foldl (fun s e =>
      (if e.2.space = 1 then [servingCore s n e.2.core] else c.cores ++ c.standby).foldl (fun s core =>
        let b := sramAddr core (if e.2.space = 1 then c.regions.sramBase else 0)
        let m := memZero s.sram (b + e.2.base) (b + e.2.base + e.2.extent)
        { s with sram := if e.2.scaled then memZero m (b + e.2.scaleBase) (b + e.2.scaleEnd) else m }) s)
      (s.setChase n { c with seen := [] })

/-! ### Program regions (R118, R136, R160, R174, R191) -/

/-- First and past-the-last instruction index of sections. -/
def regionOf (l : List Section) : Nat × Nat :=
  match l with
  | [] => (0, 0)
  | x :: xs => xs.foldl (fun r y => (min r.1 y.dest, max r.2 (y.dest + y.size / 16))) (x.dest, x.dest + x.size / 16)

/-- The code sections of a sequencer in a placement. -/
def programOf (f : Forme) (pi : Nat) (core : Option Nat) : List Section :=
  (codeSections f).filter (fun x => (x.placement == pi || x.placement == 0xFF) &&
    (match core with
     | none => x.isLine
     | some l => !x.isLine && x.core == l))

/-- The early-exit section: the paths of kind 1 of the deadline table (R160, R467). -/
def exitRegion (s : State) (f : Forme) : Nat × Nat :=
  match (pathsAt s f.addr f.sections).find? (fun p => p.kind == 1) with
  | none => (0, 0)
  | some p => (p.entry, p.stop + 1)

/-- A sequencer set as R124 does, at the first index of its program; without a program it stays idle. -/
def seqFor (l : List Section) (exit : Nat × Nat) : Seq :=
  if l.isEmpty then Seq.reset
  else
    let r := regionOf l
    { Seq.reset with
      pc := r.1, lo := r.1, hi := r.2, run := .running, exitLo := exit.1, exitHi := exit.2,
      loose := (l.filter (fun x => bitAt x.flags 0)).map (fun x => (x.dest, x.dest + x.size / 16)) }

/-- Set every sequencer of a chase to the start of its program in the placement in use. -/
def setSequencers (s : State) (n : Nat) : State :=
  let c := s.chase n
  match c.forme, placementNow s n with
  | some f, some p =>
    let pi := s.get .chPlacement n
    let cores := (List.range 32).filter (fun l => p.map.getD l 0xFF != 0xFF && !(programOf f pi (some l)).isEmpty)
    s.setChase n { c with
      line := seqFor (programOf f pi none) (exitRegion s f),
      streams := cores.foldl (fun t l => t.set l (seqFor (programOf f pi (some l)) (0, 0))) .empty }
  | _, _ => s

/-! ### Loading (R182, R185, R186) -/

/-- The registers that tell of a chase's forme (R205, R206). -/
def formeRegs : List Fld := [.chPlacement, .chAltUsed, .chPatched, .formeId, .bandCycles, .failoverTime, .chProof]

/-- The forme a load takes the place of, with its standby cores and registers (R12). -/
def priorForme (s : State) (n : Nat) : Option (Forme × List Nat × List Nat) :=
  (s.chase n).forme.map (fun f => (f, (s.chase n).standby, formeRegs.map (fun g => s.get g n)))

/-- A CHASE reset in the cycle in which a load was accepted is performed first (R12): the forme the load took the place of
is there for it. -/
def restorePrior (s : State) (n : Nat) : State :=
  match (s.chase n).load with
  | some l =>
    match l.prior with
    | some p =>
      if l.clk = s.clk then
        (formeRegs.zip p.2.2).foldl (fun s e => s.put e.1 n e.2)
          (s.setChase n { s.chase n with forme := some p.1, standby := p.2.1 })
      else s
    | none => s
  | none => s

/-- FORME_LOAD (R181, R182, R185): accepted, the old forme is gone and the loader checks the image. -/
def execFormeLoad (r : Req) (n : ChaseNo) (addr size : Nat) (s : State) : Answer :=
  .next (firmware s r false false (fun s =>
    let k := n.val
    if !mayChase s r k then answer s r cIsolated []
    else if !s.flag .chPresent k || (s.chase k).draining ||
        !(s.get .chState k == chEmpty || s.get .chState k == chStopped) then answer s r cBusy []
    else
      let s1 := dropForme s k
      (s1.setChase k { s1.chase k with load := some ⟨r, addr, size, s.clk, priorForme s k⟩ }).put .chState k chLoading))

/-- Hand a forme's default parameter block to the contexts of its chase (R175). -/
def defaultParams (s : State) (n : Nat) (f : Forme) : State :=
  match sectionOf f.sections 0x09 with
  | none => s
  | some x =>
    let b := memBytes s.lpddr (f.addr + x.offset) x.size
    (boundTo s n).foldl (fun s k =>
      let y := s.context k
      s.setCtx k { y with paramBlocks := y.paramBlocks.set y.paramBank b }) s

/-- Item-state slots of a cluster that other chases hold (R97, R105). -/
def slotsHeld (s : State) (n cluster : Nat) : Nat :=
  ((List.range 16).map (fun m => if m = n then 0 else (s.chase m).dimsSlots.get 0 cluster)).sum

/-- The item-state slots the loader gives a chase in each of its clusters (R97, R105): of the 16 of a unit no more than the
other chases leave; how many of those is the loader's (log entry 91). -/
def grantSlots (s : State) (n : Nat) (f : Forme) : Tab Nat :=
  ((((s.chase n).cores.map clusterOf).dedup)).foldl (fun t k =>
    t.set k (min (Config.itemSlots f.id n k) (16 - slotsHeld s n k))) .empty

/-- A load that passed every check (R97, R186, R205, R206, R294, R392): STOPPED. -/
def installForme (s : State) (n addr : Nat) : State :=
  let f := formeAt s addr
  let c := s.chase n
  let s1 := s.setChase n { c with
    forme := some f, standby := (standbyCores s n f).getD [], load := none, dimsSlots := grantSlots s n f }
  let s2 := ((((s1.put .formeId n f.id).put .bandCycles n (((f.placements[0]?).map (fun p => p.bandCycles)).getD 0)).put
    .chProof n (b2n ((f.impo.map (fun i => i.proof)).getD false))).put .chState n chStopped)
  let s3 := if signatureGood s addr (f.size - 128) then s2 else noteUnsigned s2 n
  defaultParams (copyImage s3 n) n f

/-- FORME_LOAD_DONE (R185, R186, R302). -/
def execFormeLoadDone (n : ChaseNo) (s : State) : Answer :=
  let k := n.val
  match (s.chase k).load with
  | none => .next s
  | some l =>
    match loaderRefusal s k l.addr l.size with
    | some e =>
      let s1 := (s.setChase k { s.chase k with load := none }).put .chState k chEmpty
      .next (answer (if e.2 = 0x20 then s1.put .rhImpoDetail k 0x20 else s1) l.req e.1 [BitVec.ofNat 32 e.2])
    | none => .next (answer (installForme s k l.addr) l.req cOk [])

/-! ### Patches (R187, R188, R271) -/

/-- The ranges of a patch image at `a`: logical core, SRAM offset, length (R187; the field places are log entry
29). -/
def patchRanges (s : State) (a : Nat) : List (Nat × Nat × Nat) :=
  (List.range (imgNum s a 0x10 4)).map (fun i =>
    let o := 64 + 16 * i
    (imgNum s a o 4, imgNum s a (o + 4) 4, imgNum s a (o + 8) 4))

/-- The ranges with their data, which follows them in order. -/
def patchData (s : State) (a : Nat) : List (Nat × Nat × Nat) → Nat → List (Nat × Nat × List Byte)
  | [], _ => []
  | r :: rs, o => (r.1, r.2.1, memBytes s.lpddr (a + o) r.2.2) :: patchData s a rs (o + r.2.2)

/-- Whether a range lies in a section flagged patchable (R187). -/
def rangePatchable (f : Forme) (r : Nat × Nat × Nat) : Bool :=
  f.sections.any (fun x => x.ty == 3 && bitAt x.flags 1 && x.core == r.1 && decide (x.dest ≤ r.2.1) &&
    decide (r.2.1 + r.2.2 ≤ x.dest + x.size))

/-- What the loader says to a patch image (R187, R271, R392, R393): a refusal code, and whether it is accepted
without a valid signature. -/
def patchVerdict (s : State) (f : Forme) (a size : Nat) : Option Nat × Bool :=
  let rs := patchRanges s a
  let dataEnd := 64 + 16 * rs.length + (rs.map (fun r => r.2.2)).sum
  let signed := decide (dataEnd + 128 ≤ size)
  let trained := imgNum s a 0x0C 1 == 1
  if size < dataEnd ∨ imgNum s a 0 4 ≠ 0x54415046 ∨ imgNum s a 4 4 ≠ f.id ∨ imgNum s a 8 4 ≠ f.build then
    (some cVersion, false)
  else if !rs.all (rangePatchable f) then (some cCapability, false)
  else if signed then
    if signatureGood s a (size - 128) then (none, false)
    else if unsignedOk s then (none, true) else (some cSignature, false)
  else if trained then (if s.flag .secDevTrained 0 then none else some cSignature, false)
  else if unsignedOk s then (none, true)
  else (some cSignature, false)

/-- FORME_PATCH (R181, R187, R188): an accepted patch goes to the shadow weights, after those already there. -/
def execFormePatch (r : Req) (n : ChaseNo) (addr size : Nat) (s : State) : Answer :=
  .next (firmware s r false false (fun s =>
    let k := n.val
    let c := s.chase k
    if !mayChase s r k then answer s r cIsolated []
    else match c.forme with
      | none => answer s r cBusy []
      | some f =>
        if c.draining || !(s.get .chState k == chRunning || s.get .chState k == chStopped) then
          answer s r cBusy []
        else
          let v := patchVerdict s f addr size
          match v.1 with
          | some code => answer s r code []
          | none =>
            let rs := patchRanges s addr
            let s1 := if v.2 then noteUnsigned s k else s
            s1.setChase k { c with
              patches := c.patches ++ [⟨patchData s addr rs (64 + 16 * rs.length), r, imgNum s addr 0x0C 1 == 1⟩] }))

/-- Write one range of a patch into the core that serves it in every placement. -/
def writeRange (s : State) (n : Nat) (f : Forme) (r : Nat × Nat × List Byte) : State :=
  let c := s.chase n
  f.placements.zipIdx.foldl (fun s e =>
    if e.1.map.getD r.1 0xFF = 0xFF then s
    else { s with sram := memStore s.sram (sramAddr (servedIn c e.2 e.1 r.1) r.2.1) r.2.2 }) s

/-- Whether the full-model path of an item has begun on the line sequencer and is not finished (R188, R467): it stands
past the entry of a path of kind 0 and not past its last V-class instruction. -/
def itemBegun (s : State) (n : Nat) (f : Forme) : Bool :=
  let x := (s.chase n).line
  x.run == .running && (pathsAt s f.addr f.sections).any (fun p =>
    p.kind == 0 && (p.placement == 0xFF || p.placement == s.get .chPlacement n) &&
      decide (p.entry < x.pc) && decide (x.pc ≤ p.stop))

/-- The item sequence number of the next item of a chase (R188): the verdict sequence number its lowest context gives next;
a free value without a context (log entry 29). -/
def itemSeq (s : State) (n : Nat) : Nat × State :=
  match boundTo s n with
  | k :: _ => ((s.context k).verdictSeq, s)
  | [] => s.fresh 32

/-- PATCH_SWAP (R188): at an item boundary the weights of every patch whose copy is done take effect, for the full-model
path and the early-exit section alike; inside an item's path nothing happens. -/
def execPatchSwap (n : ChaseNo) (s : State) : Answer :=
  let k := n.val
  let c := s.chase k
  match c.forme with
  | some f =>
    if c.patches.isEmpty || itemBegun s k f then .next s
    else
      let s1 := c.patches.foldl (fun s p => p.ranges.foldl (fun s r => writeRange s k f r) s)
        (s.setChase k { c with patches := [] })
      let v := itemSeq (s1.put .chPatched k 1) k
      .next (c.patches.foldl (fun s p => answer s p.req cOk [BitVec.ofNat 32 v.1]) v.2)
  | none => .next s

/-! ### Starting and stopping (R141, R183, R184, R234) -/

/-- The first band a context's galley offers after a start (R234). -/
def rebandContext (s : State) (f : Forme) (k : Nat) : State :=
  let x := s.context k
  (s.setCtx k { x with firstBand := true }).put .galBand k f.bandLines

/-- Start a chase from its staged image (R183): whether the digest still agrees, and the state; a mismatch leaves it
EMPTY. -/
def startChase (s : State) (n : Nat) : Bool × State :=
  let c := s.chase n
  match c.forme with
  | none => (false, s)
  | some f =>
    let s0 := s.setChase n c.orphanAll
    if Config.sha384 (memBytes s.lpddr f.addr f.size) ≠ f.digest then (false, dropForme s0 n)
    else
      let s00 := isolateCopies s0 n (fun _ => true)
      let s1 := clearRings (s00.setChase n (s00.chase n).zeroed) n
      let s2 := setSequencers (copyImage s1 n) n
      let s3 := (boundTo s2 n).foldl (fun s k => rebandContext s f k) s2
      (true, joinImposition ((s3.put .chState n chRunning).put .chPatched n 0) n)

/-- CHASE_START (R181 to R183). -/
def execChaseStart (r : Req) (n : ChaseNo) (s : State) : Answer :=
  .next (firmware s r false false (fun s =>
    let k := n.val
    let c := s.chase k
    if !mayChase s r k then answer s r cIsolated []
    else if c.draining || c.forme.isNone ||
        !([chStopped, chHalted, chTrapped].contains (s.get .chState k)) then answer s r cBusy []
    else
      let a := startChase s k
      answer a.2 r (if a.1 then cOk else cSignature) []))

/-- Stop every sequencer (R184, R196, R293): items become orphans, inbound sorts are answered. -/
def stopChase (s : State) (n : Nat) : State :=
  let s1 := answerInbound s n
  let c := (s1.chase n).orphanAll
  let idle := fun (x : Seq) => { x with run := SeqRun.idle, wait := SeqWait.none }
  setRole ((s1.setChase n { c with
    line := idle c.line, streams := ⟨c.streams.entries.map (fun e => (e.1, idle e.2))⟩ }).put .chState n chStopped) n

/-- CHASE_STOP (R181, R184). -/
def execChaseStop (r : Req) (n : ChaseNo) (s : State) : Answer :=
  .next (firmware s r false false (fun s =>
    let k := n.val
    if !mayChase s r k then answer s r cIsolated []
    else if (s.chase k).draining || !([chRunning, chHalted, chTrapped].contains (s.get .chState k)) then
      answer s r cBusy []
    else answer (stopChase s k) r cOk []))

/-! ### Loose sections and bandwidth (R191, R194) -/

/-- LOOSE_SECTION_END (R191): ended after the declared tail, it delays the next band, which LOOSE_OVERRUN counts. -/
def execLooseSectionEnd (n : ChaseNo) (afterTail : Bool) (s : State) : Answer :=
  if afterTail && s.get .chState n.val == chRunning then .next (s.bump .looseOverrun n.val) else .next s

/-- Whether a chase has a transfer waiting whose byte count its bucket holds (R194). -/
def servable (s : State) (n res : Nat) : Bool :=
  let c := s.chase n
  let want := c.bwWait.get 0 res
  decide (0 < want) && decide (want * 65536 ≤ c.buckets.get bucketDepth res)

/-- Whether a waiting transfer goes now (R194): its bucket holds its byte count and no lower chase is to be served on the
resource before it. -/
def grantReady (s : State) (n res : Nat) : Bool :=
  servable s n res && (List.range n).all (fun m => !servable s m res)

/-- BUCKET_GRANT (R194): the bytes are taken, and the transfer goes at its sequencer's next issue. -/
def execBucketGrant (n : ChaseNo) (res : Fin 3) (s : State) : Answer :=
  let c := s.chase n.val
  if grantReady s n.val res.val then
    let want := c.bwWait.get 0 res.val
    .next (s.setChase n.val { c with
      buckets := c.buckets.set res.val (c.buckets.get bucketDepth res.val - want * 65536),
      bwWait := c.bwWait.set res.val 0, bwCred := c.bwCred.set res.val want })
  else .next s

end Sys2Proof.Machine
end

