-- ==== Sys2Proof/Machine/Clocks.lean ====
section
/-! DEFINITION. Clocks: the root reference and its ramps, the oscillator trim, the frequency meters (R402 to R405,
R420). -/

namespace Sys2Proof.Machine

/-- Whether the root PLL is locked to a source R432 counts: REF or PORT, or OSC with osc_en = 1. -/
def rootLocked (s : State) : Bool :=
  match s.get .clkSource 0 with
  | 0 => s.flag .clkRefOk 0
  | 1 => true
  | 2 => s.flag .clkOscEn 0
  | _ => false

/-- Whether a source may be chosen now, in the order of R402: PORT, REF, OSC at power-up only, HOLDOVER when nothing
else remains. -/
def sourceAllowed (s : State) (src : ClkSource) : Bool :=
  let port := clkFollows s
  let ref := s.flag .clkRefOk 0
  match src with
  | .port => port
  | .ref => ref && !port
  | .osc => !port && !ref && s.flag .clkOscEn 0 && s.get .modService 0 == svcBringup
  | .holdover => !port && !ref

/-- ref_ok falls (R402): a root that follows REF goes to PORT, the distance of whose ramp is open (log entry 33), or
enters HOLDOVER. -/
def refLost (s : State) : State :=
  let s1 := s.put .clkRefOk 0 0
  if s.get .clkSource 0 ≠ 0 ∨ !s.flag .clkRefOk 0 then s1
  else if clkFollows s1 then
    let f := s1.fresh 20
    updateClk (chooseSource f.2 .port f.1)
  else enterHoldover s1

/-- REF_CLK_LOST (R402). -/
def execRefClkLost (s : State) : Answer := .next (refLost s)

/-- CLOCK_SOURCE_CHANGE (R289, R402, R403): a source R402 does not allow now is not chosen. -/
def execClockSourceChange (src : ClkSource) (steps : Int) (s : State) : Answer :=
  if sourceAllowed s src && !(src == .holdover && s.get .clkSource 0 == 3) then
    .next (updateClk (chooseSource s src steps))
  else .next s

/-- CLOCK_RAMP_STEP (R403): one step towards the target; below one step the ramp ends. -/
def execClockRampStep (s : State) : Answer :=
  if !s.flag .clkRamping 0 then .next s
  else
    let n := s.clock.steps
    let dir : Int := if 0 < n then 1 else if n < 0 then -1 else 0
    let s1 := { s with clock := ⟨n - dir, s.clock.divider + dir⟩ }
    if n - dir = 0 then .next (logEvent (s1.put .clkRamping 0 0) 0x0007 (srcBlock 1) 0 [s.get .clkSource 0, 0, 0, 0])
    else .next s1

/-- Ports whose SYNC sets have completed a trim window (R404). -/
def syncWindows (s : State) : List Nat :=
  (List.range 4).filter (fun p => linkActive s p && decide (100 ≤ (s.port p).syncRun))

/-- OSC_TRIM_WINDOW (R404): `error` is in parts per million; beyond 0.05 % the code moves one step against it (log
entry 33). -/
def execOscTrimWindow (error : Int) (bySync : Bool) (s : State) : Answer :=
  let ref := s.flag .clkRefOk 0
  let ports := syncWindows s
  if bySync && (ref || ports.isEmpty) then .next s
  else if !bySync && !ref then .next (s.put .oscTrimmed 0 0)
  else
    let code := s.get .oscCode 0
    let c := if 500 < error then code - 1 else if error < -500 then min 511 (code + 1) else code
    let s1 := ((s.put .oscCode 0 c).put .oscBySync 0 (b2n bySync)).put .oscTrimmed 0
      (b2n (decide (error.natAbs ≤ 1000)))
    .next (if bySync then ports.foldl (fun s p => s.setPort p { s.port p with syncRun := 0 }) s1 else s1)

/-- FREQ_METER_GATE (R402, R405): FREQ_n is refreshed; ref_ok follows REF_CLK's own meter. -/
def execFreqMeterGate (n : Fin 39) (khz : Word) (s : State) : Answer :=
  let s1 := s.put .freqKhz n.val khz.toNat
  if n.val ≠ 0 then .next s1
  else if 99980 ≤ khz.toNat ∧ khz.toNat ≤ 100020 then .next (s1.put .clkRefOk 0 1)
  else .next (refLost s1)

end Sys2Proof.Machine
end

