-- ==== Sys2Proof/Machine/Field.lean ====
section
/-! DEFINITION. The field section: the barrier link, field channels, trips, and the fire tick (R316, R318 to
R334, R339 to R341, R461). -/

namespace Sys2Proof.Machine

/-! ### The field side's outputs -/

/-- One bit of CRC-8, polynomial 0x07 (R318). -/
def crc8Bit (c : Nat) : Nat := if 128 ≤ c then (c * 2 % 256) ^^^ 0x07 else c * 2

/-- CRC-8 over bytes (R318): initial 0x00, no reflection, no final XOR. -/
def crc8 (l : List Byte) : Nat :=
  l.foldl (fun c b => (List.range 8).foldl (fun c _ => crc8Bit c) (c ^^^ b.toNat)) 0

/-- Whether frames pass the barrier (R323, R433): in Full, outside WARM and wider resets and FAILED. -/
def framesRun (s : State) : Bool :=
  s.power == .full && s.get .modService 0 != svcFailed &&
    (match s.mgmt.hold with
     | .none => true
     | .fabric => true
     | _ => false)

/-! ### What the field side holds of the configuration (R322) -/

/-- A word of the configuration the field side applied (log entry 101): before any, every channel is off and the masks
read 0xFFFF. -/
def fieldWord (s : State) (i : Nat) : Nat := s.barrier.cfgApplied.get (if i < 8 then 0 else 0xFFFF) i

/-- CH_CFG of a channel as the field side applied it. -/
def fieldCfg (s : State) (c : Nat) : Nat := bitsAt (fieldWord s (c / 2)) (14 * (c % 2)) 14

/-- Whether the field side runs a channel as an output. -/
def fieldOutput (s : State) (c : Nat) : Bool := fieldCfg s c % 4 == 3

/-- Whether the field side runs a channel as an input. -/
def fieldInput (s : State) (c : Nat) : Bool := fieldCfg s c % 4 == 1 || fieldCfg s c % 4 == 2

/-- The mask of a trip as the field side applied it. -/
def fieldMask (s : State) (n : Nat) : Nat := fieldWord s (8 + n) % 65536

/-- Whether a latched trip holds an output off by the masks the field side applied. -/
def fieldTripped (s : State) (c : Nat) : Bool :=
  (List.range 2).any (fun n => bitAt (s.get .tripLatch 0) n && bitAt (fieldMask s n) c)

/-- Whether a channel is an output (R324). -/
def isOutput (s : State) (c : Nat) : Bool := s.get .fcMode c == 3

/-- Whether a channel is an input (R324). -/
def isInput (s : State) (c : Nat) : Bool := s.get .fcMode c == 1 || s.get .fcMode c == 2

/-- The field side drives an output to a level, in a frame's window at an instant in units of 4 ns (R319). -/
def driveTo (s : State) (c : Nat) (on : Bool) (at4ns : Option Nat) : State :=
  let x := s.chan c
  if x.driven = on then s else (s.setChan c { x with driven := on }).emit (.field c on at4ns)

/-- The field side switches an output off by itself: it stays off until a frame shows its level as 0. -/
def fieldOff (s : State) (c : Nat) : State :=
  let x := s.chan c
  if x.driven then driveTo (s.setChan c { x with blocked := true }) c false none else s

/-- Switch off every output for which `p` holds. -/
def fieldOffAll (s : State) (p : Nat → Bool) : State :=
  (List.range 16).foldl (fun s c => if p c then fieldOff s c else s) s

/-- Whether a latch or the supply holds an output off (R324, R330, R333). -/
def heldOff (s : State) (c : Nat) : Bool :=
  fieldTripped s c || s.flag .fcOverload c || s.flag .fcOverTemp c || !s.barrier.supply

/-- The field side enters its safe state (R323). -/
def enterSafe (s : State) : State :=
  if s.barrier.fieldSafe then s
  else
    let s1 := fieldOffAll s (fun _ => true)
    let s2 := { s1 with barrier := { s1.barrier with fieldSafe := true, fieldGood := 0 } }
    logEvent (((s2.put .barFieldSafe 0 1).put .barSafeSeen 0 1).bump .barSafe 0) 0x0032 (srcBlock 0xB) 1 [0, 0, 0, 0]

/-- Every output waits for a frame that shows its level as 0 (R323). -/
def blockAll (s : State) : State :=
  (List.range 16).foldl (fun s c => s.setChan c { s.chan c with blocked := true }) s

/-- The frames stop (R323): both directions start anew, the field side is in its safe state and keeps its configuration;
no change is left to send, and the next frames run at a phase of their own (R316). -/
def barrierStop (s : State) : State :=
  let s1 := enterSafe s
  { s1 with barrier := { s1.barrier with
      fieldSeq := none, fieldBad := 0, fieldGood := 0, upSeq := none, upBad := 0, upGood := 0, cfgWords := [],
      statWords := [], run := s1.barrier.run + 1, downNo := 0, auxRec := [], changes := [], sent := 0 } }

/-! ### The down frames the die sends (R319, R321, R322) -/

/-- The phase of the down frames, in units of 0.5 ns. -/
def framePhase (s : State) : Int := ((Config.framePhase s.barrier.run).toNat : Int)

/-- Now, in units of 0.5 ns (a K4 cycle is 2.5 ns). -/
def halfNs (s : State) : Int := 5 * (s.clk : Int)

/-- The frame a change is placed in (R321): the one that starts at or after 12 ns, and before 76 ns, after the match. -/
def frameFor (s : State) : Int := (halfNs s + 24 + 127 - framePhase s) / 128

/-- The change's instant in its window (R321): 74 ns minus the frame's start after the match, to the nearest 4 ns, halves
up, limited to 0 to 60 ns; in units of 4 ns. -/
def offsetFor (s : State) : Nat :=
  min 15 ((148 - (framePhase s + 128 * frameFor s - halfNs s) + 4) / 8).toNat

/-- The die commands an output to a level: the change enters a down frame (R321). -/
def commandTo (s : State) (c : Nat) (on : Bool) : State :=
  let x := s.chan c
  if x.commanded = on then s
  else
    let s1 := s.setChan c { x with commanded := on }
    { s1 with barrier := { s1.barrier with changes := s1.barrier.changes ++ [⟨frameFor s, offsetFor s, c, on⟩] } }

/-- CH_CFG of a channel (R340). -/
def chConfig (s : State) (c : Nat) : Nat :=
  s.get .fcMode c + 4 * s.get .fcContext c + 64 * s.get .fcAssigned c + 128 * s.get .fcStamp c + 256 * s.get .fcOwCheck c +
    512 * s.get .fcPaired c + 1024 * s.get .fcFilt c

/-- The field configuration image (R322; log entry 101): words of 28 bits, two channels each, then the trip masks. -/
def configImage (s : State) : List Nat :=
  (List.range 8).map (fun i => chConfig s (2 * i) + 2 ^ 14 * chConfig s (2 * i + 1)) ++
    [s.get .tripMask 0, s.get .tripMask 1, 0, 0]

/-- A configuration record (R322; log entry 101): 96 bits, its number, the configuration's generation and three words of
the image, as the 12-bit words of eight frames. -/
def configRecord (s : State) (r : Nat) : List (BitVec 12) :=
  let w := fun i => (configImage s).getD (3 * r + i) 0
  let v := r + 16 * s.barrier.cfgGen.toNat + 2 ^ 12 * (w 0 + 2 ^ 28 * w 1 + 2 ^ 56 * w 2)
  (List.range 8).map (fun j => BitVec.ofNat 12 (bitsAt v (12 * j) 12))

/-- Levels after some changes. -/
def levelsAfter (lv : BitVec 16) (l : List DownChange) : BitVec 16 :=
  l.foldl (fun lv x => if x.level then lv ||| BitVec.ofNat 16 (2 ^ x.chan) else lv &&& ~~~ BitVec.ofNat 16 (2 ^ x.chan)) lv

/-- The low 56 bits of the down frame of a window (R319): the levels at its end, which of its changes take the second
instant, the two instants, the frame's number, its word of the configuration stream. -/
def downBits (before after : BitVec 16) (mine : List DownChange) (seq aux : Nat) : Nat :=
  let live := mine.filter (fun x => bitAt before.toNat x.chan != bitAt after.toNat x.chan)
  let a := (live.head?.map (fun x => x.offset)).getD 0
  let second := live.filter (fun x => x.offset != a)
  let b := (second.head?.map (fun x => x.offset)).getD 0
  let slot := (List.range 16).map (fun c => b2n (((live.filter (fun x => x.chan == c)).getLast?.map
    (fun x => x.offset != a)).getD false) * 2 ^ c)
  after.toNat + 2 ^ 16 * slot.sum + 2 ^ 32 * (a % 16) + 2 ^ 36 * (b % 16) + 2 ^ 40 * seq + 2 ^ 44 * aux

/-- The die's next down frame (R318, R319, R321, R322), the last whose final bit has crossed by now, and the state that
has sent it. -/
def composeDown (s : State) : Nat × State :=
  let b := s.barrier
  let j := (halfNs s - 140 - framePhase s) / 128
  let before := levelsAfter b.sent (b.changes.filter (fun x => decide (x.frame < j)))
  let mine := b.changes.filter (fun x => decide (x.frame = j))
  let after := levelsAfter before mine
  let no := b.downNo.toNat
  let rec_ := if no % 8 = 0 then configRecord s (no / 8) else b.auxRec
  let f := downBits before after mine (no % 16) (rec_.getD (no % 8) 0).toNat
  (f + 2 ^ 56 * crc8 (natLe 7 f),
   { s with barrier := { b with
      downNo := b.downNo + 1, auxRec := rec_, sent := after, changes := b.changes.filter (fun x => decide (j < x.frame)) } })

/-! ### Frames (R318 to R323) -/

/-- Whether the CRC of a frame holds. -/
def frameCrcOk (f : Nat) : Bool := crc8 (natLe 7 f) == bitsAt f 56 8

/-- The level of one output from a good frame, at the instant its slot names (R319). -/
def applyLevel (s : State) (f c : Nat) : State :=
  let x := s.chan c
  let at4ns := some (if bitAt f (16 + c) then bitsAt f 36 4 else bitsAt f 32 4)
  if !fieldOutput s c then driveTo s c false none
  else if !bitAt f c then driveTo (s.setChan c { x with blocked := false }) c false at4ns
  else if x.blocked then s
  else if heldOff s c then s.setChan c { x with blocked := true }
  else driveTo s c true at4ns

/-- The field side applies a configuration record (R322): what it now runs as no output, and what a latched trip now
names, goes off; with every record of one generation applied it echoes that generation. -/
def applyRecord (s : State) (v : Nat) : State :=
  let b := s.barrier
  let r := v % 16
  let gens := b.cfgGens.set r (BitVec.ofNat 8 (bitsAt v 4 8))
  let g := gens.get 0 0
  let s1 := { s with barrier := { b with
    cfgGens := gens,
    cfgApplied := (List.range 3).foldl (fun t i => t.set (3 * r + i) (bitsAt v (12 + 28 * i) 28)) b.cfgApplied,
    cfgEcho := if (List.range 4).all (fun i => gens.get 0 i == g) then g else b.cfgEcho } }
  fieldOffAll s1 (fun c => !fieldOutput s1 c || fieldTripped s1 c)

/-- A whole configuration record reached the field side (R322): it is applied when received twice identically. -/
def recordReceived (s : State) (words : List (BitVec 12)) : State :=
  let b := s.barrier
  let v := words.foldr (fun w a => w.toNat + 4096 * a) 0
  let r := v % 16
  let s1 := { s with barrier := { b with cfgWords := [], cfgRecs := b.cfgRecs.set r words } }
  if r < 4 ∧ b.cfgRecs.get [] r = words then applyRecord s1 v else s1

/-- A word of the configuration stream (R322): eight frames, counted by their seq, carry a record. -/
def configWord (s : State) (seq w : Nat) : State :=
  let b := s.barrier
  let words := if seq % 8 = 0 then [BitVec.ofNat 12 w]
    else if b.cfgWords.length = seq % 8 then b.cfgWords ++ [BitVec.ofNat 12 w] else []
  if words.length = 8 then recordReceived s words else { s with barrier := { b with cfgWords := words } }

/-- A good down frame (R319, R323). -/
def downGood (s : State) (f : Nat) : State :=
  let s1 := configWord { s with barrier := { s.barrier with fieldBad := 0 } } (bitsAt f 40 4) (bitsAt f 44 12)
  let levels := fun (s : State) => (List.range 16).foldl (fun s c => applyLevel s f c) s
  if s1.barrier.fieldSafe then
    let g := s1.barrier.fieldGood + 1
    if g < 64 then { s1 with barrier := { s1.barrier with fieldGood := g } }
    else
      levels (blockAll ({ s1 with barrier := { s1.barrier with fieldSafe := false, fieldGood := 0 } }.put .barFieldSafe
        0 0))
  else levels s1

/-- A bad or missing down frame (R323): after four in a row the field side is in its safe state. -/
def downLost (s : State) : State :=
  let b := s.barrier
  let s1 := { s with barrier := { b with
    fieldBad := b.fieldBad + 1, fieldGood := 0, cfgWords := [], fieldSeq := b.fieldSeq.map (fun q => q + 1) } }
  if 4 ≤ b.fieldBad + 1 then enterSafe s1 else s1

/-- What the field side does with a frame that reached it (R318, R323). -/
def downArrives (s : State) (f : Nat) : State :=
  let seq : BitVec 4 := BitVec.ofNat 4 (bitsAt f 40 4)
  let b := s.barrier
  let inOrder := match b.fieldSeq with
    | none => true
    | some q => seq == q + 1
  if frameCrcOk f && inOrder then downGood { s with barrier := { b with fieldSeq := some seq } } f
  else
    let s1 := downLost (s.bump .barBadUp 0)
    if frameCrcOk f then { s1 with barrier := { s1.barrier with fieldSeq := some seq } } else s1

/-- DOWN_FRAME (R318, R319, R321, R323): the die sends its frame, and the field side takes what arrives of it. -/
def execDownFrame (frame : BitVec 64) (s : State) : Answer :=
  if !framesRun s then .next s
  else
    let d := composeDown s
    .next (downArrives (d.2.emit (.down d.1)) frame.toNat)

/-- Decide the trip clears that are asked for (R334): refused while the input is active. -/
def decideClears (s : State) : State :=
  let req := s.barrier.clearReq.toNat
  let active := s.get .tripActive 0
  let latch := s.get .tripLatch 0
  if req = 0 then s
  else
    let keep := fun n => bitAt latch n && !(bitAt req n && !bitAt active n)
    let refused := (bitAt req 0 && bitAt active 0) || (bitAt req 1 && bitAt active 1)
    (({ s with barrier := { s.barrier with clearReq := 0 } }.put .tripLatch 0
      (b2n (keep 0) + 2 * b2n (keep 1))).put .tripLastClear 0 (if refused then cTripActive else cOk)).put
        .tripClearPending 0 0

/-- A whole status word (R322), its fields in the order R322 names them (log entry 30). -/
def applyStatus (s : State) (w : Nat) : State :=
  let diag := fun (s : State) (c : Nat) =>
    let set := fun (s : State) (f : Fld) (i : Nat) => if bitAt w (3 * c + i) then s.put f c 1 else s
    set (set (set s .fcOverload 0) .fcOpenWire 1) .fcOverTemp 2
  let s1 := (List.range 16).foldl diag s
  let s2 := ((s1.put .tripActive 0 (3 - bitsAt w 48 2)).put .tripLatch 0 (s1.get .tripLatch 0 ||| bitsAt w 50 2)).put
    .barSupplyOk 0 (bitsAt w 52 1)
  decideClears ((s2.put .barFieldSafe 0 (bitsAt w 53 1)).put .barCfgSynced 0
    (b2n (bitsAt w 54 8 == s.barrier.cfgGen.toNat)))

/-- The status stream (R322). -/
def statusNibble (s : State) (n : Nat) : State :=
  let b := s.barrier
  let words := b.statWords ++ [BitVec.ofNat 4 n]
  if words.length < 16 then { s with barrier := { b with statWords := words } }
  else
    applyStatus { s with barrier := { b with statWords := [] } }
      (words.foldr (fun x a => x.toNat + 16 * a) 0)

/-- The level of one channel in a good up frame (R320): a read-back of 0 from an output the field side switched off
itself ends its pulse on the die, whose dead time runs from the next tick (R332). -/
def readBack (s : State) (c : Nat) (level : Bool) : State :=
  let x := s.chan c
  if isInput s c then (if s.flag .fcUndet c then s else s.put .fcLevel c (b2n level))
  else if isOutput s c then
    let s1 := s.put .fcLevel c (b2n level)
    if !level && x.commanded && x.blocked then
      commandTo (s1.setChan c { x with pulse := none, offTick := some (s.tick + 1) }) c false
    else s1
  else s.put .fcLevel c 0

/-- The position an encoder had at the end of an earlier K4 cycle of the last 128 ns (R320, R328). -/
def positionAt (s : State) (e t : Nat) : Nat :=
  (((s.enc e).past.filter (fun p => decide (t < p.1))).getLast?.map (fun p => p.2)).getD (s.get .encPos e)

/-- The FIELD_EDGE record of R358: device time and the bound encoder's position at the time the filter accepted the
level. -/
def edgeRecord (s : State) (c : Nat) (level : Bool) (time clk : Nat) : List Byte :=
  let k := s.get .fcContext c
  natLe 1 0x12 ++ natLe 1 k ++ natLe 1 c ++ natLe 1 (b2n level + 16 * s.get .fcFilt c) ++ natLe 4 0 ++
    natLe 6 (positionAt s (s.get .ctxEncoder k) clk) ++ natLe 2 0 ++ natLe 8 time

/-- An edge of an input reaches the die (R327, R328): the first settling gives no record. -/
def inputEdge (s : State) (c : Nat) (level : Bool) (time clk : Nat) : State :=
  let s1 := s.put .fcLevel c (b2n level)
  if s.flag .fcUndet c then s1.put .fcUndet c 0
  else if s.flag .fcStamp c && s.flag .fcAssigned c && s.get .fcLevel c != b2n level then
    stageEvent s1 (s.get .fcContext c + 1) (edgeRecord s c level time clk)
  else s1

/-- An edge that an up frame reports (R320): its instant lies in the 128 ns that end with the frame.  An edge whose record
INPUT_EDGE made is the same edge (log entry 102). -/
def frameEdge (s : State) (f i : Nat) : State :=
  let c := 8 * bitsAt f 0 1 + i
  if !isInput s c || !bitAt f (12 + i) then s
  else
    let s1 := s.setChan c { s.chan c with reported := false }
    if (s.chan c).reported then s1
    else
      let back := 128 - 8 * bitsAt f (20 + 4 * i) 4
      inputEdge s1 c (bitAt f (4 + i)) (wrapTo 64 ((s.now : Int) - (back : Nat))) ((5 * s.clk - 2 * back) / 5)

/-- A good up frame (R320, R323). -/
def upGoodFrame (s : State) (f : Nat) : State :=
  let b := s.barrier
  let g := b.upGood + 1
  let s1 := { s with barrier := { b with upBad := 0, upGood := g } }
  let s2 := if !s1.flag .barUp 0 && decide (64 ≤ g) then
      (List.range 16).foldl (fun s c => s.put .fcStale c 0) (s1.put .barUp 0 1)
    else s1
  if s2.flag .barUp 0 then
    let half := 8 * bitsAt f 0 1
    let s3 := (List.range 8).foldl (fun s i => frameEdge s f i) s2
    statusNibble ((List.range 8).foldl (fun s i => readBack s (half + i) (bitAt f (4 + i))) s3) (bitsAt f 52 4)
  else s2

/-- A bad or missing up frame (R323): after four in a row the link is down and input levels are stale. -/
def upLost (s : State) : State :=
  let b := s.barrier
  let s1 := { s with barrier := { b with
    upBad := b.upBad + 1, upGood := 0, statWords := [], upSeq := b.upSeq.map (fun q => q + 1) } }
  if 4 ≤ b.upBad + 1 ∧ s1.flag .barUp 0 then
    (List.range 16).foldl (fun s c => s.put .fcStale c 1) ((s1.put .barUp 0 0).put .barSafeSeen 0 1)
  else s1

/-- UP_FRAME (R318, R320, R323). -/
def execUpFrame (frame : BitVec 64) (s : State) : Answer :=
  let f := frame.toNat
  let seq : BitVec 3 := BitVec.ofNat 3 (bitsAt f 1 3)
  let b := s.barrier
  let inOrder := match b.upSeq with
    | none => true
    | some q => seq == q + 1
  if !framesRun s then .next s
  else if frameCrcOk f && inOrder then .next (upGoodFrame { s with barrier := { b with upSeq := some seq } } f)
  else
    let s1 := upLost (s.bump .barBadDown 0)
    .next (if frameCrcOk f then { s1 with barrier := { s1.barrier with upSeq := some seq } } else s1)

/-- FRAME_MISSING (R318, R323). -/
def execFrameMissing (dir : BarrierDir) (s : State) : Answer :=
  if !framesRun s then .next s
  else match dir with
    | .down => .next (downLost (composeDown s).2)
    | .up => .next (upLost s)

/-! ### Trips (R333, R334) -/

/-- TRIP (R333): the masked outputs go off and the trip latches. -/
def execTrip (n : Fin 2) (s : State) : Answer :=
  if s.power = .off then .next s
  else
    let s1 := (s.put .tripActive 0 (s.get .tripActive 0 ||| 2 ^ n.val)).put .tripLatch 0
      (s.get .tripLatch 0 ||| 2 ^ n.val)
    .next (fieldOffAll s1 (fun c => bitAt (fieldMask s n.val) c))

/-- A clear request (R334): decided at once while the link works, else when the field side reports again. -/
def requestClear (s : State) (mask : Nat) : State :=
  let b := s.barrier
  let s1 := { s with barrier := { b with clearReq := b.clearReq ||| BitVec.ofNat 2 mask } }
  if mask = 0 then s
  else if s.flag .barUp 0 && !b.fieldSafe then decideClears s1
  else s1.put .tripClearPending 0 1

/-- TRIP_CLEAR (R334); only PF0 reaches TRIP_CTRL (R353). -/
def execTripClear (fn : Fn) (clear0 clear1 : Bool) (s : State) : Answer :=
  if fn.val = 0 then .next (overPcie s (requestClear s (b2n clear0 + 2 * b2n clear1)))
  else .next s

/-! ### Channels (R326 to R330, R461) -/

/-- INPUT_EDGE (R326 to R328): an edge while the link is down gives no record, only the first settling. -/
def execInputEdge (c : Chan) (level : Bool) (s : State) : Answer :=
  let i := c.val
  if !isInput s i || !fieldInput s i || !framesRun s || !s.barrier.supply then .next s
  else if !s.flag .barUp 0 then .next (if s.flag .fcUndet i then s.put .fcUndet i 0 else s)
  else .next (inputEdge (s.setChan i { s.chan i with reported := true }) i level s.now s.clk)

/-- INPUT_OPEN_WIRE (R326). -/
def execInputOpenWire (c : Chan) (s : State) : Answer :=
  if fieldInput s c.val && bitAt (fieldCfg s c.val) 8 then .next (s.put .fcOpenWire c.val 1) else .next s

/-- OUTPUT_OVERLOAD (R330): only an output that is on can be in current limit. -/
def execOutputOverload (c : Chan) (s : State) : Answer :=
  if fieldOutput s c.val && (s.chan c.val).driven then
    .next (fieldOff ((s.put .fcOverload c.val 1).bump .fcOverloads c.val) c.val)
  else .next s

/-- OUTPUT_OPEN_WIRE (R330): the output keeps running. -/
def execOutputOpenWire (c : Chan) (s : State) : Answer :=
  if fieldOutput s c.val && (s.chan c.val).driven then .next (s.put .fcOpenWire c.val 1) else .next s

/-- OVER_TEMPERATURE (R330): latched whether the output is on or off. -/
def execOverTemperature (c : Chan) (s : State) : Answer :=
  if fieldOutput s c.val then .next (fieldOff (s.put .fcOverTemp c.val 1) c.val) else .next s

/-- FIELD_SUPPLY_LOST (R324, R461). -/
def execFieldSupplyLost (s : State) : Answer :=
  let s1 := fieldOffAll s (fun _ => true)
  let s2 := { s1 with barrier := { s1.barrier with supply := false } }.put .barSupplyOk 0 0
  .next ((List.range 16).foldl (fun s c =>
    if isInput s c then (s.put .fcLevel c 0).put .fcUndet c 1 else s) s2)

/-- FIELD_SUPPLY_RETURN (R461): outputs come on only at new pulses. -/
def execFieldSupplyReturn (s : State) : Answer :=
  .next ({ s with barrier := { s.barrier with supply := true } }.put .barSupplyOk 0 1)

/-! ### The fire tick (R316, R332) -/

/-- The later of two off counts (R316). -/
def laterOff (a b : Nat) : Nat := if 0 ≤ countAhead (sext 48 b) (sext 48 a) then b else a

/-- Switch a channel on for a pulse. -/
def pulseOn (s : State) (c e off : Nat) : State :=
  commandTo (s.setChan c { s.chan c with pulse := some ⟨e, off, true, s.tick⟩ }) c true

/-- Switch a channel off on the die; its dead and crossover times start at this tick (R332). -/
def pulseOff (s : State) (c : Nat) : State :=
  commandTo (s.setChan c { s.chan c with pulse := none, offTick := some s.tick }) c false

/-- Whether a channel must wait (R332): its dead time, its pair's crossover time, or its partner on. -/
def mustWait (s : State) (c : Nat) : Bool :=
  chanInDead s c || (chanPaired s c && (s.chan (partnerOf c)).commanded)

/-- Whether a latch suppresses a pulse (R330, R333), and the counter of the suppression. -/
def suppressedBy (s : State) (c : Nat) : Option Fld :=
  if chanTripped s c then some .fcFireTripped
  else if s.flag .fcOverload c || s.flag .fcOverTemp c then some .fcDeadSuppressed
  else none

/-- Whether an off count has been reached. -/
def offReached (s : State) (p : Pulse) : Bool := countReached (sext 48 p.off) (s.s48 .encPos p.enc)

/-- A taken command meets a channel (R316, R332): a pulse under way or delayed takes the later off count. -/
def meetPulse (s : State) (c e off : Nat) : State :=
  let x := s.chan c
  match x.pulse with
  | some p =>
    s.setChan c { x with pulse := some { p with
      enc := e, off := if p.enc = e then laterOff p.off off else off, tick := s.tick } }
  | none => s

/-- Start a pulse that falls due now: suppressed, delayed, or on. -/
def startPulse (s : State) (c e off : Nat) : State :=
  match suppressedBy s c with
  | some f => s.bump f c
  | none =>
    if mustWait s c then
      (s.bump .fcDeadDelayed c).setChan c { s.chan c with pulse := some ⟨e, off, false, s.tick⟩ }
    else pulseOn s c e off

/-- The channels a command pulses (R332): of a pair it names both channels of, the even one. -/
def pulseChannels (s : State) (mask : Nat) : List Nat × List Nat :=
  let all := (List.range 16).filter (bitAt mask)
  let odd := all.filter (fun c => c % 2 == 1 && chanPaired s c && bitAt mask (c - 1))
  (all.filter (fun c => !odd.contains c), odd)

/-- The pulses a tick's commands ask for: encoder, off count, channel, in order. -/
def duePulses (s : State) (e : Nat) (l : List FireCmd) : List (Nat × Nat × Nat) :=
  l.flatMap (fun c => (pulseChannels s c.channels.toNat).1.map (fun ch => (e, (c.position + c.width) % 2 ^ 48, ch)))

/-- Whether an entry of the chain is reached at a tick (R308, R316): never while its encoder is in wire fault. -/
def entryReached (s : State) (e : Nat) (c : FireCmd) : Bool :=
  c.landed.isSome && !wireNow s e && countReached (sext 48 c.position) (s.s48 .encPos e)

/-- Whether a taken entry is late (R316): it landed after the first tick at or after the count edge that reached it. -/
def entryLate (c : FireCmd) : Bool :=
  match c.reached, c.landed with
  | some r, some l => decide (r ≤ l)
  | _, _ => false

/-- The pushes on their way land behind the entries of the chain (R314). -/
def landEntries (s : State) (e : Nat) : State :=
  s.setFq e ((s.fq e).map (fun c => if c.landed.isNone then { c with landed := some s.tick } else c))

/-- Take the reached entries of one queue (R315, R316): the pulses due, and the state. -/
def takeQueue (s : State) (e : Nat) : List (Nat × Nat × Nat) × State :=
  let taken := (s.fq e).filter (entryReached s e)
  let left := (s.fq e).filter (fun c => !entryReached s e c)
  let s1 := (s.setFq e left).bumpBy .fqLateFire e (taken.filter entryLate).length
  let s2 := taken.foldl (fun s c =>
    (pulseChannels s c.channels.toNat).2.foldl (fun s o => s.bump .fcDeadSuppressed o) s) s1
  (duePulses s e taken, s2)

/-- End the pulses whose off count is reached, not those of this tick (R316). -/
def endPulse (s : State) (c : Nat) : State :=
  match (s.chan c).pulse with
  | some p =>
    if p.started && decide (p.tick < s.tick) && !wireNow s p.enc && offReached s p then pulseOff s c else s
  | none => s

/-- A delayed pulse (R332): it starts when its wait is over, or is suppressed when its off count comes first. -/
def resumePulse (s : State) (c : Nat) : State :=
  match (s.chan c).pulse with
  | some p =>
    let drop := s.setChan c { s.chan c with pulse := none }
    if p.started || wireNow s p.enc then s
    else if decide (p.tick < s.tick) && offReached s p then drop.bump .fcDeadSuppressed c
    else match suppressedBy s c with
      | some f => drop.bump f c
      | none => if mustWait s c then s else pulseOn s c p.enc p.off
  | none => s

/-- One fire tick (R314, R316): commands are taken and pushes land behind the rest, pulses under way are extended, ended,
delayed ones started, new ones started. -/
def fireTick (s0 : State) : State :=
  let s := { s0 with tick := s0.tick + 1 }
  let r := (List.range 4).foldl (fun (a : List (Nat × Nat × Nat) × State) e =>
    let t := takeQueue a.2 e
    (a.1 ++ t.1, landEntries t.2 e)) ([], s)
  let due := r.1
  let busy := fun (s : State) (c : Nat) => (s.chan c).pulse.isSome
  let fresh := due.filter (fun d => !busy r.2 d.2.2)
  let s1 := due.foldl (fun s d => meetPulse s d.2.2 d.1 d.2.1) r.2
  let s2 := (List.range 16).foldl endPulse s1
  let s3 := (List.range 16).foldl resumePulse s2
  fresh.foldl (fun s d => if busy s d.2.2 then meetPulse s d.2.2 d.1 d.2.1 else startPulse s d.2.2 d.1 d.2.1) s3

/-- FIRE_TICK (R308, R316): ticks fall in Full, outside a reset of the fabric. -/
def execFireTick (s : State) : Answer :=
  if s.power = .full ∧ s.mgmt.hold = .none then .next (fireTick s) else .next s

/-- FIRE_QUEUE_EXCHANGE (R314): adjacent stages of one parity change places where the entry ahead is later. -/
def exchangePairs : List FireCmd → List FireCmd
  | a :: b :: l =>
    if countAhead (sext 48 b.position) (sext 48 a.position) < 0 then b :: a :: exchangePairs l
    else a :: b :: exchangePairs l
  | l => l

/-- FIRE_QUEUE_EXCHANGE (R314): the cycle's pushes land and take part; even cycles exchange (0, 1), (2, 3), …; odd
cycles (1, 2), (3, 4), …. -/
def execFireQueueExchange (odd : Bool) (s : State) : Answer :=
  .next ((List.range 4).foldl (fun s0 e =>
    let s := landEntries s0 e
    s.setFq e (match odd, s.fq e with
      | true, a :: l => a :: exchangePairs l
      | _, l => exchangePairs l)) s)

/-! ### What resets do to the outputs -/

/-- Every output off at the die and at the field side (R409, R410: the FABRIC column). -/
def outputsOff (s : State) : State :=
  (List.range 16).foldl (fun s c =>
    let x := s.chan c
    driveTo (if x.commanded then pulseOff s c else s.setChan c { x with pulse := none }) c false none) s

end Sys2Proof.Machine
end

