-- ==== Sys2Proof/Machine/Motion.lean ====
section
/-! DEFINITION. Encoders, compares and the encoder emulation outputs (R303 to R311, R335 to R338). -/

namespace Sys2Proof.Machine

/-! ### Emulation outputs (R335) -/

/-- The quadrature levels of a phase: A leads B upwards. -/
def phaseLevels (p : Nat) : Bool × Bool := (p == 1 || p == 2, p == 2 || p == 3)

/-- Emit one quadrature count; Z is high for the one count in every `period` (R335). -/
def emuCount (s : State) (o : Nat) (up : Bool) : State :=
  let x := s.emu o
  let ph := if up then (x.phase + 1) % 4 else (x.phase + 3) % 4
  let period := s.get .emuZPeriod o
  let z := if period = 0 then 0 else if up then (x.zCount + 1) % period else (x.zCount + period - 1) % period
  let lv := phaseLevels ph
  (s.setEmu o { x with
    phase := ph, aLevel := lv.1, bLevel := lv.2, zCount := z,
    zLevel := if s.flag .emuZFollow o then x.zLevel else decide (period ≠ 0 ∧ z = 0) }).emit (.emu o up)

/-- Hold the counts owed to 65,535 (R335). -/
def capLag (s : State) (o : Nat) (lag : Int) : State :=
  let x := s.emu o
  if 65535 < lag.natAbs then
    (s.setEmu o { x with lag := if 0 < lag then 65535 else -65535 }).put .emuLost o 1
  else s.setEmu o { x with lag := lag }

/-- One owed count goes out. -/
def payLag (s : State) (o : Nat) : State :=
  let x := s.emu o
  if x.lag = 0 then s
  else emuCount (s.setEmu o { x with lag := if 0 < x.lag then x.lag - 1 else x.lag + 1 }) o (decide (0 < x.lag))

/-- A source count in ratio mode: the accumulator moves by the ratio in the source's direction (log entry 31), each
integer it crosses is one count; the first goes out at once when nothing was owed. -/
def ratioCount (s : State) (o : Nat) (up : Bool) : State :=
  let x := s.emu o
  let step : Int := s.get .emuRatio o
  let acc : Int := (x.frac : Int) + (if up then step else -step)
  let whole := acc / 4294967296
  let s1 := s.setEmu o { x with frac := (acc % 4294967296).toNat }
  let s2 := capLag s1 o (x.lag + whole)
  if x.lag = 0 then payLag s2 o else s2

/-- A source count in divider mode: A is high for one source count in every N, B gives the direction (log entry
31). -/
def dividerCount (s : State) (o : Nat) (up : Bool) : State :=
  let x := s.emu o
  let d := x.divN + 1
  let hit := decide (s.get .emuDivM1 o + 1 ≤ d)
  let s1 := s.setEmu o { x with divN := if hit then 0 else d, aLevel := hit, bLevel := up }
  if hit then s1.emit (.emu o up) else s1

/-- A count of encoder `e` reaches the emulation outputs that follow it; they run in Full. -/
def emulate (s : State) (e : Nat) (up : Bool) : State :=
  if s.power ≠ .full then s
  else (List.range 2).foldl (fun s o =>
    if s.flag .emuEnable o && s.get .emuSource o == e then
      let s0 := if s.flag .emuZFollow o then s.setEmu o { s.emu o with zLevel := false } else s
      if s.flag .emuMode o then dividerCount s0 o up else ratioCount s0 o up
    else s) s

/-- EMULATION_OUTPUT_COUNT (R335): a lagging output catches up by one count; a source in wire fault stops it. -/
def execEmulationOutputCount (o : Fin 2) (s : State) : Answer :=
  if s.power = .full ∧ s.flag .emuEnable o.val ∧ !wireNow s (s.get .emuSource o.val) then
    .next (payLag s o.val)
  else .next s

/-! ### Encoders (R304 to R307) -/

/-- Entries of a queue the new position reaches are marked with the tick that will find them (R316). -/
def markReached (s : State) (e : Nat) : State :=
  s.setFq e ((s.fq e).map (fun c =>
    if c.reached.isNone && countReached (sext 48 c.position) (s.s48 .encPos e) then
      { c with reached := some (s.tick + 1) }
    else c))

/-- The position of an encoder moves; what it was stays known for 128 ns, 52 K4 cycles (R320). -/
def movePos (s : State) (e v : Nat) : State :=
  let x := s.enc e
  (s.setEnc e { x with
    past := ((s.clk, s.get .encPos e) :: x.past).filter (fun p => decide (s.clk ≤ p.1 + 52)) }).put .encPos e v

/-- A change of direction (R307): the next latch is not checked against the last one. -/
def EncSt.counted (x : EncSt) (up : Bool) : EncSt :=
  { x with
    lastIndex := if x.lastDown = some up then x.lastIndex.map (fun l => (l.1, false)) else x.lastIndex,
    lastDown := some !up }

/-- One count up or down (R304, R306, R307). -/
def countEdge (s : State) (e : Nat) (up : Bool) : State :=
  let s1 := (movePos s e (wrapTo 48 (s.s48 .encPos e + (if up then 1 else -1)))).put .encDirection e (b2n !up)
  emulate (markReached (s1.setEnc e ((s1.enc e).counted up)) e) e up

/-- Transitions above 12.5 Mcounts/s in Aux (R304): which of them were counted is open, so the position takes a free
value (log entry 47), and it is no longer valid. -/
def overspeed (s : State) (e : Nat) : State :=
  let a := s.fresh 48
  ((movePos a.2 e a.1).put .encOverspeed e 1).put .encValid e 0

/-- ENCODER_EDGE (R304, R305): nothing counts in a wire fault, and an illegal transition is only recorded. -/
def execEncoderEdge (e : Enc) (edge : EncEdge) (s : State) : Answer :=
  let i := e.val
  if s.power = .off ∨ !s.flag .encEnable i ∨ wireNow s i then .next s
  else match edge with
    | .illegal => .next (s.bump .quadErr i)
    | .tooFast => .next (if s.power = .aux then overspeed s i else s)
    | .forward => .next (countEdge s i (!s.flag .encInvert i))
    | .backward => .next (countEdge s i (s.flag .encInvert i))

/-- Which of an encoder's pairs are in fault. -/
def EncSt.fault (x : EncSt) : EncWire → Bool
  | .a => x.faultA
  | .b => x.faultB
  | .z => x.faultZ

/-- Mark a pair in fault. -/
def EncSt.setFault (x : EncSt) : EncWire → EncSt
  | .a => { x with faultA := true }
  | .b => { x with faultB := true }
  | .z => { x with faultZ := true }

/-- The number of a pair in the event log. -/
def wireNo : EncWire → Nat
  | .a => 0
  | .b => 1
  | .z => 2

/-- WIRE_FAULT (R305): valid clears, every pulse of the encoder's queue in progress ends, the fault is counted and
logged. -/
def execWireFault (e : Enc) (wire : EncWire) (s : State) : Answer :=
  let i := e.val
  if s.power = .off ∨ (wire = .z ∧ !s.flag .encZCheck i) ∨ (s.enc i).fault wire then .next s
  else
    let s1 := ((s.setEnc i ((s.enc i).setFault wire)).put .encWireFault i 1).put .encValid i 0
    let s2 := (List.range 16).foldl (fun s c =>
      match (s.chan c).pulse with
      | some p => if p.started && p.enc == i then pulseOff s c else s
      | none => s) s1
    .next (logEvent (s2.bump .wireFaults i) 0x0030 (srcBlock 0xA) 1 [i, wireNo wire, 0, 0])

/-- WIRE_FAULT_CLEAR (R305): counting resumes, valid stays 0. -/
def execWireFaultClear (e : Enc) (s : State) : Answer :=
  .next (s.setEnc e.val { s.enc e.val with faultA := false, faultB := false, faultZ := false })

/-- The drift check of a latch (R307): against the previous one, when the direction has not changed since. -/
def checkDrift (s : State) (e pos : Nat) : State :=
  match (s.enc e).lastIndex with
  | some (prev, true) =>
    let d := sext 48 (wrapTo 48 ((pos : Int) - prev))
    let rev := s.get .encRev e
    let tol := s.get .encTol e
    if rev = 0 ∨ (rev ≤ d.natAbs + tol ∧ d.natAbs ≤ rev + tol) then s
    else
      logEvent ((s.put .encDrift e 1).bump .driftErr e) 0x0031 (srcBlock 0xA) 1
        [e, wrapTo 64 d % 2 ^ 32, wrapTo 64 d / 2 ^ 32, 0]
  | _ => s

/-- INDEX_EDGE (R307, R335): every rising edge latches the position; an output with z_follow repeats the edge. -/
def execIndexEdge (e : Enc) (s : State) : Answer :=
  let i := e.val
  if s.power = .off then .next s
  else
    let pos := s.get .encPos i
    let s1 := checkDrift s i pos
    let s2 := (s1.setEnc i { s1.enc i with lastIndex := some (pos, true) }).put .encIndexLatch i pos
    .next ((List.range 2).foldl (fun s o =>
      if s.power == .full && s.flag .emuEnable o && s.flag .emuZFollow o && s.get .emuSource o == i &&
          !wireNow s i then
        s.setEmu o { s.emu o with zLevel := true }
      else s) s2)

/-- Whether an encoder is free for a preset (R306). -/
def presetFree (s : State) (e : Nat) : Bool :=
  (List.range 16).all (fun k => !(s.flag .ctxBound k && s.get .ctxEncoder k == e)) &&
    (List.range 8).all (fun j => !(s.flag .pcmpEnable j && s.get .pcmpEncoder j == e))

/-- A write of PRESET_HI with the pair it completes (R4, R306); during a wire fault valid stays 0 (R305). -/
def presetTo (s : State) (e v : Nat) : State :=
  if presetFree s e then
    (movePos (s.put .encPreset e v) e v).put .encValid e (b2n !wireNow s e)
  else regFault s 0 (0xA00024 + 0x40 * e) (v / 2 ^ 32)

/-- PRESET (R306); only PF0 reaches the encoder set (R353). -/
def execPreset (fn : Fn) (e : Enc) (hi : Word) (s : State) : Answer :=
  if fn.val = 0 then .next (overPcie s (presetTo s e.val ((s.loOf .encPreset e.val + hi.toNat * 2 ^ 32) % 2 ^ 48)))
  else .next s

/-! ### Periodic compares and one-shots (R308, R310, R311) -/

/-- The PERIODIC record of R358. -/
def periodicRecord (s : State) (j target : Nat) : List Byte :=
  natLe 1 0x11 ++ natLe 1 (s.get .pcmpContext j) ++ natLe 1 j ++ natLe 5 0 ++ natLe 6 target ++ natLe 2 0 ++
    natLe 8 s.now

/-- Advance a periodic compare by its pitch; a pitch of 0 disarms it (R310). -/
def periodicAdvance (s : State) (j pitches : Nat) : State :=
  let pitch := s.get .pcmpPitch j
  if pitch = 0 then s.put .pcmpEnable j 0
  else s.put .pcmpTarget j (wrapTo 48 (s.s48 .pcmpTarget j + (pitches * pitch : Nat)))

/-- Whether a periodic compare is past its target. -/
def periodicDue (s : State) (j : Nat) : Bool :=
  s.flag .pcmpEnable j && countReached (s.s48 .pcmpTarget j) (s.s48 .encPos (s.get .pcmpEncoder j))

/-- PERIODIC_COMPARE_HIT (R308, R310). -/
def execPeriodicCompareHit (j : Fin 8) (s : State) : Answer :=
  let i := j.val
  if periodicDue s i && compareLive s (s.get .pcmpEncoder i) then
    .next (periodicAdvance
      (stageEvent s (s.get .pcmpContext i + 1) (periodicRecord s i (s.get .pcmpTarget i))) i 1)
  else .next s

/-- A periodic compare whose target was passed in Aux (R308): no record; its target moves by whole pitches to the
first target ahead. -/
def periodicCatchUp (s : State) (j : Nat) : State :=
  if periodicDue s j then
    let pitch := s.get .pcmpPitch j
    let ahead := (sext 32 (wrapTo 32 (s.s48 .encPos (s.get .pcmpEncoder j) - s.s48 .pcmpTarget j))).toNat
    periodicAdvance s j (if pitch = 0 then 1 else ahead / pitch + 1)
  else s

/-- TRIG_ONESHOT_HIT (R308, R311): the packet goes out and the one-shot disarms. -/
def execTrigOneshotHit (k : Ctx) (i : Fin 4) (s : State) : Answer :=
  let x := s.context k.val
  match x.oneshots.get none i.val with
  | none => .next s
  | some t =>
    if compareLive s (s.get .ctxEncoder k.val) && countReached (sext 48 t.target) (livePos s k.val) then
      .next ((s.setCtx k.val { x with oneshots := x.oneshots.set i.val none }).emit (.trigPacket k.val t.conn t.tag))
    else .next s

end Sys2Proof.Machine
end

