-- ==== Sys2Proof/Machine/Time.lean ====
section
/-! DEFINITION. Network time: the domains, device time, and frames launched at a time (R342 to R350). -/

namespace Sys2Proof.Machine

/-! ### Device time and the domains (R342, R345, R346) -/

/-- Units of Servo.offset in a nanosecond. -/
def nsUnits : Int := 2000000000

/-- DOM_STATUS states (R364). -/
def domDisabled : Nat := 0
/-- Acquiring. -/
def domAcquiring : Nat := 1
/-- Locked. -/
def domLocked : Nat := 2
/-- Lost. -/
def domLost : Nat := 3

/-- The S32 saturation of DOM_OFFSET (R364). -/
def satS32 (x : Int) : Int := max (-2147483648) (min 2147483647 x)

/-- Keep a servo's offset, and DOM_OFFSET with it. -/
def setOffset (s : State) (d : Nat) (o : Int) : State :=
  (s.setServo d { s.servo d with offset := o }).put .domOffset d (wrapTo 32 (satS32 (o / nsUnits)))

/-- Device time moves by a step of `delta` ns: both domains keep their own clocks. -/
def stepTime (s : State) (t : Nat) : State :=
  let delta : Int := (t : Int) - s.now
  let s1 := { s.put .timeNow 0 t with timeFrac := 0 }
  (List.range 2).foldl (fun s d => setOffset s d ((s.servo d).offset - delta * nsUnits)) s1

/-- The domain device time follows. -/
def selected (s : State) : Nat := s.get .timeSel 0

/-- The first setting (R346): while time_valid is 0 and the selected domain is LOCKED. -/
def firstSetting (s : State) : State :=
  let d := selected s
  if s.flag .timeValid 0 || s.get .domState d != domLocked then s
  else
    let t := wrapTo 64 ((s.now : Int) + (s.servo d).offset / nsUnits)
    (stepTime s t).put .timeValid 0 1

/-- With auto = 1 a LOST selection yields to the other domain when that is LOCKED (R346). -/
def autoSwitch (s : State) : State :=
  let d := selected s
  if s.flag .timeAuto 0 && s.get .domState d == domLost && s.get .domState (1 - d) == domLocked then
    (s.put .timeSel 0 (1 - d)).put .timeSwitched 0 1
  else s

/-- PTP_SYNC (R345, R346): `domainTime` is the grandmaster's time now; the interval counts towards lock when it missed
the disciplined clock by less than 100 ns. -/
def execPtpSync (d : Dom) (domainTime : BitVec 64) (freqPpb : BitVec 32) (s : State) : Answer :=
  let i := d.val
  if !s.flag .domEnable i || s.power == .off then .next s
  else
    let x := s.servo i
    let o : Int := sext 64 (wrapTo 64 ((domainTime.toNat : Int) - s.now)) * nsUnits
    let good := if x.synced && decide ((o - x.offset).natAbs < 100 * nsUnits.natAbs) then x.good + 1 else 0
    let was := s.get .domState i
    let st := if 16 ≤ good ∨ was = domLocked then domLocked else domAcquiring
    let s1 := ((setOffset (s.setServo i { x with good := good, synced := true }) i o).put .domFreq i
      freqPpb.toNat).put .domState i st
    .next (firstSetting (autoSwitch s1))

/-- DOMAIN_LOST (R345, R346). -/
def execDomainLost (d : Dom) (s : State) : Answer :=
  let i := d.val
  if s.get .domState i = domDisabled then .next s
  else
    let s1 := (s.setServo i { s.servo i with good := 0, synced := false }).put .domState i domLost
    .next (firstSetting (autoSwitch s1))

/-- A write of TIME_STEP_HI with the pair it completes (R346). -/
def stepTo (s : State) (t : Nat) : State :=
  if (List.range 16).any (fun k => s.flag .ctxBound k) ||
      (List.range 2).any (fun p => !(s.eport p).queue.isEmpty) then
    s.put .timeStepRefused 0 1
  else (stepTime s t).put .timeValid 0 1

/-- TIME_STEP (R346); only PF0 reaches it (R353). -/
def execTimeStep (fn : Fn) (hi : Word) (s : State) : Answer :=
  if fn.val = 0 then .next (overPcie s (stepTo s (s.loOf .timeStep 0 + hi.toNat * 2 ^ 32)))
  else .next s

/-- The slew in units of Servo.offset for one K4 cycle (R346): never past the selected domain's clock, and none in
holdover, before the first setting, or before a Sync has shown the domain's clock. -/
def slewStep (s : State) : Int :=
  let d := selected s
  if s.flag .timeValid 0 && (s.servo d).synced then
    let m : Int := 5 * 1000 * (max 1 (min 1000 (s.get .timeSlewPpm 0)) : Nat)
    max (-m) (min m (s.servo d).offset)
  else 0

/-- One K4 cycle of device time (R342, R346): 2.5 ns at the selected domain's rate, and the slew. -/
def advanceTime (s : State) : State :=
  let ppb := fun d => sext 32 (s.get .domFreq d)
  let d := selected s
  let corr := slewStep s
  let total : Int := (s.timeFrac : Int) + 5 * (1000000000 + ppb d) + corr
  let s1 := { s.put .timeNow 0 (wrapTo 64 ((s.now : Int) + total / nsUnits)) with
    timeFrac := (total % nsUnits).toNat }
  (List.range 2).foldl (fun s e =>
    if (s.servo e).synced || s.get .domState e == domLost then
      setOffset s e ((s.servo e).offset + 5 * (ppb e - ppb d) - corr)
    else s) s1

/-- PDELAY_REQ (R343): answered in an enabled peer-to-peer or 802.1AS domain of the port. -/
def execPdelayReq (p : EPort) (d : Dom) (s : State) : Answer :=
  let prof := s.get .domProfile d.val
  if s.flag .domEnable d.val && s.get .domPort d.val == p.val && (prof == 1 || prof == 2) then
    .next (s.emit (.pdelayResp p.val d.val))
  else .next s

/-! ### Launch queues (R348 to R350) -/

/-- The launch ring of a port. -/
def launchRing (p : Nat) : Nat := 68 + p

/-- Fetch entries and frame data ahead into the launch queue (R348). -/
def fetchLaunch : Nat → State → Nat → State
  | 0, s, _ => s
  | n + 1, s, p =>
    let r := launchRing p
    let x := s.eport p
    let idx := (s.get .ringProd r + x.queue.length) % 2 ^ 32
    if s.flag .lqEnable p && ringRuns s r && decide (x.queue.length < 32) && idx != s.get .ringCons r then
      let a := slotAddr s r idx
      let len := memNat s.host (a + 8) 2
      let e : Launch :=
        { slot := idx, tsReq := bitAt (memNat s.host (a + 10) 2) 0, tsId := memNat s.host (a + 12) 2,
          time := memNat s.host (a + 16) 8, frame := memBytes s.host (memNat s.host a 8) len }
      fetchLaunch n (s.setEport p { x with queue := x.queue ++ [e] }) p
    else s

/-- Fetch all the launch queue has room for. -/
def fetchAhead (s : State) (p : Nat) : State := fetchLaunch 32 s p

/-- Write an entry's status back (R348, R349). -/
def launchStatus (s : State) (p : Nat) (e : Launch) (status : Nat) : State :=
  { s with host := memWrite s.host (slotAddr s (launchRing p) e.slot + 14) (byteOf status) }

/-- The head entry is done: the module's index advances. -/
def launchDone (s : State) (p : Nat) (e : Launch) (status : Nat) : State :=
  let s1 := launchStatus s p e status
  let s2 := (s1.setEport p { s1.eport p with queue := (s1.eport p).queue.drop 1 }).put .ringProd (launchRing p)
    ((e.slot + 1) % 2 ^ 32)
  fetchAhead (ringAdvance s2 (launchRing p)) p

/-- Return the transmit time-stamp of a frame that asked for it (R344, R350). -/
def stampFrame (s : State) (p : Nat) (e : Launch) : State :=
  let x := s.eport p
  if !e.tsReq then s
  else if 16 ≤ x.txts.length then s.bump .txtsOvf p
  else
    let t := wrapTo 64 ((s.now : Int) + sext 16 (s.get .tsTxCorr p))
    fireVector (s.setEport p { x with txts := x.txts ++ [(e.tsId, t)] }) 0 4

/-- Send the head entry. -/
def sendHead (s : State) (p : Nat) (e : Launch) (late : Bool) : State :=
  let s1 := stampFrame s p e
  let s2 := (s1.setEport p { s1.eport p with sending := true }).emit (.frame p e.frame late)
  launchDone (if late then s2.bump .lqLate p else s2) p e (b2n late)

/-- Nanoseconds since an entry's launch time fell, by the signed 64-bit difference (R342). -/
def sinceLaunch (s : State) (e : Launch) : Int := sext 64 (wrapTo 64 ((s.now : Int) - e.time))

/-- Send, send late or drop what stands at the head of a launch queue (R348, R349). -/
def launchHead : Nat → State → Nat → State
  | 0, s, _ => s
  | n + 1, s, p =>
    let x := s.eport p
    let ready := s.flag .lqPcsReady p
    match x.queue with
    | [] => s
    | e :: _ =>
      if x.sending then s
      else if e.time = 0 then (if ready then sendHead s p e false else s)
      else if sinceLaunch s e < 0 then s
      else if ready && decide (sinceLaunch s e ≤ 8) then sendHead s p e false
      else if s.flag .lqLatePolicy p then (if ready then sendHead s p e true else s)
      else launchHead n (launchDone (s.bump .lqDropped p) p e 2) p

/-- Entries a launch queue can go through at once: what it holds and what a drop lets it fetch. -/
def launchFuel (s : State) (p : Nat) : Nat := (s.eport p).queue.length + ringFill s (launchRing p) + 1

/-- Serve a port's launch queue. -/
def serveLaunch (s : State) (p : Nat) : State := launchHead (launchFuel s p) s p

/-- LAUNCH_TIME_REACHED (R348, R349). -/
def execLaunchTimeReached (p : EPort) (s : State) : Answer := .next (serveLaunch s p.val)

/-- LAUNCH_FRAME_END (R348): the next head goes out directly after. -/
def execLaunchFrameEnd (p : EPort) (s : State) : Answer :=
  .next (serveLaunch (s.setEport p.val { s.eport p.val with sending := false }) p.val)

/-- PCS_READY (R349). -/
def execPcsReady (p : EPort) (s : State) : Answer := .next (serveLaunch (s.put .lqPcsReady p.val 1) p.val)

/-- PCS_NOT_READY (R349). -/
def execPcsNotReady (p : EPort) (s : State) : Answer := .next (s.put .lqPcsReady p.val 0)

/-- Remove the head transmit time-stamp (R350, R364). -/
def popStamp (s : State) (p : Nat) : State :=
  s.setEport p { s.eport p with txts := (s.eport p).txts.drop 1 }

/-- TXTS_POP (R350, R364); only PF0 reaches it (R353). -/
def execTxtsPop (fn : Fn) (p : EPort) (val : Word) (s : State) : Answer :=
  if fn.val = 0 ∧ bitAt val.toNat 0 = true then .next (overPcie s (popStamp s p.val))
  else .next s

/-- A WARM or wider reset empties a launch queue (R349): each entry gets status 0x02. -/
def emptyLaunch (s : State) (p : Nat) : State :=
  let s1 := (s.eport p).queue.foldl (fun s e => launchStatus s p e 2) s
  s1.setEport p EPortSt.reset

end Sys2Proof.Machine
end

