-- ==== Sys2Proof/Machine/HostIf.lean ====
section
/-! DEFINITION. The host interface: ring indices, command rings, the status block, crop pages, interrupts, and the
driver protocol (R354 to R367). -/

namespace Sys2Proof.Machine

/-! ### Rings (R354 to R356) -/

/-- The ring a function's write names: kinds 0 to 3 of its own, 4 and 5 PF0's launch rings; nothing where the function
has no such ring (R353, R367). -/
def hostRing (fn ring : Nat) : Option Nat :=
  if ring < 4 then (if ringExists (ringOf fn ring) then some (ringOf fn ring) else none)
  else if fn = 0 then some (64 + ring)
  else none

/-- The host's index moved (R354, R361): records that wait use the freed slots, launch entries are fetched. -/
def consWritten (s : State) (r v : Nat) : State :=
  let s1 := s.put .ringCons r v
  if 68 ≤ r then fetchAhead s1 (r - 68)
  else if r % 4 = 1 ∨ r % 4 = 3 then ringDrain drainFuel s1 r
  else s1

/-- RING_CONS_WRITE (R354). -/
def execRingConsWrite (fn : Fn) (ring : Fin 6) (val : Word) (s : State) : Answer :=
  match hostRing fn.val ring.val with
  | some r => .next (overPcie s (consWritten s r val.toNat))
  | none => .next s

/-- The sixteen words of a command-ring slot. -/
def slotWords (s : State) (a : Nat) : List Word :=
  (List.range 16).map (fun i => BitVec.ofNat 32 (memNat s.host (a + 4 * i) 4))

/-- COMMAND_RING_ENTRY (R356): the next entry goes to the firmware mailbox when that has room. -/
def execCommandRingEntry (fn : Fn) (s : State) : Answer :=
  let r := ringOf fn.val 0
  let idx := s.get .ringProd r
  if !ringRuns s r || idx == s.get .ringCons r then .next s
  else
    let p := postMessage s fn.val fn.val fn.val 64 false (slotWords s (slotAddr s r idx)) (some (BitVec.ofNat 32 idx))
    if p.1 = cOk then .next (p.2.put .ringProd r ((idx + 1) % 2 ^ 32)) else .next s

/-- The address of a function's status block (R366, R367). -/
def statusAddr (s : State) (fn : Nat) : Nat :=
  (if fn = 0 then s.get .pfStatusAddr 0 else s.get .winStatusAddr (fn - 1)) / 64 * 64

/-- The status block (R355, R367): producer indices of the verdict, crop and event rings, the consumer index of the
command ring, the device time. -/
def statusBlock (s : State) (fn : Nat) : List Byte :=
  let idx := fun kind => if fn = 0 ∧ (kind = 1 ∨ kind = 2) then 0 else s.get .ringProd (ringOf fn kind)
  padTo 64 (natLe 4 (idx 1) ++ natLe 4 (idx 2) ++ natLe 4 (idx 3) ++ natLe 4 (idx 0) ++ natLe 8 s.now)

/-- Whether a microsecond has passed since a function's status block was last written (R355). -/
def statusDue (s : State) (fn : Nat) : Bool :=
  match (s.ring (ringOf fn 3)).statusAt with
  | some t => decide (t + Config.k4PerUs ≤ s.clk)
  | none => true

/-- STATUS_BLOCK_WRITE (R355, R367): nothing until the function has set an address, and once a microsecond at most. -/
def execStatusBlockWrite (fn : Fn) (s : State) : Answer :=
  let a := statusAddr s fn.val
  let r := ringOf fn.val 3
  if a = 0 ∨ s.power ≠ .full ∨ !statusDue s fn.val then .next s
  else .next ({ s with host := memStore s.host a (statusBlock s fn.val) }.setRing r { s.ring r with statusAt := some s.clk })

/-! ### Crop pages (R358 to R360, R366) -/

/-- Deliver the page that is ready when the crop ring can take it. -/
def deliverReady (s : State) (k : Nat) : State :=
  match (s.context k).crop.held with
  | some p => if ringRuns s (cropRing k) && ringFree s (cropRing k) then deliverPage s k p else s
  | none => s

/-- CROP_PAGE_DELIVERY (R359). -/
def execCropPageDelivery (k : Ctx) (s : State) : Answer := .next (deliverReady s k.val)

/-- CROP_FLUSH_TIMEOUT (R358, R366): a partial page is sent CROP_FLUSH µs after its first record; with CROP_FLUSH 0 only
full pages are. -/
def execCropFlushTimeout (k : Ctx) (s : State) : Answer :=
  let x := s.context k.val
  match x.crop.filling, x.crop.held with
  | some p, none =>
    let us := s.get .winCropFlush k.val
    if us = 0 ∨ s.clk < p.since + Config.k4PerUs * us then .next s
    else .next (deliverReady (s.setCtx k.val { x with crop := { x.crop with
      filling := none, held := some { p with since := s.clk } } }) k.val)
  | _, _ => .next s

/-- PAGE_HOLD_TIMEOUT (R360): a page held for PAGE_HOLD µs is abandoned, its records are lost, and the next page begins
with a SPOIL record. -/
def execPageHoldTimeout (k : Ctx) (s : State) : Answer :=
  let x := s.context k.val
  match x.crop.held with
  | none => .next s
  | some p =>
    if s.clk < p.since + Config.k4PerUs * s.get .winPageHold k.val then .next s
    else .next (s.setCtx k.val { x with crop := ({ x.crop with
      held := none, abandoned := x.crop.abandoned + 1, lost := x.crop.lost + p.records,
      firstLost := some (x.crop.firstLost.getD p.seq) } : Crop).spoilNext k.val (pageRoom s k.val) })

/-! ### Interrupts (R362) -/

/-- INTERRUPT_INTERVAL (R362): an advance inside the interval fires at its end. -/
def execInterruptInterval (fn : Fn) (ring : Fin 6) (s : State) : Answer :=
  match hostRing fn.val ring.val with
  | none => .next s
  | some r =>
    match ringVector r with
    | none => .next s
    | some v =>
      let st := s.ring r
      if st.due then .next (fireVector (s.setRing r { st with due := false, fired := some s.clk }) (ringFn r) v)
      else .next s

/-! ### The driver protocol (R363) and undefined commands (R369) -/

/-- HELLO (R363): the highest version both ranges hold. -/
def execHello (r : Req) (driverMin driverMax : BitVec 16) (s : State) : Answer :=
  .next (firmware s r true true (fun s =>
    let f := senderFn s r.sender.toNat
    let lo := s.get .fwProto 0 % 65536
    let hi := s.get .fwProto 0 / 65536
    let v := min hi driverMax.toNat
    if s.flag .helloDone f then answer s r cBusy []
    else if v < lo ∨ v < driverMin.toNat then answer s r cVersion []
    else answer ((s.put .helloVer f v).put .helloDone f 1) r cOk [BitVec.ofNat 32 v]))

/-- The command codes the spec defines (R181, R251, R363, R391 to R412). -/
def definedCode (c : Nat) : Bool :=
  c == 0x01 || (decide (0x20 ≤ c) && decide (c ≤ 0x27)) || (decide (0x30 ≤ c) && decide (c ≤ 0x35)) ||
    (decide (0x40 ≤ c) && decide (c ≤ 0x48)) || c == 0x50

/-- UNDEFINED_COMMAND (R369): a defined code has a row of its own. -/
def execUndefinedCommand (r : Req) (code : BitVec 8) (s : State) : Answer :=
  if definedCode code.toNat then .next s
  else .next (firmware s r false false (fun s => answer s r cVersion [0xFFFFFFFF]))

/-- PCIE_PERST (R452): the endpoint's link is in reset and its configuration space cleared; no state of this model
changes. -/
def execPciePerst (s : State) : Answer := .next s

end Sys2Proof.Machine
end

