-- ==== Sys2Proof/Machine/Security.lean ====
section
/-! DEFINITION. Security and debug: firmware versions, keys, policy, lifecycle, debug sessions, option bytes (R391 to
R398, R407, R408). -/

namespace Sys2Proof.Machine

/-- Lifecycle codes (R395). -/
def lcBlank : Nat := 0
/-- OPEN. -/
def lcOpen : Nat := 1
/-- PROVISIONED. -/
def lcProvisioned : Nat := 2
/-- SEALED. -/
def lcSealed : Nat := 3

/-- The lifecycle state in force. -/
def lifecycle (s : State) : Nat := s.get .secLifecycle 0

/-- Whether authorisations are asked for: PROVISIONED and SEALED. -/
def needsAuth (s : State) : Bool := decide (lcProvisioned ≤ lifecycle s)

/-- Whether an authorisation holds: its slot verifies and it is bound to the command (R392 to R394, R408). -/
def authorised (s : State) (slot : Nat) (data auth : List Byte) : Bool :=
  keyUsable s slot && Config.authValid slot data auth

/-- FW_SVN_COMMIT (R391): the counter never falls. -/
def execFwSvnCommit (r : Req) (s : State) : Answer :=
  .next (firmware s r false false (fun s => pf0Only r s (fun s =>
    let n := max (s.get .secRollback 0) (s.get .secSvn 0)
    answer ({ s with fuses := { s.fuses with svn := n } }.put .secRollback 0 n) r cOk [])))

/-- KEY_ENROL (R392, R394). -/
def execKeyEnrol (r : Req) (slot : BitVec 8) (key auth : List Byte) (s : State) : Answer :=
  .next (firmware s r false false (fun s => pf0Only r s (fun s =>
    let n := slot.toNat
    let signer := if n = 1 then 0 else 1
    if 8 ≤ n then answer s r cCapability []
    else if s.flag .secAdvPending 0 || bitAt (s.get .secFilled 0) n then answer s r cBusy []
    else if needsAuth s && !authorised s signer (natLe 1 0x40 ++ natLe 1 n ++ key) auth then
      answer s r cSignature []
    else
      let f := s.get .secFilled 0 + 2 ^ n
      answer ({ s with fuses := { s.fuses with keys := s.fuses.keys.set n key, filled := f } }.put .secFilled 0 f) r
        cOk [])))

/-- KEY_REVOKE (R392); an empty slot has nothing to revoke and completes BUSY (log entry 34). -/
def execKeyRevoke (r : Req) (slot : BitVec 8) (s : State) : Answer :=
  .next (firmware s r false false (fun s => pf0Only r s (fun s =>
    let n := slot.toNat
    if 8 ≤ n then answer s r cCapability []
    else if !bitAt (s.get .secFilled 0) n then answer s r cBusy []
    else
      let v := s.get .secRevoked 0 ||| 2 ^ n
      answer ({ s with fuses := { s.fuses with revoked := v } }.put .secRevoked 0 v) r cOk [])))

/-- POLICY_SET (R393); a locked policy completes BUSY (log entry 34). -/
def execPolicySet (r : Req) (deviceTrained lock : Bool) (auth : List Byte) (s : State) : Answer :=
  .next (firmware s r false false (fun s => pf0Only r s (fun s =>
    let data := natLe 1 0x42 ++ natLe 1 (b2n deviceTrained + 2 * b2n lock)
    if s.flag .secLock 0 then answer s r cBusy []
    else if needsAuth s && !authorised s 1 data auth then answer s r cSignature []
    else
      answer (({ s with fuses := { s.fuses with trained := deviceTrained } }.put .secDevTrained 0
        (b2n deviceTrained)).put .secLock 0 (b2n lock)) r cOk [])))

/-! ### Lifecycle (R394) -/

/-- Void the debug token; without it PROVISIONED reaches boundary scan only (R398). -/
def voidToken (s : State) : State :=
  let s1 := s.put .secToken 0 0
  if lifecycle s = lcProvisioned then s1.put .secReach 0 0 else s1

/-- Blow the next lifecycle fuse and zeroise (R394). -/
def advanceTo (s : State) (target : Nat) : State :=
  let f := { s.fuses with
    lifecycle := target, keys := Tab.empty, filled := s.fuses.filled % 2, revoked := s.fuses.revoked % 2,
    trained := false, wrapGen := s.fuses.wrapGen + 1 }
  let s1 := voidToken { s with fuses := f }
  let s2 := (((s1.put .secFilled 0 (s.get .secFilled 0 % 2)).put .secRevoked 0 (s.get .secRevoked 0 % 2)).put
    .secDevTrained 0 0).put .secLock 0 0
  let s3 := (s2.put .secTarget 0 target).put .secAdvPending 0 1
  logEvent (if target = lcSealed then s3.put .secReach 0 0 else s3) 0x0052 (srcBlock 2) 0 [target, 0, 0, 0]

/-- LIFECYCLE_ADVANCE (R394). -/
def execLifecycleAdvance (r : Req) (target : Word) (uidLow : Word) (auth : List Byte) (s : State) : Answer :=
  .next (firmware s r false false (fun s => pf0Only r s (fun s =>
    let t := target.toNat
    let data := natLe 1 0x43 ++ natLe 4 t ++ natLe 4 uidLow.toNat
    if s.power ≠ .full then answer s r cBusy []
    else if uidLow.toNat ≠ s.get .secUid 0 ∨ t ≠ lifecycle s + 1 ∨ t = lcOpen ∨ lcSealed < t then
      answer s r cCapability []
    else if s.flag .secAdvPending 0 || (List.range 16).any (fun n => s.get .chState n == chRunning) then
      answer s r cBusy []
    else if t == lcSealed && bitAt (s.get .secFilled 0) 1 && !authorised s 1 data auth then answer s r cSignature []
    else answer (advanceTo s t) r cOk [])))

/-! ### Debug (R396 to R398) -/

/-- DEBUG_CHALLENGE (R397): a fresh nonce, a free value of 256 bits; the completion's detail words hold its first six
words (log entry 35). -/
def execDebugChallenge (r : Req) (s : State) : Answer :=
  .next (firmware s r false false (fun s => pf0Only r s (fun s =>
    let v := s.fresh 256
    answer { v.2 with mgmt := { v.2.mgmt with nonce := some v.1 } } r cOk
      ((List.range 6).map (fun i => BitVec.ofNat 32 (bitsAt v.1 (32 * i) 32))))))

/-- The unique identifier, lowest word first (R395). -/
def uidBytes (s : State) : List Byte := ((List.range 4).map (fun i => natLe 4 (s.get .secUid i))).flatten

/-- Whether a token verifies in PROVISIONED (R397). -/
def tokenGood (s : State) (t : List Byte) : Bool :=
  let num := fun o n => leNat ((t.drop o).take n)
  t.length == 160 && num 0 4 == 0x4B4F5444 && num 4 2 == 1 && (t.drop 8).take 16 == uidBytes s &&
    s.mgmt.nonce == some (num 24 32) && num 56 2 == 7 && num 58 6 == 0 && keyUsable s 7 &&
    Config.ecdsaVerify (keyBytes s 7) (t.take 64) (t.drop 64)

/-- The reach a power state gives at most beyond boundary scan (R398): M in Aux, M, D and L in Full. -/
def reachLimit (s : State) : Nat := if s.power = .full then 7 else if s.power = .aux then 1 else 0

/-- DEBUG_TOKEN (R394, R397, R398). -/
def execDebugToken (r : Req) (token : List Byte) (s : State) : Answer :=
  .next (firmware s r false false (fun s => pf0Only r s (fun s =>
    if s.flag .secAdvPending 0 then answer s r cBusy []
    else if lifecycle s ≤ lcOpen then answer s r cOk []
    else if lifecycle s = lcProvisioned ∧ tokenGood s token then
      let reach := leNat ((token.drop 6).take 2) &&& reachLimit s
      answer ((s.put .secToken 0 1).put .secReach 0 reach) r cOk []
    else answer s r cSignature [])))

/-- DEBUG_SESSION_OPEN (R396, R398): BLANK and OPEN reach what the power state gives. -/
def execDebugSessionOpen (s : State) : Answer :=
  if s.power = .off then .next s
  else
    let s1 := s.put .secSession 0 1
    let s2 := if lifecycle s ≤ lcOpen ∧ !(s.flag .secAdvPending 0 ∧ s.get .secTarget 0 = lcSealed) then
      s1.put .secReach 0 (reachLimit s) else s1
    .next (logEvent s2 0x0051 (srcBlock 2) 0 [1, 0, 0, 0])

/-- DEBUG_END (R397, R398). -/
def execDebugEnd (r : Req) (s : State) : Answer :=
  .next (firmware s r false false (fun s => pf0Only r s (fun s =>
    let s1 := voidToken s
    if s.flag .secSession 0 then
      answer (logEvent (s1.put .secSession 0 0) 0x0051 (srcBlock 2) 0 [0, 0, 0, 0]) r cOk []
    else answer s1 r cOk [])))

/-- DEBUG_HALT (R182, R396): the debugger, with data-plane reach, halts a running sequencer; a halted line sequencer
halts its chase, whose items become orphans. -/
def execDebugHalt (q : SeqId) (s : State) : Answer :=
  let n := q.chase.val
  let c := s.chase n
  let x := c.seq q.core
  if !s.flag .secSession 0 || !bitAt (s.get .secReach 0) 1 || x.run != .running then .next s
  else
    let c1 := c.setSeq q.core { x with run := .halted, wait := .none, debugged := true }
    if q.core.isNone then .next ((s.setChase n c1.orphanAll).put .chState n chHalted)
    else .next (s.setChase n c1)

/-! ### Option bytes (R407, R408) -/

/-- OPT_PROGRAM (R408): bits only go from 0 to 1; bits from 5 up are reserved. -/
def execOptProgram (r : Req) (bit count : Word) (auth : List Byte) (s : State) : Answer :=
  .next (firmware s r false false (fun s => pf0Only r s (fun s =>
    let data := natLe 1 0x48 ++ natLe 4 bit.toNat ++ natLe 4 count.toNat
    if 5 < bit.toNat + count.toNat ∨ 5 ≤ bit.toNat ∨ lifecycle s = lcSealed then answer s r cCapability []
    else if lifecycle s == lcProvisioned && !authorised s 1 data auth then answer s r cSignature []
    else
      let bits := (List.range count.toNat).foldl (fun t i => t.set (bit.toNat + i) true) s.fuses.optBits
      answer { s with fuses := { s.fuses with optBits := bits } } r cOk [])))

end Sys2Proof.Machine
end

