-- ==== Sys2Proof/Machine/Resets.lean ====
section
/-! DEFINITION. The reset kinds, generations and teardown (R406, R409 to R412, R418, R419), and the function level
resets (R352). -/

namespace Sys2Proof.Machine

/-! ### Register sets in a reset's reach (R8, R409) -/

/-- Bases of the register sets that hold one set per context. -/
def ctxBases : List Nat := [0x402000, 0x501000, 0x502000, 0x601000, 0x70B000, 0xA03000, 0xC00140, 0xC001C0]

/-- Bases of the register sets that hold one set per chase. -/
def chaseBases : List Nat := [0x503000, 0x70A000, 0x70E000, 0x70F000, 0x802000, 0xC00100, 0xC00180]

/-- The registers a CONTEXT reset reaches. -/
def ctxReach (k : Nat) (f : Fld) (i : Nat) : Bool := ctxBases.contains f.info.base && i == k

/-- The registers a CHASE reset reaches: the chase's, its cores' and its clusters' (log entry 36). -/
def chaseReach (n : Nat) (cores : List Nat) (f : Fld) (i : Nat) : Bool :=
  let b := f.info.base
  let clusters := cores.map clusterOf
  (chaseBases.contains b && i == n) || (b == 0x70C000 && cores.contains i) || (b == 0x70D000 && clusters.contains i) ||
    (b == 0x70D010 && clusters.contains (i / 2))

/-- Complete a request that a reset of its receiver discards (R375). -/
def discardReq (s : State) (r : Req) : State :=
  let m := fwMbox s r.sender.toNat
  (answer s r cReceiverReset [BitVec.ofNat 32 (s.get .mbxRxGen m)]).bump .mbxDiscarded m

/-! ### CONTEXT (R418) -/

/-- A sequencer that waits on a slot whose context is reset goes on with status 3 (R418). -/
def Seq.slotReset (x : Seq) (slot : Nat) : Seq :=
  match x.wait with
  | .waitl sl _ sd pdst _ => if sl = slot then x.waitDone sd pdst 3 0 true else x
  | .waite sl _ sd pdst _ => if sl = slot then x.waitDone sd pdst 3 0 false else x
  | _ => x

/-- A context's items become orphans, and the waits on its slot end (R418). -/
def orphanCtx (s : State) (k : Nat) : State :=
  if !s.flag .ctxBound k then s
  else
    let n := s.get .ctxChase k
    let slot := s.get .ctxSlot k
    let c := s.chase n
    s.setChase n { c with
      items := ⟨c.items.entries.map (fun e =>
        (e.1, e.2.map (fun it => if it.ctx = k then { it with orphan := true } else it)))⟩,
      line := c.line.slotReset slot, streams := ⟨c.streams.entries.map (fun e => (e.1, e.2.slotReset slot))⟩ }

/-- Queued camera requests carry a stale generation now (R376). -/
def staleControls (s : State) (k : Nat) : State :=
  let q := (s.context k).ctrlQueue
  q.foldl (fun s c => answer s c.req cStaleGen [BitVec.ofNat 32 (s.get .genCtx k)])
    (s.setCtx k { s.context k with ctrlQueue := [] })

/-- The rings of the chase a context is bound to wait for their first line again (R87). -/
def forgetCtxLines (s : State) (k : Nat) : State :=
  if s.flag .ctxBound k then forgetLines s (s.get .ctxChase k) else s

/-- The start of a context's teardown (R418): a new generation, no new issue, applies and one-shots discarded, quoins
BROKEN, items orphaned; the desync mark of R220 and a replay end, the peak starts at the occupancy (R239, R275).  Settle
ranges of requests already sent run on (R222). -/
def drainCtx (s : State) (k : Nat) : State :=
  let s1 := forgetCtxLines (nextCtxGen s k) k
  let s2 := staleControls (orphanCtx (disarmOneShots (discardApplies (s1.put .genDraining k 1) k) k) k) k
  let x := joinTriggered (s2.context k)
  (s2.setCtx k { x with resetting := true, desync := false, replay := none }).put .galPeak k x.slots.length

/-- The start of a CONTEXT reset (R8, R418): the context's registers, then its teardown. -/
def teardownCtx (s : State) (k : Nat) : State := drainCtx (s.resetRegs (fun a => a.ctx) (ctxReach k)) k

/-- Answer the RESET commands that wait for a unit's reset to end (R411, R412). -/
def answerResets (s : State) (unit : Nat) : State :=
  let mine := s.mgmt.resetReqs.filter (fun e => e.1 == unit)
  mine.foldl (fun s e => answer s e.2 cOk [])
    { s with mgmt := { s.mgmt with resetReqs := s.mgmt.resetReqs.filter (fun e => e.1 != unit) } }

/-- Whether a sort of a context still awaits its reply. -/
def ctxSort (k : Nat) (x : SortOut) : Bool := x.awaits && x.hdr.context.toNat == k

/-- Serve a context again (R233, R418): its galley is empty, its late window counts anew. -/
def serveCtx (s : State) (k : Nat) : State :=
  let s1 := emptyGalley s k
  (s1.setCtx k { s1.context k with resetting := false, quiet := lateLines s1 k }).put .genDraining k 0

/-- The end of a context's drain (R418): sorts still outstanding are abandoned, which sets forced. -/
def endCtx (s : State) (k : Nat) : State :=
  let n := s.get .ctxChase k
  let left := s.flag .ctxBound k && (s.chase n).sorts.any (ctxSort k)
  let s1 := if left then (markMissing s n cNoExpert (ctxSort k)).put .genForced k 1 else s
  answerResets (serveCtx s1 k) (16 + k)

/-! ### CHASE (R409, R416, R418) -/

/-- Zero the SRAM of cores. -/
def zeroSram (s : State) (cores : List Nat) : State :=
  cores.foldl (fun s c => { s with sram := memZero s.sram (sramAddr c 0) (sramAddr c 0 + 0x400000) }) s

/-- Cores a chase runs on, its standby cores included. -/
def Chase.allCores (c : Chase) : List Nat := c.cores ++ c.standby

/-- The start of a CHASE reset (R124, R253, R293, R409, R418, R12): sequencers, SRAM and rings are lost, items become
orphans, inbound sorts are answered, copies stop ISOLATED (R96); a load under way completes RECEIVER_RESET. -/
def resetChase (s : State) (n : Nat) : State :=
  let engines := copiesOf s n (fun _ => true)
  let s1 := stopCopies (answerInbound (dropPatch (restorePrior s n) n) n) n (fun _ => true)
  let c := s1.chase n
  let s2 := match c.load with
    | some l => answer s1 l.req cReceiverReset [BitVec.ofNat 32 (s1.get .mbxRxGen (fwMbox s1 l.req.sender.toNat))]
    | none => s1
  let s3 := (boundTo s2 n).foldl (fun s k => disarmOneShots (discardApplies s k) k) s2
  let s4 := nextChaseGen (endCopies (zeroSram (s3.resetRegs (fun a => a.chs) (chaseReach n c.allCores)) c.allCores) engines
    1) n
  leaveImposition ((s4.setChase n { c.orphanAll.zeroed with
    load := none, trainer := none, failPlace := none, draining := true, reloading := false,
    restart := s.flag .supAutoStart 0 }).put .chState n (if c.forme.isSome then chLoading else chEmpty)) n

/-- Whether every core the placement in use needs is present (R202). -/
def placementPresent (s : State) (n : Nat) : Bool :=
  match placementNow s n with
  | none => true
  | some p =>
    (List.range 32).all (fun l => p.map.getD l 0xFF == 0xFF || s.flag .fpcPresent (servingCore s n l))

/-- The end of a chase's drain (R418): its forme is reloaded, unless the placement needs a fenced core (R202, R415). -/
def endChase (s : State) (n : Nat) : State :=
  let c := s.chase n
  let s1 := s.setChase n { c with draining := false }
  if c.forme.isNone then answerResets (s1.put .chState n chEmpty) n
  else if placementPresent s1 n then s1.setChase n { s1.chase n with reloading := true }
  else answerResets (dropForme s1 n) n

/-- CHASE_RELOAD_DONE (R183, R416): the digest decides; auto_start starts the chase. -/
def execChaseReloadDone (n : ChaseNo) (s : State) : Answer :=
  let k := n.val
  let c := s.chase k
  if !c.reloading then .next s
  else match c.forme with
    | none => .next s
    | some f =>
      let s1 := s.setChase k { c with reloading := false, restart := false }
      if Config.sha384 (memBytes s.lpddr f.addr f.size) ≠ f.digest ∨ !placementPresent s k then
        .next (answerResets (dropForme s1 k) k)
      else
        let s2 := (copyImage s1 k).put .chState k chStopped
        .next (answerResets (if c.restart then (startChase s2 k).2 else s2) k)

/-- TEARDOWN_DRAIN_END (R418). -/
def execTeardownDrainEnd (u : GenUnit) (s : State) : Answer :=
  match u with
  | .context k => if (s.context k.val).resetting && s.mgmt.hold == .none then .next (endCtx s k.val) else .next s
  | .chase n => if (s.chase n.val).draining then .next (endChase s n.val) else .next s

/-- STALE_ARRIVAL (R419): an arrival of another generation is dropped and counted. -/
def execStaleArrival (u : GenUnit) (gen : BitVec 8) (s : State) : Answer :=
  match u with
  | .context k =>
    if gen.toNat = s.get .genCtx k.val then .next s else .next (s.bump .genStaleCtx k.val)
  | .chase n =>
    if gen.toNat = s.get .genChase n.val then .next s else .next (s.bump .genStaleChase n.val)

/-- GATE_STOP_FORCED (R406): a held stop is forced; what it would end has ended with the fence or reset (log entry 106). -/
def execGateStopForced (s : State) : Answer := .next (s.bump .gateForced 0)

/-! ### FABRIC (R233, R287, R409, R410) -/

/-- Empty one chase (R196, R409): its monitor is emptied, its forme removed, its generation moves on. -/
def clearChase (s : State) (n : Nat) : State :=
  let s1 := emptyMonitor s n
  let s2 := match (s1.chase n).load with
    | some l => answer s1 l.req cReceiverReset [BitVec.ofNat 32 (s1.get .mbxRxGen (fwMbox s1 l.req.sender.toNat))]
    | none => s1
  let s3 := leaveImposition (nextChaseGen (dropForme s2 n) n) n
  s3.setChase n { s3.chase n with draining := false, reloading := false, restart := false }

/-- The fabric's contents are lost: chases, sequencers, core SRAM and instruction stores, fire queues, outputs, the link
layer (R287, R409). -/
def clearFabric (s : State) : State :=
  let s1 := (List.range 16).foldl clearChase s
  let s2 := { s1 with sram := [], istore := [], fqs := .empty }
  (List.range 4).foldl clearLink (outputsOff s2)

/-- Answer every RESET command that waits. -/
def answerAllResets (s : State) : State :=
  s.mgmt.resetReqs.foldl (fun s e => answer s e.2 cOk []) { s with mgmt := { s.mgmt with resetReqs := [] } }

/-- The copy engines at work for any chase. -/
def copiesAll (s : State) : List Nat := (List.range 16).flatMap (fun n => copiesOf s n (fun _ => true))

/-- The start of a FABRIC reset (R8, R96, R233, R287, R409): every context is torn down as by a CONTEXT reset, but for the
fields FABRIC keeps; copies end ISOLATED. -/
def fabricReset (s : State) : State :=
  let s1 := (List.range 16).foldl drainCtx (clearFabric s)
  let s2 := (List.range 16).foldl (fun s k => s.put .galPeak k (s.context k).slots.length)
    (endCopies (s1.resetRegs (fun a => a.fab) (fun _ _ => true)) (copiesAll s) 1)
  { s2 with mgmt := { s2.mgmt with hold := .fabric } }

/-- FABRIC_RESET_END (R287, R409): the contexts are served again, the link layer restarts with a new generation. -/
def execFabricResetEnd (s : State) : Answer :=
  if s.mgmt.hold ≠ .fabric ∨ s.get .modService 0 = svcFailed then .next s
  else
    let s1 := { s with mgmt := { s.mgmt with hold := .none } }
    let s2 := (List.range 16).foldl (fun s k => if (s.context k).resetting then serveCtx s k else s) s1
    let s3 := (List.range 4).foldl (fun s p => (clearLink s p).setPort p { (clearLink s p).port p with lastGen := none }) s2
    .next (answerAllResets (s3.put .rhGen 0 ((s3.get .rhGen 0 + 1) % 256)))

/-! ### WARM, and the drop to Aux (R375, R409, R410) -/

/-- The requests firmware holds: loads, patches, applies, stages, camera control, resets. -/
def heldRequests (s : State) : List Req :=
  let ofChase := fun (c : Chase) => (c.load.map (fun l => l.req)).toList
  let ofCtx := fun (x : Context) =>
    x.stages.map (fun e => e.req) ++ (x.ctrl.map (fun c => c.req)).toList ++ x.ctrlQueue.map (fun c => c.req)
  s.chases.entries.flatMap (fun e => ofChase e.2) ++ s.ctxs.entries.flatMap (fun e => ofCtx e.2) ++
    s.mgmt.resetReqs.map (fun e => e.2)

/-- The receivers of mailboxes 0 to 16 are reset (R375): what waits and what was taken completes RECEIVER_RESET, before
the rings are lost. -/
def resetFirmware (s : State) : State :=
  let reqs := heldRequests s
  let s1 := (List.range 17).foldl resetReceiver s
  let s2 := reqs.foldl discardReq s1
  { s2 with
    chases := ⟨s2.chases.entries.map (fun e => (e.1, { e.2 with load := none }))⟩,
    ctxs := ⟨s2.ctxs.entries.map (fun e => (e.1, { e.2 with stages := [], ctrl := none, ctrlQueue := [] }))⟩,
    mgmt := { s2.mgmt with resetReqs := [] } }

/-- What WARM and Aux lose beyond a FABRIC reset (R347, R349, R398, R409, R410): contexts and chases are unconfigured,
galleys and host rings gone, the field side in its safe state, launch queues emptied. -/
def loseWarm (s : State) : State :=
  let s1 := resetFirmware s
  let s2 := nextGeneration (nextGeneration s1 .genPf0 0 0) .mbxRxGen 0 63
  let s3 := (List.range 16).foldl (fun s k => nextCtxGen (discardApplies s k) k) s2
  let s4 := clearFabric s3
  let s5 := barrierStop ((List.range 2).foldl emptyLaunch s4)
  let s5a := if s5.flag .secSession 0 then logEvent s5 0x0051 (srcBlock 2) 0 [0, 0, 0, 0] else s5
  let s6 := s5a.resetRegs (fun a => a.warm) (fun _ _ => true)
  { s6 with
    galley := [], chases := .empty, ctxs := .empty, ports := .empty, lineRd := .empty, rings := .empty,
    mgmt := { s6.mgmt with hold := .warm, arm := none, nonce := none, findings := none, laneTop := .empty } }

/-- A WARM reset (R409); in Aux it resets the management core only (R389). -/
def warmReset (s : State) : State :=
  if s.power = .full then loseWarm s else resetFirmware s

/-! ### PIN (R288, R409, R410, R452) -/

/-- The fuse loader (R28, R395, R407): the registers that show fuses, the key store and the option bytes. -/
def loadFuses (s : State) : State :=
  let f := s.fuses
  let opt := ((List.range 5).map (fun i => b2n (f.optBits.get false i) * 2 ^ i)).sum
  (((s.put .optShadow 0 opt).put .clkOscEn 0 (1 - bitsAt opt 4 1)).put .secRollback 0 f.svn).put .rhModule 0
    s.mgmt.slotPins.toNat

/-- What the field side keeps when its link starts anew and the die's side is lost: its supply and its configuration
(R323, R324). -/
def fieldKept (b : Barrier) : Barrier :=
  { Barrier.reset with
    supply := b.supply, cfgRecs := b.cfgRecs, cfgGens := b.cfgGens, cfgApplied := b.cfgApplied, cfgEcho := b.cfgEcho,
    run := b.run + 1 }

/-- A PIN reset (R8, R349, R409, R410): everything but what the PIN column keeps; the launch entries get status 0x02.  A
power-cycle request and alert cause 0 hold until POWER (R390, R417); TRAY_REQ shows the request again when RST_N is
released (log entry 61). -/
def pinReset (s : State) (slotId : BitVec 4) : State :=
  let s0 := outputsOff ((List.range 2).foldl emptyLaunch s)
  let s1 := s0.resetRegs (fun a => a.pin) (fun _ _ => true)
  loadFuses { State.reset with
    pending := s.pending, power := s.power, clk := s.clk, regs := s1.regs, pairLatch := s1.pairLatch,
    pairLo := s1.pairLo, host := s0.host, fuses := s.fuses, tx := s0.tx, free := s.free,
    barrier := fieldKept s.barrier,
    mgmt := { Mgmt.reset with
      hold := .pin, slotPins := slotId, tray := s.mgmt.tray, alerts := s.mgmt.alerts &&& 1 } }

/-- PIN_RESET (R409, R411): RST_N turns any other reset into a PIN reset; in Off there is nothing to reset. -/
def execPinReset (slotId : BitVec 4) (s : State) : Answer :=
  if s.power = .off then .next s else .next (pinReset s slotId)

/-! ### RESET (R411, R412) -/

/-- Whether a requester may command a reset (R412). -/
def mayReset (s : State) (r : Req) (t : ResetTarget) : Bool :=
  let f := senderFn s r.sender.toNat
  f == 0 ||
    (match t with
     | .chase n => s.flag .chPresent n.val && s.get .chOwner n.val == f
     | .context k => k.val + 1 == f
     | _ => false)

/-- Whether a reset of equal or wider reach covers a target now (R411). -/
def coveredBy (s : State) (t : ResetTarget) : Bool :=
  match t, s.mgmt.hold with
  | _, .warm => true
  | _, .pin => true
  | _, .thermal _ => true
  | .warm, .fabric => false
  | _, .fabric => true
  | .chase n, .none => (s.chase n.val).draining || (s.chase n.val).reloading
  | .context k, .none => (s.context k.val).resetting
  | _, .none => false

/-- Keep a RESET command until its unit's reset ends. -/
def awaitReset (s : State) (unit : Nat) (r : Req) : State :=
  { s with mgmt := { s.mgmt with resetReqs := s.mgmt.resetReqs ++ [(unit, r)] } }

/-- The unit number a waiting RESET command is kept under: chases 0 to 15, contexts 16 to 31, the module 32. -/
def resetUnit : ResetTarget → Nat
  | .chase n => n.val
  | .context k => 16 + k.val
  | _ => 32

/-- Perform a reset. -/
def performReset (s : State) (t : ResetTarget) : State :=
  match t with
  | .warm => warmReset s
  | .fabric => fabricReset s
  | .chase n => resetChase s n.val
  | .context k => teardownCtx s k.val

/-- RESET (R411, R412): an absorbed request completes when the reset that covers it ends; WARM and FABRIC complete before
they take hold, CHASE and CONTEXT when they have ended.  A CHASE reset of an absent chase completes BUSY (log entry
36). -/
def execReset (r : Req) (t : ResetTarget) (s : State) : Answer :=
  .next (firmware s r true false (fun s =>
    if !mayReset s r t then answer s r cIsolated []
    else if coveredBy s t then awaitReset s (resetUnit t) r
    else match t with
      | .warm => performReset (answer s r cOk []) t
      | .fabric => performReset (answer s r cOk []) t
      | .chase n =>
        if s.flag .chPresent n.val then awaitReset (performReset s t) (resetUnit t) r else answer s r cBusy []
      | .context _ => awaitReset (performReset s t) (resetUnit t) r))

/-! ### Function level resets (R352, R375, R382) -/

/-- Clear the ring sets and the driver state of a function. -/
def clearRingsOf (s : State) (fn : Nat) : State :=
  let rs := (List.range 4).map (ringOf fn) ++ (if fn = 0 then [68, 69] else [])
  let base := fun (f : Fld) => f.info.base
  let hit := fun (f : Fld) (i : Nat) =>
    (decide (ringSpace ≤ base f) && decide (base f < ringSpace + 0x1000) && rs.contains i) ||
      (base f == 0x10000000 && i + 1 == fn) || (fn == 0 && f == .pfStatusAddr)
  let s1 := s.resetRegs (fun _ => false) hit
  let s2 := rs.foldl (fun s r => s.setRing r RingSt.reset) s1
  let s3 := (s2.put .helloDone fn 0).put .helloVer fn 0
  if fn = 0 then s3 else s3.setCtx (fn - 1) { s3.context (fn - 1) with crop := Crop.reset }

/-- The general mailboxes a function receives are reset (R375). -/
def resetGranted (s : State) (fn : Nat) : State :=
  (List.range 15).foldl (fun s g =>
    if s.flag .mbxGrantEn g && s.get .mbxGrantFn g == fn then resetReceiver s (17 + g) else s) s

/-- VF_FLR (R352): the rings first, so that nothing more is written to the function's memory (R361, R376); then the
CONTEXT reset, unless one runs already. -/
def execVfFlr (k : Ctx) (s : State) : Answer :=
  let s1 := resetGranted (clearRingsOf s (k.val + 1)) (k.val + 1)
  .next (overPcie s (if coveredBy s1 (.context k) then s1 else teardownCtx s1 k.val))

/-- PF0_FLR (R352, R372): the rings of every function are cleared, PF0's generation moves on, a FABRIC reset is
performed. -/
def execPf0Flr (s : State) : Answer :=
  let s1 := (List.range 17).foldl clearRingsOf s
  let s2 := nextGeneration (resetGranted s1 0) .genPf0 0 0
  .next (overPcie s (if coveredBy s2 .fabric then s2 else fabricReset s2))

end Sys2Proof.Machine
end

