-- ==== Sys2Proof/Machine/Fabric.lean ====
section
/-! DEFINITION. Fences and failovers (R78, R79, R107 to R109, R112 to R115, R190, R201, R202), the floor plan and the
service state that follow them (R27, R431 to R434, R436). -/

namespace Sys2Proof.Machine

/-! ### MODULE_STATUS, the service state and the floor plan -/

/-- The fields of MODULE_STATUS a host reads (R27). -/
def moduleStatus (s : State) : List Nat :=
  [s.get .modService 0, s.get .modLevelOk 0, s.get .modLevelFault 0, s.get .modFailoverSeen 0]

/-- Fire PF0's vector 5 when MODULE_STATUS has changed (R362). -/
def statusChanged (before after : State) : State :=
  if moduleStatus before = moduleStatus after then after else fireVector after 0 5

/-- Add or remove alert causes; SMB_ALERT_N follows (R390). -/
def setAlerts (s : State) (v : BitVec 4) : State :=
  let s1 := { s with mgmt := { s.mgmt with alerts := v } }
  if (s.mgmt.alerts == 0) == (v == 0) then s1 else s1.emit (.alert (v == 0))

/-- Set one alert cause (R390). -/
def raiseAlert (s : State) (cause : Nat) : State := setAlerts s (s.mgmt.alerts ||| BitVec.ofNat 4 (2 ^ cause))

/-- Whether the barrier link has passed 64 consecutive good frames in each direction (R432). -/
def barrierGood (s : State) : Bool := decide (64 ≤ s.barrier.upGood) && !s.barrier.fieldSafe

/-- Cores present. -/
def coresPresent (s : State) : List Nat := (List.range 32).filter (fun c => s.flag .fpcPresent c)

/-- Whether the floor plan holds everything READY asks (R431). -/
def fullSet (s : State) : Bool :=
  (List.range 32).all (fun c => s.flag .fpcPresent c && s.get .fpcEngines c == 4) && s.get .fpGalleyMib 0 == 32 &&
    s.get .fpLpddr 0 == 0xF

/-- Whether the minimum service set is there (R432). -/
def minimumSet (s : State) : Bool :=
  !s.mgmt.bootFailed && rootLocked s && s.get .fpLpddr 0 != 0 && !(coresPresent s).isEmpty &&
    decide (8 ≤ s.get .fpGalleyMib 0) &&
    ((s.mgmt.findings.map (fun f => f.lanesCxp != 0)).getD false) && barrierGood s

/-- FP_SUMMARY follows the cores (R436). -/
def updateSummary (s : State) : State :=
  let l := coresPresent s
  let s1 := (s.put .fpCores 0 l.length).put .fpEngines 0 (l.map (fun c => s.get .fpcEngines c)).sum
  s1.put .fpReduced 0 (b2n !fullSet s)

/-- Enter FAILED (R433): the fabric is held in reset, the field side in its safe state, alert cause 2 is set. -/
def enterFailed (s : State) (reason : Nat) : State :=
  let s1 := barrierStop (if s.power = .full ∧ s.mgmt.hold = .none then fabricReset s else s)
  raiseAlert ((s1.put .modService 0 svcFailed).put .buFailReason 0 reason) 2

/-- Set service_state from the floor plan (R431). -/
def setService (s : State) : State :=
  statusChanged s
    (if fullSet s && minimumSet s then s.put .modService 0 svcReady
     else if minimumSet s then s.put .modService 0 svcReduced
     else enterFailed s 4)

/-- What follows every fence (R431, R436). -/
def afterFence (s : State) : State :=
  let s1 := updateSummary s
  if serving s1 then setService s1 else s1

/-! ### Cores and the chases that use them -/

/-- Whether a core is in service. -/
def coreRuns (s : State) (c : Nat) : Bool := s.power == .full && s.mgmt.hold == .none && s.flag .fpcPresent c

/-- The chase a core belongs to, or that has reserved it. -/
def chaseOf (s : State) (c : Nat) : Option Nat :=
  (List.range 16).find? (fun n => s.flag .chPresent n && (s.chase n).allCores.contains c)

/-- The logical core of a chase that a core serves in the placement in use (R176). -/
def logicalOf (s : State) (n c : Nat) : Option Nat :=
  match placementNow s n with
  | none => none
  | some p => (List.range 32).find? (fun l => p.map.getD l 0xFF != 0xFF && servingCore s n l == c)

/-- The number of a core among the 36 physical ones. -/
def physicalOf (s : State) (c : Nat) : Nat := 9 * (c / 8) + s.get .fpcPhysical c

/-- The placement entry that answers the loss of a logical core, if every core it needs is there (R176, R202). -/
def alternateFor (s : State) (n l lost : Nat) : Option Nat :=
  let c := s.chase n
  ((c.forme.map (fun f => f.placements)).getD []).zipIdx.findSome? (fun e =>
    if e.2 != 0 && e.1.answers == l && (List.range 32).all (fun i => e.1.map.getD i 0xFF == 0xFF ||
        (servedIn c e.2 e.1 i != lost && s.flag .fpcPresent (servedIn c e.2 e.1 i)))
    then some e.2 else none)

/-! ### Fences (R107, R109, R112) -/

/-- The engine map's slot fields. -/
def slotField : Nat → Fld
  | 0 => .engMap0
  | 1 => .engMap1
  | 2 => .engMap2
  | _ => .engMap3

/-- The slot an engine serves. -/
def slotOf (s : State) (c e : Nat) : Option Nat :=
  (List.range 4).find? (fun i => decide (i < s.get .fpcEngines c) && s.get (slotField i) c == e)

/-- No engine (R112). -/
def noEngine : Nat := 7

/-- Disable an engine and record the fence (R107, R112). -/
def disableEngine (s : State) (c e : Nat) : State :=
  let s1 := s.put .engDisabled c (s.get .engDisabled c ||| 2 ^ e)
  { s1 with mgmt := { s1.mgmt with fencedEng := (physicalOf s c, e) :: s1.mgmt.fencedEng } }

/-- Stop the chase a fence interrupts (R201): its stream sequencers no longer issue, its open items are orphans (R196). -/
def interrupt (s : State) (n : Nat) (place : Option Nat) : State :=
  (s.setChase n { (s.chase n).orphanAll with failPlace := place }).put .chState n chFailover

/-- Whether the work of a unit reads or writes a core's SRAM. -/
def meetsCore (c : Nat) (b : Busy) : Bool :=
  (b.reads ++ b.writes).any (Span.meets (0, sramAddr c 0, sramAddr c 0 + 0x400000))

/-- Copies that meet a core with something fenced in it complete ISOLATED (R96, R201). -/
def isolateCore (s : State) (c : Nat) : State :=
  (List.range 16).foldl (fun s n => isolateCopies s n (meetsCore c)) s

/-- Interrupt the chase of a core, if it runs on it. -/
def interruptUser (s : State) (c : Nat) : State :=
  match chaseOf s c with
  | some n => if s.get .chState n == chRunning && (logicalOf s n c).isSome then interrupt s n none else s
  | none => s

/-- Fence an engine (R96, R109, R110, R201): transfers to its core end ISOLATED, its slot moves to the spare; a spare that
fails is only disabled. -/
def fenceEngine (s : State) (c e : Nat) : State :=
  let spare := s.get .engSpare c
  let gone := fun (s : State) => ((disableEngine s c e).put .engSpare c noEngine).put .fpcSpare c 0
  match slotOf s c e with
  | some i => afterFence (interruptUser (isolateCore (((gone s).put (slotField i) c spare).put .engRemapped c 1) c) c)
  | none => if spare = e then afterFence (gone s) else s

/-- Take a core out of the floor plan and record the fence (R107, R434). -/
def removeCore (s : State) (c : Nat) : State :=
  let s1 := { s with mgmt := { s.mgmt with fenced := physicalOf s c :: s.mgmt.fenced } }
  isolateCore (s1.put .fpcPresent c 0) c

/-- Switch a placement in (R201, R205, R206). -/
def switchPlacement (s : State) (n pi : Nat) : State :=
  let c := s.chase n
  let cycles := ((c.forme.bind (fun f => f.placements[pi]?)).map (fun p => p.bandCycles)).getD 0
  (((s.setChase n { c with failPlace := none }).put .chPlacement n pi).put .chAltUsed n 1).put .bandCycles n cycles

/-- Fence a core (R79, R201): a running chase enters FAILOVER, one that is not running changes its placement at once
(log entry 37). -/
def fenceCore (s : State) (c : Nat) : State :=
  match chaseOf s c with
  | none => afterFence (removeCore s c)
  | some n =>
    match logicalOf s n c with
    | none => afterFence (removeCore s c)
    | some l =>
      match alternateFor s n l c with
      | none => afterFence (removeCore s c)
      | some pi =>
        let s1 := removeCore (s.setChase n { s.chase n with failedOver := l :: (s.chase n).failedOver }) c
        afterFence (if s.get .chState n == chRunning then interrupt s1 n (some pi) else switchPlacement s1 n pi)

/-- Whether failover can cure the loss of a core (R202): a chase in FAILOVER, or one that has used its alternate, has
none left. -/
def curableCore (s : State) (c : Nat) : Bool :=
  match chaseOf s c with
  | none => true
  | some n =>
    match logicalOf s n c with
    | none => s.get .chState n != chFailover
    | some l => s.get .chState n != chFailover && !s.flag .chAltUsed n && (alternateFor s n l c).isSome

/-- Whether fencing an engine cures its fault (R109, R202): its core's spare takes its slot, or it serves none. -/
def curableEngine (s : State) (c e : Nat) : Bool :=
  let inFailover := ((chaseOf s c).map (fun n => s.get .chState n == chFailover)).getD false
  !inFailover && ((slotOf s c e).isNone || s.get .engSpare c != noEngine)

/-! ### FAILOVER_COMPLETE (R27, R201, R206) -/

/-- A stream sequencer that executed HALT stays halted: only a chase restart starts it again (R141). -/
def keepHalted (old new : Tab Seq) : Tab Seq :=
  (old.entries.filter (fun e => e.2.run == .halted)).foldl (fun t e => t.set e.1 e.2) new

/-- Put the stream sequencers at the band entry of the placement in use; the line sequencer and the stream sequencers that
halted keep their state (R141, R201); what the units still did has ended. -/
def restartStreams (s : State) (n : Nat) : State :=
  let line := (s.chase n).line
  let streams := (s.chase n).streams
  let s1 := setSequencers (endCopies s (copiesOf s n (fun _ => true)) 0) n
  s1.setChase n { s1.chase n with line := line, streams := keepHalted streams (s1.chase n).streams, busy := [] }

/-- Rewind the galley read of the abandoned band by `back` lines (R201). -/
def rewind (s : State) (n back : Nat) : State :=
  match (s.chase n).band with
  | some (k, first) => s.setCtx k { s.context k with bandFrom := wrapTo 48 ((first : Int) - back) }
  | none => s

/-- The exit records of the open items are lost (R201). -/
def loseExits (s : State) (n : Nat) : State :=
  let c := s.chase n
  s.setChase n { c with
    items := ⟨c.items.entries.map (fun e => (e.1, e.2.map (fun it => { it with exitLost := true })))⟩ }

/-- The new placement begins (R201): rings cleared, galley rewound, exit records of a lost lead core gone. -/
def takePlacement (s : State) (n pi : Nat) : State :=
  let f := (s.chase n).forme
  let leadLost := !s.flag .fpcPresent (servingCore s n (leadCore s n))
  let s1 := if leadLost then loseExits s n else s
  restartStreams (rewind (clearRings (switchPlacement s1 n pi) n) n ((f.map (fun f => f.reprime)).getD 0)) n

/-- FAILOVER_COMPLETE (R201): the chase runs again; the registers, failover_seen and the event say so. -/
def execFailoverComplete (n : ChaseNo) (ns : BitVec 16) (s : State) : Answer :=
  let k := n.val
  if s.get .chState k ≠ chFailover then .next s
  else
    let place := (s.chase k).failPlace
    let s1 := match place with
      | some pi => takePlacement s k pi
      | none => restartStreams (rewind s k 0) k
    let halted := (s1.chase k).line.run == .halted
    let s2 := if halted then (s1.setChase k (s1.chase k).orphanAll).put .chState k chHalted
      else s1.put .chState k chRunning
    let s3 := (s2.put .failoverTime k ns.toNat).put .modFailoverSeen 0 1
    .next (statusChanged s
      (logEvent s3 0x0003 (srcBlock 7) 1 [k, b2n place.isSome, s3.get .bandCycles k, ns.toNat]))

/-! ### Errors found (R78, R79, R108, R113 to R115, R190) -/

/-- Latch a word's address in SRAM_ERR_ADDR, unless an earlier one stands there (R115). -/
def latchError (s : State) (c word : Nat) (istore uncorrectable byScrub : Bool) : State :=
  if s.flag .errValid c then s
  else ((((s.put .errWord c word).put .errIstore c (b2n istore)).put .errUncorr c (b2n uncorrectable)).put .errByScrub
    c (b2n byScrub)).put .errValid c 1

/-- Whether an engine is tested and used: its core is in service and it is not disabled. -/
def engineRuns (s : State) (c e : Nat) : Bool := coreRuns s c && !bitAt (s.get .engDisabled c) e

end Sys2Proof.Machine
end

