-- ==== Sys2Proof/Machine/Supervisor.lean ====
section
/-! DEFINITION. The supervisor: the escalation ladder, the progress windows and the faults that enter the ladder (R23,
R413 to R417, R421). -/

namespace Sys2Proof.Machine

/-! ### The ladder (R415, R416, R421) -/

/-- What a rung is taken for: an engine of a core, a core, a context, a chase, or the whole module. -/
inductive LadderUnit where
  | engine (c e : Nat)
  | core (c : Nat)
  | context (k : Nat)
  | chase (n : Nat)
  | whole
  deriving DecidableEq, Repr

/-- SUP_LAST.rung codes (R421). -/
def rungContext : Nat := 1
/-- A fence of an engine or a core. -/
def rungFence : Nat := 2
/-- A CHASE reset. -/
def rungChase : Nat := 3
/-- A FABRIC reset. -/
def rungFabric : Nat := 4
/-- A WARM reset. -/
def rungWarm : Nat := 5
/-- A power-cycle request. -/
def rungPower : Nat := 6

/-- SUP_LAST.cause codes (R421): a window. -/
def causeWindow : Nat := 0
/-- A trap. -/
def causeTrap : Nat := 1
/-- An engine fault. -/
def causeEngine : Nat := 2
/-- An SRAM error. -/
def causeSram : Nat := 3
/-- No alternate left. -/
def causeNoAlternate : Nat := 4
/-- The watchdog. -/
def causeWatchdog : Nat := 5
/-- A thermal crit. -/
def causeThermal : Nat := 6
/-- A barrier stall. -/
def causeBarrier : Nat := 7

/-- The unit number SUP_LAST shows (R421): for an engine its core's, since six bits do not number the engines (log
entry 38). -/
def unitNumber : LadderUnit → Nat
  | .engine c _ => c
  | .core c => c
  | .context k => k
  | .chase n => n
  | .whole => 0

/-- The number a unit's rungs are counted under. -/
def unitKey : LadderUnit → Nat
  | .engine c e => 0x100 + 8 * c + e
  | .core c => 0x200 + c
  | .context k => 0x300 + k
  | .chase n => 0x400 + n
  | .whole => 0

/-- The retry window in K4 cycles (R421). -/
def retryWindow (s : State) : Nat := max 1 (s.get .supWindowMs 0) * Config.k4PerMs

/-- How often a unit has taken a rung within the window (R415). -/
def rungsTaken (s : State) (u : LadderUnit) (rung : Nat) : Nat :=
  (s.mgmt.rungs.filter (fun r => r.unit == unitKey u && r.rung == rung && decide (s.clk < r.clk + retryWindow s))).length

/-- Whether a unit may take a rung once more (R415). -/
def mayClimb (s : State) (u : LadderUnit) (rung : Nat) : Bool := decide (rungsTaken s u rung < max 1 (s.get .supRetry 0))

/-- Record a rung (R416): SUP_LAST, ESC_COUNT, event 0x0005, PF0's vector 7. -/
def recordRung (s : State) (u : LadderUnit) (rung cause : Nat) : State :=
  let s1 := { s with mgmt := { s.mgmt with rungs := ⟨unitKey u, rung, s.clk⟩ :: s.mgmt.rungs } }
  let s2 := (((s1.put .supRung 0 rung).put .supCause 0 cause).put .supUnit 0 (unitNumber u)).put .supValid 0 1
  fireVector (logEvent (s2.bump .escCount 0) 0x0005 (srcBlock 0xC) 2 [rung, cause, unitNumber u, 0]) 0 7

/-- The wider of two escalations of one cycle (R12): a rung of equal or wider reach than `rung` that was taken in this
cycle, for the module or for the chase a unit belongs to. -/
def widerTaken (s : State) (u : LadderUnit) (rung : Nat) : Bool :=
  let chase := fun (o : Option Nat) (r : Rung) => (o.map (fun n => r.unit == unitKey (.chase n))).getD false
  s.mgmt.rungs.any (fun r => r.clk == s.clk && decide (rung < r.rung) &&
    (r.unit == unitKey .whole ||
      (match u with
       | .engine c _ => chase (chaseOf s c) r
       | .core c => chase (chaseOf s c) r
       | .context k => s.flag .ctxBound k && chase (some (s.get .ctxChase k)) r
       | _ => false)))

/-- Whether a reset that covers a rung's unit is under way (R411). -/
def rungCovered (s : State) (u : LadderUnit) (rung : Nat) : Bool :=
  widerTaken s u rung ||
    (match u with
     | .context k => if h : k < 16 then coveredBy s (.context ⟨k, h⟩) else false
     | .chase n => if h : n < 16 then coveredBy s (.chase ⟨n, h⟩) else false
     | .whole => if rung = rungFabric then coveredBy s .fabric else coveredBy s .warm
     | _ => false)

/-- An escalation that a wider one covers (R12): the event log records it as absorbed, nothing is performed. -/
def absorbRung (s : State) (u : LadderUnit) (rung cause : Nat) : State :=
  logEvent s 0x0005 (srcBlock 0xC) 2 [rung, cause, unitNumber u, 2]

/-- The power-cycle request (R417): made only with tray_req_en; without it the module enters FAILED, under a reason
R437 does not name (log entry 39). -/
def powerCycle (s : State) (cause : Nat) : State :=
  if bitsAt (s.get .optShadow 0) 3 1 = 1 then
    let s1 := (recordRung s .whole rungPower cause).put .trayReq 0 1
    let s2 := { s1 with mgmt := { s1.mgmt with tray := true } }.emit .trayReq
    statusChanged s (enterFailed (raiseAlert s2 0) 5)
  else statusChanged s (enterFailed s 0)

/-- The rung above (R415): a context or a fence goes to its chase, a chase to FABRIC. -/
def nextRung (s : State) (u : LadderUnit) (rung : Nat) : LadderUnit × Nat :=
  let ofChase := fun (o : Option Nat) =>
    match o with
    | some n => (LadderUnit.chase n, rungChase)
    | none => (LadderUnit.whole, rungFabric)
  match u with
  | .engine c _ => ofChase (chaseOf s c)
  | .core c => ofChase (chaseOf s c)
  | .context k => ofChase (if s.flag .ctxBound k then some (s.get .ctxChase k) else none)
  | .chase _ => (.whole, rungFabric)
  | .whole => (.whole, rung + 1)

/-- A chase whose retries are exhausted stays STOPPED (R415, hold_chase). -/
def holdChase (s : State) (n cause : Nat) : State :=
  let s1 := if (s.chase n).forme.isSome && s.get .chState n != chLoading then stopChase s n
    else s.setChase n { s.chase n with restart := false }
  logEvent s1 0x0005 (srcBlock 0xC) 2 [rungChase, cause, n, 1]

/-- Perform a rung's reset or fence. -/
def performRung (s : State) (u : LadderUnit) (rung : Nat) : State :=
  match u with
  | .engine c e => if s.get .engSpare c = noEngine ∧ (slotOf s c e).isSome then fenceCore s c else fenceEngine s c e
  | .core c => fenceCore s c
  | .context k => teardownCtx s k
  | .chase n => resetChase s n
  | .whole => if rung = rungFabric then fabricReset s else statusChanged s (warmReset s)

/-- Take a rung for a unit, or the first one above it that its retries allow (R415); one that a reset of equal or wider
reach covers is absorbed (R12, R411). -/
def climb : Nat → State → LadderUnit → Nat → Nat → State
  | 0, s, _, _, _ => s
  | fuel + 1, s, u, rung, cause =>
    if rung = rungPower then powerCycle s cause
    else if rungCovered s u rung then absorbRung s u rung cause
    else if mayClimb s u rung then performRung (recordRung s u rung cause) u rung
    else
      match u with
      | .chase n =>
        if s.flag .supHoldChase 0 then holdChase s n cause
        else climb fuel s .whole rungFabric cause
      | _ => climb fuel s (nextRung s u rung).1 (nextRung s u rung).2 cause

/-- Enter the ladder (R413): at most six rungs lie above one another. -/
def escalate (s : State) (u : LadderUnit) (rung cause : Nat) : State := climb 6 s u rung cause

/-- A failover fails (R182, R202): the chase is TRAPPED, its sequencers stop, and the supervisor takes it up as one that
has no alternate left. -/
def failFailover (s : State) (n : Nat) : State :=
  (s.setChase n { (s.chase n).stopAll.orphanAll with failPlace := none, doomed := true }).put .chState n chTrapped

/-- A fault failover cannot cure (R182, R202, R415): the core is fenced; a chase in FAILOVER becomes TRAPPED, any other goes
to the CHASE rung, which leaves it EMPTY. -/
def hopelessFault (s : State) (c : Nat) : State :=
  let s1 := afterFence (removeCore s c)
  match chaseOf s c with
  | some n =>
    if s.get .chState n = chFailover then failFailover s1 n else escalate s1 (.chase n) rungChase causeNoAlternate
  | none => s1

/-- Why a TRAPPED chase enters the ladder: a trap, or a failover that failed. -/
def trapCauseOf (s : State) (n : Nat) : Nat := if (s.chase n).doomed then causeNoAlternate else causeTrap

/-- A core fault (R79, R201, R202, R413). -/
def coreFault (s : State) (c cause : Nat) : State :=
  if curableCore s c then escalate s (.core c) rungFence cause else hopelessFault s c

/-- An engine fault (R108, R109, R202, R413): the engine is fenced, or with the spare taken its core. -/
def engineFault (s : State) (c e cause : Nat) : State :=
  if curableEngine s c e then escalate s (.engine c e) rungFence cause
  else if curableCore s c then escalate s (.engine c e) rungFence cause
  else hopelessFault s c

/-! ### Faults found in the fabric -/

/-- A fault of a unit that a wider reset of the same cycle has just taken out of service is absorbed (R12); at any other
time there is nothing to report. -/
def lateFault (s : State) (u : LadderUnit) (cause : Nat) : State :=
  if widerTaken s u rungFence then absorbRung s u rungFence cause else s

/-- SRAM_UNCORRECTABLE_ERROR (R12, R79, R114, R115). -/
def execSramUncorrectableError (c : CoreNo) (word : BitVec 19) (istore : Bool) (s : State) : Answer :=
  if coreRuns s c.val then
    .next (coreFault (latchError (s.bump .sramUe c.val) c.val word.toNat istore true false) c.val causeSram)
  else .next (lateFault s (.core c.val) causeSram)

/-- SCRUB_READ (R78, R79, R115, R190). -/
def execScrubRead (c : CoreNo) (word : BitVec 19) (istore : Bool) (res : EccResult) (s : State) : Answer :=
  if !coreRuns s c.val then .next (if res = .uncorrectable then lateFault s (.core c.val) causeSram else s)
  else match res with
    | .clean => .next s
    | .corrected => .next (latchError (s.bump .sramCe c.val) c.val word.toNat istore false true)
    | .uncorrectable =>
      .next (coreFault (latchError (s.bump .sramUe c.val) c.val word.toNat istore true true) c.val causeSram)

/-- RESIDUE_FAULT (R108, R113). -/
def execResidueFault (c : CoreNo) (engine : Fin 5) (s : State) : Answer :=
  let k := c.val
  if engineRuns s k engine.val then
    .next (engineFault (s.put .engResidue k (s.get .engResidue k ||| 2 ^ engine.val)) k engine.val causeEngine)
  else .next (lateFault s (.engine k engine.val) causeEngine)

/-- SIGNATURE_TEST (R108, R113): a slot whose signature agrees changes nothing. -/
def execSignatureTest (c : CoreNo) (engine : Fin 5) (agrees : Bool) (s : State) : Answer :=
  let k := c.val
  if engineRuns s k engine.val && !agrees then
    .next (engineFault (s.put .engSignature k (s.get .engSignature k ||| 2 ^ engine.val)) k engine.val causeEngine)
  else .next s

/-- ENGINE_FENCE (R109): the supervisor's fence of an engine; the cause is an engine fault where one is latched, else
the progress window. -/
def execEngineFence (c : CoreNo) (engine : Fin 5) (s : State) : Answer :=
  let k := c.val
  let faulty := bitAt (s.get .engResidue k ||| s.get .engSignature k) engine.val
  if engineRuns s k engine.val then
    .next (engineFault s k engine.val (if faulty then causeEngine else causeWindow))
  else .next s

/-- FAILOVER (R201): the supervisor's fence of a core; the cause is read from what the core's registers latched. -/
def execFailover (c : CoreNo) (s : State) : Answer :=
  let k := c.val
  if !coreRuns s k then .next s
  else if s.flag .errValid k && s.flag .errUncorr k then .next (coreFault s k causeSram)
  else .next (coreFault s k
    (if s.get .engResidue k = 0 ∧ s.get .engSignature k = 0 then causeWindow else causeEngine))

/-! ### Progress windows (R413, R414) -/

/-- Whether a sequencer waits in WAITL or WAITE. -/
def waitsLine (x : Seq) : Bool :=
  match x.wait with
  | .waitl .. => true
  | .waite .. => true
  | _ => false

/-- When a running sequencer came to the barrier it waits at. -/
def barrierSince (x : Seq) : Option Nat :=
  match x.run, x.wait with
  | .running, .barrier _ _ _ since => some since
  | _, _ => none

/-- Whether the debugger holds a sequencer of a chase: its checks are suspended (R396). -/
def chaseDebugged (s : State) (n : Nat) : Bool :=
  s.flag .secSession 0 && ((s.chase n).line.debugged || (s.chase n).streams.entries.any (fun e => e.2.debugged))

/-- Whether a chase is RUNNING with its line sequencer out of WAITL and WAITE (R413). -/
def chaseChecked (s : State) (n : Nat) : Bool :=
  s.get .chState n == chRunning && !waitsLine (s.chase n).line && !chaseDebugged s n

/-- A window register's value in K4 cycles; below 10 reads as 10 (R421). -/
def windowOf (s : State) (f : Fld) : Nat := max 10 (s.get f 0) * Config.k4PerUs

/-- Whether a sequencer of a chase has waited at a barrier for longer than SUP_WIN_CORE (R414). -/
def barrierStall (s : State) (n : Nat) : Bool :=
  let late := fun (x : Seq) =>
    match barrierSince x with
    | some t => decide (t + windowOf s .supWinCore < s.clk)
    | none => false
  let c := s.chase n
  s.get .chState n == chRunning && !chaseDebugged s n && (late c.line || c.streams.entries.any (fun e => late e.2))

/-- Whether a context has a band ready or its galley is full (R229, R234, R413): a cut of 0 or past the band reads as
the whole band (log entry 40). -/
def contextChecked (s : State) (k : Nat) : Bool :=
  let x := s.context k
  let band := s.get .galBand k
  let cut := if s.get .galCut k = 0 ∨ band < s.get .galCut k then band else s.get .galCut k
  let first := (x.bandFrom + band - 1) / max 1 band * band
  s.flag .ctxBound k && !x.resetting && !chaseDebugged s (s.get .ctxChase k) &&
    (decide (0 < band ∧ 0 ≤ lineDiff x.writeLine (first + cut)) || decide (freeSlots s k = 0))

/-- PROGRESS_WINDOW_EXPIRY (R413, R414): the window of a unit ran out while its check applied.  A TRAPPED chase, which
needs no window, is taken up here too. -/
def execProgressWindowExpiry (u : ProgressUnit) (s : State) : Answer :=
  match u with
  | .engine c e => if engineRuns s c.val e.val then .next (engineFault s c.val e.val causeWindow) else .next s
  | .core c =>
    match chaseOf s c.val with
    | none => .next s
    | some n =>
      match logicalOf s n c.val with
      | none => .next s
      | some l =>
        if coreRuns s c.val && chaseChecked s n && (barrierSince ((s.chase n).streams.get Seq.reset l)).isNone then
          .next (coreFault s c.val causeWindow)
        else .next s
  | .chase n =>
    if s.get .chState n.val = chTrapped ∧ !chaseDebugged s n.val then
      .next (escalate s (.chase n.val) rungChase (trapCauseOf s n.val))
    else if chaseChecked s n.val then .next (escalate s (.chase n.val) rungChase causeWindow)
    else .next s
  | .context k => if contextChecked s k.val then .next (escalate s (.context k.val) rungContext causeWindow) else .next s
  | .barrier n => if barrierStall s n.val then .next (escalate s (.chase n.val) rungChase causeBarrier) else .next s

/-- Traps enter the ladder at the CHASE rung (R165, R413): what the supervisor does while the module idles. -/
def takeTraps (s : State) : State :=
  (List.range 16).foldl (fun s n =>
    if s.get .chState n = chTrapped ∧ !chaseDebugged s n then escalate s (.chase n) rungChase (trapCauseOf s n) else s) s

/-- WATCHDOG_EXPIRY (R413): the management watchdog enters the ladder at WARM. -/
def execWatchdogExpiry (s : State) : Answer :=
  if s.power = .off then .next s else .next (escalate s .whole rungWarm causeWatchdog)

end Sys2Proof.Machine
end

