-- ==== Sys2Proof/Machine/BringUp.lean ====
section
/-! DEFINITION. Bring-up: its steps, the repair map and the floor plan, lane qualification and the background LPDDR5X
test (R110, R422 to R437). -/

namespace Sys2Proof.Machine

/-! ### The start (R422 to R424, R433) -/

/-- Begin bring-up: the full path at step 1, the WARM path at step 2 (R422, R423). -/
def beginBringup (s : State) (warmPath : Bool) : State :=
  let s1 := { s with mgmt := { s.mgmt with hold := .none, findings := none, bootFailed := false, levelSeen := 0 } }
  let s2 := ((s1.put .modService 0 svcBringup).put .buStep 0 (if warmPath then 2 else 1)).put .buWarmPath 0
    (b2n warmPath)
  statusChanged s (((s2.put .buElapsed 0 0).put .buFailReason 0 0).put .modLevelOk 0 0)

/-- The end of a reset that runs the WARM path (R423); a power-cycle request keeps the module FAILED (R417). -/
def warmPath (s : State) : State :=
  if s.mgmt.tray then enterFailed { s with mgmt := { s.mgmt with hold := .fabric } } 5
  else if s.power = .full then beginBringup s true
  else { s with mgmt := { s.mgmt with hold := .none } }

/-- WARM_RESET_END (R409, R411, R423): the requests the reset absorbed complete, the WARM path starts. -/
def execWarmResetEnd (s : State) : Answer :=
  if s.mgmt.hold = .warm then .next (answerAllResets (warmPath s)) else .next s

/-- RST_N_RELEASE (R409, R422): the full path begins, in Aux the management core only; a power-cycle request keeps the
module FAILED (R417). -/
def execRstNRelease (s : State) : Answer :=
  if s.mgmt.hold ≠ .pin then .next s
  else if s.mgmt.tray then .next (enterFailed ({ s with mgmt := { s.mgmt with hold := .fabric } }.put .trayReq 0 1) 5)
  else if s.power = .full then .next (beginBringup s false)
  else .next { s with mgmt := { s.mgmt with hold := .none } }

/-! ### The repair map (R107, R425, R426, R434) -/

/-- Engines of a physical core that the repair fuses do not disable and that passed their tests, in ascending order
(R107, R425). -/
def foundGood (s : State) (f : StepFindings) (cluster phys : Nat) : List Nat :=
  (List.range 5).filter (fun e =>
    !f.badEngines.contains (cluster, phys, e) && !s.fuses.badEngines.contains (cluster, phys, e))

/-- The slots and the spare of a core (R107, R426): the lowest good engines in turn, then each runtime fence as it was
made. -/
def engineMap (s : State) (f : StepFindings) (cluster phys : Nat) : List Nat × Nat :=
  let good := foundGood s f cluster phys
  let fences := (s.mgmt.fencedEng.filter (fun x => x.1 == 9 * cluster + phys)).reverse.map (fun x => x.2)
  fences.foldl (fun m e =>
    if m.1.contains e then
      if m.2 = noEngine then (m.1.filter (fun x => x != e), noEngine)
      else (m.1.map (fun x => if x = e then m.2 else x), noEngine)
    else if m.2 = e then (m.1, noEngine)
    else m) (good.take 4, good.getD 4 noEngine)

/-- Rows of a memory in a list of failing rows. -/
def rowsOf (l : List (RepairMem × Nat)) (m : RepairMem) : Nat := ((l.filter (fun e => e.1 == m)).map (fun e => e.2)).sum

/-- Spare rows of a memory (R425). -/
def spareRows : RepairMem → Nat
  | .istore .. => 8
  | _ => 32

/-- Whether a memory's spare rows serve the repair fuses and every finding in the field (R425; log entry 104). -/
def rowsServed (s : State) (m : RepairMem) : Bool :=
  decide (rowsOf s.fuses.rows m + rowsOf s.mgmt.repairs m ≤ spareRows m)

/-- Whether the 24 banks of a core's SRAM and its instruction store are repaired (R425, R426). -/
def coreRepaired (s : State) (cluster phys : Nat) : Bool :=
  (List.range 24).all (fun b => rowsServed s (.sram cluster phys b)) && rowsServed s (.istore cluster phys)

/-- The good banks of the galley store (R425). -/
def galleyGood (s : State) (f : StepFindings) : Nat :=
  ((List.range 32).map (fun b => b2n (f.galleyBanks.getLsbD b && rowsServed s (.galley b)) * 2 ^ b)).sum

/-- The enabled LPDDR5X channels (R427): those that trained, with at most one row to repair in each bank. -/
def lpddrGood (f : StepFindings) : Nat :=
  ((List.range 4).map (fun c => b2n (f.lpddrChannels.getLsbD c && f.lpddrRows.all (fun e =>
    e.1 != c || decide (((f.lpddrRows.filter (fun x => x.1 == c && x.2.1 == e.2.1)).map (fun x => x.2.2)).sum ≤ 1))) *
      2 ^ c)).sum

/-- Rows repaired in the field (R437): those whose memory has spares for them. -/
def rowsRepaired (s : State) : Nat := ((s.mgmt.repairs.filter (fun e => rowsServed s e.1)).map (fun e => e.2)).sum

/-- Engines of a core left after every fence. -/
def goodEngines (s : State) (f : StepFindings) (cluster phys : Nat) : Nat :=
  let m := engineMap s f cluster phys
  m.1.length + (if m.2 = noEngine then 0 else 1)

/-- Whether a physical core is usable (R426), the runtime fence record included (R423; log entry 77). -/
def coreUsable (s : State) (f : StepFindings) (cluster phys : Nat) : Bool :=
  !f.badClusters.contains cluster && !f.badCores.contains (cluster, phys) && !s.fuses.badCores.contains (cluster, phys) &&
    !s.mgmt.fenced.contains (9 * cluster + phys) && coreRepaired s cluster phys &&
    decide (2 ≤ goodEngines s f cluster phys)

/-- The cores selected in a cluster, in ascending physical index (R426, R434): those with more good engines first, then
the lower physical index (log entry 76). -/
def selectedCores (s : State) (f : StepFindings) (cluster : Nat) : List Nat :=
  let usable := (List.range 9).filter (coreUsable s f cluster)
  let with_ := fun (n : Nat) => usable.filter (fun p => goodEngines s f cluster p == n)
  let order := with_ 5 ++ with_ 4 ++ with_ 3 ++ with_ 2
  (List.range 9).filter (fun p => (order.take 8).contains p)

/-- The engines of a core's slots at the first repair after a PIN reset: kept then, looked up later (R112). -/
def keepMap (s : State) (c phys : Nat) (slots : List Nat) : State :=
  if (s.mgmt.pinMap.get none c).isSome then s
  else { s with mgmt := { s.mgmt with pinMap := s.mgmt.pinMap.set c (some (phys, slots)) } }

/-- Write one core's FLOORPLAN and ENGINE_MAP registers (R112, R436); a missing slot or spare reads 7, as all of them do
in a hole, whose other fields read 0 (log entry 41). -/
def writeCore (s : State) (f : StepFindings) (c : Nat) : State :=
  let cluster := c / 8
  let s0 := s.put .fpcCluster c cluster
  match (selectedCores s f cluster)[c % 8]? with
  | none =>
    let s1 := ((((s0.put .fpcPresent c 0).put .fpcPhysical c 0).put .fpcEngines c 0).put .fpcSpare c 0)
    let s2 := (((s1.put .engMap0 c noEngine).put .engMap1 c noEngine).put .engMap2 c noEngine).put .engMap3 c noEngine
    ((s2.put .engSpare c noEngine).put .engDisabled c 0).put .engRemapped c 0
  | some p =>
    let m := engineMap s f cluster p
    let off := ((List.range 5).map (fun e => b2n (!m.1.contains e && e != m.2) * 2 ^ e)).sum
    let s1 := ((((s0.put .fpcPresent c 1).put .fpcPhysical c p).put .fpcEngines c m.1.length).put .fpcSpare c
      (b2n (m.2 != noEngine)))
    let s2 := (((s1.put .engMap0 c (m.1.getD 0 noEngine)).put .engMap1 c (m.1.getD 1 noEngine)).put .engMap2 c
      (m.1.getD 2 noEngine)).put .engMap3 c (m.1.getD 3 noEngine)
    let s3 := keepMap s2 c p m.1
    ((s3.put .engSpare c m.2).put .engDisabled c off).put .engRemapped c
      (b2n (s3.mgmt.pinMap.get none c != some (p, m.1)))

/-- What a bring-up has found before its first step. -/
def noFindings : StepFindings :=
  { failure := 0, badEngines := [], badCores := [], badClusters := [], lpddrChannels := 0xF, galleyBanks := 0xFFFFFFFF,
    rows := [], lpddrRows := [], lanesCxp := 0xFFFF, lanesRh := 0xFFFF, elapsedMs := 0 }

/-- Whether a physical core is usable by the repair fuses alone. -/
def fusedUsable (s : State) (cluster phys : Nat) : Bool :=
  coreUsable { s with mgmt := Mgmt.reset } noFindings cluster phys

/-- The physical cores found unusable beyond the fuses (R437). -/
def unusableCount (s : State) (f : StepFindings) : Nat :=
  ((List.range 36).filter (fun i => fusedUsable s (i / 9) (i % 9) && !coreUsable s f (i / 9) (i % 9))).length

/-- The engines found bad beyond the fuses (R437). -/
def badBeyond (s : State) (f : StepFindings) : Nat := (f.badEngines.filter (fun e => !s.fuses.badEngines.contains e)).length

/-- Set bits of a mask. -/
def bitCount (n : Nat) : Nat := ((List.range 32).filter (bitAt n)).length

/-- Step 9 (R425 to R427, R436, R437): the repair map and the FLOORPLAN registers. -/
def writeFloorplan (s : State) (f : StepFindings) : State :=
  let s1 := (List.range 32).foldl (fun s c => writeCore s f c) s
  let lanes := f.lanesCxp.toNat &&& (0xFFFF - s.get .buExclCxp 0)
  let rh := f.lanesRh.toNat &&& (0xFFFF - s.get .buExclRh 0)
  let s2 := ((((s1.put .fpLpddr 0 (lpddrGood f)).put .fpGalleyMib 0 (bitCount (galleyGood s f))).put
    .fpGalley 0 (galleyGood s f)).put .fpLanesCxp 0 lanes).put .fpLanesRh 0 rh
  updateSummary (((s2.put .buRepairRows 0 (rowsRepaired s)).put .buRepairEngines 0 (badBeyond s f)).put
    .buRepairCores 0 (unusableCount s f))

/-! ### The steps (R422, R424, R431) -/

/-- Add a step's findings to those before it. -/
def mergeFindings (a b : StepFindings) : StepFindings :=
  { failure := b.failure, badEngines := (a.badEngines ++ b.badEngines).dedup, badCores := (a.badCores ++ b.badCores).dedup,
    badClusters := (a.badClusters ++ b.badClusters).dedup, lpddrChannels := a.lpddrChannels &&& b.lpddrChannels,
    galleyBanks := a.galleyBanks &&& b.galleyBanks, rows := a.rows ++ b.rows, lpddrRows := a.lpddrRows ++ b.lpddrRows,
    lanesCxp := a.lanesCxp &&& b.lanesCxp, lanesRh := a.lanesRh &&& b.lanesRh, elapsedMs := a.elapsedMs + b.elapsedMs }

/-- Whether this bring-up runs step 8: the WARM path skips it once the POWER path has completed it (R423, R424). -/
def runsStep8 (s : State) : Bool := !(s.flag .buWarmPath 0 && s.mgmt.testsDone)

/-- Lanes bring-up found bad are forced off in lane_en (R301). -/
def forceLanes (s : State) (p : Nat) : State := s.put .rhLaneEn p (goodLanes s p)

/-- The Rhasha ports begin to train (R280, R422 step 5). -/
def trainPorts (s : State) : State :=
  (List.range 4).foldl (fun s p => enterDetect (forceLanes s p) p) s

/-- Admit the lanes that have qualified so far (R422 step 10, R430). -/
def admitLanes (s : State) : State :=
  (List.range 16).foldl (fun s l =>
    if s.get .cxpLaneState l = lnDiscovery ∧ laneQualifiedAt s l (s.get .cxpLaneRate l) = true then
      s.put .cxpLaneState l lnUp
    else s) s

/-- Step 10 (R428, R431): the service state, the lanes, and with quick_start the background test. -/
def finishBringup (s : State) : State :=
  let s1 := setService (s.put .buStep 0 0xA)
  if serving s1 then
    admitLanes (if bitsAt (s.get .optShadow 0) 0 1 = 1 then (s1.put .buLpddrBg 0 1).put .buBgProgress 0 0 else s1)
  else s1

/-- What a step that passed leaves, and the step after it. -/
def passStep (s : State) (step : Nat) (f : StepFindings) : State :=
  match step with
  | 5 => trainPorts (s.put .buStep 0 6)
  | 7 => s.put .buStep 0 (if runsStep8 s then 8 else 9)
  | 8 => { s with mgmt := { s.mgmt with testsDone := true } }.put .buStep 0 9
  | 9 => finishBringup (writeFloorplan s f)
  | n => s.put .buStep 0 (n + 1)

/-- BRINGUP_STEP_DONE (R402, R422, R425, R432): the step in progress ends with its findings, whose rows stay in the retained
region.  A step that fails leaves FAILED with its reason; step 2 lasts as long as no clock source is found. -/
def execBringupStepDone (f : StepFindings) (s : State) : Answer :=
  let step := s.get .buStep 0
  if s.power ≠ .full ∨ s.mgmt.hold ≠ .none ∨ s.get .modService 0 ≠ svcBringup ∨ step = 0 ∨ 9 < step then .next s
  else
    let all := mergeFindings (s.mgmt.findings.getD noFindings) f
    let s1 := { s with mgmt := { s.mgmt with findings := some all, repairs := s.mgmt.repairs ++ f.rows } }.put .buElapsed 0
      (s.get .buElapsed 0 + f.elapsedMs)
    if step = 2 ∧ f.failure.val ≠ 0 then
      .next (statusChanged s (enterFailed { s1 with mgmt := { s1.mgmt with bootFailed := f.failure.val == 1 } }
        f.failure.val))
    else if step = 2 ∧ rootLocked s = false then .next s1
    else .next (passStep s1 step all)

/-! ### Lane qualification (R429, R430) -/

/-- A mask with bit `i` set. -/
def withBit (m i : Nat) : Nat := m ||| 2 ^ i

/-- A mask with bit `i` clear. -/
def withoutBit (m i : Nat) : Nat := m - b2n (bitAt m i) * 2 ^ i

/-- Record the rate at which a lane qualified (R430). -/
def recordQualified (s : State) (i rate : Nat) : State :=
  { s with mgmt := { s.mgmt with qualRate := s.mgmt.qualRate.set i (some rate) } }

/-- Whether a Rhasha lane is qualifying: in use on an ACTIVE port, not yet qualified at its rate. -/
def rhQualifying (s : State) (lane : Nat) : Bool :=
  linkActive s (lane / 4) && bitAt (s.get .rhLanes (lane / 4)) (lane % 4) && !rhLaneQualified s lane

/-- LANE_QUALIFIED (R429, R430): the lane enters service, before step 10 only its qualification is kept. -/
def execLaneQualified (rhasha : Bool) (lane : Fin 16) (s : State) : Answer :=
  let l := lane.val
  if rhasha then
    if rhQualifying s l then
      .next ((recordQualified s (16 + l) (s.get .rhRate (l / 4))).put .buQualRh 0 (withBit (s.get .buQualRh 0) l))
    else .next s
  else if s.get .cxpLaneState l = lnDiscovery then
    let s1 := (recordQualified s l (s.get .cxpLaneRate l)).put .buQualCxp 0 (withBit (s.get .buQualCxp 0) l)
    .next (if serving s then s1.put .cxpLaneState l lnUp else s1)
  else .next s

/-- Exclude a Rhasha lane (R429): its port goes through RETRAIN, or is held DISABLED with no lane left. -/
def excludeRhLane (s : State) (l : Nat) : State :=
  let p := l / 4
  let s1 := (s.put .buExclRh 0 (withBit (s.get .buExclRh 0) l)).put .fpLanesRh 0 (withoutBit (s.get .fpLanesRh 0) l)
  let s2 := logEvent (forceLanes s1 p) 0x0021 (srcBlock 8) 1 [l, 0, 0, 0]
  if soundLanes s2 p = 0 then enterDetect (linkDown s2 p) p else enterRetrain s2 p

/-- LANE_QUALIFICATION_ERROR (R429). -/
def execLaneQualificationError (rhasha : Bool) (lane : Fin 16) (s : State) : Answer :=
  let l := lane.val
  if rhasha then (if rhQualifying s l then .next (excludeRhLane s l) else .next s)
  else if s.get .cxpLaneState l = lnDiscovery then .next (excludeLane s l true)
  else .next s

/-! ### The background test (R428, R437) -/

/-- Bytes of LPDDR5X: 8 GiB for each enabled channel (R427). -/
def lpddrBytes (s : State) : Nat := bitCount (s.get .fpLpddr 0) * 2 ^ 33

/-- LPDDR_BG_BURST (R428): a failure is counted and logged, the last burst ends the pass. -/
def execLpddrBgBurst (addr : Nat) (passed : Bool) (s : State) : Answer :=
  let size := lpddrBytes s
  if !s.flag .buLpddrBg 0 || decide (size ≤ addr) then .next s
  else
    let s1 := if passed then s
      else logEvent (s.bump .buLpddrFail 0) 0x0008 (srcBlock 0xF) 2 [addr % 2 ^ 32, addr / 2 ^ 32, 0, 0]
    let s2 := s1.put .buBgProgress 0 (addr * 256 / size)
    .next (if size ≤ addr + 64 then (s2.put .buBgDone 0 1).put .buLpddrBg 0 0 else s2)

end Sys2Proof.Machine
end

