-- ==== Sys2Proof/Machine/BoardPort.lean ====
section
/-! DEFINITION. Telemetry, the thermal hold, the level-draw windows and the board port (R26, R27, R385, R386, R389,
R390, R457). -/

namespace Sys2Proof.Machine

/-! ### Level draw (R26, R27) -/

/-- LEVEL_WINDOW (R27, R390): level_ok tells of every window since READY or REDUCED was entered; one that left ±3 %
sets level_fault, the event and alert cause 3. -/
def execLevelWindow (withinLimits : Bool) (deviation : BitVec 16) (s : State) : Answer :=
  if !serving s then .next s
  else
    let held := withinLimits && s.mgmt.levelSeen != 2
    let s1 := { s with mgmt := { s.mgmt with levelSeen := if held then 1 else 2 } }.put .modLevelOk 0 (b2n held)
    if withinLimits then .next (statusChanged s s1)
    else
      .next (statusChanged s (raiseAlert (logEvent (s1.put .modLevelFault 0 1) 0x0002 (srcBlock 0xD) 1
        [deviation.toNat, 0, 0, 0]) 3))

/-! ### Telemetry (R385, R386) -/

/-- The signed reading of a temperature or a deviation. -/
def signed16 (v : Nat) : Int := sext 16 v

/-- Whether a sensor's value is past its warn limit (R385, R457). -/
def warnAt (n v : Nat) : Bool :=
  let outside := fun lo hi => decide (v < lo) || decide (hi < v)
  match n with
  | 0 => decide (1600 ≤ signed16 v)
  | 2 => decide (1520 ≤ signed16 v)
  | 3 => decide (1760 ≤ signed16 v)
  | 4 => decide (1760 ≤ signed16 v)
  | 5 => outside 11400 12600
  | 6 => decide (6600 < v)
  | 7 => outside 3200 3450
  | 8 => decide (1250 < v)
  | 9 => Config.coreRailWarn 9 v
  | 10 => Config.coreRailWarn 10 v
  | 11 => decide (7500 < v)
  | 12 => decide (300 < (signed16 v).natAbs)
  | 13 => outside 19200 30000
  | _ => false

/-- Whether a sensor's value is at its crit limit (R385). -/
def critAt (n v : Nat) : Bool :=
  match n with
  | 0 => decide (1760 ≤ signed16 v)
  | 2 => decide (1680 ≤ signed16 v)
  | 3 => decide (2000 ≤ signed16 v)
  | _ => false

/-- Sample one sensor (R385): its register is refreshed, and crossing into warn or crit is logged. -/
def sampleSensor (s : State) (n v : Nat) : State :=
  let warn := warnAt n v
  let crit := critAt n v
  let crossed := (warn && !s.flag .telWarn n) || (crit && !s.flag .telCrit n)
  let s1 := ((s.put .telValue n v).put .telWarn n (b2n warn)).put .telCrit n (b2n crit)
  if crossed then logEvent s1 0x0040 (srcBlock 0xD) (if crit then 3 else 1) [n, v, b2n crit, 0] else s1

/-- A thermal crit (R386): the alert, a WARM reset with thermal cause, and the fabric held in reset. -/
def thermalCrit (s : State) (n : Nat) : State :=
  let s1 := escalate (raiseAlert s 1) .whole rungWarm causeThermal
  if s1.mgmt.hold = .warm then { s1 with mgmt := { s1.mgmt with hold := .thermal n, coolSince := none } } else s1

/-- Follow the sensor of a thermal hold: since when it has stayed below warn (R386). -/
def coolDown (s : State) (n : Nat) : State :=
  let since := if s.flag .telWarn n then none else some (s.mgmt.coolSince.getD s.clk)
  { s with mgmt := { s.mgmt with coolSince := since } }

/-- Whether firmware runs: not in Off, not while a WARM or PIN reset lasts or the boot ROM works, and only when a copy
passed (R389, R391, R409, R422). -/
def firmwareRuns (s : State) : Bool :=
  let booting := s.power == .full && s.get .modService 0 == svcBringup && (s.get .buStep 0 == 1 || s.get .buStep 0 == 2) &&
    s.mgmt.hold == .none
  s.power != .off && s.mgmt.hold != .warm && s.mgmt.hold != .pin && !booting && !s.mgmt.bootFailed

/-- TELEMETRY_ROUND (R385, R386): one value for each sensor. -/
def execTelemetryRound (samples : List (BitVec 16)) (s : State) : Answer :=
  if samples.length ≠ Config.sensorCount ∨ firmwareRuns s = false then .next s
  else
    let s1 := samples.zipIdx.foldl (fun s e => sampleSensor s e.2 e.1.toNat) s
    match s1.mgmt.hold with
    | .thermal n => .next (coolDown s1 n)
    | _ =>
      match [0, 2, 3].find? (fun n => s1.flag .telCrit n) with
      | some n => .next (thermalCrit s1 n)
      | none => .next s1

/-- THERMAL_HOLD_END (R386): after 10 s below warn, bring-up runs on the WARM path. -/
def execThermalHoldEnd (s : State) : Answer :=
  match s.mgmt.hold with
  | .thermal _ =>
    if (s.mgmt.coolSince.map (fun t => decide (t + 10000 * Config.k4PerMs ≤ s.clk))).getD false then
      .next (answerAllResets (warmPath { s with mgmt := { s.mgmt with coolSince := none } }))
    else .next s
  | _ => .next s

/-! ### The board port (R389, R390) -/

/-- Answer an SMBus command with bytes. -/
def smbReply (s : State) (b : List Byte) : State := { s with smb := b, smbAck := true }

/-- Leave an SMBus command unacknowledged. -/
def smbNack (s : State) : State := { s with smb := [], smbAck := false }

/-- MODULE_STATUS as the board port shows it: power_state 1 in Aux, 2 in Full (R27, R389). -/
def boardStatus (s : State) : Nat :=
  (if s.power = .full then 2 else 1) + 4 * s.get .modService 0 + 32 * s.get .modLevelOk 0 + 64 * s.get .modLevelFault 0 +
    128 * s.get .modFailoverSeen 0

/-- SEC_LIFECYCLE (R395). -/
def lifecycleWord (s : State) : Nat :=
  s.get .secLifecycle 0 + 4 * s.get .secTarget 0 + 16 * s.get .secAdvPending 0 + 32 * s.field .secDebugDis 0

/-- SMB_STATUS (R389): answered while firmware restarts too. -/
def execSmbStatus (s : State) : Answer :=
  if s.power = .off ∨ s.mgmt.hold = .pin then .next (smbNack s)
  else .next (smbReply s (natLe 4 (boardStatus s) ++ natLe 4 (lifecycleWord s)))

/-- Run a board command that firmware serves. -/
def boardCommand (s : State) (run : State → State) : State := if firmwareRuns s then run s else smbNack s

/-- TEL_n (R385). -/
def telWord (s : State) (n : Nat) : Nat :=
  s.get .telValue n + 65536 * s.get .telWarn n + 131072 * s.get .telCrit n

/-- SMB_TELEMETRY (R389); a sensor that does not exist is not acknowledged (log entry 43). -/
def execSmbTelemetry (n : BitVec 8) (s : State) : Answer :=
  .next (boardCommand s (fun s =>
    if n.toNat < Config.sensorCount then smbReply s (natLe 4 (telWord s n.toNat)) else smbNack s))

/-- SMB_EVENT (R387, R389); an index with no entry reads zeros, one past the ring is not acknowledged (log entry 43). -/
def execSmbEvent (index : BitVec 16) (s : State) : Answer :=
  .next (boardCommand s (fun s =>
    if 4096 ≤ index.toNat then smbNack s
    else smbReply s (((logAt s index.toNat).map logBytes).getD (natLe 32 0))))

/-- SMB_IDENTITY (R28, R389). -/
def execSmbIdentity (s : State) : Answer :=
  .next (boardCommand s (fun s =>
    smbReply s (natLe 4 (s.field .idDevice 0 + 65536 * s.field .idStepping 0) ++ natLe 4 s.fuses.variant ++
      natLe 4 (s.get .fwVersion 0) ++ uidBytes s)))

/-- RESET_ARM (R389); another kind is not acknowledged (log entry 43). -/
def execResetArm (kind : BitVec 8) (s : State) : Answer :=
  .next (boardCommand s (fun s =>
    if 1 < kind.toNat then smbNack s
    else smbReply { s with mgmt := { s.mgmt with arm := some (kind.toNat, s.clk) } } []))

/-- Whether a kind was armed within the last 100 ms (R389). -/
def armedFor (s : State) (kind : Nat) : Bool :=
  match s.mgmt.arm with
  | some (k, t) => k == kind && decide (s.clk ≤ t + 100 * Config.k4PerMs)
  | none => false

/-- RESET_EXEC (R389, R411): performed when armed, the arm is then cleared; in Aux a FABRIC reset is not
acknowledged. -/
def execResetExec (kind : BitVec 8) (s : State) : Answer :=
  .next (boardCommand s (fun s =>
    let k := kind.toNat
    if 1 < k ∨ (k = 1 ∧ s.power = .aux) then smbNack s
    else if armedFor s k then
      let t := if k = 0 then ResetTarget.warm else .fabric
      let s1 := smbReply { s with mgmt := { s.mgmt with arm := none } } []
      if coveredBy s1 t then s1 else statusChanged s1 (performReset s1 t)
    else smbReply s []))

/-- Whether the condition of an alert cause has ended (R390); cause 0 holds until POWER. -/
def causeEnded (s : State) (i : Nat) : Bool :=
  match i with
  | 1 => ([0, 2, 3] : List Nat).all (fun n => !s.flag .telCrit n)
  | 2 => s.get .modService 0 != svcFailed
  | 3 => !s.flag .modLevelFault 0
  | _ => false

/-- ALERT_CLEAR (R390). -/
def execAlertClear (causes : BitVec 8) (s : State) : Answer :=
  .next (boardCommand s (fun s =>
    let keep := ((List.range 4).map (fun i =>
      b2n (s.mgmt.alerts.getLsbD i && !(causes.getLsbD i && causeEnded s i)) * 2 ^ i)).sum
    smbReply (setAlerts s (BitVec.ofNat 4 keep)) []))

/-- SMB_ALERT_RESPONSE (R389, R390): while it drives SMB_ALERT_N low the module answers with its own address, 0x50 +
SLOT_ID, in bits [7:1] (log entry 43). -/
def execSmbAlertResponse (s : State) : Answer :=
  if s.power = .off ∨ s.mgmt.alerts = 0 then .next (smbNack s)
  else .next (smbReply s (natLe 1 (2 * (0x50 + s.mgmt.slotPins.toNat))))

/-- SMB_BAD_PEC (R389): not acknowledged, no effect. -/
def execSmbBadPec (_command : BitVec 8) (s : State) : Answer := .next (smbNack s)

end Sys2Proof.Machine
end

