-- ==== Sys2Proof/Machine/Compute.lean ====
section
/-! DEFINITION. Class T: tensors (R145 to R149), with the reductions of R51 to R57 in their fixed order. -/

namespace Sys2Proof.Machine

/-- Whether an input line lies in the tensor: a ring has no last line, only a first one (R87, R146). -/
def Src.hasLine (x : Src) (h : Int) : Bool :=
  decide (0 ≤ h) && (if x.d.ring = 0 then decide (h < x.d.h) else !x.unseen h.toNat)

/-- Whether an input column lies in the tensor (R88). -/
def Desc.hasCol (d : Desc) (w : Int) : Bool := decide (0 ≤ w) && decide (w < d.w)

/-- The input line tap row `i` of output line `y` reads (R146). -/
def tapLine (o : Op) (y i : Nat) : Int := (kernSh o * y + i : Nat) - ((kernH o - 1) / 2 : Nat)

/-- The input column tap column `j` of output column `x` reads (R146). -/
def tapCol (o : Op) (x j : Nat) : Int := (kernSw o * x + j : Nat) - ((kernW o - 1) / 2 : Nat)

/-- The code of weight element number `l` of a plain weight tensor (R147). -/
def Src.weight (x : Src) (l : Nat) : Nat :=
  x.packed x.d.fmt (x.d.base + l / x.d.w * x.d.strideH) (l % x.d.w)

/-- An element as a value inside its group: zero where the group's scale is zero or bad (R46, R47). -/
def groupElem (f : Fmt) (code : Nat) (g : Val) : Val :=
  if g.isZero then .zero false else decodeVal f code

/-- The five-level pairwise tree of R54 over F32 products. -/
def pairTree : Nat → List Val → Ev Val
  | 0, l => .ok (l.headD (.zero false))
  | n + 1, l =>
    let rec pairs : List Val → Ev (List Val)
      | a :: b :: t => (add32 a b).bind fun v => (pairs t).bind fun r => .ok (v :: r)
      | l => .ok l
    (pairs l).bind (pairTree n)

/-- Products of a slice, each formed in F32 (R54). -/
def products : List (Val × Val) → Ev (List Val)
  | [] => .ok []
  | (a, b) :: t => (mul32 a b).bind fun v => (products t).bind fun r => .ok (v :: r)

/-- The integer a value of an integer format is. -/
def Val.toInt : Val → Int
  | .fin neg n _ => if neg then -(n : Int) else n
  | _ => 0

/-- The exact sum of a slice's integer products (R53, R55). -/
def dotInt (l : List (Val × Val)) : Int := (l.map (fun p => p.1.toInt * p.2.toInt)).sum

/-- A slice: its operand pairs, and the product of its two group scales. -/
structure Slice where
  pairs : List (Val × Val)
  scale : Val

/-- The sum of a slice on the float or the scaled path (R54, R55). -/
def sliceSum (p : Path) (ints : Bool) (sl : Slice) : Ev Val :=
  let raw : Ev Val :=
    if ints then .ok (.int (dotInt sl.pairs))
    else if sl.pairs.length = 1 then
      (products sl.pairs).bind fun l => .ok (l.headD (.zero false))
    else (products sl.pairs).bind (pairTree 5)
  match p with
  | .scaled => raw.bind fun v => mul32 v sl.scale
  | _ => raw

/-- The accumulator takes the slices one at a time (R54, R55). -/
def accumulate (p : Path) (ints : Bool) : List Slice → Val → Ev Val
  | [], acc => .ok acc
  | sl :: t, acc => (sliceSum p ints sl).bind fun v => (add32 acc v).bind (accumulate p ints t)

/-- The result of a reduction (R53 to R55): integer sums saturate to S32 once; a scaled sum is multiplied by
the second-level scales. -/
def reduce (p : Path) (ints : Bool) (slices : List Slice) (bias : Val) (c : Val) : Ev Val :=
  match p with
  | .integer =>
    let r := clampInt .s32 (bias.toInt + (slices.map (fun sl => dotInt sl.pairs)).sum)
    ⟨.int r.val, r.ev⟩
  | .float => accumulate p ints slices bias
  | .scaled => (accumulate p ints slices bias).bind fun v => mul32 v c

/-- Whether an operand pair is of integer elements. -/
def intPair (a : Desc) : Bool := a.fmt == .s8 || a.fmt == .sb4 || a.fmt == .s4 || a.fmt == .u8

/-- The product of two group scales, exact in F32 (R55). -/
def scalePair (a w : Val) : Val := (mulExact a w).val

/-- An activation element of a tap with its group scale: zero outside the tensor (R146). -/
def tapElem (a : Src) (h w : Int) (c : Nat) : Val × Val :=
  if a.hasLine h && a.d.hasCol w then
    let g := a.scaleOf h.toNat w.toNat c
    (groupElem a.d.fmt (a.elem h.toNat w.toNat c) g, g)
  else (.zero false, if a.d.scaled then .zero false else .nat 1)

/-- The slices of output element (y, x, oc) of CONV and GEMM, in the order of R52. -/
def convSlices (o : Op) (a w : Src) (y x oc : Nat) : List Slice :=
  let cin := (a.d.c + 31) / 32
  let q := slicesPerCycle w.d.fmt
  let tiles := (kernH o * kernW o * cin + q - 1) / q
  (List.range (kernH o)).flatMap (fun i => (List.range (kernW o)).flatMap (fun j =>
    (List.range cin).map (fun cs =>
      let si := (i * kernW o + j) * cin + cs
      let row := ((oc / 32 * tiles + si / q) * 32 + oc % 32) * q + si % q
      let gw := (w.gscale row).1
      let ga := (tapElem a (tapLine o y i) (tapCol o x j) (32 * cs)).2
      { pairs := (List.range 32).map (fun k =>
          ((tapElem a (tapLine o y i) (tapCol o x j) (32 * cs + k)).1,
           groupElem w.d.fmt (w.weight (32 * row + k)) gw)),
        scale := scalePair ga gw })))

/-- The slices of output element (y, x, c) of DWCONV: each kernel position is a slice of one product (R52). -/
def dwSlices (o : Op) (a w : Src) (y x c : Nat) : List Slice :=
  (List.range (kernH o)).flatMap (fun i => (List.range (kernW o)).map (fun j =>
    let row := c / 32 * (kernH o * kernW o) + i * kernW o + j
    let gw := (w.gscale row).1
    let e := tapElem a (tapLine o y i) (tapCol o x j) c
    { pairs := [(e.1, groupElem w.d.fmt (w.weight (32 * row + c % 32)) gw)],
      scale := scalePair e.2 gw }))

/-- The second-level scale of the activation lines an output line reads: a free value where the lines of one
window carry different scales (log entry 10). -/
def lineScale (s : State) (o : Op) (a : Src) (y : Nat) : Val :=
  let groups := a.d.lines * a.d.groupsPerLine
  let hs := ((List.range (kernH o)).map (tapLine o y)).filter a.hasLine
  match hs.map (fun h => a.tscale groups (a.d.line h.toNat)) with
  | [] => .nat 1
  | t :: ts => if ts.all (fun u => u == t) then t else f32 (Config.freeValue s.free % 2 ^ 32)

/-- The bias of an output channel (R147). -/
def biasOf (b : Option Src) (oc : Nat) : Val :=
  match b with
  | some x => decodeVal x.d.fmt (x.packed x.d.fmt (x.d.base + oc / x.d.w * x.d.strideH) (oc % x.d.w))
  | none => .zero false

/-- The input positions of the taps of an output tensor that lie in the input, one a channel group (R146). -/
def tapCells (o : Op) (a : Src) (d : Desc) (h0 : Nat) : List (Nat × Nat × Nat) :=
  (List.range d.h).flatMap (fun y => (List.range (kernH o)).flatMap (fun i =>
    (List.range d.w).flatMap (fun x => (List.range (kernW o)).flatMap (fun j =>
      let h := tapLine o (h0 + y) i
      let w := tapCol o x j
      if a.hasLine h && a.d.hasCol w then
        (List.range ((a.d.c + 31) / 32)).map (fun cb => (h.toNat, w.toNat, 32 * cb))
      else []))))

/-- Bad groups of a weight tensor, whose tiles are read whole (R47, R147). -/
def Src.badTiles (x : Src) (groups : Nat) : Nums :=
  ⟨0, 0, if x.d.scaled then ((List.range groups).filter (fun g => (x.gscale g).2)).length else 0, 0⟩

/-- Run an engine instruction (R145): each output element's reduction, converted to dd's format. -/
def engineOp (q : SeqId) (o : Op) (x : Seq) (s : State)
    (slices : Src → Src → Nat → Nat → Nat → List Slice) : State :=
  let d := descOf (x.d o.dd)
  let a := descOf (x.d o.da)
  let w := descOf (x.d o.db)
  let b := if bitAt o.sub 0 then [descOf (x.d o.dc)] else []
  let h0 := lineBase x o
  onUnits q o ([a, w] ++ b) [d] s (fun s =>
    let sa := lineSrc s q a
    let sw := srcOf s q w
    let sb := (b.map (srcOf s q)).head?
    let p := (pathOf a w).getD .float
    let wgroups := w.w * w.h / 32
    let s1 := storeTensor s q d h0 (fun y xx oc =>
      (mul32 (lineScale s o sa y) (sw.tscale wgroups oc)).bind fun c =>
        (reduce p (intPair a) (slices sa sw y xx oc) (biasOf sb oc) c).bind fun v => convert v d.fmt false)
    let s2 := if w.fmt = .sb4 then { s1 with free := s1.free + 1 } else s1
    countNums s2 q.chase.val ((badScales sa (tapCells o sa d h0)).plus (sw.badTiles wgroups)))

/-- CONV (R145 to R147). -/
def execConv (q : SeqId) (w : ZWord) (s : State) : Answer :=
  .next (issue q w s (isOp 2 0x01) (fun o x s => engineOp q o x s (convSlices o)))

/-- DWCONV (R84, R145). -/
def execDwconv (q : SeqId) (w : ZWord) (s : State) : Answer :=
  .next (issue q w s (isOp 2 0x02) (fun o x s => engineOp q o x s (dwSlices o)))

/-- GEMM (R145): CONV with a 1 × 1 kernel, stride 1 and no ring. -/
def execGemm (q : SeqId) (w : ZWord) (s : State) : Answer :=
  .next (issue q w s (isOp 2 0x03) (fun o x s => engineOp q o x s (convSlices o)))

/-! ### The vector unit -/

/-- A source element in F32 (R145). -/
def Src.f32 (x : Src) (h w c : Nat) : Ev Val := round32 (x.val h w c)

/-- Run a vector instruction over the elements of dd; `reads` names the positions it reads of its `i`-th source. -/
def vectorOp (q : SeqId) (o : Op) (x : Seq) (s : State) (srcs : List Desc) (dst : Desc)
    (reads : Nat → Src → List (Nat × Nat × Nat)) (f : List Src → Nat → Nat → Nat → Ev Nat) : State :=
  onUnits q o srcs [dst] s (fun s =>
    let l := srcs.map (lineSrc s q)
    let s1 := storeTensor s q dst (lineBase x o) (f l)
    countNums s1 q.chase.val
      (l.zipIdx.foldl (fun acc e => acc.plus (badScales e.1 (reads e.2 e.1))) .zero))

/-- An elementwise instruction reads the positions it writes. -/
def sameCells (dst : Desc) (h0 : Nat) : Nat → Src → List (Nat × Nat × Nat) := fun _ _ => dst.cells h0

/-- A pooling instruction reads the positions of its windows. -/
def poolCells (o : Op) (dst : Desc) (h0 : Nat) : Nat → Src → List (Nat × Nat × Nat) :=
  fun _ a => tapCells o a dst h0

/-- The positions of a pooling window inside the tensor, in row-major order (R85, R57). -/
def window (o : Op) (a : Src) (y x c : Nat) : List (Nat × Nat × Nat) :=
  (List.range (kernH o)).flatMap (fun i => (List.range (kernW o)).filterMap (fun j =>
    let h := tapLine o y i
    let w := tapCol o x j
    if a.hasLine h && a.d.hasCol w then some (h.toNat, w.toNat, c) else none))

/-- Results in order, with the events of all. -/
def Ev.all {α : Type} : List (Ev α) → Ev (List α)
  | [] => .ok []
  | e :: t => e.bind fun v => (Ev.all t).bind fun r => .ok (v :: r)

/-- The values of some positions in F32 (R145). -/
def Src.f32s (a : Src) (l : List (Nat × Nat × Nat)) : Ev (List Val) :=
  Ev.all (l.map (fun e => a.f32 e.1 e.2.1 e.2.2))

/-- An empty window: the spec states no result (log entry 8). -/
def emptyWindow : Val := f32 (Config.divByZero 0)

/-- POOLMAX (R45, R85). -/
def execPoolmax (q : SeqId) (w : ZWord) (s : State) : Answer :=
  .next (issue q w s (isOp 2 0x04) (fun o x s =>
    let d := descOf (x.d o.dd)
    vectorOp q o x s [descOf (x.d o.da)] d (poolCells o d (lineBase x o)) (fun l y xx c =>
      match l with
      | a :: _ =>
        (a.f32s (window o a y xx c)).bind fun vs =>
          match vs with
          | [] => convert emptyWindow d.fmt false
          | v :: t => convert (t.foldl maxVal v) d.fmt false
      | [] => .ok 0)))

/-- The rounded F32 sum of values in order (R57). -/
def sum32 : List Val → Val → Ev Val
  | [], acc => .ok acc
  | v :: t, acc => (add32 acc v).bind (sum32 t)

/-- The average of the positions of a window (R57): integers are summed exactly; float inputs, and integers with group
scales, whose values e × g × t are no integers (R46), in F32 with each addition rounded; the quotient is rounded once to
the output format. -/
def average (a : Src) (dst : Fmt) (l : List (Nat × Nat × Nat)) : Ev Nat :=
  let total : Ev Val :=
    if a.d.fmt.isInt && !a.d.scaled then .ok (.int ((l.map (fun e => (a.val e.1 e.2.1 e.2.2).toInt)).sum))
    else (a.f32s l).bind fun vs =>
      match vs with
      | [] => .ok (.zero false)
      | v :: t => sum32 t v
  total.bind fun v => (divExact v (.nat l.length)).bind fun r => convert r dst false

/-- POOLAVG (R57, R85). -/
def execPoolavg (q : SeqId) (w : ZWord) (s : State) : Answer :=
  .next (issue q w s (isOp 2 0x05) (fun o x s =>
    let d := descOf (x.d o.dd)
    vectorOp q o x s [descOf (x.d o.da)] d (poolCells o d (lineBase x o)) (fun l y xx c =>
      match l with
      | a :: _ => average a d.fmt (window o a y xx c)
      | [] => .ok 0)))

/-- The position of the second operand of ADD and MUL: broadcast when db has H = W = 1 (R145). -/
def broadcastCell (b : Src) (e : Nat × Nat × Nat) : Nat × Nat × Nat :=
  if b.d.h = 1 ∧ b.d.w = 1 then (0, 0, e.2.2) else e

/-- The second operand of ADD and MUL (R145). -/
def broadcast (b : Src) (h w c : Nat) : Ev Val :=
  let e := broadcastCell b (h, w, c)
  b.f32 e.1 e.2.1 e.2.2

/-- An elementwise F32 operation of two operands (R145). -/
def elementwise (q : SeqId) (o : Op) (x : Seq) (s : State) (f : Val → Val → Ev Val) : State :=
  let d := descOf (x.d o.dd)
  let reads := fun i (y : Src) =>
    if i = 0 then d.cells (lineBase x o) else (d.cells (lineBase x o)).map (broadcastCell y)
  vectorOp q o x s [descOf (x.d o.da), descOf (x.d o.db)] d reads (fun l h w c =>
    match l with
    | a :: b :: _ => (a.f32 h w c).bind fun u => (broadcast b h w c).bind fun v =>
        (f u v).bind fun r => convert r d.fmt o.sat
    | _ => .ok 0)

/-- ADD (R145). -/
def execAdd (q : SeqId) (w : ZWord) (s : State) : Answer :=
  .next (issue q w s (isOp 2 0x06) (fun o x s => elementwise q o x s add32))

/-- MUL (R145). -/
def execMul (q : SeqId) (w : ZWord) (s : State) : Answer :=
  .next (issue q w s (isOp 2 0x07) (fun o x s => elementwise q o x s mul32))

/-- 1 / (1 + exp(-x)) (R148). -/
def sigmoid (x : Val) : Ev Val :=
  (exp32 x.neg).bind fun e => (add32 (.nat 1) e).bind fun d => div32 (.nat 1) d

/-- The functions of R148. -/
def activation (code a b : Nat) (x : Val) : Ev Val :=
  match code with
  | 0 => .ok x
  | 1 => .ok (maxVal x (.zero false))
  | 2 => .ok (minVal (maxVal x (f32 a)) (f32 b))
  | 3 => if x.lt (.zero false) then mul32 (f32 a) x else .ok x
  | 4 => sigmoid x
  | 5 => (mul32 (.nat 2) x).bind fun y => (exp32 y).bind fun e => (add32 e (.nat 1)).bind fun d =>
      (div32 (.nat 2) d).bind fun r => sub32 (.nat 1) r
  | 6 => (sigmoid x).bind fun r => mul32 x r
  | _ => (add32 x (.nat 3)).bind fun y =>
      (mul32 x (minVal (maxVal y (.zero false)) (.nat 6))).bind fun z =>
        mul32 z (round32 (.fin false 1 6)).val

/-- ACT (R148). -/
def execAct (q : SeqId) (w : ZWord) (s : State) : Answer :=
  .next (issue q w s (isOp 2 0x08) (fun o x s =>
    let d := descOf (x.d o.dd)
    vectorOp q o x s [descOf (x.d o.da)] d (sameCells d (lineBase x o)) (fun l h w c =>
      match l with
      | a :: _ => (a.f32 h w c).bind fun v => (activation (o.sub % 16) o.imm0 o.imm1 v).bind fun r =>
          convert r d.fmt o.sat
      | [] => .ok 0)))

/-! ### QUANT (R50, R58, R59, R149) -/

/-- A zero point of 8 bits within a destination's range (R58). -/
def zeroPoint (f : Fmt) (z : Nat) : Int :=
  match f with
  | .u8 | .u16 => (z % 256 : Nat)
  | _ => sext 8 z

/-- Convert, then add the zero point with saturation (R58, R59).  DESIGN CHOICE (log entry 86): the formula
convert(.., dst) + z saturates the quotient to dst before z is added, the text saturates the sum; both happen, in that
order. -/
def convertPlus (x : Val) (f : Fmt) (sat : Bool) (z : Int) : Ev Nat :=
  (convert x f sat).bind fun code =>
    if f.isInt then (clampInt f ((decodeVal f code).toInt + z)).bind fun r => .ok (encodeInt f r)
    else if z = 0 then .ok code
    else (addExact (decodeVal f code) (.int z)).bind fun r => convert r f sat

/-- The multiplier and shift, or the factor, of an output channel (R149). -/
def quantFactor (s : State) (q : SeqId) (o : Op) (d : Desc) (c : Nat) : Val :=
  let m := spaceBase s q d
  let per := fun i n => memNat (s.memOf m.1) (m.2 + d.scaleBase + i) n
  if bitAt o.sub 0 then
    let mul := if bitAt o.sub 1 then per (8 * c) 4 else o.imm0
    let sh := if bitAt o.sub 1 then per (8 * c + 4) 1 else o.imm1 % 32
    .fin false mul (2 ^ (31 + sh))
  else f32 (if bitAt o.sub 1 then per (4 * c) 4 else o.imm0)

/-- One element of an ungrouped QUANT (R58, R59). -/
def quantElem (s : State) (q : SeqId) (o : Op) (d : Desc) (a : Src) (h w c : Nat) : Ev Nat :=
  let x : Ev Val := if bitAt o.sub 0 then .ok (a.val h w c) else a.f32 h w c
  x.bind fun v => (mulExact v (quantFactor s q o d c)).bind fun r =>
    convertPlus r d.fmt o.sat (zeroPoint d.fmt (if bitAt o.sub 0 then bitsAt o.imm1 8 8 else o.imm1))

/-- The factor q of R50. -/
def groupQ (f : Fmt) : Nat :=
  match f with
  | .s8 => 127
  | .e4m3 => 448
  | _ => 7

/-- The positions of the group that element (h, w, c) belongs to: 32 channels, or 32 elements of a plain row. -/
def groupCells (d : Desc) (h w c : Nat) : List (Nat × Nat × Nat) :=
  if d.layout = 3 then
    ((List.range 32).map (fun i => (h, w / 32 * 32 + i, 0))).filter (fun e => decide (e.2.1 < d.w))
  else ((List.range 32).map (fun i => (h, w, c / 32 * 32 + i))).filter (fun e => decide (e.2.2 < d.c))

/-- The group scale R50 forms: the code of g.  DESIGN CHOICE (log entry 87): R50 does not speak of a group whose largest
magnitude is NaN or infinite; its steps then give 0x7F and 0x7E. -/
def groupCode (d : Desc) (a : Src) (t : Val) (h w c : Nat) : Ev Nat :=
  let m := (groupCells d h w c).foldl
    (fun acc e => maxVal acc (a.f32 e.1 e.2.1 e.2.2).val.abs) (.zero false)
  if m.isZero then .ok 0
  else (mulExact (.nat (groupQ d.fmt)) t).bind fun qt => (divExact m qt).bind fun r =>
    (convert r .e4m3 false).bind fun g => .ok (if g % 128 < 8 then 0x08 else g)

/-- One element of a grouped QUANT (R50). -/
def groupedElem (d : Desc) (a : Src) (t : Val) (sat : Bool) (h w c : Nat) : Ev Nat :=
  let g := (groupCode d a t h w c).val
  if g = 0 then .ok 0
  else (a.f32 h w c).bind fun x => (mulExact (decodeVal .e4m3 g) t).bind fun gt =>
    (divExact x gt).bind fun r => convert r d.fmt sat

/-- Write the scale plane of a grouped QUANT (R49, R50, R149): group scales with the events of their conversion, counted
once a group, and t in every band row of SB4; nothing where the destination has no scale plane. -/
def writeScales (s : State) (q : SeqId) (d : Desc) (h0 : Nat) (a : Src) (tbits : Nat) : State :=
  let m := spaceBase s q d
  let t := f32 tbits
  let first := d.groupFirsts h0
  let m1 := first.foldl (fun mem e =>
    memWrite mem (m.2 + d.scaleBase + d.groupNo e.1 e.2.1 (e.2.2 / 32))
      (byteOf (groupCode d a t e.1 e.2.1 e.2.2).val)) (s.memOf m.1)
  let m2 := if d.fmt = .sb4 then
      (List.range d.lines).foldl (fun mem i =>
        memStore mem (m.2 + d.scaleBase + d.groupBytes + 4 * i) (natLe 4 tbits)) m1
    else m1
  if d.scaled then
    countNums (s.setMem m.1 (padPlane d m2 m.2)) q.chase.val
      (first.foldl (fun acc e => acc.plus (groupCode d a t e.1 e.2.1 e.2.2).ev.once) .zero)
  else s

/-- QUANT (R50, R58, R59, R149). -/
def execQuant (q : SeqId) (w : ZWord) (s : State) : Answer :=
  .next (issue q w s (isOp 2 0x09) (fun o x s =>
    let d := descOf (x.d o.dd)
    let a := descOf (x.d o.da)
    if bitAt o.sub 2 then
      onUnits q o [a] [d] s (fun s =>
        let src := lineSrc s q a
        let s1 := storeTensor s q d (lineBase x o) (groupedElem d src (f32 o.imm0) o.sat)
        countNums (writeScales s1 q d (lineBase x o) src o.imm0) q.chase.val
          (badScales src (d.cells (lineBase x o))))
    else
      vectorOp q o x s [a] d (sameCells d (lineBase x o)) (fun l h w c =>
        match l with
        | src :: _ => quantElem s q o d src h w c
        | [] => .ok 0)))

/-- DEQ (R46, R149). -/
def execDeq (q : SeqId) (w : ZWord) (s : State) : Answer :=
  .next (issue q w s (isOp 2 0x0A) (fun o x s =>
    let d := descOf (x.d o.dd)
    vectorOp q o x s [descOf (x.d o.da)] d (sameCells d (lineBase x o)) (fun l h w c =>
      match l with
      | a :: _ =>
        let v : Ev Val :=
          if bitAt o.sub 0 then
            (addExact (a.val h w c) (.int (-(sext 8 o.imm1)))).bind fun y =>
              (mulExact y (f32 o.imm0)).bind round32
          else a.f32 h w c
        v.bind fun r => convert r d.fmt false
      | [] => .ok 0)))

/-! ### ROT (R60) -/

/-- One butterfly pass with step `h` (R60): each position takes its sum or difference in place, and keeps its own events
(R62 counts elements). -/
def rotPass (h : Nat) (x : List (Ev Val)) : List (Ev Val) :=
  let at_ := fun i => x.getD i (.ok (.zero false))
  (List.range x.length).map (fun i =>
    let r := if i / h % 2 = 0 then add32 (at_ i).val (at_ (i + h)).val else sub32 (at_ (i - h)).val (at_ i).val
    ⟨r.val, (at_ i).ev.plus r.ev⟩)

/-- The passes h = 1, 2, 4, ... (R60). -/
def rotPasses : Nat → Nat → List (Ev Val) → List (Ev Val)
  | 0, _, x => x
  | k + 1, h, x => rotPasses k (2 * h) (rotPass h x)

/-- The constant c_n of R60. -/
def rotConst (k : Nat) : Val := f32 (if k = 4 then 0x3E800000 else if k = 5 then 0x3E3504F3 else 0x3E000000)

/-- ROT (R60): code 0, 1, 2 rotates blocks of 16, 32, 64 channels; channels past the tensor read as zero. -/
def execRot (q : SeqId) (w : ZWord) (s : State) : Answer :=
  .next (issue q w s (isOp 2 0x0B) (fun o x s =>
    let d := descOf (x.d o.dd)
    let k := 4 + o.imm0 % 4
    vectorOp q o x s [descOf (x.d o.da)] d (sameCells d (lineBase x o)) (fun l h w c =>
      match l with
      | a :: _ =>
        let n := 2 ^ k
        let blk := (List.range n).map (fun i =>
          if a.d.c ≤ c / n * n + i then .ok (.zero false) else a.f32 h w (c / n * n + i))
        ((rotPasses k 1 blk).getD (c % n) (.ok (.zero false))).bind fun y =>
          (mul32 y (rotConst k)).bind fun r => convert r d.fmt false
      | [] => .ok 0)))

/-! ### UNIT_COMPLETION (R77, R130) -/

/-- Where a unit of a sequencer's core stands: engines, vector unit and ports at the core, copy engines and
post-processing at its cluster (R130). -/
def unitPlace (s : State) (q : SeqId) (u : UnitId) : Nat :=
  match u with
  | .copy _ => clusterOf (ownCore s q)
  | .post => clusterOf (ownCore s q)
  | _ => ownCore s q

/-- A sequencer that waits on units goes on once they are idle (R137). -/
def wakeUnits (q : SeqId) (s : State) : State :=
  match ((s.chase q.chase.val).seq q.core).wait with
  | .units m =>
    if unitsIdle s q m then modSeq s q (fun x => { x with wait := .none }.advance) else s
  | _ => s

/-- The sequencers of a chase: its line sequencer and its stream sequencers. -/
def seqsOf (n : ChaseNo) : List SeqId :=
  ⟨n, none⟩ :: (List.finRange 32).map (fun l => ⟨n, some l⟩)

/-- UNIT_COMPLETION (R130, R77): the unit is free again; a copy completes in CE_STATUS (R117), but for the furniture of a
predicated-off one (R121); a SYNC on units that are now idle goes on. -/
def execUnitCompletion (q : SeqId) (u : UnitId) (s : State) : Answer :=
  let n := q.chase.val
  let place := unitPlace s q u
  let c := s.chase n
  let mine := fun (b : Busy) => b.place == place && b.unit == u
  if c.busy.any mine then
    let s1 := s.setChase n { c with
      busy := c.busy.filter (fun b => !mine b) }
    let s2 := match u with
      | .copy e =>
        if c.busy.any (fun b => mine b && !b.furniture) then
          (s1.put .ceBusy (2 * place + e.val) 0).put .ceCode (2 * place + e.val) 0
        else s1
      | _ => s1
    .next ((seqsOf q.chase).foldl (fun s i => wakeUnits i s) s2)
  else .next s

end Sys2Proof.Machine
end

