-- ==== Sys2Proof/Machine/Experts.lean ====
section
/-! DEFINITION. Class X: gates, sorts and the combination of expert outputs (R65, R153 to R156, R291 to R293,
R297). -/

namespace Sys2Proof.Machine

/-- Write bytes at an offset of a descriptor's tensor; what lies past its extent is not written (log entry 12). -/
def putBytes (s : State) (q : SeqId) (d : Desc) (off : Nat) (b : List Byte) : State :=
  let m := spaceBase s q d
  let a := m.2 + d.base + off
  let c := b.take (d.extent - off)
  let s1 := disturb s q.chase.val [(m.1, a, a + c.length)]
  s1.setMem m.1 (memStore (s1.memOf m.1) a c)

/-- The reads of an instruction of class X, which names no unit: free values they may have used (R132), corrected errors
they find (R78). -/
def readX (s : State) (q : SeqId) (l : List Src) : State :=
  readSources (skipFree s l) (l.flatMap (fun x => x.d.spans s q))

/-! ### GATE (R154) -/

/-- The logits of a tensor in element order, as F32 values. -/
def logits (x : Src) : List (Ev Val) :=
  (x.d.cells 0).map (fun e => x.f32 e.1 e.2.1 e.2.2)

/-- Rank: the larger logit, then the lower index (R154). -/
def logitBefore (a b : Nat × Val) : Bool :=
  b.2.lt a.2 || (!a.2.lt b.2 && decide (a.1 < b.1))

/-- Put a logit into a ranked list. -/
def logitInsert (e : Nat × Val) : List (Nat × Val) → List (Nat × Val)
  | [] => [e]
  | c :: t => if logitBefore e c then e :: c :: t else c :: logitInsert e t

/-- The `k` best logits that are not NaN, best first (R154). -/
def topLogits (k : Nat) (l : List Val) : List (Nat × Val) :=
  (((l.zipIdx.map (fun e => (e.2, e.1))).filter (fun e => e.2 != .nan)).foldl
    (fun acc e => logitInsert e acc) []).take k

/-- The exponentials e_r = exp(l_r - l_max) of the chosen logits, best first, each step rounded (R154). -/
def gateExps (top : List (Nat × Val)) : List (Ev Val) :=
  let best := (top.head?.map (fun e => e.2)).getD (.zero false)
  top.map (fun e => (sub32 e.2 best).bind exp32)

/-- The sum of the exponentials in ascending rank (R154). -/
def gateSum (es : List (Ev Val)) : Ev Val :=
  match es with
  | [] => .ok (.zero false)
  | e :: t => t.foldl (fun acc x => acc.bind (fun a => x.bind (fun b => add32 a b))) e

/-- The `k` gate entries and the events of their computation: expert index and F32 weight (R154). -/
def gateEntries (k : Nat) (l : List Val) : List (Nat × Nat) × Nums :=
  let top := topLogits k l
  let es := gateExps top
  let sum := gateSum es
  let ws := es.map (fun e => div32 e.val sum.val)
  let got := (top.zip ws).map (fun e => (e.1.1, bits32 e.2.val))
  (got ++ List.replicate (k - got.length) (0xFFFFFFFF, 0),
    ws.foldl (fun a w => a.plus w.ev) sum.ev)

/-- GATE (R153, R154). -/
def execGate (q : SeqId) (w : ZWord) (s : State) : Answer :=
  .next (issue q w s (isOp 4 0x01) (fun o x s =>
    let d := descOf (x.d o.dd)
    let src := srcOf s q (descOf (x.d o.da))
    let ls := logits src
    let r := gateEntries (o.imm0 % 8 + 1) (ls.map (fun e => e.val))
    let bytes := r.1.flatMap (fun e => natLe 4 e.1 ++ natLe 4 e.2)
    let ev := ls.foldl (fun a e => a.plus e.ev) r.2
    retire q (countBad (countNums (putBytes (readX s q [src]) q d 0 bytes) q.chase.val ev) q src)))

/-! ### SORT.SEND (R153, R290, R291, R293) -/

/-- The gate entries a descriptor holds: rank, expert index, weight. -/
def readGate (x : Src) : List (Nat × Nat × Nat) :=
  (List.range (min 8 (transferBytes x.d / 8))).map
    (fun r => (r, x.le (x.d.base + 8 * r) 4, x.le (x.d.base + 8 * r + 4) 4))

/-- The features or outputs of a tensor as a plain array, line, column, channel (R290). -/
def plainBytes (x : Src) : List Byte :=
  packCodes x.d.fmt ((x.d.cells 0).map (fun e => x.elem e.1 e.2.1 e.2.2))

/-- The header of a sort (R290). -/
def sortHeader (s : State) (n h rank expert gate len : Nat) (it : Item) (e : Expert) (d : Desc) : SortHdr :=
  { kind := 1, status := 0, expert := BitVec.ofNat 16 expert, srcMod := BitVec.ofNat 4 (ownModule s),
    srcChase := BitVec.ofNat 4 n, dstMod := BitVec.ofNat 4 e.homeMod, dstChase := BitVec.ofNat 4 e.homeChase,
    genChase := byteOf (s.get .genChase n), genCtx := byteOf (s.get .genCtx it.ctx), rank := byteOf rank,
    context := byteOf it.ctx, handle := BitVec.ofNat 16 (h * 8 + rank), epoch := BitVec.ofNat 16 it.epoch,
    item := BitVec.ofNat 48 it.line, gate := BitVec.ofNat 32 gate, length := len, h := BitVec.ofNat 16 d.h,
    w := BitVec.ofNat 16 d.w, c := BitVec.ofNat 16 d.c, format := byteOf d.code }

/-- Whether a link that trains keeps its heartbeat rule suspended (R286, R291). -/
def linkSuspended (s : State) (p : Nat) : Bool :=
  (s.port p).suspended && s.get .rhState p != lnkDown && s.get .rhState p != lnkDisabled

/-- Send one sort (R291, R298): its code at issue and what became of it; a module that an UNREACH has named is not sent
to. -/
def sendSort (s : State) (n : Nat) (hd : SortHdr) (payload : List Byte) : Nat × State :=
  let record := fun (s : State) (port : Option Nat) (fate : SortFate) =>
    s.setChase n { s.chase n with sorts := (s.chase n).sorts ++ [⟨hd, port, fate⟩] }
  let lose := fun (c : Nat) => (c, countMissing (record s none (.missing c)) n c)
  let m := hd.dstMod.toNat
  if m = ownModule s then (cOk, deliverSort (record s none .waiting) hd payload)
  else if !inMask (epochMask s n hd.epoch.toNat) m || inMask (s.chase n).lost m then lose cNoExpert
  else
    match routePort s m with
    | none => lose cNoExpert
    | some p =>
      let pkt := ownPacket s p m 1 (.sort hd payload)
      if (linkServes s p || linkSuspended s p) && portFree (s.port p) pkt then
        (cOk, sendOn (record s (some p) .waiting) p pkt)
      else lose cLinkTraining

/-- Take a sort's bytes from the egress bucket (R194): its wait shows only in the reply's time. -/
def takeEgress (s : State) (n bytes : Nat) : State :=
  let c := s.chase n
  s.setChase n { c with buckets := c.buckets.set 2 (c.buckets.get bucketDepth 2 - bytes * 65536) }

/-- Send the sorts of a gate output in ascending rank: the first code that is not OK, and the state (R153). -/
def sendSorts (n h : Nat) (it : Item) (d : Desc) (payload : List Byte) :
    List (Nat × Nat × Nat) → Nat × State → Nat × State
  | [], acc => acc
  | (rank, expert, gate) :: t, (code, s) =>
    if expert = 0xFFFFFFFF then
      let hd := sortHeader s n h rank expert gate 0 it ⟨0, 0, false⟩ d
      sendSorts n h it d payload t
        (code, s.setChase n { s.chase n with sorts := (s.chase n).sorts ++ [⟨hd, none, .empty⟩] })
    else
      let e := ((impoOf s n).bind (fun i => i.experts[expert]?)).getD ⟨0xFF, 0, false⟩
      let hd := sortHeader s n h rank expert gate payload.length it e d
      let r := if e.homeMod = 0xFF then
          (cNoExpert, countMissing (s.setChase n { s.chase n with
            sorts := (s.chase n).sorts ++ [⟨hd, none, .missing cNoExpert⟩] }) n cNoExpert)
        else sendSort s n hd payload
      sendSorts n h it d payload t (if code = cOk then r.1 else code, takeEgress r.2 n (64 + payload.length))

/-- SORT.SEND sub 0 (R291); a handle that is not open sends nothing and answers BUSY (log entry 20). -/
def execSortSend (q : SeqId) (w : ZWord) (s : State) : Answer :=
  .next (issue q w s (fun o => isOp 4 0x02 o && !bitAt o.sub 0) (fun o x s =>
    let n := q.chase.val
    let h := x.s o.sa
    let d := descOf (x.d o.da)
    let src := srcOf s q d
    let gsrc := srcOf s q (descOf (x.d o.db))
    let s0 := readX s q [src, gsrc]
    let r := match if h < 256 then (s.chase n).item h else none with
      | none => (cBusy, s0)
      | some it =>
        let s1 := s0.setChase n { s0.chase n with lastSend := (s0.chase n).lastSend.set h s.clk }
        if (s0.context it.ctx).resetting then (cIsolated, s0)
        else sendSorts n h it d (plainBytes src) (readGate gsrc) (cOk, s1)
    retire q (modSeq r.2 q (fun y => y.setS o.sd r.1))))

/-- Return an expert's output for an inbound sort handle (R293): the slot is freed; a handle that is not held
is ignored and counted. -/
def replyTo (s : State) (n slot : Nat) (output : List Byte) : Nat × State :=
  let c := s.chase n
  match if slot < 64 then c.inbound.get none slot else none with
  | some x =>
    if x.taken then
      (cOk, sendReply (s.setChase n { c with
        inbound := c.inbound.set slot none, inOrder := c.inOrder.erase slot }) x.hdr cOk output)
    else (cBusy, s.bump .seqRefused n)
  | none => (cBusy, s.bump .seqRefused n)

/-- SORT.SEND sub 1 (R293). -/
def execSortSendReply (q : SeqId) (w : ZWord) (s : State) : Answer :=
  .next (issue q w s (fun o => isOp 4 0x02 o && bitAt o.sub 0) (fun o x s =>
    let src := srcOf s q (descOf (x.d o.da))
    let r := replyTo (readX s q [src]) q.chase.val (x.s o.sa) (plainBytes src)
    retire q (modSeq r.2 q (fun y => y.setS o.sd r.1))))

/-! ### SORT.RECV (R153, R155, R293, R297) -/

/-- D, the length of an expert output (R153, R294); a forme without imposition table: the elements a
destination has for 8 ranks. -/
def expertLen (s : State) (n : Nat) (d : Desc) : Nat :=
  match impoOf s n with
  | some i => i.outLen
  | none => (transferBytes d - 64) / 32

/-- The sorts of an item handle. -/
def sortsOf (c : Chase) (h : Nat) : List SortOut := c.sorts.filter (fun x => x.hdr.handle.toNat / 8 == h)

/-- Whether every entry has been answered or has failed (R155). -/
def collected (c : Chase) (h : Nat) : Bool := (sortsOf c h).all (fun x => !x.awaits)

/-- The missing mask of an item's sorts (R155): bit r is 1 when rank r has no reply. -/
def missingMask (l : List SortOut) : Nat :=
  (l.map (fun x => match x.fate with
    | .waiting => 2 ^ x.hdr.rank.toNat
    | .missing _ => 2 ^ x.hdr.rank.toNat
    | _ => 0)).sum

/-- The 64-byte header of collected replies: the ranks in the order their replies arrived, then 0xFF (log entry
21). -/
def arrivalHeader (l : List SortOut) : List Byte :=
  let ranks := l.filterMap (fun x => match x.fate with
    | .arrived _ => some x.hdr.rank
    | _ => none)
  (ranks ++ List.replicate 64 0xFF).take 64

/-- Write the replies of an item into the slots of their ranks (R155, R291). -/
def writeReplies (s : State) (q : SeqId) (d : Desc) (len : Nat) (l : List SortOut) : State :=
  l.foldl (fun s x =>
    let off := 64 + x.hdr.rank.toNat * (4 * len)
    match x.fate with
    | .arrived out => putBytes s q d off (padTo (4 * len) out)
    | .empty => putBytes s q d off (List.replicate (4 * len) 0)
    | _ => s) (putBytes s q d 0 (arrivalHeader l))

/-- Complete a SORT.RECV sub 0 (R155): the slots and header of dd, the missing mask in s[sd], p[pdst] when it is
0, the item's fallback flag when it is not. -/
def finishRecv (s : State) (q : SeqId) (h dd sd pdst : Nat) : State :=
  let n := q.chase.val
  let l := sortsOf (s.chase n) h
  let d := descOf (((s.chase n).seq q.core).d dd)
  let mask := missingMask l
  let s1 := writeReplies s q d (expertLen s n d) l
  let c := s1.chase n
  let items := match c.item h with
    | some it => if mask = 0 then c.items else c.items.set h (some { it with fallback := true })
    | none => c.items
  let s2 := s1.setChase n { c with
    items := items, sorts := c.sorts.filter (fun x => x.hdr.handle.toNat / 8 != h) }
  modSeq s2 q (fun y =>
    { (y.setS sd mask).setP pdst (mask == 0) with wait := .none }.advance)

/-- K4 cycles of a number of nanoseconds, rounded up (2.5 ns each). -/
def cyclesOf (ns : Nat) : Nat := (2 * ns + 4) / 5

/-- When a SORT.RECV expires (R297): proof mode measures from the item's last SORT.SEND and extends the timeout to
RH_PROOF_WAIT. -/
def recvExpiry (s : State) (n h imm : Nat) : Option Nat :=
  if imm = 0 then none
  else if s.flag .chProof n then
    some ((s.chase n).lastSend.get s.clk h + max imm (cyclesOf (max 1 (s.get .rhProofWait 0))))
  else some (s.clk + imm)

/-- SORT.RECV sub 0 (R155): goes on at once when every entry has been answered, else waits. -/
def execSortRecv (q : SeqId) (w : ZWord) (s : State) : Answer :=
  .next (issue q w s (fun o => isOp 4 0x03 o && !bitAt o.sub 0) (fun o x s =>
    let n := q.chase.val
    let h := x.s o.sa
    if collected (s.chase n) h then finishRecv s q h o.dd o.sd o.pdst
    else modSeq s q (fun y => { y with
      wait := .sortRecv h o.dd o.sd o.pdst (recvExpiry s n h o.imm0) })))

/-- Take the oldest inbound sort that nobody took (R293): its features go to dd, its expert to s[sd], its slot
to s[sd + 1]. -/
def takeInbound (s : State) (q : SeqId) (dd sd : Nat) : Option State :=
  let n := q.chase.val
  let c := s.chase n
  match c.inOrder.find? (fun i => ((c.inbound.get none i).map (fun x => !x.taken)).getD false) with
  | none => none
  | some i =>
    match c.inbound.get none i with
    | none => none
    | some x =>
      let d := descOf ((c.seq q.core).d dd)
      let s1 := putBytes s q d 0 x.payload
      let s2 := s1.setChase n { s1.chase n with
        inbound := (s1.chase n).inbound.set i (some { x with taken := true }) }
      some (modSeq s2 q (fun y =>
        { (y.setS sd x.hdr.expert.toNat).setS (sd + 1) i with wait := .none }.advance))

/-- SORT.RECV sub 1 (R293): takes the oldest inbound sort, or waits for one. -/
def execSortRecvInbound (q : SeqId) (w : ZWord) (s : State) : Answer :=
  .next (issue q w s (fun o => isOp 4 0x03 o && bitAt o.sub 0) (fun o _ s =>
    match takeInbound s q o.dd o.sd with
    | some t => t
    | none => modSeq s q (fun y => { y with wait := .inbound o.dd o.sd o.pdst (expiryOf s o.imm0) })))

/-- SORT.RECV_RELEASE (R155): every reply has arrived or failed; or an inbound sort has come (R293). -/
def execSortRecvRelease (q : SeqId) (s : State) : Answer :=
  match ((s.chase q.chase.val).seq q.core).wait with
  | .sortRecv h dd sd pdst _ =>
    if collected (s.chase q.chase.val) h then .next (finishRecv s q h dd sd pdst) else .next s
  | .inbound dd sd _ _ => .next ((takeInbound s q dd sd).getD s)
  | _ => .next s

/-- SORT.RECV_TIMEOUT (R155, R297, R140): the ranks without a reply are missing.  For sub 1 the rules state no
result: s[sd] and s[sd + 1] take free values (log entry 8). -/
def execSortRecvTimeout (q : SeqId) (s : State) : Answer :=
  match ((s.chase q.chase.val).seq q.core).wait with
  | .sortRecv h dd sd pdst e => if expired s e then .next (finishRecv s q h dd sd pdst) else .next s
  | .inbound dd sd _ e =>
    if expired s e then
      match takeInbound s q dd sd with
      | some t => .next t
      | none =>
        let a := s.fresh 32
        let b := a.2.fresh 32
        .next (modSeq b.2 q (fun y => { (y.setS sd a.1).setS (sd + 1) b.1 with wait := .none }.advance))
    else .next s
  | _ => .next s

/-! ### COMBINE (R65, R156) -/

/-- Put a gate entry into a list in ascending expert index. -/
def expertInsert (e : Nat × Nat × Nat) : List (Nat × Nat × Nat) → List (Nat × Nat × Nat)
  | [] => [e]
  | c :: t => if e.2.1 < c.2.1 then e :: c :: t else c :: expertInsert e t

/-- Gate entries in ascending expert index. -/
def byExpert (l : List (Nat × Nat × Nat)) : List (Nat × Nat × Nat) :=
  l.foldl (fun acc e => expertInsert e acc) []

/-- The order of the terms (R65, R156): proof mode by expert index; fast mode by arrival, then the
common-expert terms by expert index. -/
def termOrder (proof : Bool) (gate : List (Nat × Nat × Nat)) (arrived : List Nat) : List (Nat × Nat × Nat) :=
  let real := gate.filter (fun e => e.2.1 != 0xFFFFFFFF)
  if proof then byExpert real
  else
    (arrived.filterMap (fun r => real.find? (fun e => e.1 == r))) ++
      byExpert (real.filter (fun e => !arrived.contains e.1))

/-- One element of the combination: each product and each sum rounded to F32 (R65). -/
def combineElem (a : Src) (len : Nat) (terms : List (Nat × Nat × Nat)) (j : Nat) : Ev Val :=
  let prod := fun (e : Nat × Nat × Nat) =>
    mul32 (f32 e.2.2) (f32 (a.le (a.d.base + 64 + e.1 * (4 * len) + 4 * j) 4))
  match terms with
  | [] => .ok (.zero false)
  | t :: ts => ts.foldl (fun acc e => acc.bind (fun x => (prod e).bind (fun y => add32 x y))) (prod t)

/-- COMBINE (R153, R156). -/
def execCombine (q : SeqId) (w : ZWord) (s : State) : Answer :=
  .next (issue q w s (isOp 4 0x04) (fun o x s =>
    let n := q.chase.val
    let d := descOf (x.d o.dd)
    let a := srcOf s q (descOf (x.d o.da))
    let g := srcOf s q (descOf (x.d o.db))
    let len := match impoOf s n with
      | some i => i.outLen
      | none => (d.cells 0).length
    let gate := readGate g
    let arrived := ((List.range 8).map (fun i => (a.byte (a.d.base + i)).toNat)).filter (fun r => decide (r < 8))
    let terms := termOrder (s.flag .chProof n) gate arrived
    let els := (List.range len).map (combineElem a len terms)
    let bytes := els.flatMap (fun e => natLe 4 (bits32 e.val))
    let ev := els.foldl (fun acc e => acc.plus e.ev.once) .zero
    retire q (countNums (putBytes (readX s q [a, g]) q d 0 bytes) n ev)))

end Sys2Proof.Machine
end

