-- ==== Sys2Proof/Machine/Move.lean ====
section
/-! DEFINITION. Class M: memory (R142 to R144, R91 to R96, R80 to R82). -/

namespace Sys2Proof.Machine

/-- Whether a tensor moves to one of its own scaled format, its group scales with it (R46, R49). -/
def movesPlane (x : Src) (d : Desc) : Bool := x.d.scaled && d.scaled && x.d.fmt == d.fmt

/-- One element of a transfer (R142): the source value converted to the destination format under R42; a tensor moved to
one of the same scaled format keeps its element codes, written canonically (R37, R38), and an element of an all-zero or
bad group is zero (R46, R47). -/
def moveElem (x : Src) (d : Desc) (h w c : Nat) : Ev Nat :=
  if movesPlane x d then
    .ok (if (x.scaleOf h w c).isZero then 0 else canonCode d.fmt (x.elem h w c))
  else convert (x.val h w c) d.fmt false

/-- The group scale that goes with a moved group: 0x00 for an all-zero or bad one, which reads as zero (R46, R47). -/
def moveScale (x : Src) (h w c : Nat) : Byte :=
  if (x.scaleOf h w c).isZero then 0 else x.byte (x.d.scaleBase + x.d.groupNo h w (c / 32))

/-- Write the scale plane of a tensor moved to one of the same scaled format (R49): each group's scale and, for SB4, the
second-level scale of each row, with the parts padded. -/
def moveScales (s : State) (q : SeqId) (x : Src) (d : Desc) : State :=
  if movesPlane x d then
    let m := spaceBase s q d
    let p := m.2 + d.scaleBase
    let m1 := (d.groupFirsts 0).foldl (fun mem e =>
      memWrite mem (p + d.groupNo e.1 e.2.1 (e.2.2 / 32)) (moveScale x e.1 e.2.1 e.2.2)) (s.memOf m.1)
    let m2 := if d.fmt = .sb4 then
        (List.range d.lines).foldl (fun mem i =>
          memStore mem (p + d.groupBytes + 4 * i)
            (natLe 4 (canonCode .f32 (x.le (x.d.scaleBase + x.d.groupBytes + 4 * x.d.line i) 4)))) m1
      else m1
    s.setMem m.1 (padPlane d m2 m.2)
  else s

/-- Move tensor `a` to `d` (R142), with its scale plane; the bad groups it reads are counted (R47). -/
def moveTensor (s : State) (q : SeqId) (a d : Desc) : State :=
  let x := srcOf s q a
  countBad (moveScales (storeCells s q d 0 (moveElem x d)) q x d) q x

/-! ### LD.T from a galley (R143) -/

/-- The galley entry that accounts for a line, if it is held. -/
def slugAt (c : Context) (line : Nat) : Option Slug :=
  c.slots.find? (fun g => decide (0 ≤ lineDiff line g.line) && decide (lineDiff line g.lastLine ≤ 0))

/-- Whether a line is held as a slug with pixels. -/
def pixelSlug (c : Context) (line : Nat) : Option Slug :=
  match slugAt c line with
  | some g => if bitAt g.flags.toNat 0 then none else some g
  | none => none

/-- A pixel component of a slug, as a value; beyond its width, zero. -/
def slugValue (g : Slug) (w comp : Nat) : Val :=
  if g.widthM1 < w ∨ g.components ≤ comp then .zero false
  else
    let f := (fmtOf g.format).getD .u8
    let i := w * g.components + comp
    let at0 := match f with
      | .u12p => leNat (g.payload.drop (i / 2 * 3) |>.take 3)
      | _ => leNat (g.payload.drop (i * (f.bits / 8)) |>.take (f.bits / 8))
    decodeVal f (match f with
      | .u12p => if i % 2 = 0 then at0 % 4096 else at0 / 4096
      | _ => at0)

/-- The flags LD.T reads for a line: a line not accounted for or no longer held reads as spoiled (R143). -/
def lineFlags (c : Context) (line : Nat) : Nat :=
  match slugAt c line with
  | some g => g.flags.toNat
  | none => 1

/-- Load `d.h` consecutive lines of a context's galley, each placed at its line number modulo the ring depth or the
height (R143, R70). -/
def loadLines (s : State) (q : SeqId) (c : Context) (d : Desc) (first : Nat) : State :=
  let lineOf := fun i => (first + i) % 2 ^ 48
  (List.range d.h).foldl (fun s i =>
    let g := pixelSlug c (lineOf i)
    let row : Desc := { d with h := 1, ring := d.lines }
    storeTensor s q row (lineOf i) (fun _ w comp =>
      match g with
      | some sl => convert (slugValue sl w comp) d.fmt false
      | none => .ok 0)) s

/-- The OR of the flags of the lines loaded. -/
def flagsOr (c : Context) (first h : Nat) : Nat :=
  (List.range h).foldl (fun acc i => acc ||| lineFlags c ((first + i) % 2 ^ 48)) 0

/-- LD.T (R142, R143); a load from a galley that is being reset ends ISOLATED: nothing is loaded (R418). -/
def execLdT (q : SeqId) (w : ZWord) (s : State) : Answer :=
  .next (issue q w s (isOp 1 0x01) (fun o x s =>
    let d := descOf (x.d o.dd)
    let a := descOf (x.d o.da)
    if a.space = 5 then
      match slotCtx s q.chase.val (a.core % 16) with
      | none => retire q s
      | some k =>
        let c := s.context k
        let first := x.pair48 o.sa
        let fl := flagsOr c first d.h
        if c.resetting then retire q s
        else onUnits q o [] [d] s (fun s =>
          modSeq (loadLines s q c d first) q (fun y =>
            (y.setS o.sd fl).setP o.pdst (bitAt fl 0 || bitAt fl 1 || bitAt fl 4)))
    else
      regulated s q x [a] (fun s => onUnits q o [a] [d] s (fun s => moveTensor s q a d))))

/-! ### ST.T (R142, R144) -/

/-- The payload of a crop record: the tensor's rows in the destination format, line by line and channel block
by channel block. -/
def cropPayload (x : Src) (d : Desc) : List Byte :=
  (List.range d.h).flatMap (fun h =>
    (List.range (if d.layout = 3 then 1 else d.blocks)).flatMap (fun cb =>
      (rowImage d (fun w c => (moveElem x d h w c).val) cb).1))

/-- ST.T (R142, R144). -/
def execStT (q : SeqId) (w : ZWord) (s : State) : Answer :=
  .next (issue q w s (isOp 1 0x02) (fun o x s =>
    let d := descOf (x.d o.dd)
    let a := descOf (x.d o.da)
    if d.space = 4 then
      match slotCtx s q.chase.val (d.core % 16) with
      | none => retire q s
      | some k =>
        onUnits q o [a] [] s (fun s =>
          let src := srcOf s q a
          let s1 := countBad (countNums s q.chase.val (cellEvents (d.cells 0) (moveElem src d))) q src
          addCropRecord s1 k 0x21 (cropPayload src d))
    else
      regulated s q x [d] (fun s => onUnits q o [a] [d] s (fun s => moveTensor s q a d))))

/-! ### COPY2D (R91 to R96, R117) -/

/-- `a / b` rounded to the nearest integer, ties toward zero (R94). -/
def roundTowardZero (a : Int) (b : Nat) : Int :=
  let m := (2 * a.natAbs + b - 1) / (2 * b)
  if a < 0 then -(m : Int) else m

/-- The order a copy runs in (R94): rows descending, bytes descending. -/
def copyOrder (sameMem : Bool) (dst src : Nat) (sd ss len : Nat) : Bool × Bool :=
  if sameMem && sd == ss && sd != 0 then
    let d : Int := (dst : Int) - src
    let dr := roundTowardZero d sd
    let dc := d - dr * sd
    if len + dc.natAbs ≤ sd then (decide (0 < dr), decide (0 < dc))
    else (decide (0 < d), decide (0 < d))
  else (false, false)

/-- Copy `rows` rows of `len` bytes: the destination is as if the whole source had been read first (R93). -/
def copyRect (s : State) (q : SeqId) (a d : Desc) : State :=
  let x := srcOf s q a
  let md := spaceBase s q d
  let rows := (List.range a.h).map (fun i =>
    (i, (List.range a.rowBytes).map (fun j => x.byte (a.base + a.row i 0 + j))))
  s.setMem md.1 (rows.foldl (fun m r => memStore m (md.2 + d.base + d.row r.1 0) r.2) (s.memOf md.1))

/-- The CE_STATUS index of the copy engine an instruction names. -/
def copyEngine (s : State) (q : SeqId) (o : Op) : Nat :=
  2 * clusterOf (ownCore s q) + b2n (bitAt o.sub 0)

/-- Whether the first descriptor check of R128 that one rectangle of a copy fails is its geometry, L > S (R72, R95). -/
def rowsOverlap (x : Seq) (o : Op) (i : Nat) (d : Desc) : Bool :=
  (fmtOf d.code).isSome && d.layout == 3 && !scalesBad d && decide (d.strideH < d.rowBytes) &&
    d.base % (if d.fmt = .s4 then 32 else 64) == 0 && d.strideCb == 0 && !shapeBad x o i d

/-- Whether what a copy fails is an illegal geometry (R95): L > S in the rectangle that fails first, or a pair of
rectangles that is illegal together. -/
def copyGeometryTrap (s : State) (q : SeqId) (x : Seq) (o : Op) : Bool :=
  let d := descOf (x.d o.dd)
  let a := descOf (x.d o.da)
  match (uses o).head?.bind (descTrap s q x o 0) with
  | some _ => rowsOverlap x o 0 d
  | none => rowsOverlap x o 1 a || ((descsTrap s q x o (uses o) 0).isNone && copyGeometryBad s q x o)

/-- Record a trap of a copy in CE_STATUS (R92, R95, R117): 2 protection, 3 illegal geometry; another trap leaves it. -/
def copyTrap (s : State) (q : SeqId) (o : Op) (cause : Nat) : State :=
  let e := copyEngine s q o
  if cause = 0x08 then (s.put .ceCode e 2).put .ceChase e q.chase.val
  else if cause = 0x06 ∧ copyGeometryTrap s q ((s.chase q.chase.val).seq q.core) o = true then
    (s.put .ceCode e 3).put .ceChase e q.chase.val
  else s

/-- Whether two rectangles lie in the same memory: the same store, and for core SRAM the same core's (R76, R94). -/
def sameMemory (a b : Nat × Nat) : Bool := a.1 == b.1 && (a.1 != 0 || a.2 / 0x400000 == b.2 / 0x400000)

/-- The order of a copy (R94). -/
def copyDir (s : State) (q : SeqId) (a d : Desc) : Bool × Bool :=
  let ma := spaceBase s q a
  let md := spaceBase s q d
  copyOrder (sameMemory ma md) (md.2 + d.base) (ma.2 + a.base) d.strideH a.strideH a.rowBytes

/-- The rows a copy writes in the order it runs them, with the bytes that stand there before it (R94, R96). -/
def copyRows (s : State) (q : SeqId) (a d : Desc) : List (Nat × Nat × List Byte) :=
  let md := spaceBase s q d
  let rows := (List.range a.h).map (fun i =>
    let at0 := md.2 + d.base + d.row i 0
    (md.1, at0, memBytes (s.memOf md.1) at0 a.rowBytes))
  if (copyDir s q a d).1 then rows.reverse else rows

/-- Start a copy: CE_STATUS shows it busy, its chase and its order (R117). -/
def copyStart (s : State) (q : SeqId) (o : Op) (a d : Desc) : State :=
  let e := copyEngine s q o
  let r := copyDir s q a d
  (((s.put .ceBusy e 1).put .ceChase e q.chase.val).put .ceRowsDesc e (b2n r.1)).put .ceBytesDesc e (b2n r.2)

/-- COPY2D (R142, R91 to R96): a copy whose geometry or addresses trap is recorded in CE_STATUS. -/
def execCopy2d (q : SeqId) (w : ZWord) (s : State) : Answer :=
  let o := opOf w
  let s0 := match gateOf s q o (isOp 1 0x03 o) with
    | .trap c => if isOp 1 0x03 o then copyTrap s q o c else s
    | _ => s
  .next (issue q w s0 (isOp 1 0x03) (fun o x s =>
    let d := descOf (x.d o.dd)
    let a := descOf (x.d o.da)
    regulated s q x [a, d] (fun s =>
      onUnitsWith q o [a] [d] (copyRows s q a d) s (fun s => copyStart (copyRect s q a d) q o a d))))

/-! ### ZPACK (R80 to R82) -/

/-- ZPACK (R142): the dense tensor da becomes the run-zero tensor dd, with its scale plane where it has one (R49). -/
def execZpack (q : SeqId) (w : ZWord) (s : State) : Answer :=
  .next (issue q w s (isOp 1 0x04) (fun o x s =>
    let d := descOf (x.d o.dd)
    let a := descOf (x.d o.da)
    onUnits q o [a] [d] s (fun s =>
      let src := srcOf s q a
      countBad (moveScales (storeCells s q d 0 (moveElem src d)) q src d) q src)))

end Sys2Proof.Machine
end

