-- ==== Sys2Proof/Machine/PostProc.lean ====
section
/-! DEFINITION. Class P: post-processing (R97 to R106, R151, R152). -/

namespace Sys2Proof.Machine

/-- A box record of R98. -/
structure Box where
  x0     : Int
  y0     : Int
  x1     : Int
  y1     : Int
  score  : Nat
  cls    : Nat
  anchor : Nat
  index  : Nat
  deriving DecidableEq, Repr

/-- The 32 bytes of a box record (R98). -/
def Box.bytes (b : Box) : List Byte :=
  natLe 4 (wrapTo 32 b.x0) ++ natLe 4 (wrapTo 32 b.y0) ++ natLe 4 (wrapTo 32 b.x1) ++
    natLe 4 (wrapTo 32 b.y1) ++ natLe 4 b.score ++ natLe 2 b.cls ++ natLe 2 b.anchor ++
    natLe 4 b.index ++ natLe 4 0

/-- The mark of an unused record of a candidate buffer: source_index all ones (log entry 12). -/
def noBox : Box := ⟨0, 0, 0, 0, 0, 0, 0, 0xFFFFFFFF⟩

/-- Read the box record at an offset of a source. -/
def boxAt (x : Src) (a : Nat) : Box :=
  ⟨sext 32 (x.le a 4), sext 32 (x.le (a + 4) 4), sext 32 (x.le (a + 8) 4), sext 32 (x.le (a + 12) 4),
    x.le (a + 16) 4, x.le (a + 20) 2, x.le (a + 22) 2, x.le (a + 24) 4⟩

/-- Ranking of R100: the higher score, then the lower source_index. -/
def Box.before (a b : Box) : Bool :=
  (f32 b.score).lt (f32 a.score) || (!(f32 a.score).lt (f32 b.score) && decide (a.index < b.index))

/-- Put a box into a ranked list. -/
def rankInsert (b : Box) : List Box → List Box
  | [] => [b]
  | c :: t => if b.before c then b :: c :: t else c :: rankInsert b t

/-- The S32 coordinate of R99: convert(v × 16, S32). -/
def coord (v : Val) : Ev Int :=
  (mulExact v (.nat 16)).bind fun y => (convert y .s32 false).bind fun c => .ok (decodeVal .s32 c).toInt

/-- A coordinate clamped to [0, 16 × W] (R99). -/
def clampX (w16 : Nat) (x : Int) : Int := max 0 (min (w16 : Int) x)

/-- Decode in anchor-based mode (R99): corners in the order x0, x1, y0, y1. -/
def decodeAnchor (t : List Val) (r : List Val) : Ev (List Val) :=
  let g := fun (l : List Val) i => l.getD i (.zero false)
  let half := f32 0x3F000000
  (mul32 (g t 0) (g r 4)).bind fun a => (mul32 a (g r 2)).bind fun b => (add32 (g r 0) b).bind fun cx =>
  (mul32 (g t 1) (g r 5)).bind fun a => (mul32 a (g r 3)).bind fun b => (add32 (g r 1) b).bind fun cy =>
  (mul32 (g t 2) (g r 6)).bind fun a => (exp32 a).bind fun e => (mul32 (g r 2) e).bind fun w =>
  (mul32 (g t 3) (g r 7)).bind fun a => (exp32 a).bind fun e => (mul32 (g r 3) e).bind fun h =>
  (mul32 w half).bind fun w2 => (mul32 h half).bind fun h2 =>
  (sub32 cx w2).bind fun x0 => (add32 cx w2).bind fun x1 =>
  (sub32 cy h2).bind fun y0 => (add32 cy h2).bind fun y1 => .ok [x0, x1, y0, y1]

/-- Decode in centre-offset mode (R99). -/
def decodeCentre (t : List Val) (gx gy : Nat) (s : Val) : Ev (List Val) :=
  let g := fun i => t.getD i (.zero false)
  let half := f32 0x3F000000
  (add32 (.nat gx) half).bind fun a => (mul32 a s).bind fun px =>
  (add32 (.nat gy) half).bind fun a => (mul32 a s).bind fun py =>
  (mul32 (g 0) s).bind fun l => (mul32 (g 2) s).bind fun r =>
  (mul32 (g 1) s).bind fun tp => (mul32 (g 3) s).bind fun b =>
  (sub32 px l).bind fun x0 => (add32 px r).bind fun x1 =>
  (sub32 py tp).bind fun y0 => (add32 py b).bind fun y1 => .ok [x0, x1, y0, y1]

/-- The grid values of one anchor: 4 regression values, then its class scores (log entry 12). -/
def anchorValues (a : Src) (h w anchor per : Nat) : List Val :=
  (List.range per).map (fun i => (a.f32 h w (anchor * per + i)).val)

/-- The best class of an anchor: the largest score, the lower class on ties, NaN if any score is (R45). -/
def bestClass (scores : List Val) : Val × Nat :=
  match scores with
  | [] => (.zero false, 0)
  | v :: vs =>
    let best := vs.foldl maxVal v
    (best, (scores.findIdx? (fun x => x == best)).getD 0)

/-- The record of anchor and variances (R99): eight F32 values; records repeat over the grid (log entry 12). -/
def anchorRecord (b : Src) (i : Nat) : List Val :=
  let rows := max 1 (b.d.w * b.d.h / 8)
  let j := i % rows * 8
  (List.range 8).map (fun k => (b.f32 ((j + k) / b.d.w) ((j + k) % b.d.w) 0).val)

/-- One decoded candidate, or nothing when its score is NaN or below the threshold; `true` marks a NaN.  DESIGN CHOICE (log
entry 93): R99 does not say where the stride s of the centre-offset mode comes from; it is the first F32 of the first
record of db. -/
def decodeBox (w16 : Nat) (a b : Src) (centre : Bool) (anchors thr idx : Nat) : Ev (Option Box × Bool) :=
  let per := a.d.c / anchors
  let anchor := idx % anchors
  let w := idx / anchors % a.d.w
  let h := idx / anchors / a.d.w
  let v := anchorValues a h w anchor per
  let best := bestClass (v.drop 4)
  if best.1 == .nan then .ok (none, true)
  else if best.1.lt (f32 thr) || f32 thr == .nan then .ok (none, false)
  else
    let pts := if centre then decodeCentre v w h ((anchorRecord b 0).getD 0 (.zero false))
      else decodeAnchor v (anchorRecord b idx)
    pts.bind fun p =>
      (coord (p.getD 0 (.zero false))).bind fun x0 => (coord (p.getD 1 (.zero false))).bind fun x1 =>
      (coord (p.getD 2 (.zero false))).bind fun y0 => (coord (p.getD 3 (.zero false))).bind fun y1 =>
        .ok (some ⟨clampX w16 x0, y0, clampX w16 x1, y1, bits32 best.1, best.2,
          if centre then 0 else anchor, idx⟩, false)

/-- The running result of BOXDEC: ranked candidates, displaced or refused, NaN scores, events. -/
structure BoxAcc where
  boxes : List Box
  ovf   : Nat
  nans  : Nat
  ev    : Nums

/-- Offer the candidates of every grid position in visiting order (R99, R100). -/
def boxScan (w16 nmax : Nat) (a b : Src) (centre : Bool) (anchors thr : Nat) : BoxAcc :=
  (List.range (a.d.h * a.d.w * anchors)).foldl (fun acc idx =>
    let r := decodeBox w16 a b centre anchors thr idx
    let ev := acc.ev.plus r.ev.once
    match r.val with
    | (some bx, _) =>
      let l := rankInsert bx acc.boxes
      if nmax < l.length then { acc with boxes := l.take nmax, ovf := acc.ovf + 1, ev := ev }
      else { acc with boxes := l, ev := ev }
    | (none, true) => { acc with nans := acc.nans + 1, ev := ev }
    | (none, false) => { acc with ev := ev }) ⟨[], 0, 0, .zero⟩

/-- The cluster a sequencer's post-processing unit belongs to. -/
def ownCluster (s : State) (q : SeqId) : Nat := clusterOf (ownCore s q)

/-- Store bytes at a descriptor's base; what lies past its extent is not written (log entry 12). -/
def storeAt (s : State) (q : SeqId) (d : Desc) (b : List Byte) : State :=
  let m := spaceBase s q d
  s.setMem m.1 (memStore (s.memOf m.1) (m.2 + d.base) (b.take d.extent))

/-- BOXDEC (R98 to R100, R151). -/
def execBoxdec (q : SeqId) (w : ZWord) (s : State) : Answer :=
  .next (issue q w s (isOp 3 0x01) (fun o x s =>
    let d := descOf (x.d o.dd)
    let a := descOf (x.d o.da)
    let b := descOf (x.d o.db)
    onUnits q o [a, b] [d] s (fun s =>
      let id := s.get .formeId q.chase.val
      let nmax := bitsAt o.imm0 16 10 + 1
      let r := boxScan (16 * Config.inputWidth id) nmax (srcOf s q a) (srcOf s q b) (bitAt o.imm0 0)
        (bitsAt o.imm0 4 4 + 1) o.imm1
      let l := r.boxes ++ List.replicate (nmax - r.boxes.length) noBox
      let s1 := storeAt s q d (l.flatMap Box.bytes)
      let s2 := (s1.bumpBy .ppCandOvf (ownCluster s q) r.ovf).bumpBy .ppNanScore (ownCluster s q) r.nans
      countBad (countBad (countNums s2 q.chase.val r.ev) q (srcOf s q a)) q (srcOf s q b))))

/-! ### NMS (R101, R102) -/

/-- A length, zero if negative (R101). -/
def span0 (a b : Int) : Nat := (b - a).toNat

/-- A box's area in 1/256 square units. -/
def Box.area (b : Box) : Nat := span0 b.x0 b.x1 * span0 b.y0 b.y1

/-- Whether a kept box suppresses another (R101). -/
def suppresses (t : Nat) (agnostic : Bool) (a b : Box) : Bool :=
  let i := span0 (max a.x0 b.x0) (min a.x1 b.x1) * span0 (max a.y0 b.y0) (min a.y1 b.y1)
  let u := a.area + b.area - i
  (agnostic || a.cls == b.cls) && decide (t * u < 256 * i)

/-- Keep candidates greedily in ranking order (R101). -/
def keepBoxes (t : Nat) (agnostic : Bool) : List Box → List Box → List Box
  | [], kept => kept
  | b :: bs, kept =>
    if kept.any (fun a => suppresses t agnostic a b) then keepBoxes t agnostic bs kept
    else keepBoxes t agnostic bs (kept ++ [b])

/-- The boxes of a candidate buffer. -/
def bufferBoxes (x : Src) : List Box :=
  ((List.range (min 1024 (x.d.h * x.d.rowBytes / 32))).map (fun i => boxAt x (x.d.base + 32 * i))).filter
    (fun b => b.index != 0xFFFFFFFF)

/-- NMS (R101, R102, R151). -/
def execNms (q : SeqId) (w : ZWord) (s : State) : Answer :=
  .next (issue q w s (isOp 3 0x02) (fun o x s =>
    let d := descOf (x.d o.dd)
    let a := descOf (x.d o.da)
    onUnits q o [a] [d] s (fun s =>
      let ranked := (bufferBoxes (srcOf s q a)).foldr rankInsert []
      let kept := keepBoxes (o.imm0 % 256) (bitAt o.imm0 8) ranked []
      let kmax := bitsAt o.imm0 16 8 + 1
      let out := kept.take kmax
      let s1 := storeAt s q d (out.flatMap Box.bytes)
      let s2 := s1.bumpBy .ppOutOvf (ownCluster s q) (kept.length - kmax)
      modSeq s2 q (fun y => y.setS o.sd out.length))))

/-! ### DIMS (R103 to R105, R152) -/

/-- The open DIMS state of a handle in a cluster's unit (R152). -/
def dimsOf (c : Chase) (cl h : Nat) : Option Dims := c.dims.find? (fun d => d.cluster == cl && d.handle == h)

/-- The DIMS states of a chase without that of a handle. -/
def dimsRest (c : Chase) (cl h : Nat) : List Dims := c.dims.filter (fun d => !(d.cluster == cl && d.handle == h))

/-- A fresh state from a parameter block (R152); p and hs are taken as the block has them, past the ranges of R103 too (log
entry 94). -/
def dimsStart (x : Src) (cl h : Nat) : Dims :=
  let b := x.d.base
  { cluster := cl, handle := h, hT := x.le b 2, p := x.le (b + 2) 2, hs := x.le (b + 4) 1,
    mmLine := BitVec.ofNat 32 (x.le (b + 8) 4), mmCol := BitVec.ofNat 32 (x.le (b + 12) 4),
    mmHeight := BitVec.ofNat 32 (x.le (b + 16) 4), n := 0, firstLine := 0, lastLine := 0, firstCol := 0,
    lastCol := 0, hMax := 0, nextLine := 0, hist := .empty }

/-- The result record of R152. -/
def dimsRecord (len width height hmax : Nat) (n flags : Nat) : List Byte :=
  natLe 4 len ++ natLe 4 width ++ natLe 4 height ++ natLe 4 hmax ++ natLe 4 n ++ natLe 4 flags ++ natLe 8 0

/-- An empty record with the refused flag (R105, R152). -/
def dimsRefused : List Byte := dimsRecord 0 0 0 0 0 2

/-- DIMS sub-function of a word; code 3 traps in whichever row names it. -/
def isDims (sub : Nat) (o : Op) : Bool := isOp 3 0x03 o && (o.sub % 4 == sub || o.sub % 4 == 3)

/-- Mark the item behind a handle refused (R105, R160). -/
def Chase.refuseItem (c : Chase) (h : Nat) : Chase :=
  match c.item h with
  | some it => { c with items := c.items.set h (some { it with refused := true }) }
  | none => c

/-- DIMS open (R97, R105, R151): beyond the item-state slots the loader gave the chase in the unit the open is refused and
counted.  DESIGN CHOICE (log entry 94): an open of a handle that is already open starts its state anew. -/
def execDimsOpen (q : SeqId) (w : ZWord) (s : State) : Answer :=
  .next (issue q w s (isDims 0) (fun o x s =>
    let b := descOf (x.d o.db)
    let h := x.s o.sa
    onUnits q o [b] [] s (fun s =>
      let n := q.chase.val
      let c := s.chase n
      let cl := ownCluster s q
      let rest := dimsRest c cl h
      if (rest.filter (fun d => d.cluster == cl)).length < c.dimsSlots.get 0 cl then
        s.setChase n { c with dims := dimsStart (srcOf s q b) cl h :: rest }
      else (s.bump .ppDimsRefused cl).setChase n (c.refuseItem h))))

/-- Take one sample into a DIMS state (R103). -/
def dimsSample (d : Dims) (line col v ref : Nat) : Dims :=
  if v = 0 ∨ v ≤ ref ∨ v - ref < d.hT then d
  else
    let z := v - ref
    let bin := min (z / 2 ^ d.hs) 4095
    { d with
      n := d.n + 1,
      firstLine := if d.n = 0 then line else min d.firstLine line,
      lastLine := if d.n = 0 then line else max d.lastLine line,
      firstCol := if d.n = 0 then col else min d.firstCol col,
      lastCol := if d.n = 0 then col else max d.lastCol col,
      hMax := max d.hMax z,
      hist := d.hist.set bin (d.hist.get 0 bin + 1) }

/-- Take the lines of a range band (R103). -/
def dimsBand (d : Dims) (a r : Src) : Dims :=
  let d1 := (List.range a.d.h).foldl (fun acc i =>
    (List.range a.d.w).foldl (fun acc w =>
      dimsSample acc (d.nextLine + i) w (a.elem i w 0) (r.elem 0 w 0)) acc) d
  { d1 with nextLine := d.nextLine + a.d.h }

/-- DIMS accumulate (R103, R152). -/
def execDimsAccumulate (q : SeqId) (w : ZWord) (s : State) : Answer :=
  .next (issue q w s (isDims 1) (fun o x s =>
    let a := descOf (x.d o.da)
    let r := descOf (x.d o.dc)
    let h := x.s o.sa
    onUnits q o [a, r] [] s (fun s =>
      let n := q.chase.val
      let c := s.chase n
      match dimsOf c (ownCluster s q) h with
      | some d =>
        s.setChase n { c with
          dims := dimsBand d (srcOf s q a) (srcOf s q r) :: dimsRest c (ownCluster s q) h }
      | none =>
        if (descTrap s q x o 0 ⟨o.dd, [0], false⟩).isNone then storeAt s q (descOf (x.d o.dd)) dimsRefused
        else s)))

/-- The bin that holds the sample of a rank in ascending order (R104). -/
def histRank (hist : Tab Nat) (rank : Nat) : Nat → Nat → Nat → Nat
  | 0, bin, _ => bin
  | fuel + 1, bin, seen =>
    let t := seen + hist.get 0 bin
    if rank ≤ t then bin else histRank hist rank fuel (bin + 1) t

/-- A product reported by DIMS, rounded once (R104). -/
def dimsProduct (n : Nat) (mm : Word) : Ev Nat :=
  (mulExact (.nat n) (f32 mm.toNat)).bind (fun v => convert v .f32 false)

/-- The record a closing item reports (R104, R152), with the events of its products (R62, R63). -/
def dimsResult (d : Dims) : Ev (List Byte) :=
  if d.n = 0 then .ok (dimsRecord 0 0 0 0 0 1)
  else
    let rank := max 1 ((d.p * d.n + 1023) / 1024)
    let b := histRank d.hist rank 4095 0 0
    (dimsProduct (d.lastLine - d.firstLine + 1) d.mmLine).bind fun len =>
    (dimsProduct (d.lastCol - d.firstCol + 1) d.mmCol).bind fun wid =>
    (dimsProduct (b * 2 ^ d.hs) d.mmHeight).bind fun hgt =>
    (dimsProduct d.hMax d.mmHeight).bind fun top => .ok (dimsRecord len wid hgt top d.n 0)

/-- DIMS close (R104, R152). -/
def execDimsClose (q : SeqId) (w : ZWord) (s : State) : Answer :=
  .next (issue q w s (isDims 2) (fun o x s =>
    let d := descOf (x.d o.dd)
    let h := x.s o.sa
    onUnits q o [] [d] s (fun s =>
      let n := q.chase.val
      let c := s.chase n
      match dimsOf c (ownCluster s q) h with
      | some t =>
        countNums (storeAt (s.setChase n { c with dims := dimsRest c (ownCluster s q) h }) q d (dimsResult t).val) n
          (dimsResult t).ev
      | none => storeAt s q d dimsRefused)))

/-! ### TOPK (R106) -/

/-- Ranking of R106: the larger value, then the lower index. -/
def topBefore (a b : Nat × Val) : Bool := b.2.lt a.2 || (!a.2.lt b.2 && decide (a.1 < b.1))

/-- Put an entry into a ranked list. -/
def topInsert (e : Nat × Val) : List (Nat × Val) → List (Nat × Val)
  | [] => [e]
  | c :: t => if topBefore e c then e :: c :: t else c :: topInsert e t

/-- The indexed values of a tensor. -/
def indexed (x : Src) : List (Nat × Val) :=
  ((x.d.cells 0).zipIdx).map (fun e => (e.2, x.val e.1.1 e.1.2.1 e.1.2.2))

/-- TOPK (R106, R151): NaN values are excluded and counted; entries beyond the values there are stay free
values (log entry 8). -/
def execTopk (q : SeqId) (w : ZWord) (s : State) : Answer :=
  .next (issue q w s (isOp 3 0x04) (fun o x s =>
    let d := descOf (x.d o.dd)
    let a := descOf (x.d o.da)
    onUnits q o [a] [d] s (fun s =>
      let all := indexed (srcOf s q a)
      let k := o.imm0 % 256 + 1
      let top := ((all.filter (fun e => e.2 != .nan)).foldr topInsert []).take k
      let bytes := top.flatMap (fun e => natLe 4 e.1 ++ natLe 4 (bits32 e.2))
      let pad := (List.range (8 * (k - top.length))).map (fun i => byteOf (Config.freeValue (s.free + i)))
      let s1 := storeAt { s with free := s.free + pad.length } q d (bytes ++ pad)
      countBad (s1.bumpBy .ppNanScore (ownCluster s q) (all.filter (fun e => e.2 == .nan)).length) q (srcOf s q a))))

end Sys2Proof.Machine
end

