-- ==== Sys2Proof/Machine/Registers.lean ====
section
/-! DEFINITION. Register accesses of the functions (R3 to R7, R29, R30) and the rails (R24, R25, R458). -/

namespace Sys2Proof.Machine

/-! ### Reads (R4 to R6) -/

/-- The part of a register word that one field shows: nothing for a WO field, the latched half for _HI. -/
def fieldShown (s : State) (e : Fld × Nat × Nat) : Nat :=
  let g := e.1.info
  let v := s.field e.1 e.2.1
  if g.type = .wo then 0
  else if g.pair then
    (if e.2.2 = 0 then (if g.signed then wrapTo 64 (sext 48 v) else v) % 2 ^ 32 else s.latched e.1 e.2.1)
  else v * 2 ^ (g.lo + g.loStep * (e.2.1 % g.inner))

/-- What a read of a field leaves: _LO latches _HI, an RC field is cleared, GAL_PEAK takes the occupancy (R4, R6,
R239). -/
def fieldRead (s : State) (e : Fld × Nat × Nat) : State :=
  let g := e.1.info
  if g.pair && e.2.2 == 0 && g.type != .wo then
    let v := s.field e.1 e.2.1
    s.latch e.1 e.2.1 ((if g.signed then wrapTo 64 (sext 48 v) else v) / 2 ^ 32)
  else if e.1 = .galPeak then s.put .galPeak e.2.1 (s.field .galOcc e.2.1)
  else if g.type = .rc then s.put e.1 e.2.1 0
  else s

/-- A word of the event-log window (R387). -/
def logWord (s : State) (a : Nat) : Nat :=
  match logAt s ((a - 0xD10000) / 32) with
  | some e => leNat (((logBytes e).drop (a % 32)).take 4)
  | none => 0

/-- Whether an address lies in the event-log window. -/
def inLogWindow (a : Nat) : Bool := decide (0xD10000 ≤ a) && decide (a < 0xD30000)

/-- The quoin whose acquire register of function `fn`'s firmware mailbox lies at an address (R381). -/
def quoinAt (fn a : Nat) : Option Nat :=
  let base := 0x300100 + 0x200 * fn
  if base ≤ a ∧ a < base + 0x100 then some ((a - base) / 4) else none

/-- A read of the register at an address (R4 to R6, R381, R387): the word, and the state after. -/
def readAddr (s : State) (fn a : Nat) : Nat × State :=
  if inLogWindow a then (logWord s a, s)
  else match quoinAt fn a with
    | some q => quoinAcquire s q fn
    | none =>
      let es := fieldsAt a
      ((es.map (fieldShown s)).sum, es.foldl fieldRead s)

/-- A misaligned or narrow access (R3): no effect but the fault, and a read of 0. -/
def badAccess (s : State) (fn off : Nat) (isWrite : Bool) : State :=
  let s1 := regFault s fn off 0
  if isWrite then s1 else { s1 with rd := 0 }

/-- A 32-bit read by a function (R3 to R6, R29, R30): reserved offsets read 0; the endpoint answers in Full only
(R24). -/
def busRead (s : State) (fn off : Nat) : State :=
  if s.power ≠ .full then s
  else if off % 4 ≠ 0 then badAccess s fn off false
  else match busAddr s fn off with
    | none => { s with rd := 0 }
    | some a =>
      let r := readAddr s fn a
      { r.2 with rd := BitVec.ofNat 32 r.1 }

/-- PAIR_LO_READ (R4). -/
def execPairLoRead (fn : Fn) (off : BitVec 24) (s : State) : Answer := .next (busRead s fn.val off.toNat)

/-- RC_READ (R6). -/
def execRcRead (fn : Fn) (off : BitVec 24) (s : State) : Answer := .next (busRead s fn.val off.toNat)

/-- MISALIGNED_REGISTER_ACCESS (R3); an access of 4 aligned bytes is none. -/
def execMisalignedRegisterAccess (fn : Fn) (off : BitVec 24) (bytes : Nat) (isWrite : Bool) (s : State) : Answer :=
  if s.power = .full ∧ (off.toNat % 4 ≠ 0 ∨ bytes ≠ 4) then .next (badAccess s fn.val off.toNat isWrite)
  else .next s

/-! ### Who may write (R30, R238, R239, R274) -/

/-- Whether a VF may write a field of the sets its window mirrors: its own window, rings and mailboxes, and of the
context sets what R238, R239 and R274 name (log entry 45). -/
def vfMayWrite (f : Fld) : Bool :=
  decide (0x10000000 ≤ f.info.base) || (decide (0x300000 ≤ f.info.base) && decide (f.info.base < 0x304000)) ||
    [Fld.cxpFmt, Fld.cxpStoreU16, Fld.cxpBayer, Fld.cxpWidthM1, Fld.cxpLateLines, Fld.cxpSettleLines, Fld.cxpDesync,
      Fld.galDepth, Fld.galCut, Fld.pipeOutFmt, Fld.pipeOutWidthM1].contains f

/-- Whether any context that uses a pipe is bound (R273). -/
def pipeBound (s : State) (p : Nat) : Bool :=
  (List.range 16).any (fun k => s.flag .ctxBound k && s.get .pipeSel k == p + 1)

/-- Whether a channel is assigned to a bound context (R324). -/
def chanBound (s : State) (c : Nat) : Bool := s.flag .fcAssigned c && s.flag .ctxBound (s.get .fcContext c)

/-- Whether a CH_CFG value assigns its channel to a bound context (R324). -/
def assignsBound (s : State) (val : Nat) : Bool := bitAt val 6 && s.flag .ctxBound (bitsAt val 2 4)

/-- Whether a ring runs under a configuration it must keep: any change but clearing enable alone is refused (R365;
log entry 46). -/
def ringCfgHeld (s : State) (r val : Nat) : Bool :=
  s.flag .ringEnable r &&
    !(bitsAt val 0 5 == s.get .ringLog2 r && bitsAt val 8 8 == s.get .ringItr r &&
      bitsAt val 16 4 == s.get .ringPageLog2 r)

/-- Whether a write of a field must be discarded as a register-access fault (R214, R228, R273, R274, R324, R365,
R379). -/
def writeGated (s : State) (val : Nat) (e : Fld × Nat × Nat) : Bool :=
  let i := e.2.1
  match e.1 with
  | .cxpSrcLanes => s.flag .ctxBound i
  | .cxpFmt => s.flag .ctxBound i
  | .galBase => s.flag .ctxBound i
  | .galLimit => s.flag .ctxBound i
  | .galDepth => s.flag .ctxBound i
  | .pipeSel => s.flag .ctxBound i
  | .pipeOutFmt => s.flag .ctxBound i
  | .pipePbase => s.flag .ctxBound i
  | .pipeSbase => s.flag .ctxBound i
  | .pipeSlimit => s.flag .ctxBound i
  | .pipeInlineCtx => pipeBound s i
  | .pipeWheel => pipeBound s i
  | .pipeWheelEn => pipeBound s i
  | .mbxGrantFn => !(s.mbox (17 + i)).msgs.isEmpty
  | .ringBase =>
    s.flag .ringEnable i && e.2.2 == 1 && s.loOf .ringBase i + val * 2 ^ 32 != s.get .ringBase i
  | .ringLog2 => ringCfgHeld s i val
  | .fcMode => chanBound s i || assignsBound s val
  | .fcDead => chanBound s i
  | _ => false

/-! ### Stores (R4 to R6) -/

/-- The values that a field does not hold: they read as the nearest it does. -/
def clampWrite (f : Fld) (v : Nat) : Nat :=
  match f with
  | .cxpLateLines => max 1 v
  | .fcFilt => min 10 v
  | .timeSlewPpm => max 1 v
  | .supWinEngine => max 10 v
  | .supWinCore => max 10 v
  | .supWinChase => max 10 v
  | .supWinCtx => max 10 v
  | .supRetry => max 1 v
  | .supWindowMs => max 1 v
  | .rhMaxRate => min 5 v
  | .rhProofWait => max 1 v
  | .winPageHold => max 10 (min 10000 v)
  | .winStatusAddr => v / 64 * 64
  | .pfStatusAddr => v / 64 * 64
  | _ => v

/-- Store one field of a written word by its Type (R4, R6). -/
def storeField (val : Nat) (s : State) (e : Fld × Nat × Nat) : State :=
  let g := e.1.info
  let i := e.2.1
  let v := bitsAt val (g.lo + g.loStep * (i % g.inner)) g.width
  match g.type with
  | .ro => s
  | .rc => s
  | .wo => if g.pair && e.2.2 == 0 then s.setLo e.1 i val else s
  | .w1c => s.put e.1 i (s.get e.1 i - (s.get e.1 i &&& v))
  | .rw =>
    if e.1 = .encPreset ∧ e.2.2 = 1 then s
    else if g.pair then
      (if e.2.2 = 0 then s.setLo e.1 i val
       else s.put e.1 i (clampWrite e.1 ((s.loOf e.1 i + val * 2 ^ 32) % 2 ^ g.width)))
    else s.put e.1 i (clampWrite e.1 v)

/-! ### What a stored value sets off -/

/-- A new field configuration is sent over the barrier (R322). -/
def newConfig (s : State) : State :=
  { s with barrier := { s.barrier with cfgGen := s.barrier.cfgGen + 1 } }.put .barCfgSynced 0 0

/-- CH_CFG was written (R324, R327, R332, R340). -/
def channelConfigured (before s : State) (c : Nat) : State :=
  let s1 := newConfig (if c % 2 = 1 then s.put .fcPaired c 0 else s)
  let s2 := if isOutput before c && !isOutput s c then pulseOff s1 c else s1
  if isInput s c && !isInput before c then (s2.put .fcUndet c 1).put .fcLevel c 0
  else if isInput s c then s2
  else if isOutput s c && isOutput before c then s2
  else s2.put .fcLevel c 0

/-- The route table changed (R288, R295): a leader proposes where a present module became unreachable. -/
def routesChanged (before s : State) : State :=
  (List.range 16).foldl (fun s n =>
    let gone := (List.range 16).any (fun m => inMask (presentMask s n) m && canReach before m && !canReach s m)
    if gone then setRole (wantPropose s n) n else s) s

/-- RH_PORT_CTRL was written (R280, R301). -/
def portControlled (s : State) (p val : Nat) : State :=
  let s1 := forceLanes s p
  if !s1.flag .rhPortEn p then
    (if s1.get .rhState p = lnkDisabled then s1
     else enterDetect (if linkActive s1 p || (s1.port p).suspended then linkDown s1 p else s1) p)
  else if s1.get .rhState p = lnkDisabled then
    (if 6 ≤ s1.get .buStep 0 then enterDetect s1 p else s1)
  else if bitAt val 1 then enterRetrain s1 p
  else s1

/-- DOM_CFG was written (R345, R346, R364). -/
def domainConfigured (before s : State) (d : Nat) : State :=
  if !s.flag .domEnable d then (s.setServo d Servo.reset).put .domState d domDisabled
  else if before.flag .domEnable d then s
  else firstSetting ((s.setServo d Servo.reset).put .domState d domAcquiring)

/-- What a written register does beyond storing its fields; each register acts through its first field. -/
def actField (fn val : Nat) (before s : State) (e : Fld × Nat × Nat) : State :=
  let i := e.2.1
  match e.1 with
  | .modLevelFault => statusChanged before s
  | .trapValid => if s.flag .trapValid i then s else s.put .trapMultiple i 0
  | .mbxPostLen => postFrom s fn i (val % 128) (bitAt val 7)
  | .mbxTakeCode => if bitAt val 8 then takeHead s (some fn) i (val % 256) else s
  | .mbxCplPop => if bitAt val 0 && (fn == 0 || mayPost s fn i) then popCompletion s i else s
  | .qopCode => if i = fn then quoinPort s fn (bitsAt val 6 2) (bitsAt val 0 6) else s
  | .ringCons => consWritten s i val
  | .ringLog2 => if 68 ≤ i then fetchAhead s (i - 68) else s
  | .timeStep => if e.2.2 = 1 then stepTo s (s.loOf .timeStep 0 + val * 2 ^ 32) else s
  | .timeSel => firstSetting (autoSwitch s)
  | .domEnable => domainConfigured before s i
  | .lqEnable => fetchAhead s i
  | .txtsPop => if bitAt val 0 then popStamp s i else s
  | .encPreset => if e.2.2 = 1 then presetTo s i ((s.loOf .encPreset i + val * 2 ^ 32) % 2 ^ 48) else s
  | .emuEnable => if bitAt val 0 then s else s.setEmu i Emu.reset
  | .fcMode => channelConfigured before s i
  | .fcDead => newConfig s
  | .tripMask => newConfig s
  | .tripClear => requestClear s (val % 4)
  | .rhRoute0 => routesChanged before s
  | .rhRoute1 => routesChanged before s
  | .rhClkPort => updateClk s
  | .rhPortEn => portControlled s i val
  | _ => s

/-- Whether a write can have an effect on a field. -/
def writable (f : Fld) : Bool := !(f.info.type == .ro || f.info.type == .rc) || f == .qopCode

/-- A 32-bit write by a function (R3, R5, R6, R29, R30): reserved and read-only offsets ignore it; one that is not allowed is
discarded with a register-access fault. -/
def busWrite (s : State) (fn off val : Nat) : State :=
  if s.power ≠ .full then s
  else if off % 4 ≠ 0 then badAccess s fn off true
  else match busAddr s fn off with
    | none => s
    | some a =>
      let es := (fieldsAt a).filter (fun e => writable e.1)
      if es.isEmpty || (fn != 0 && a == 0x10) then s
      else if (fn != 0 && !es.any (fun e => vfMayWrite e.1)) || es.any (writeGated s val) then regFault s fn off val
      else es.foldl (fun t e => actField fn val s t e) (es.foldl (storeField val) s)

/-- REGISTER_WRITE (R5, R6). -/
def execRegisterWrite (fn : Fn) (off : BitVec 24) (val : Word) (s : State) : Answer :=
  .next (busWrite s fn.val off.toNat val.toNat)

/-- PAIR_HI_WRITE (R4). -/
def execPairHiWrite (fn : Fn) (off : BitVec 24) (val : Word) (s : State) : Answer :=
  .next (busWrite s fn.val off.toNat val.toNat)

/-! ### The rails (R24, R25, R398, R458) -/

/-- What the key store shows after POWER (R394, R395): a pending lifecycle state applies. -/
def loadKeyStore (s : State) : State :=
  let f := s.fuses
  (((s.put .secLifecycle 0 f.lifecycle).put .secFilled 0 f.filled).put .secRevoked 0 f.revoked).put .secDevTrained 0
    (b2n f.trained)

/-- The module with everything volatile lost; the field supply is a supply of its own (R324). -/
def lostAll (s : State) : State :=
  { State.reset with
    barrier := { Barrier.reset with supply := s.barrier.supply, run := s.barrier.run + 1 },
    pending := s.pending, clk := s.clk, host := s.host, fuses := s.fuses, tx := s.tx, free := s.free }

/-- AUX_RAIL_UP (R24, R288, R407): from Off to Aux, a POWER reset. -/
def execAuxRailUp (slotId : BitVec 4) (s : State) : Answer :=
  if s.power ≠ .off then .next s
  else .next (loadKeyStore (loadFuses { lostAll s with mgmt := { Mgmt.reset with slotPins := slotId } }))

/-- The debug reach at a change of power state (R398): token and session end, and what they reached. -/
def debugEnds (s : State) : State :=
  let s1 := if s.flag .secSession 0 then logEvent s 0x0051 (srcBlock 2) 0 [0, 0, 0, 0] else s
  ((s1.put .secSession 0 0).put .secToken 0 0).put .secReach 0 0

/-- MAIN_RAIL_UP (R24, R308, R423, R458): from Aux to Full; bring-up runs unless RST_N is still low. -/
def execMainRailUp (s : State) : Answer :=
  if s.power ≠ .aux then .next s
  else
    let s1 := (List.range 8).foldl periodicCatchUp
      (debugEnds { s with power := .full, mgmt := { s.mgmt with nonce := none } })
    .next (if s.mgmt.hold = .pin then s1 else warmPath s1)

/-- MAIN_RAIL_LOST (R10, R24, R25, R410): from Full to Aux. -/
def execMainRailLost (s : State) : Answer :=
  if s.power ≠ .full then .next s
  else
    let s1 := loseWarm s
    .next { s1 with power := .aux, mgmt := { s1.mgmt with hold := if s.mgmt.hold = .pin then .pin else .none } }

/-- AUX_RAIL_LOST (R24, R458): everything is lost and the field outputs are off. -/
def execAuxRailLost (s : State) : Answer :=
  if s.power = .off then .next s else .next { lostAll (outputsOff s) with power := .off }

end Sys2Proof.Machine
end

