-- ==== Sys2Proof/Machine/Dispatch.lean ====
section
/-! DEFINITION. The meaning of each command, one arm per constructor. -/

namespace Sys2Proof.Machine

/-- A command's effect on everything but the queue. -/
def exec (i : Instr) (s : State) : Host.Outcome State Fault Refusal :=
  match i with
  -- registers and power (R3 to R7, R24 to R27)
  | .registerWrite fn off val => Sys2Proof.Machine.execRegisterWrite fn off val s
  | .misalignedRegisterAccess fn off bytes isWrite => Sys2Proof.Machine.execMisalignedRegisterAccess fn off bytes isWrite s
  | .pairLoRead fn off => Sys2Proof.Machine.execPairLoRead fn off s
  | .pairHiWrite fn off val => Sys2Proof.Machine.execPairHiWrite fn off val s
  | .rcRead fn off => Sys2Proof.Machine.execRcRead fn off s
  | .auxRailUp slotId => Sys2Proof.Machine.execAuxRailUp slotId s
  | .mainRailUp => Sys2Proof.Machine.execMainRailUp s
  | .mainRailLost => Sys2Proof.Machine.execMainRailLost s
  | .auxRailLost => Sys2Proof.Machine.execAuxRailLost s
  | .levelWindow withinLimits deviation => Sys2Proof.Machine.execLevelWindow withinLimits deviation s
  -- class S (R134 to R141)
  | .nop q w => Sys2Proof.Machine.execNop q w s
  | .sets q w => Sys2Proof.Machine.execSets q w s
  | .alu q w => Sys2Proof.Machine.execAlu q w s
  | .cmp q w => Sys2Proof.Machine.execCmp q w s
  | .dld q w => Sys2Proof.Machine.execDld q w s
  | .dadd q w => Sys2Proof.Machine.execDadd q w s
  | .loop q w => Sys2Proof.Machine.execLoop q w s
  | .br q w => Sys2Proof.Machine.execBr q w s
  | .sync q w => Sys2Proof.Machine.execSync q w s
  | .barrierRelease n barrier => Sys2Proof.Machine.execBarrierRelease n barrier s
  | .waitl q w => Sys2Proof.Machine.execWaitl q w s
  | .waitlRelease q => Sys2Proof.Machine.execWaitlRelease q s
  | .waitlTimeout q => Sys2Proof.Machine.execWaitlTimeout q s
  | .waite q w => Sys2Proof.Machine.execWaite q w s
  | .waiteRelease q => Sys2Proof.Machine.execWaiteRelease q s
  | .waiteTimeout q => Sys2Proof.Machine.execWaiteTimeout q s
  | .halt q w => Sys2Proof.Machine.execHalt q w s
  | .trap q w => Sys2Proof.Machine.execTrap q w s
  -- class M (R142 to R144)
  | .ldT q w => Sys2Proof.Machine.execLdT q w s
  | .stT q w => Sys2Proof.Machine.execStT q w s
  | .copy2d q w => Sys2Proof.Machine.execCopy2d q w s
  | .zpack q w => Sys2Proof.Machine.execZpack q w s
  -- class T (R145 to R150)
  | .conv q w => Sys2Proof.Machine.execConv q w s
  | .dwconv q w => Sys2Proof.Machine.execDwconv q w s
  | .gemm q w => Sys2Proof.Machine.execGemm q w s
  | .poolmax q w => Sys2Proof.Machine.execPoolmax q w s
  | .poolavg q w => Sys2Proof.Machine.execPoolavg q w s
  | .add q w => Sys2Proof.Machine.execAdd q w s
  | .mul q w => Sys2Proof.Machine.execMul q w s
  | .act q w => Sys2Proof.Machine.execAct q w s
  | .quant q w => Sys2Proof.Machine.execQuant q w s
  | .deq q w => Sys2Proof.Machine.execDeq q w s
  | .rot q w => Sys2Proof.Machine.execRot q w s
  | .unitCompletion q u => Sys2Proof.Machine.execUnitCompletion q u s
  -- class P (R151, R152)
  | .boxdec q w => Sys2Proof.Machine.execBoxdec q w s
  | .nms q w => Sys2Proof.Machine.execNms q w s
  | .dimsOpen q w => Sys2Proof.Machine.execDimsOpen q w s
  | .dimsAccumulate q w => Sys2Proof.Machine.execDimsAccumulate q w s
  | .dimsClose q w => Sys2Proof.Machine.execDimsClose q w s
  | .topk q w => Sys2Proof.Machine.execTopk q w s
  -- class X (R153 to R156)
  | .gate q w => Sys2Proof.Machine.execGate q w s
  | .sortSend q w => Sys2Proof.Machine.execSortSend q w s
  | .sortSendReply q w => Sys2Proof.Machine.execSortSendReply q w s
  | .sortRecv q w => Sys2Proof.Machine.execSortRecv q w s
  | .sortRecvRelease q => Sys2Proof.Machine.execSortRecvRelease q s
  | .sortRecvTimeout q => Sys2Proof.Machine.execSortRecvTimeout q s
  | .sortRecvInbound q w => Sys2Proof.Machine.execSortRecvInbound q w s
  | .combine q w => Sys2Proof.Machine.execCombine q w s
  -- class V (R157 to R161)
  | .verdictOpen q w => Sys2Proof.Machine.execVerdictOpen q w s
  | .verdictDecide q w => Sys2Proof.Machine.execVerdictDecide q w s
  | .fire q w => Sys2Proof.Machine.execFire q w s
  | .trig q w => Sys2Proof.Machine.execTrig q w s
  | .tstamp q w => Sys2Proof.Machine.execTstamp q w s
  -- class K (R162 to R164)
  | .param q w => Sys2Proof.Machine.execParam q w s
  | .bwset q w => Sys2Proof.Machine.execBwset q w s
  | .mbx q w => Sys2Proof.Machine.execMbx q w s
  | .quoinAcquire q w => Sys2Proof.Machine.execQuoinAcquire q w s
  | .quoinRelease q w => Sys2Proof.Machine.execQuoinRelease q w s
  | .quoinClear q w => Sys2Proof.Machine.execQuoinClear q w s
  -- fabric faults and failover (R78, R79, R108, R109, R190, R201)
  | .sramUncorrectableError c word istore => Sys2Proof.Machine.execSramUncorrectableError c word istore s
  | .scrubRead c word istore res => Sys2Proof.Machine.execScrubRead c word istore res s
  | .residueFault c engine => Sys2Proof.Machine.execResidueFault c engine s
  | .signatureTest c engine agrees => Sys2Proof.Machine.execSignatureTest c engine agrees s
  | .engineFence c engine => Sys2Proof.Machine.execEngineFence c engine s
  | .failover c => Sys2Proof.Machine.execFailover c s
  | .failoverComplete n ns => Sys2Proof.Machine.execFailoverComplete n ns s
  -- chases and formes (R179 to R191)
  | .chaseCreate r n owner cores regions ceilLpddr ceilGalley ceilRhasha => Sys2Proof.Machine.execChaseCreate r n owner cores regions ceilLpddr ceilGalley ceilRhasha s
  | .chaseDelete r n => Sys2Proof.Machine.execChaseDelete r n s
  | .contextBind r n slot k p => Sys2Proof.Machine.execContextBind r n slot k p s
  | .contextUnbind r n slot => Sys2Proof.Machine.execContextUnbind r n slot s
  | .formeLoad r n addr size => Sys2Proof.Machine.execFormeLoad r n addr size s
  | .formeLoadDone n => Sys2Proof.Machine.execFormeLoadDone n s
  | .formePatch r n addr size => Sys2Proof.Machine.execFormePatch r n addr size s
  | .patchSwap n => Sys2Proof.Machine.execPatchSwap n s
  | .chaseStart r n => Sys2Proof.Machine.execChaseStart r n s
  | .chaseStop r n => Sys2Proof.Machine.execChaseStop r n s
  | .looseSectionEnd n afterTail => Sys2Proof.Machine.execLooseSectionEnd n afterTail s
  | .bucketGrant n res => Sys2Proof.Machine.execBucketGrant n res s
  -- the deadline monitor (R195)
  | .deadlineReached n h => Sys2Proof.Machine.execDeadlineReached n h s
  | .exitRecordValid n h => Sys2Proof.Machine.execExitRecordValid n h s
  | .exitLimitReached n h => Sys2Proof.Machine.execExitLimitReached n h s
  -- camera front end (R210 to R224)
  | .laneLock l info => Sys2Proof.Machine.execLaneLock l info s
  | .laneLockTimeout l => Sys2Proof.Machine.execLaneLockTimeout l s
  | .laneLockLoss l => Sys2Proof.Machine.execLaneLockLoss l s
  | .triggerCompareHit k => Sys2Proof.Machine.execTriggerCompareHit k s
  | .triggerPacketEnd k => Sys2Proof.Machine.execTriggerPacketEnd k s
  | .lineBegin k => Sys2Proof.Machine.execLineBegin k s
  | .streamPacket l k crcOk codeErrors framed => Sys2Proof.Machine.execStreamPacket l k crcOk codeErrors framed s
  | .deviceEventPacket l => Sys2Proof.Machine.execDeviceEventPacket l s
  | .lineComplete k samples => Sys2Proof.Machine.execLineComplete k samples s
  | .cameraControlRead r k settle addr len => Sys2Proof.Machine.execCameraControlRead r k settle addr len s
  | .cameraControlWrite r k settle addr data => Sys2Proof.Machine.execCameraControlWrite r k settle addr data s
  | .cameraReply k data => Sys2Proof.Machine.execCameraReply k data s
  | .cameraReplyTimeout k => Sys2Proof.Machine.execCameraReplyTimeout k s
  -- image pipeline, replay, trainer (R251 to R271)
  | .pipeStage r k target bank addr size => Sys2Proof.Machine.execPipeStage r k target bank addr size s
  | .pipeStageDone k => Sys2Proof.Machine.execPipeStageDone k s
  | .pipeApply r k target bank line => Sys2Proof.Machine.execPipeApply r k target bank line s
  | .replayStart r k addr size start looped => Sys2Proof.Machine.execReplayStart r k addr size start looped s
  | .replayStop r k => Sys2Proof.Machine.execReplayStop r k s
  | .replayPrefetch k => Sys2Proof.Machine.execReplayPrefetch k s
  | .trainStart r n p => Sys2Proof.Machine.execTrainStart r n p s
  | .trainStop r n => Sys2Proof.Machine.execTrainStop r n s
  | .batchFill n arrival => Sys2Proof.Machine.execBatchFill n arrival s
  -- Rhasha (R276 to R301)
  | .rhRetrain fn p => Sys2Proof.Machine.execRhRetrain fn p s
  | .tsLocked p lanes => Sys2Proof.Machine.execTsLocked p lanes s
  | .eqCodeDwell p lane errors => Sys2Proof.Machine.execEqCodeDwell p lane errors s
  | .capReceived p word crc => Sys2Proof.Machine.execCapReceived p word crc s
  | .capTimeout p => Sys2Proof.Machine.execCapTimeout p s
  | .widenTimeout p => Sys2Proof.Machine.execWidenTimeout p s
  | .rateReceived p code lanes => Sys2Proof.Machine.execRateReceived p code lanes s
  | .stepTimeout p => Sys2Proof.Machine.execStepTimeout p s
  | .retrainEnd p => Sys2Proof.Machine.execRetrainEnd p s
  | .downEnd p => Sys2Proof.Machine.execDownEnd p s
  | .hbSend p => Sys2Proof.Machine.execHbSend p s
  | .skpSend p => Sys2Proof.Machine.execSkpSend p s
  | .syncSend p => Sys2Proof.Machine.execSyncSend p s
  | .syncReceived p count => Sys2Proof.Machine.execSyncReceived p count s
  | .hbReceived p gen st => Sys2Proof.Machine.execHbReceived p gen st s
  | .hbTimeout p => Sys2Proof.Machine.execHbTimeout p s
  | .suspensionTimeout p => Sys2Proof.Machine.execSuspensionTimeout p s
  | .packetCrcError p => Sys2Proof.Machine.execPacketCrcError p s
  | .duplicatePacket p seq => Sys2Proof.Machine.execDuplicatePacket p seq s
  | .ack p seq => Sys2Proof.Machine.execAck p seq s
  | .nak p seq => Sys2Proof.Machine.execNak p seq s
  | .ackTimer p => Sys2Proof.Machine.execAckTimer p s
  | .replayTimeout p => Sys2Proof.Machine.execReplayTimeout p s
  | .packetForward p pkt => Sys2Proof.Machine.execPacketForward p pkt s
  | .sort p hdr h payload => Sys2Proof.Machine.execSort p hdr h payload s
  | .reply p hdr h payload => Sys2Proof.Machine.execReply p hdr h payload s
  | .join p hdr m => Sys2Proof.Machine.execJoin p hdr m s
  | .propose p hdr m => Sys2Proof.Machine.execPropose p hdr m s
  | .accept p hdr m => Sys2Proof.Machine.execAccept p hdr m s
  | .acceptTimeout n => Sys2Proof.Machine.execAcceptTimeout n s
  | .commit p hdr m => Sys2Proof.Machine.execCommit p hdr m s
  | .epochApply n => Sys2Proof.Machine.execEpochApply n s
  | .unreach p hdr m => Sys2Proof.Machine.execUnreach p hdr m s
  -- clocks (R402 to R405)
  | .refClkLost => Sys2Proof.Machine.execRefClkLost s
  | .clockSourceChange src steps => Sys2Proof.Machine.execClockSourceChange src steps s
  | .clockRampStep => Sys2Proof.Machine.execClockRampStep s
  | .oscTrimWindow error bySync => Sys2Proof.Machine.execOscTrimWindow error bySync s
  | .freqMeterGate n khz => Sys2Proof.Machine.execFreqMeterGate n khz s
  -- motion and field (R303 to R335)
  | .encoderEdge e edge => Sys2Proof.Machine.execEncoderEdge e edge s
  | .wireFault e wire => Sys2Proof.Machine.execWireFault e wire s
  | .wireFaultClear e => Sys2Proof.Machine.execWireFaultClear e s
  | .indexEdge e => Sys2Proof.Machine.execIndexEdge e s
  | .preset fn e hi => Sys2Proof.Machine.execPreset fn e hi s
  | .periodicCompareHit j => Sys2Proof.Machine.execPeriodicCompareHit j s
  | .trigOneshotHit k o => Sys2Proof.Machine.execTrigOneshotHit k o s
  | .fireTick => Sys2Proof.Machine.execFireTick s
  | .downFrame frame => Sys2Proof.Machine.execDownFrame frame s
  | .upFrame frame => Sys2Proof.Machine.execUpFrame frame s
  | .frameMissing dir => Sys2Proof.Machine.execFrameMissing dir s
  | .trip n => Sys2Proof.Machine.execTrip n s
  | .tripClear fn clear0 clear1 => Sys2Proof.Machine.execTripClear fn clear0 clear1 s
  | .inputEdge c level => Sys2Proof.Machine.execInputEdge c level s
  | .inputOpenWire c => Sys2Proof.Machine.execInputOpenWire c s
  | .outputOverload c => Sys2Proof.Machine.execOutputOverload c s
  | .outputOpenWire c => Sys2Proof.Machine.execOutputOpenWire c s
  | .overTemperature c => Sys2Proof.Machine.execOverTemperature c s
  | .fieldSupplyLost => Sys2Proof.Machine.execFieldSupplyLost s
  | .fieldSupplyReturn => Sys2Proof.Machine.execFieldSupplyReturn s
  -- network time (R345 to R350)
  | .ptpSync d domainTime freqPpb => Sys2Proof.Machine.execPtpSync d domainTime freqPpb s
  | .domainLost d => Sys2Proof.Machine.execDomainLost d s
  | .timeStep fn hi => Sys2Proof.Machine.execTimeStep fn hi s
  | .launchTimeReached p => Sys2Proof.Machine.execLaunchTimeReached p s
  | .pcsReady p => Sys2Proof.Machine.execPcsReady p s
  | .txtsPop fn p val => Sys2Proof.Machine.execTxtsPop fn p val s
  -- rings, pages, interrupts, function resets (R352 to R363)
  | .ringConsWrite fn ring val => Sys2Proof.Machine.execRingConsWrite fn ring val s
  | .commandRingEntry fn => Sys2Proof.Machine.execCommandRingEntry fn s
  | .statusBlockWrite fn => Sys2Proof.Machine.execStatusBlockWrite fn s
  | .cropPageDelivery k => Sys2Proof.Machine.execCropPageDelivery k s
  | .cropFlushTimeout k => Sys2Proof.Machine.execCropFlushTimeout k s
  | .pageHoldTimeout k => Sys2Proof.Machine.execPageHoldTimeout k s
  | .interruptInterval fn ring => Sys2Proof.Machine.execInterruptInterval fn ring s
  | .vfFlr k => Sys2Proof.Machine.execVfFlr k s
  | .pf0Flr => Sys2Proof.Machine.execPf0Flr s
  | .pciePerst => Sys2Proof.Machine.execPciePerst s
  -- firmware commands, mailboxes, quoins (R363, R369 to R381)
  | .hello r driverMin driverMax => Sys2Proof.Machine.execHello r driverMin driverMax s
  | .undefinedCommand r code => Sys2Proof.Machine.execUndefinedCommand r code s
  | .mbxPost fn m len channel => Sys2Proof.Machine.execMbxPost fn m len channel s
  | .mbxTake fn m code => Sys2Proof.Machine.execMbxTake fn m code s
  | .mbxCplPop fn m => Sys2Proof.Machine.execMbxCplPop fn m s
  | .qacqRead fn q => Sys2Proof.Machine.execQacqRead fn q s
  | .qopRelease fn q => Sys2Proof.Machine.execQopRelease fn q s
  | .qopClear fn q => Sys2Proof.Machine.execQopClear fn q s
  -- telemetry and the board port (R385 to R390)
  | .telemetryRound samples => Sys2Proof.Machine.execTelemetryRound samples s
  | .thermalHoldEnd => Sys2Proof.Machine.execThermalHoldEnd s
  | .smbStatus => Sys2Proof.Machine.execSmbStatus s
  | .smbTelemetry n => Sys2Proof.Machine.execSmbTelemetry n s
  | .smbEvent index => Sys2Proof.Machine.execSmbEvent index s
  | .smbIdentity => Sys2Proof.Machine.execSmbIdentity s
  | .resetArm kind => Sys2Proof.Machine.execResetArm kind s
  | .resetExec kind => Sys2Proof.Machine.execResetExec kind s
  | .alertClear causes => Sys2Proof.Machine.execAlertClear causes s
  | .smbAlertResponse => Sys2Proof.Machine.execSmbAlertResponse s
  | .smbBadPec command => Sys2Proof.Machine.execSmbBadPec command s
  -- security and debug (R391 to R398, R408)
  | .fwSvnCommit r => Sys2Proof.Machine.execFwSvnCommit r s
  | .keyEnrol r slot key auth => Sys2Proof.Machine.execKeyEnrol r slot key auth s
  | .keyRevoke r slot => Sys2Proof.Machine.execKeyRevoke r slot s
  | .policySet r deviceTrained lock auth => Sys2Proof.Machine.execPolicySet r deviceTrained lock auth s
  | .lifecycleAdvance r target uidLow auth => Sys2Proof.Machine.execLifecycleAdvance r target uidLow auth s
  | .debugChallenge r => Sys2Proof.Machine.execDebugChallenge r s
  | .debugToken r token => Sys2Proof.Machine.execDebugToken r token s
  | .debugEnd r => Sys2Proof.Machine.execDebugEnd r s
  | .debugHalt q => Sys2Proof.Machine.execDebugHalt q s
  | .optProgram r bit count auth => Sys2Proof.Machine.execOptProgram r bit count auth s
  -- resets, supervisor, bring-up (R406 to R430)
  | .reset r t => Sys2Proof.Machine.execReset r t s
  | .pinReset slotId => Sys2Proof.Machine.execPinReset slotId s
  | .teardownDrainEnd u => Sys2Proof.Machine.execTeardownDrainEnd u s
  | .staleArrival u gen => Sys2Proof.Machine.execStaleArrival u gen s
  | .gateStopForced => Sys2Proof.Machine.execGateStopForced s
  | .progressWindowExpiry u => Sys2Proof.Machine.execProgressWindowExpiry u s
  | .watchdogExpiry => Sys2Proof.Machine.execWatchdogExpiry s
  | .warmResetEnd => Sys2Proof.Machine.execWarmResetEnd s
  | .bringupStepDone f => Sys2Proof.Machine.execBringupStepDone f s
  | .laneQualified rhasha lane => Sys2Proof.Machine.execLaneQualified rhasha lane s
  | .laneQualificationError rhasha lane => Sys2Proof.Machine.execLaneQualificationError rhasha lane s
  | .lpddrBgBurst addr passed => Sys2Proof.Machine.execLpddrBgBurst addr passed s
  | .fireQueueExchange odd => Sys2Proof.Machine.execFireQueueExchange odd s
  | .pcsNotReady p => Sys2Proof.Machine.execPcsNotReady p s
  | .launchFrameEnd p => Sys2Proof.Machine.execLaunchFrameEnd p s
  | .rstNRelease => Sys2Proof.Machine.execRstNRelease s
  | .fabricResetEnd => Sys2Proof.Machine.execFabricResetEnd s
  | .chaseReloadDone n => Sys2Proof.Machine.execChaseReloadDone n s
  | .debugSessionOpen => Sys2Proof.Machine.execDebugSessionOpen s
  | .proposeIntervalEnd n => Sys2Proof.Machine.execProposeIntervalEnd n s
  | .emulationOutputCount o => Sys2Proof.Machine.execEmulationOutputCount o s
  | .pdelayReq p d => Sys2Proof.Machine.execPdelayReq p d s

end Sys2Proof.Machine
end

