-- ==== Sys2Proof/Machine/Tick.lean ====
section
/-! DEFINITION. What one K4 cycle does when no command waits: the clock, device time, the token buckets (R194, R342, R346)
the deadline monitors' verdicts from exit records (R195, R196) and the supervisor's entry of traps into the ladder
(R413). -/

namespace Sys2Proof.Machine

/-- One bucket of a chase gains its rate, up to its depth (R194). -/
def fillBucket (c : Chase) (res : Nat) : Chase :=
  { c with buckets := c.buckets.set res (min bucketDepth (c.buckets.get bucketDepth res + c.rates.get 0 res)) }

/-- The three buckets of every chase gain their rates (R194). -/
def fillBuckets (s : State) : State :=
  (List.range 16).foldl (fun s n =>
    if s.flag .chPresent n then s.setChase n ((List.range 3).foldl fillBucket (s.chase n)) else s) s

/-- One K4 cycle (log entry 48): nothing runs in Off, only device time in Aux. -/
def tick (s : State) : State :=
  if s.power = .off then s
  else
    let s1 := advanceTime { s with clk := s.clk + 1 }
    if s.power = .full ∧ s.mgmt.hold = .none then takeTraps ((List.range 16).foldl monitorTick (fillBuckets s1)) else s1

end Sys2Proof.Machine
end

