-- ==== Sys2Proof/Safety.lean ====
section
/-! DEFINITION. What holds of every sound state: no register field exceeds its width, so reserved bits read 0 (R5), and
every memory is in its one canonical form. -/

namespace Sys2Proof.Safety

open Sys2Proof.Machine

/-- Every stored register field lies within its width (R5: no reserved bit above or beside it is ever set). -/
abbrev fieldsFit (s : State) : Prop := ∀ e ∈ s.regs, e.2 < 2 ^ e.1.1.info.width

/-- Every memory is in canonical form: addresses strictly rising, no listed byte zero. -/
abbrev memoriesCanonical (s : State) : Prop :=
  Memory.wf s.sram = true ∧ Memory.wf s.istore = true ∧ Memory.wf s.galley = true ∧ Memory.wf s.lpddr = true ∧
    Memory.wf s.host = true

/-- A sound state. -/
abbrev Sound (s : State) : Prop := fieldsFit s ∧ memoriesCanonical s

/-- The sequencer a command names. -/
def sequencer (s : State) (q : SeqId) : Seq := (s.chase q.chase.val).seq q.core

/-- The word may execute as an instruction of the row now: its sequencer runs and waits for nothing, no check of R464
traps, its predicate holds and its units are idle. -/
abbrev goes (q : SeqId) (w : ZWord) (row : Op → Bool) (s : State) : Prop := gateOf s q (opOf w) (row (opOf w)) = .go

/-- Every register field outside a list reads in `t` as in `s`. -/
def keepsRegs (l : List Fld) (s t : State) : Prop := ∀ f i, f ∉ l → t.get f i = s.get f i

/-- A firmware command is served: its message has not gone stale, and the gate of R363, R376, R422 and R433 lets it
through. -/
abbrev served (s : State) (r : Req) (always hello : Bool) : Prop := fwGate s r always hello = none

/-- Only the named sequencer differs between two states, by `f`: no other sequencer, nothing else of any chase and
nothing else of the module. -/
def seqChanges (q : SeqId) (f : Seq → Seq) (s t : State) : Prop :=
  sequencer t q = f (sequencer s q) ∧ (∀ r, r ≠ q → sequencer t r = sequencer s r) ∧
    (∀ n, { t.chase n with line := (s.chase n).line, streams := (s.chase n).streams } = s.chase n) ∧
    { t with chases := s.chases } = s

/-- Outside a list of byte ranges, every byte of core SRAM, galley store and LPDDR5X reads in `t` as in `s`. -/
def keepsBytes (l : List Span) (s t : State) : Prop :=
  ∀ m a, m < 3 → (∀ w ∈ l, ¬(w.1 = m ∧ w.2.1 ≤ a ∧ a < w.2.2)) → memRead (t.memOf m) a = memRead (s.memOf m) a

/-- The descriptor a sequencer holds in a register, taken apart. -/
def tensor (s : State) (q : SeqId) (r : Nat) : Desc := descOf ((sequencer s q).d r)

/-- Every regulated transfer between these descriptors may run now (R194): the bucket of each regulator it goes through
holds its bytes there, or it was granted. -/
abbrev flows (s : State) (q : SeqId) (ds : List Desc) : Prop :=
  ∀ e ∈ demands (sequencer s q) ds, bucketReady (s.chase q.chase.val) e.1 e.2 = true

/-- The registers that reads of core SRAM may write (R78, R114, R115): SRAM_CE and SRAM_ERR_ADDR. -/
def readRegs : List Fld := [.sramCe, .errWord, .errIstore, .errUncorr, .errByScrub, .errValid]

end Sys2Proof.Safety
end

