-- ==== Sys2Proof/Certificates/Slice0/Obligations.lean ====
section
/-! DEFINITION. The statements about the machine, for the provers. -/

open Sys2Proof Sys2Proof.Machine Sys2Proof.Safety

/-! ### The step and reset -/

/-- A step runs the command at the front of the queue on the state with the queue's rest. -/
def Obligations.StepRunsFrontCommand : Prop :=
  ∀ (c : Instr) (rest : List Instr) (s : State), s.pending = c :: rest → step s = exec c { s with pending := rest }

/-- The state after reset is sound: every field within its width, every memory in canonical form. -/
def Obligations.ResetIsSound : Prop := Sound State.reset

/-- Reset leaves what the spec gives: Aux, BRINGUP, every register field at its Reset value, no command waiting, no
event logged, no message in a mailbox. Where the register tables give no value, it is that of log entries 2 and 41. -/
def Obligations.ResetLeavesResetValues : Prop :=
  State.reset.power = .aux ∧ State.reset.pending = [] ∧ State.reset.log = [] ∧
    (∀ f i, State.reset.get f i = f.info.reset) ∧ (∀ m, State.reset.mbox m = Mailbox.reset) ∧
    State.reset.get .modService 0 = svcBringup ∧ State.reset.get .oscCode 0 = 0x100 ∧
    State.reset.get .tripActive 0 = 3 ∧ State.reset.get .timeSlewPpm 0 = 10 ∧ State.reset.get .supWinChase 0 = 10000

/-- Every step from a sound state that answers a next state answers a sound one: no register field ever exceeds its
width, so reserved bits read 0 (R5), and every memory keeps its canonical form. -/
def Obligations.StepKeepsSound : Prop := ∀ s t : State, Sound s → step s = .next t → Sound t

/-! ### Registers, power, events -/

/-- R3: a misaligned or narrow access has no effect but the event-log record; a read answers 0. Which accesses reach
the block in which power state is log entry 51. R4 on the pairs TIME_NOW and EMU_RATIO: a read of _LO latches _HI for
the later read of _HI; a write of _LO is only kept, and the pair takes effect when _HI is written. R6 on one register
of each Type: SUP_CFG (RW) stores what is written, SUP_LAST.valid (W1C) is cleared by a 1 and kept by a 0, ESC_COUNT
(RC) is read and cleared, RH_MODULE (RO) ignores a write, and so does a reserved offset (R5). -/
def Obligations.RegistersAreAccessedAsTyped : Prop :=
  (∀ (fn : Fn) (off : BitVec 24) (bytes : Nat) (s : State), s.power = .full → (off.toNat % 4 ≠ 0 ∨ bytes ≠ 4) →
      exec (.misalignedRegisterAccess fn off bytes true) s = .next (logEvent s 0x0001 fn.val 1 [fn.val, off.toNat, 0, 0]) ∧
        exec (.misalignedRegisterAccess fn off bytes false) s = .next { logEvent s 0x0001 fn.val 1 [fn.val, off.toNat, 0, 0] with rd := 0 }) ∧
  (∀ (s : State) (o : Fin 2) (val : Word), s.power = .full →
      exec (.pairLoRead 0 0x900000) s =
          .next { s.latch .timeNow 0 (s.get .timeNow 0 / 2 ^ 32) with
            rd := BitVec.ofNat 32 (s.get .timeNow 0 % 2 ^ 32) } ∧
        exec (.rcRead 0 0x900004) s = .next { s with rd := BitVec.ofNat 32 (s.latched .timeNow 0) } ∧
        exec (.registerWrite 0 (BitVec.ofNat 24 (0xA04004 + 0x20 * o.val)) val) s =
          .next (s.setLo .emuRatio o.val val.toNat) ∧
        exec (.pairHiWrite 0 (BitVec.ofNat 24 (0xA04008 + 0x20 * o.val)) val) s =
          .next (s.put .emuRatio o.val ((s.loOf .emuRatio o.val + val.toNat * 2 ^ 32) % 2 ^ 64))) ∧
  (∀ (s : State) (val : Word), s.power = .full →
      exec (.registerWrite 0 0xC00000 val) s =
          .next ((((s.put .supAutoStart 0 (val.toNat % 2)).put .supRetry 0 (max 1 (val.toNat / 2 % 8))).put .supWindowMs 0
            (max 1 (val.toNat / 16 % 4096))).put .supHoldChase 0 (val.toNat / 2 ^ 17 % 2)) ∧
        exec (.registerWrite 0 0xC00014 val) s =
          .next (s.put .supValid 0 (s.get .supValid 0 - (s.get .supValid 0 &&& val.toNat / 2 ^ 31 % 2))) ∧
        exec (.rcRead 0 0xC00018) s = .next { s.put .escCount 0 0 with rd := BitVec.ofNat 32 (s.get .escCount 0) } ∧
        exec (.registerWrite 0 0x800000 val) s = .next s ∧ exec (.registerWrite 0 0xC00020 val) s = .next s)

/-- R387: an event-log entry holds the device time, the sequence number, code, source, severity and details; it
becomes the newest of at most 4,096; the head index moves on modulo 4,096, wraps are counted, and vector 6 fires at or
above min_sev. Nothing else changes. -/
def Obligations.EventLogEntryIsWritten : Prop :=
  ∀ (s : State) (code src sev : Nat) (details : List Nat),
    let t := logEvent s code src sev details
    t.log = ((⟨s.now, s.logSeq, code, src, sev, details⟩ : LogEntry) :: s.log).take 4096 ∧
      t.logSeq = (s.logSeq + 1) % 2 ^ 32 ∧
      t.get .evlogHead 0 = (s.get .evlogHead 0 + 1) % 4096 ∧
      t.get .evlogWrap 0 =
        (if (s.get .evlogHead 0 + 1) % 4096 = 0 then (s.get .evlogWrap 0 + 1) % 2 ^ 32 else s.get .evlogWrap 0) ∧
      t.tx = (if s.get .evlogMinSev 0 ≤ sev then .msix 0 6 :: s.tx else s.tx) ∧
      keepsRegs [.evlogHead, .evlogWrap] s t ∧
      t = { s with log := t.log, logSeq := t.logSeq, regs := t.regs, tx := t.tx }

/-- R30: a virtual function's window ends with its trigger set; beyond it there is no path, so a write does nothing
and a read answers 0, whatever PF0 block has that offset. R214, R228, R324 and R379: a write that a bound context
forbids, or one to a grant whose mailbox holds messages, is discarded and recorded as a register-access fault. -/
def Obligations.WritesOutOfReachHaveNoEffect : Prop :=
  (∀ (s : State) (fn : Fn) (off : BitVec 24) (val : Word), s.power = .full → fn.val ≠ 0 → off.toNat % 4 = 0 →
      0x4410 ≤ off.toNat →
      exec (.registerWrite fn off val) s = .next s ∧ exec (.rcRead fn off) s = .next { s with rd := 0 }) ∧
  ((∀ (s : State) (k : Ctx) (val : Word), s.power = .full → s.flag .ctxBound k.val = true →
      exec (.registerWrite 0 (BitVec.ofNat 24 (0x402000 + 0x40 * k.val)) val) s =
          .next (regFault s 0 (0x402000 + 0x40 * k.val) val.toNat) ∧
        exec (.registerWrite 0 (BitVec.ofNat 24 (0x601008 + 0x40 * k.val)) val) s =
          .next (regFault s 0 (0x601008 + 0x40 * k.val) val.toNat)) ∧
    (∀ (s : State) (c : Chan) (val : Word), s.power = .full →
      (chanBound s c.val = true ∨ assignsBound s val.toNat = true) →
      exec (.registerWrite 0 (BitVec.ofNat 24 (0xB00000 + 0x20 * c.val)) val) s =
        .next (regFault s 0 (0xB00000 + 0x20 * c.val) val.toNat)) ∧
    (∀ (s : State) (g : Fin 15) (val : Word), s.power = .full → (s.mbox (17 + g.val)).msgs ≠ [] →
      exec (.registerWrite 0 (BitVec.ofNat 24 (0x304000 + 4 * g.val)) val) s =
        .next (regFault s 0 (0x304000 + 4 * g.val) val.toNat)))

/-- R24, row by row of its table. Off to Aux, where the auxiliary rail rises: the module number is that of the slot, the
field section is in its safe state, the motion counters start at 0, nothing of the fabric, of any memory or of the event
log is there, and the fuses stay. Aux to Full, where the main rail rises: the encoder counts and LPDDR5X are kept, and
unless a pin reset or a power-cycle request holds the module its service state is BRINGUP with the reach of a WARM reset.
Full to Aux, where the main rail is lost: core SRAM, the instruction stores, the galleys, every chase, context, port, ring
and fire queue are lost; encoder counts, LPDDR5X and fuses are kept; every output is off and the field section is in its
safe state. Aux or Full to Off, where the auxiliary rail is lost: everything but the fuses is lost and the field outputs
are off. What lost memory reads as is log entry 7. -/
def Obligations.RailsMovePowerStates : Prop :=
  (∀ (id : BitVec 4) (s : State), s.power = .off →
    ∃ t, exec (.auxRailUp id) s = .next t ∧ t.power = .aux ∧ t.get .rhModule 0 = id.toNat ∧
      t.sram = [] ∧ t.istore = [] ∧ t.galley = [] ∧ t.lpddr = [] ∧ t.log = [] ∧ t.chases = .empty ∧ t.ctxs = .empty ∧
      t.ports = .empty ∧ t.rings = .empty ∧ t.fqs = .empty ∧ (∀ e, t.get .encPos e = 0) ∧ t.get .barFieldSafe 0 = 1 ∧
      (∀ c, (t.chan c).driven = false) ∧ t.fuses = s.fuses ∧ t.pending = s.pending) ∧
  (∀ s : State, s.power = .aux →
    ∃ t, exec .mainRailUp s = .next t ∧ t.power = .full ∧ (∀ e, t.get .encPos e = s.get .encPos e) ∧
      t.lpddr = s.lpddr ∧ t.fuses = s.fuses ∧ t.pending = s.pending ∧
      (s.mgmt.hold = .none → s.mgmt.tray = false →
        t.get .modService 0 = svcBringup ∧ t.get .buStep 0 = 2 ∧ t.get .buWarmPath 0 = 1)) ∧
  (∀ s : State, s.power = .full →
    ∃ t, exec .mainRailLost s = .next t ∧ t.power = .aux ∧ t.sram = [] ∧ t.istore = [] ∧ t.galley = [] ∧
      t.chases = .empty ∧ t.ctxs = .empty ∧ t.ports = .empty ∧ t.rings = .empty ∧ t.fqs = .empty ∧
      t.get .modService 0 = svcBringup ∧ (∀ n, t.get .chState n = 0) ∧ (∀ e, t.get .encPos e = s.get .encPos e) ∧
      t.lpddr = s.lpddr ∧ t.fuses = s.fuses ∧ (∀ c, c < 16 → (t.chan c).driven = false) ∧
      t.barrier.fieldSafe = true ∧ t.pending = s.pending) ∧
  (∀ s : State, s.power ≠ .off →
    ∃ t, exec .auxRailLost s = .next t ∧ t.power = .off ∧ t.regs = [] ∧ t.sram = [] ∧ t.istore = [] ∧ t.galley = [] ∧
      t.lpddr = [] ∧ t.log = [] ∧ t.chases = .empty ∧ t.ctxs = .empty ∧ t.ports = .empty ∧ t.rings = .empty ∧
      t.fqs = .empty ∧ t.mboxes = .empty ∧ (∀ c, (t.chan c).driven = false) ∧ t.fuses = s.fuses ∧
      t.pending = s.pending)

/-! ### Zarson: issue, class S -/

/-- R464: the trap of an instruction is that of the first failing check, in the order of the list: class reserved,
class not run by this sequencer, undefined opcode, undefined code, reserved field, level or capability, misalignment,
branch target or loop, descriptors. R464: after the descriptors come QUOIN outside a loose section, the sort payload
and at last the TRAP instruction itself, which traps only where it executes; the reduction length never fails, for no
operands exceed it (R53); a fall-through past the program region raises 0x0B alone; and the trap found is the one
raised, whose cause TRAP_CAUSE latches where none is latched. -/
def Obligations.IssueChecksInOrder : Prop :=
  (∀ (s : State) (q : SeqId) (x : Seq) (w : ZWord),
      let o := opOf w
      let ring := (usedDescs x o).any (fun d => d.ring != 0)
      let galley := (descOf (x.d o.da)).space == 5
      (7 ≤ o.cls → issueTrap s q x o = some 0x01) ∧
        (o.cls < 7 → classRuns o.cls q.core.isNone = false → issueTrap s q x o = some 0x03) ∧
        (o.cls < 7 → classRuns o.cls q.core.isNone = true →
          (namedFields o ring galley = none → issueTrap s q x o = some 0x02) ∧
            ∀ named, namedFields o ring galley = some named →
              (codeUndefined o q.core.isNone = true → issueTrap s q x o = some 0x02) ∧
              (codeUndefined o q.core.isNone = false →
                (reservedZero o named = false → issueTrap s q x o = some 0x04) ∧
                (reservedZero o named = true →
                  (beyondLevel s q.chase.val x o = true → issueTrap s q x o = some 0x05) ∧
                  (beyondLevel s q.chase.val x o = false →
                    (misaligned x o = true → issueTrap s q x o = some 0x0C) ∧
                    (misaligned x o = false →
                      (∀ c, flowTrap x o = some c → issueTrap s q x o = some c) ∧
                      (flowTrap x o = none → ∀ c, descsTrap s q x o (uses o) 0 = some c →
                        issueTrap s q x o = some c))))))) ∧
  ((∀ (s : State) (q : SeqId) (x : Seq) (w : ZWord) (named : List (Nat × Nat)),
      let o := opOf w
      o.cls < 7 → classRuns o.cls q.core.isNone = true →
        namedFields o ((usedDescs x o).any (fun d => d.ring != 0)) ((descOf (x.d o.da)).space == 5) = some named →
        codeUndefined o q.core.isNone = false →
        reservedZero o named = true → beyondLevel s q.chase.val x o = false → misaligned x o = false →
        flowTrap x o = none → descsTrap s q x o (uses o) 0 = none →
        (o.cls = 6 → o.opcode = 4 → x.inLoose = false → issueTrap s q x o = some 0x09) ∧
        (o.cls = 4 → o.opcode = 2 → bitAt o.sub 0 = false → 1920 < payloadBytes (descOf (x.d o.da)) →
          issueTrap s q x o = some 0x0D) ∧
        (o.cls = 0 → o.opcode = 0x0F → issueTrap s q x o = if x.executes o then some 0x0E else none)) ∧
    (∀ (s : State) (q : SeqId) (x : Seq) (w : ZWord), issueTrap s q x (opOf w) ≠ some 0x0F) ∧
    (∀ (s : State) (q : SeqId) (w : ZWord) (row : Op → Bool) (on : Op → Seq → State → State),
      let o := opOf w
      let x := sequencer s q
      let t := issue q w s row on
      canIssue s q = true →
        (pastEnd x = true → t = raiseTrap s q o x.pc 0x0B) ∧
        (pastEnd x = false →
          (row o = true ∨ namedFields o false false = none ∨ classRuns o.cls q.core.isNone = false) →
          ∀ c, issueTrap s q x o = some c →
          t = raiseTrap s q o x.pc c ∧ (s.flag .trapValid q.chase.val = false → t.get .trapCause q.chase.val = c))))

/-- R165 and R169: a trap stops every sequencer of its chase and no sequencer of another, makes the chase TRAPPED and its
open items orphans, and is counted; it latches its cause, its sequencer and its place where valid is 0; where valid is 1
it sets multiple, and the cause changes only where R169 puts the trap before the one latched in the same cycle. -/
def Obligations.TrapStopsItsChase : Prop :=
  ∀ (s : State) (q : SeqId) (w : ZWord) (pc cause : Nat), cause < 16 →
    let n := q.chase.val
    let t := raiseTrap s q (opOf w) pc cause
    (sequencer t q).run = .trapped ∧ (∀ r : SeqId, r.chase = q.chase → (sequencer t r).run ≠ .running) ∧
      (∀ r : SeqId, r.chase ≠ q.chase → sequencer t r = sequencer s r) ∧
      t.get .chState n = 5 ∧ t.get .trapCount n = min (s.get .trapCount n + 1) 0xFFFFFFFF ∧
      (∀ e ∈ (t.chase n).openItems, e.2.orphan = true) ∧
      (s.flag .trapValid n = false →
        t.get .trapValid n = 1 ∧ t.get .trapCause n = cause ∧ t.get .trapLine n = b2n q.core.isNone ∧
          t.get .trapPc n = pc % 2 ^ 32 ∧ t.get .trapW0 n = w.toNat % 2 ^ 32 ∧ t.get .trapW2 n = bitsAt w.toNat 64 32 ∧
          t.get .trapMultiple n = 0) ∧
      (s.flag .trapValid n = true → t.get .trapMultiple n = 1 ∧
        t.get .trapCause n = (if trapFirst s q then cause else s.get .trapCause n))

/-- R121: an instruction that is predicated off has no effect but its units' occupancy: its sequencer goes on, the units
it names are busy as furniture, and nothing else of the module changes. -/
def Obligations.PredicatedOffHasNoEffect : Prop :=
  ∀ (s : State) (q : SeqId) (w : ZWord) (row : Op → Bool) (on : Op → Seq → State → State),
    gateOf s q (opOf w) (row (opOf w)) = .off →
    let n := q.chase.val
    let t := issue q w s row on
    sequencer t q = (sequencer s q).advance ∧ (∀ r, r ≠ q → sequencer t r = sequencer s r) ∧
      { t with chases := s.chases } = s ∧
      (∀ m, { t.chase m with line := (s.chase m).line, streams := (s.chase m).streams, busy := (s.chase m).busy } =
        s.chase m) ∧
      (t.chase n).busy = (unitsOf s q (opOf w)).map (fun u => ⟨u.1, u.2, [], [], true, []⟩) ++ (s.chase n).busy

/-- R134: NOP, SETS, ALU, CMP, DLD, DADD, LOOP and BR change their own sequencer and nothing else. -/
def Obligations.ScalarInstructionsComplete : Prop :=
  ∀ (q : SeqId) (w : ZWord) (s : State),
    let o := opOf w
    (goes q w (isOp 0 0x00) s → ∃ t, exec (.nop q w) s = .next t ∧ seqChanges q Seq.advance s t) ∧
    (goes q w (isOp 0 0x01) s → ∃ t, exec (.sets q w) s = .next t ∧ seqChanges q (fun x =>
      (if bitAt o.sub 0 then (x.setS o.sd o.imm0).setS (o.sd + 1) o.imm1 else x.setS o.sd o.imm0).advance) s t) ∧
    (goes q w (isOp 0 0x02) s →
      ∃ t, exec (.alu q w) s = .next t ∧ seqChanges q (fun x => (aluWrite x o).advance) s t) ∧
    (goes q w (isOp 0 0x03) s →
      ∃ t, exec (.cmp q w) s = .next t ∧ seqChanges q (fun x => (cmpWrite x o).advance) s t) ∧
    (goes q w (isOp 0 0x04) s → ∃ t, exec (.dld q w) s = .next t ∧ seqChanges q (fun x =>
      (x.setD o.dd (BitVec.ofNat 256
        (memNat s.lpddr ((descBank s q.chase.val).1 + 32 * (o.imm0 % 4096)) 32))).advance) s t) ∧
    (goes q w (isOp 0 0x05) s → ∃ t, exec (.dadd q w) s = .next t ∧ seqChanges q (fun x =>
      (x.setD o.dd (addBase (x.d o.dd) (sext 32 (x.s o.sa)))).advance) s t) ∧
    (goes q w (isOp 0 0x08) s → ∃ t, exec (.loop q w) s = .next t ∧ seqChanges q (fun x =>
      x.startLoop (if bitAt o.sub 0 then x.s o.sa else o.imm0) (o.imm1 % 8192)) s t) ∧
    (goes q w (isOp 0 0x09) s →
      ∃ t, exec (.br q w) s = .next t ∧ seqChanges q (fun x => x.branch (o.imm0 % 8192)) s t)

/-- R135: the value each ALU code writes: arithmetic wraps modulo 2³², shifts use the operand's bits [4:0], MIN and
MAX compare as signed, the 48-bit operations wrap modulo 2⁴⁸; only the destination registers change. R135: the
condition each CMP code writes to its predicate; p0 is never written (R123) and nothing else changes. R136: LOOP with
a count of 0 goes on after the body; otherwise the body starts with its count of passes; at the end of the innermost
body the sequencer returns to its top while passes are left, and leaves the loop after the last; a branch ends every
loop whose body it leaves. -/
def Obligations.ScalarResultsAreRight : Prop :=
  (∀ (x : Seq) (w : ZWord),
      let o := opOf w
      let a := x.s o.sa
      let b := aluOperand x o
      let y := aluWrite x o
      (o.sub % 32 = 0 → y.s o.sd = (a + b) % 2 ^ 32) ∧
        (o.sub % 32 = 1 → y.s o.sd = (a + (2 ^ 32 - b)) % 2 ^ 32) ∧
        (o.sub % 32 = 2 → y.s o.sd = a &&& b) ∧ (o.sub % 32 = 3 → y.s o.sd = a ||| b) ∧
        (o.sub % 32 = 4 → y.s o.sd = a ^^^ b) ∧
        (o.sub % 32 = 5 → y.s o.sd = a * 2 ^ (b % 32) % 2 ^ 32) ∧
        (o.sub % 32 = 6 → y.s o.sd = a / 2 ^ (b % 32)) ∧
        (o.sub % 32 = 7 → y.s o.sd = wrapTo 32 (sext 32 a / (2 ^ (b % 32) : Nat))) ∧
        (o.sub % 32 = 8 → y.s o.sd = a * b % 2 ^ 32) ∧
        (o.sub % 32 = 9 → y.s o.sd = wrapTo 32 (min (sext 32 a) (sext 32 b))) ∧
        (o.sub % 32 = 10 → y.s o.sd = wrapTo 32 (max (sext 32 a) (sext 32 b))) ∧
        (o.sub % 32 = 11 → y.count o.sd = sext 48 (wrapTo 48 ((x.pair48 o.sa : Int) + sext 32 b))) ∧
        (o.sub % 32 = 12 → y.count o.sd = sext 48 (wrapTo 48 ((x.pair48 o.sa : Int) - sext 32 b))) ∧
        (∀ r, r ≠ o.sd → (r ≠ o.sd + 1 ∨ (o.sub % 32 ≠ 11 ∧ o.sub % 32 ≠ 12)) → y.s r = x.s r) ∧
        { y with sregs := x.sregs } = x) ∧
  (∀ (x : Seq) (w : ZWord),
      let o := opOf w
      let a := x.s o.sa
      let b := aluOperand x o
      let y := cmpWrite x o
      (o.pdst ≠ 0 →
        (o.sub % 8 = 0 → y.p o.pdst = decide (a = b)) ∧ (o.sub % 8 = 1 → y.p o.pdst = decide (a ≠ b)) ∧
        (o.sub % 8 = 2 → y.p o.pdst = decide (sext 32 a < sext 32 b)) ∧
        (o.sub % 8 = 3 → y.p o.pdst = decide (sext 32 b ≤ sext 32 a)) ∧
        (o.sub % 8 = 4 → y.p o.pdst = decide (a < b)) ∧ (o.sub % 8 = 5 → y.p o.pdst = decide (b ≤ a))) ∧
        y.p 0 = true ∧ (∀ i, i < 16 → i ≠ o.pdst → y.p i = x.p i) ∧ { y with preds := x.preds } = x) ∧
  ((∀ (x : Seq) (len : Nat), x.startLoop 0 len = x.goto (x.pc + 1 + len)) ∧
    (∀ (x : Seq) (count len : Nat), count ≠ 0 → len ≠ 0 →
      (x.startLoop count len).pc = x.pc + 1 ∧
        (x.startLoop count len).loops = ⟨x.pc + 1, x.pc + 1 + len, count⟩ :: x.loops) ∧
    (∀ (x : Seq) (f : LoopFrame) (fs : List LoopFrame), x.loops = f :: fs →
      (x.pc + 1 = f.stop → 1 < f.left →
        x.advance = { x with pc := f.start, loops := { f with left := f.left - 1 } :: fs }) ∧
      (x.pc + 1 = f.stop → f.left ≤ 1 → x.advance = { x with loops := fs }.goto f.stop) ∧
      (x.pc + 1 ≠ f.stop → x.advance = { x with pc := x.pc + 1 })) ∧
    (∀ (x : Seq) (target : Nat), (x.branch target).pc = target ∧
      ∀ f ∈ (x.branch target).loops.head?, f.start ≤ target ∧ target < f.stop))

/-- R138, R139 and R140: WAITL and WAITE go on at once with what they find, else wait; the release answers when the
event has come; the timeout writes 2 only where its time has run out and the event has not come. R138: what a WAITL
finds: 3 for an unbound slot, 4 for a line no longer held, 0 with the tag flags for a slug, 1 with the number of lines
for a spoil marker, and nothing yet for a line not accounted for. -/
def Obligations.WaitsEndInTheirOutcome : Prop :=
  ((∀ (q : SeqId) (w : ZWord) (s : State), goes q w (isOp 0 0x0C) s →
      let o := opOf w
      let slot := o.sub % 16
      let line := (sequencer s q).pair48 o.sa
      (∀ r, waitlOutcome s q.chase.val slot line = some r → exec (.waitl q w) s =
        .next (afterWaitl q slot line r.1 (modSeq s q (fun y => y.waitDone o.sd o.pdst r.1 r.2 true)))) ∧
      (waitlOutcome s q.chase.val slot line = none →
        ∃ t, exec (.waitl q w) s = .next t ∧
          seqChanges q (fun y => { y with wait := .waitl slot line o.sd o.pdst (expiryOf s o.imm0) }) s t)) ∧
    (∀ (q : SeqId) (w : ZWord) (s : State), goes q w (isOp 0 0x0D) s →
      let o := opOf w
      let slot := o.sub % 16
      let target := (sequencer s q).pair48 o.sa
      (∀ r, waiteOutcome s q.chase.val slot target = some r →
        ∃ t, exec (.waite q w) s = .next t ∧ seqChanges q (fun y => y.waitDone o.sd o.pdst r 0 false) s t) ∧
      (waiteOutcome s q.chase.val slot target = none →
        ∃ t, exec (.waite q w) s = .next t ∧
          seqChanges q (fun y => { y with wait := .waite slot target o.sd o.pdst (expiryOf s o.imm0) }) s t)) ∧
    (∀ (q : SeqId) (s : State) (slot line sd pdst : Nat) (e : Option Nat),
      (sequencer s q).wait = .waitl slot line sd pdst e →
      (∀ r, waitlOutcome s q.chase.val slot line = some r →
        let t := afterWaitl q slot line r.1 (modSeq s q (fun y => y.waitDone sd pdst r.1 r.2 true))
        exec (.waitlRelease q) s = .next t ∧ (expired s e = true → exec (.waitlTimeout q) s = .next t)) ∧
      (waitlOutcome s q.chase.val slot line = none → expired s e = true →
        ∃ t, exec (.waitlTimeout q) s = .next t ∧ seqChanges q (fun y => y.waitDone sd pdst 2 0 true) s t)) ∧
    (∀ (q : SeqId) (s : State) (slot target sd pdst : Nat) (e : Option Nat),
      (sequencer s q).wait = .waite slot target sd pdst e →
      (∀ r, waiteOutcome s q.chase.val slot target = some r →
        ∃ t, exec (.waiteRelease q) s = .next t ∧ seqChanges q (fun y => y.waitDone sd pdst r 0 false) s t ∧
          (expired s e = true → exec (.waiteTimeout q) s = .next t)) ∧
      (waiteOutcome s q.chase.val slot target = none → expired s e = true →
        ∃ t, exec (.waiteTimeout q) s = .next t ∧ seqChanges q (fun y => y.waitDone sd pdst 2 0 false) s t))) ∧
  (∀ (s : State) (n slot line : Nat),
      (slotCtx s n slot = none → waitlOutcome s n slot line = some (3, 0)) ∧
      (∀ k, slotCtx s n slot = some k → (s.context k).resetting = false → s.flag .genDraining k = false →
        (lineDiff line (s.context k).oldest < 0 → waitlOutcome s n slot line = some (4, 0)) ∧
        (0 ≤ lineDiff line (s.context k).oldest → (s.context k).slots = [] → waitlOutcome s n slot line = none) ∧
        (∀ g, 0 ≤ lineDiff line (s.context k).oldest → (s.context k).slots = [g] → g.line = line → line < 2 ^ 48 →
          waitlOutcome s n slot line =
            (if bitAt g.flags.toNat 0 then some (1, g.lost) else some (0, g.flags.toNat)))))

/-- R137: SYNC on units goes on where they are idle and waits where one is not; at a barrier it waits; a release lets
go every sequencer at that barrier whose own mask has arrived, and no other. R141, R182 and R196: HALT stops its
sequencer; the line sequencer's makes a RUNNING chase HALTED and its items orphans. R134: TRAP raises cause 0x0E. -/
def Obligations.SyncHaltAndTrapComplete : Prop :=
  ((∀ (q : SeqId) (w : ZWord) (s : State), goes q w (isOp 0 0x0A) s →
      let o := opOf w
      ∃ t, exec (.sync q w) s = .next t ∧
        (o.sub % 4 = 0 → unitsIdle s q o.imm0 = true → seqChanges q Seq.advance s t) ∧
        (o.sub % 4 = 0 → unitsIdle s q o.imm0 = false →
          seqChanges q (fun x => { x with wait := .units (o.imm0 % 128) }) s t) ∧
        (o.sub % 4 ≠ 0 →
          seqChanges q (fun x => { x with wait := .barrier (o.imm0 % 16) o.imm1 (o.sub % 4 == 2) s.clk }) s t)) ∧
    (∀ (n : ChaseNo) (b : Fin 16) (s : State), s.get .chState n.val = 3 →
      ∃ t, exec (.barrierRelease n b) s = .next t ∧
        (∀ r : SeqId, r.chase = n → sequencer t r =
          (if (sequencer s r).atBarrier b.val && barrierComplete (s.chase n.val) b.val (sequencer s r)
            then { sequencer s r with wait := .none }.advance else sequencer s r)) ∧
        (∀ r : SeqId, r.chase ≠ n → sequencer t r = sequencer s r) ∧ { t with chases := s.chases } = s)) ∧
  (∀ (q : SeqId) (w : ZWord) (s : State),
      (goes q w (isOp 0 0x0E) s → s.get .chState q.chase.val = 3 →
        ∃ t, exec (.halt q w) s = .next t ∧ sequencer t q = { sequencer s q with run := .halted } ∧
          (∀ r, r ≠ q → sequencer t r = sequencer s r) ∧
          t.get .chState q.chase.val = (if q.core.isNone then 4 else 3) ∧ keepsRegs [.chState] s t ∧
          (q.core.isNone = true → ∀ e ∈ (t.chase q.chase.val).openItems, e.2.orphan = true)) ∧
      (gateOf s q (opOf w) (isOp 0 0x0F (opOf w)) = .trap 0x0E →
        exec (.trap q w) s = .next (raiseTrap s q (opOf w) (sequencer s q).pc 0x0E)))

/-! ### Zarson: classes M, T and P -/

/-- R32 to R34 and R70: every element written to a tensor in plain layout reads back as the code written, in every
format. -/
def Obligations.PlainTensorReadsBack : Prop :=
  ∀ (s : State) (q : SeqId) (v : DWord) (code : Nat → Nat → Nat → Nat) (h w : Nat),
    let d := descOf v
    memoriesCanonical s → d.space < 4 → (fmtOf d.code).isSome = true → d.layout = 3 → d.ring = 0 → strideBad d = false →
      h < d.h → w < d.w → code h w 0 < 2 ^ d.fmt.bits → (s.chase q.chase.val).busy = [] →
      (srcOf (writeTensor s q d 0 code).1 q d).elem h w 0 = code h w 0

/-- R142 and R145: ZPACK and the instructions of class T hand their work to the units they name and go on; they change
the bytes of dd's descriptor, the chase's numeric status, the count of run-zero losses and what reads of core SRAM count
(R78), and nothing else of memory or the registers. -/
def Obligations.TensorInstructionsComplete : Prop :=
  ∀ (q : SeqId) (w : ZWord) (s : State), memoriesCanonical s →
    ∀ r ∈ ([(.zpack, 1, 4), (.conv, 2, 1), (.dwconv, 2, 2), (.gemm, 2, 3), (.poolmax, 2, 4), (.poolavg, 2, 5),
        (.add, 2, 6), (.mul, 2, 7), (.act, 2, 8), (.quant, 2, 9), (.deq, 2, 0xA), (.rot, 2, 0xB)] :
        List ((SeqId → ZWord → Instr) × Nat × Nat)), goes q w (isOp r.2.1 r.2.2) s →
    ∃ t, exec (r.1 q w) s = .next t ∧ sequencer t q = (sequencer s q).advance ∧
      (∀ q', q' ≠ q → sequencer t q' = sequencer s q') ∧
      (∀ u ∈ unitsOf s q (opOf w), unitBusy t q.chase.val u = true) ∧
      ((s.chase q.chase.val).busy = [] → keepsBytes ((tensor s q (opOf w).dd).spans s q) s t) ∧
      keepsRegs (readRegs ++ [.numSat, .numNan, .numBad, .nfSat, .nfNan, .nfBad, .nfInf, .zovf]) s t ∧
      t.istore = s.istore ∧ t.host = s.host ∧ t.ctxs = s.ctxs ∧ t.mboxes = s.mboxes ∧ t.log = s.log

/-- R142 to R144: LD.T, ST.T and COPY2D, once their regulated transfers may run (R194), go on having changed only the
bytes of dd's descriptor; LD.T from a galley writes the OR of the tag flags and its predicate (R143). R93: a COPY2D
leaves its destination as if its whole source had been read before any byte was written, whether or not the two
rectangles overlap. -/
def Obligations.TransfersComplete : Prop :=
  (∀ (q : SeqId) (w : ZWord) (s : State),
      let o := opOf w
      let d := tensor s q o.dd
      let a := tensor s q o.da
      let n := q.chase.val
      memoriesCanonical s →
      (goes q w (isOp 1 0x01) s → a.space ≠ 5 → flows s q [a] →
        ∃ t, exec (.ldT q w) s = .next t ∧ sequencer t q = (sequencer s q).advance ∧
          ((s.chase n).busy = [] → keepsBytes (d.spans s q) s t)) ∧
      (∀ k, goes q w (isOp 1 0x01) s → a.space = 5 → slotCtx s n (a.core % 16) = some k →
        (s.context k).resetting = false →
        let fl := flagsOr (s.context k) ((sequencer s q).pair48 o.sa) d.h
        ∃ t, exec (.ldT q w) s = .next t ∧
          sequencer t q = (((sequencer s q).setS o.sd fl).setP o.pdst (bitAt fl 0 || bitAt fl 1 || bitAt fl 4)).advance ∧
          ((s.chase n).busy = [] → keepsBytes (d.spans s q) s t)) ∧
      (goes q w (isOp 1 0x02) s → d.space ≠ 4 → flows s q [d] →
        ∃ t, exec (.stT q w) s = .next t ∧ sequencer t q = (sequencer s q).advance ∧
          ((s.chase n).busy = [] → keepsBytes (d.spans s q) s t)) ∧
      (goes q w (isOp 1 0x02) s → d.space = 4 →
        ∃ t, exec (.stT q w) s = .next t ∧ sequencer t q = (sequencer s q).advance ∧ keepsBytes [] s t) ∧
      (goes q w (isOp 1 0x03) s → flows s q [a, d] →
        ∃ t, exec (.copy2d q w) s = .next t ∧ sequencer t q = (sequencer s q).advance ∧
          t.get .ceBusy (copyEngine s q o) = 1 ∧ t.get .ceChase (copyEngine s q o) = n ∧
          ((s.chase n).busy = [] → keepsBytes (d.spans s q) s t))) ∧
  (∀ (q : SeqId) (w : ZWord) (s : State),
      let o := opOf w
      let d := tensor s q o.dd
      let a := tensor s q o.da
      memoriesCanonical s → goes q w (isOp 1 0x03) s → flows s q [a, d] → (s.chase q.chase.val).busy = [] →
        d.ring = 0 → a.ring = 0 →
        ∃ t, exec (.copy2d q w) s = .next t ∧ ∀ i, i < a.h → ∀ j, j < a.rowBytes →
          memRead (t.memOf (spaceBase s q d).1) ((spaceBase s q d).2 + d.base + d.row i 0 + j) =
            memRead (s.memOf (spaceBase s q a).1) ((spaceBase s q a).2 + a.base + a.row i 0 + j))

/-- R130, R117 and R121: a completion frees the unit it names; the status of a copy engine whose copy was no furniture
shows OK and no copy; memory does not change. R191 and R194: a loose section that ends after its tail is counted; a grant
that its bucket covers, with no lower chase waiting that its own bucket covers, takes its bytes and lets its transfer go.
-/
def Obligations.UnitsAndGrantsAreReleased : Prop :=
  (∀ (q : SeqId) (u : UnitId) (s : State), unitBusy s q.chase.val (unitPlace s q u, u) = true →
      ∃ t, exec (.unitCompletion q u) s = .next t ∧
        (t.chase q.chase.val).busy =
          (s.chase q.chase.val).busy.filter (fun b => !(b.place == unitPlace s q u && b.unit == u)) ∧
        (∀ e, u = .copy e →
          (∃ b ∈ (s.chase q.chase.val).busy, b.place = unitPlace s q u ∧ b.unit = u ∧ b.furniture = false) →
          t.get .ceBusy (2 * unitPlace s q u + e.val) = 0 ∧ t.get .ceCode (2 * unitPlace s q u + e.val) = 0) ∧
        keepsRegs [.ceBusy, .ceCode] s t ∧ keepsBytes [] s t ∧ t.host = s.host) ∧
  (∀ (s : State) (n : ChaseNo) (res : Fin 3),
      (s.get .chState n.val = chRunning → exec (.looseSectionEnd n true) s = .next (s.bump .looseOverrun n.val)) ∧
      exec (.looseSectionEnd n false) s = .next s ∧
      (grantReady s n.val res.val = true →
        let want := (s.chase n.val).bwWait.get 0 res.val
        ∃ t, exec (.bucketGrant n res) s = .next t ∧ (t.chase n.val).bwCred.get 0 res.val = want ∧
          (t.chase n.val).bwWait.get 0 res.val = 0 ∧
          (t.chase n.val).buckets.get bucketDepth res.val + want * 65536 = (s.chase n.val).buckets.get bucketDepth res.val ∧
          (∀ m, m ≠ n.val → t.chase m = s.chase m) ∧ { t with chases := s.chases } = s))

/-- R98 to R106, R154 and R156: BOXDEC, NMS, TOPK, GATE and COMBINE go on having changed only the bytes of dd's
descriptor; NMS writes the number of boxes it kept, at most its limit, to sd. Results are cut to dd's extent (log
entry 12). -/
def Obligations.PostProcessingCompletes : Prop :=
  ∀ (q : SeqId) (w : ZWord) (s : State),
    let o := opOf w
    let frame := fun (t : State) => (∀ q', q' ≠ q → sequencer t q' = sequencer s q') ∧
      ((s.chase q.chase.val).busy = [] → keepsBytes ((tensor s q o.dd).spans s q) s t) ∧
      keepsRegs (readRegs ++ [.numSat, .numNan, .numBad, .nfSat, .nfNan, .nfBad, .nfInf, .ppCandOvf, .ppNanScore,
        .ppOutOvf]) s t ∧
      t.host = s.host ∧ t.ctxs = s.ctxs
    memoriesCanonical s →
    (goes q w (isOp 3 0x01) s →
      ∃ t, exec (.boxdec q w) s = .next t ∧ sequencer t q = (sequencer s q).advance ∧ frame t) ∧
    (goes q w (isOp 3 0x02) s →
      ∃ t n, exec (.nms q w) s = .next t ∧ n ≤ bitsAt o.imm0 16 8 + 1 ∧
        sequencer t q = ((sequencer s q).setS o.sd n).advance ∧ frame t) ∧
    (goes q w (isOp 3 0x04) s →
      ∃ t, exec (.topk q w) s = .next t ∧ sequencer t q = (sequencer s q).advance ∧ frame t) ∧
    (goes q w (isOp 4 0x01) s →
      ∃ t, exec (.gate q w) s = .next t ∧ sequencer t q = (sequencer s q).advance ∧ frame t) ∧
    (goes q w (isOp 4 0x04) s →
      ∃ t, exec (.combine q w) s = .next t ∧ sequencer t q = (sequencer s q).advance ∧ frame t)

/-- R101: NMS sorts its buffer by the ranking of R100 and keeps candidates greedily: a candidate is kept exactly when
no box kept before it suppresses it. A kept box suppresses a candidate when 256 × I > T × U, with I the area of the
intersection, U = area(a) + area(b) − I and negative widths and heights taken as zero; in per-class mode only between
boxes of equal class. Two zero-area boxes never suppress each other. Which buffer records are candidates is log entry
12. -/
def Obligations.NmsKeepsWhatNothingSuppresses : Prop :=
  (∀ l : List Box, (l.foldr rankInsert []).Perm l ∧
    ((∀ b ∈ l, f32 b.score ≠ .nan) → (l.foldr rankInsert []).Pairwise (fun a b =>
      (f32 a.score).lt (f32 b.score) = false ∧ ((f32 b.score).lt (f32 a.score) = true ∨ a.index ≤ b.index)))) ∧
  (∀ (t : Nat) (agnostic : Bool) (l : List Box) (b : Box),
    keepBoxes t agnostic [] [] = [] ∧
      keepBoxes t agnostic (l ++ [b]) [] = keepBoxes t agnostic l [] ++
        (if (keepBoxes t agnostic l []).any (fun a => suppresses t agnostic a b) then [] else [b]) ∧
      (keepBoxes t agnostic l []).Pairwise (fun a b => suppresses t agnostic a b = false)) ∧
  (∀ (t : Nat) (agnostic : Bool) (a b : Box),
    let area := fun (x0 x1 y0 y1 : Int) => max 0 (x1 - x0) * max 0 (y1 - y0)
    let i := area (max a.x0 b.x0) (min a.x1 b.x1) (max a.y0 b.y0) (min a.y1 b.y1)
    let u := area a.x0 a.x1 a.y0 a.y1 + area b.x0 b.x1 b.y0 b.y1 - i
    (suppresses t agnostic a b = true ↔ (agnostic = true ∨ a.cls = b.cls) ∧ (t : Int) * u < 256 * i) ∧
      (area a.x0 a.x1 a.y0 a.y1 = 0 → area b.x0 b.x1 b.y0 b.y1 = 0 → suppresses t agnostic a b = false)) ∧
  (∀ (q : SeqId) (w : ZWord) (s : State),
    let o := opOf w
    let d := tensor s q o.dd
    let m := spaceBase s q d
    let ranked := (bufferBoxes (srcOf s q (tensor s q o.da))).foldr rankInsert []
    let out := (keepBoxes (o.imm0 % 256) (bitAt o.imm0 8) ranked []).take (bitsAt o.imm0 16 8 + 1)
    memoriesCanonical s → goes q w (isOp 3 0x02) s → (s.chase q.chase.val).busy = [] → 32 * out.length ≤ d.extent →
      ∃ t, exec (.nms q w) s = .next t ∧ sequencer t q = ((sequencer s q).setS o.sd out.length).advance ∧
        memBytes (t.memOf m.1) (m.2 + d.base) (32 * out.length) = out.flatMap Box.bytes)

/-- R103 to R105 and R152: DIMS open takes a free item-state slot of its cluster's unit with a fresh state, or is refused,
counted and its item flagged; accumulate adds the lines of its band to the open state; close frees the slot and writes the
32-byte record; accumulate and close of a handle with no open state write the empty record with the refused flag. R103: a
sample counts where it is not 0, exceeds the reference and does so by the threshold; it moves the count, the extents, the
largest value and one bin of the histogram, and any other sample changes nothing. What an open of an open handle does is
log entry 94; a record is cut to dd's extent (log entry 12). -/
def Obligations.DimsKeepsItemStates : Prop :=
  (∀ (q : SeqId) (w : ZWord) (s : State),
    let o := opOf w
    let n := q.chase.val
    let c := s.chase n
    let cl := ownCluster s q
    let h := (sequencer s q).s o.sa
    let rest := dimsRest c cl h
    let at0 := (spaceBase s q (tensor s q o.dd)).2 + (tensor s q o.dd).base
    memoriesCanonical s →
    (goes q w (isDims 0) s → (rest.filter (fun d => d.cluster == cl)).length < c.dimsSlots.get 0 cl →
      ∃ t, exec (.dimsOpen q w) s = .next t ∧ sequencer t q = (sequencer s q).advance ∧
        (t.chase n).dims = dimsStart (srcOf s q (tensor s q o.db)) cl h :: rest ∧ keepsRegs readRegs s t ∧
        keepsBytes [] s t) ∧
    (goes q w (isDims 0) s → c.dimsSlots.get 0 cl ≤ (rest.filter (fun d => d.cluster == cl)).length →
      ∃ t, exec (.dimsOpen q w) s = .next t ∧ sequencer t q = (sequencer s q).advance ∧
        (t.chase n).dims = c.dims ∧ (∀ it, c.item h = some it → (t.chase n).item h = some { it with refused := true }) ∧
        t.get .ppDimsRefused cl = min (s.get .ppDimsRefused cl + 1) 0xFFFFFFFF ∧
        keepsRegs (.ppDimsRefused :: readRegs) s t ∧ keepsBytes [] s t) ∧
    (∀ d, goes q w (isDims 1) s → dimsOf c cl h = some d →
      ∃ t, exec (.dimsAccumulate q w) s = .next t ∧ sequencer t q = (sequencer s q).advance ∧
        (t.chase n).dims = dimsBand d (srcOf s q (tensor s q o.da)) (srcOf s q (tensor s q o.dc)) :: rest ∧
        keepsRegs readRegs s t ∧ keepsBytes [] s t) ∧
    (goes q w (isDims 1) s → dimsOf c cl h = none → descTrap s q (sequencer s q) o 0 ⟨o.dd, [0], false⟩ = none →
      32 ≤ (tensor s q o.dd).extent →
      ∃ t, exec (.dimsAccumulate q w) s = .next t ∧ sequencer t q = (sequencer s q).advance ∧
        (t.chase n).dims = c.dims ∧ memBytes t.sram at0 32 = dimsRefused ∧ keepsRegs readRegs s t ∧
        keepsBytes [(0, at0, at0 + 32)] s t) ∧
    (goes q w (isDims 2) s → c.busy = [] → 32 ≤ (tensor s q o.dd).extent →
      ∃ t, exec (.dimsClose q w) s = .next t ∧ sequencer t q = (sequencer s q).advance ∧
        (t.chase n).dims = (if (dimsOf c cl h).isSome then rest else c.dims) ∧
        memBytes t.sram at0 32 = (match dimsOf c cl h with
          | some d => (dimsResult d).val
          | none => dimsRefused) ∧
        keepsRegs [.numSat, .numNan, .numBad, .nfSat, .nfNan, .nfBad, .nfInf] s t ∧
        keepsBytes [(0, at0, at0 + 32)] s t)) ∧
  (∀ (x : Src) (cl h : Nat), let d := dimsStart x cl h
    d.cluster = cl ∧ d.handle = h ∧ d.n = 0 ∧ d.hMax = 0 ∧ d.nextLine = 0 ∧ (∀ b, d.hist.get 0 b = 0) ∧
      d.hT = x.le x.d.base 2 ∧ d.p = x.le (x.d.base + 2) 2 ∧ d.hs = x.le (x.d.base + 4) 1) ∧
  (∀ (d : Dims) (line col v ref : Nat),
    let e := dimsSample d line col v ref
    (v = 0 ∨ v ≤ ref ∨ v - ref < d.hT → e = d) ∧
      (v ≠ 0 → ref < v → d.hT ≤ v - ref →
        let bin := min ((v - ref) / 2 ^ d.hs) 4095
        e.n = d.n + 1 ∧ e.hMax = max d.hMax (v - ref) ∧ e.hist.get 0 bin = d.hist.get 0 bin + 1 ∧
          (∀ b, b ≠ bin → e.hist.get 0 b = d.hist.get 0 b) ∧
          (d.n = 0 → e.firstLine = line ∧ e.lastLine = line ∧ e.firstCol = col ∧ e.lastCol = col) ∧
          (d.n ≠ 0 → e.firstLine = min d.firstLine line ∧ e.lastLine = max d.lastLine line ∧
            e.firstCol = min d.firstCol col ∧ e.lastCol = max d.lastCol col)))

/-! ### Zarson: classes X, V and K -/

/-- R153, R155, R291 and R293: SORT.SEND answers BUSY for a handle that is not open and ISOLATED for a context being
reset (log entry 20), else sends the sorts of its gate output; a reply frees its inbound slot, or is counted as
refused; SORT.RECV goes on when every entry has been answered, takes the oldest inbound sort, or waits. R155, R140 and
R293: a waiting SORT.RECV goes on when its last reply has come, or with what it has when its time runs out; one that
waits for an inbound sort goes on when one has come, or when its time runs out, with two free values (log entry 8). R155: the result of SORT.RECV: s[sd] holds the missing mask,
p[pdst] is set when it is 0, the item of an incomplete set takes the fallback flag, its sorts are gone, and the
sequencer goes on. -/
def Obligations.SortInstructionsComplete : Prop :=
  (∀ (q : SeqId) (w : ZWord) (s : State),
      let o := opOf w
      let x := sequencer s q
      let n := q.chase.val
      let c := s.chase n
      let h := x.s o.sa
      let send := fun o => isOp 4 0x02 o && !bitAt o.sub 0
      let back := fun o => isOp 4 0x02 o && bitAt o.sub 0
      let recv := fun o => isOp 4 0x03 o && !bitAt o.sub 0
      let inb := fun o => isOp 4 0x03 o && bitAt o.sub 0
      let src := srcOf s q (tensor s q o.da)
      let gate := srcOf s q (tensor s q o.db)
      let s0 := readX s q [src, gate]
      (goes q w send s → (256 ≤ h ∨ c.item h = none) → exec (.sortSend q w) s =
        .next (retire q (modSeq s0 q (fun y => y.setS o.sd cBusy)))) ∧
      (∀ it, goes q w send s → h < 256 → c.item h = some it →
        exec (.sortSend q w) s = (if (s.context it.ctx).resetting
          then .next (retire q (modSeq s0 q (fun y => y.setS o.sd cIsolated)))
          else
            let r := sendSorts n h it (tensor s q o.da) (plainBytes src) (readGate gate)
              (cOk, s0.setChase n { s0.chase n with lastSend := (s0.chase n).lastSend.set h s.clk })
            .next (retire q (modSeq r.2 q (fun y => y.setS o.sd r.1))))) ∧
      (goes q w back s →
        let r := replyTo (readX s q [src]) n h (plainBytes src)
        exec (.sortSendReply q w) s = .next (retire q (modSeq r.2 q (fun y => y.setS o.sd r.1)))) ∧
      (goes q w recv s → collected c h = true →
        exec (.sortRecv q w) s = .next (finishRecv s q h o.dd o.sd o.pdst)) ∧
      (goes q w recv s → collected c h = false →
        ∃ t, exec (.sortRecv q w) s = .next t ∧ seqChanges q (fun y =>
          { y with wait := .sortRecv h o.dd o.sd o.pdst (recvExpiry s n h o.imm0) }) s t) ∧
      (goes q w inb s → ∀ t, takeInbound s q o.dd o.sd = some t → exec (.sortRecvInbound q w) s = .next t) ∧
      (goes q w inb s → takeInbound s q o.dd o.sd = none →
        ∃ t, exec (.sortRecvInbound q w) s = .next t ∧ seqChanges q (fun y =>
          { y with wait := .inbound o.dd o.sd o.pdst (expiryOf s o.imm0) }) s t)) ∧
  (∀ (q : SeqId) (s : State) (h dd sd pdst : Nat) (e : Option Nat),
      ((sequencer s q).wait = .sortRecv h dd sd pdst e →
        (collected (s.chase q.chase.val) h = true →
          exec (.sortRecvRelease q) s = .next (finishRecv s q h dd sd pdst)) ∧
        (expired s e = true → exec (.sortRecvTimeout q) s = .next (finishRecv s q h dd sd pdst))) ∧
      ((sequencer s q).wait = .inbound dd sd pdst e →
        (∀ t, takeInbound s q dd sd = some t →
          exec (.sortRecvRelease q) s = .next t ∧ (expired s e = true → exec (.sortRecvTimeout q) s = .next t)) ∧
        (takeInbound s q dd sd = none → expired s e = true →
          ∃ t a b, exec (.sortRecvTimeout q) s = .next t ∧ keepsRegs [] s t ∧ keepsBytes [] s t ∧
            sequencer t q = { (((sequencer s q).setS sd a).setS (sd + 1) b) with wait := .none }.advance))) ∧
  (∀ (s : State) (q : SeqId) (h dd sd pdst : Nat),
      let t := finishRecv s q h dd sd pdst
      let mask := missingMask (sortsOf (s.chase q.chase.val) h)
      sequencer t q = { ((sequencer s q).setS sd mask).setP pdst (mask == 0) with wait := .none }.advance ∧
        sortsOf (t.chase q.chase.val) h = [] ∧
        (∀ it, (s.chase q.chase.val).item h = some it → mask ≠ 0 →
          (t.chase q.chase.val).item h = some { it with fallback := true }) ∧
        (mask = 0 → (t.chase q.chase.val).items = (s.chase q.chase.val).items) ∧
        (memoriesCanonical s → (s.chase q.chase.val).busy = [] → (tensor s q dd).space < 4 → keepsBytes ((tensor s q dd).spans s q) s t))

/-- R154: a gate output has k entries: logits that are not NaN, as many as there are up to k, each under its own index
and none better left out; every further entry is unused, with weight 0. R65 and R156: the terms of a combination are
the gate entries that name an expert, in proof mode in ascending expert index whatever order the replies came in. -/
def Obligations.GateChoosesTheBestLogits : Prop :=
  (∀ (k : Nat) (l : List Val),
      (gateEntries k l).1.length = k ∧
        (∀ e ∈ topLogits k l, ∃ h : e.1 < l.length, l[e.1] = e.2 ∧ e.2 ≠ .nan) ∧
        (topLogits k l).length = min k (l.filter (fun v => v != .nan)).length ∧
        ((∀ b n d, Val.fin b n d ∈ l → 0 < d) → ∀ e ∈ topLogits k l, ∀ i v, l[i]? = some v → v ≠ .nan →
          (i, v) ∉ topLogits k l → logitBefore (i, v) e = false) ∧
        (∀ e ∈ (gateEntries k l).1, (e = (0xFFFFFFFF, 0)) ∨ ∃ v, (e.1, v) ∈ topLogits k l)) ∧
  (∀ (gate : List (Nat × Nat × Nat)) (arrived : List Nat),
      (termOrder true gate arrived).Perm (gate.filter (fun e => e.2.1 != 0xFFFFFFFF)) ∧
        (termOrder true gate arrived).Pairwise (fun a b => a.2.1 ≤ b.2.1) ∧
        termOrder true gate arrived = termOrder true gate [] ∧
        (∀ e ∈ termOrder false gate arrived, e ∈ gate ∧ e.2.1 ≠ 0xFFFFFFFF))

/-- R158 and R159: VERDICT OPEN writes the handle it opened, or all ones with its predicate clear; DECIDE tells by its
predicate whether its verdict went out with its fire command. What an unbound slot and an ignored DECIDE answer is log
entry 14. -/
def Obligations.VerdictInstructionsComplete : Prop :=
  ∀ (q : SeqId) (w : ZWord) (s : State),
    let o := opOf w
    let x := sequencer s q
    let n := q.chase.val
    (∀ k, goes q w (fun o => isOp 5 0x01 o && !bitAt o.sub 5) s → slotCtx s n (o.sub % 16) = some k →
      let r := openItem s n k (o.sub % 16) (x.pair48 o.sa) (x.pair48 (o.sa + 2))
      exec (.verdictOpen q w) s = .next (retire q (modSeq r.2 q (fun y =>
        (y.setS o.sd (r.1.getD 0xFFFFFFFF)).setP o.pdst r.1.isSome)))) ∧
    (goes q w (fun o => isOp 5 0x01 o && !bitAt o.sub 5) s → slotCtx s n (o.sub % 16) = none →
      ∃ t, exec (.verdictOpen q w) s = .next t ∧
        seqChanges q (fun y => ((y.setS o.sd 0xFFFFFFFF).setP o.pdst false).advance) s t) ∧
    (goes q w (fun o => isOp 5 0x01 o && bitAt o.sub 5) s →
      let r := decideItem s n (x.s o.sa) x.inExit
        ⟨o.imm0 % 65536, bitsAt o.imm0 16 8, o.imm1 % 65536, o.imm1 / 65536⟩
      exec (.verdictDecide q w) s = .next (retire q (modSeq r.2 q (fun y => y.setP o.pdst r.1))))

/-- R158 and R197: an item opens on the lowest free handle, with the valid byte of its exit record cleared; with 256
items open none is opened, and the refused item's one verdict goes out at once. R159, R160 and R357: every verdict
takes the next sequence number of its context and is counted on its path; with a width of 0 it fires nothing, with another
its one fire command, with the channels that are outputs of its context, joins the queue of its context's encoder or is
refused there, and no other queue changes. R159: an item is decided once: after a DECIDE that issued
its verdict its handle is free, so a second DECIDE issues none and is counted as refused. -/
def Obligations.VerdictsAreNumberedAndFinal : Prop :=
  (∀ (s : State) (n k slot line fire : Nat),
      (∀ h, (openItem s n k slot line fire).1 = some h →
        h < 256 ∧ (s.chase n).item h = none ∧ (∀ g, g < h → (s.chase n).item g ≠ none)) ∧
      ((openItem s n k slot line fire).1 = none ↔ ∀ h, h < 256 → (s.chase n).item h ≠ none) ∧
      ((openItem s n k slot line fire).1 = none →
        (openItem s n k slot line fire).2.get .noreadCount n = min (s.get .noreadCount n + 1) 0xFFFFFFFF)) ∧
  (∀ (s : State) (n : Nat) (it : Item) (path : Nat) (d : Decision) (unbound : Bool), path < 3 →
      let t := (issueVerdict s n it path d unbound).2
      (t.context it.ctx).verdictSeq = ((s.context it.ctx).verdictSeq + 1) % 2 ^ 32 ∧
        t.get (pathCounter path) n = min (s.get (pathCounter path) n + 1) 0xFFFFFFFF ∧
        (d.width = 0 → ∀ e, t.fq e = s.fq e) ∧
        (∀ e, e ≠ s.get .ctxEncoder it.ctx → t.fq e = s.fq e) ∧
        (let e := s.get .ctxEncoder it.ctx
         t.fq e = s.fq e ∨ t.fq e = s.fq e ++ [fireCmd it.firePos (filterChannels s it.ctx d.channels) d.width it.ctx path
           (s.context it.ctx).verdictSeq]) ∧
        t.chases = s.chases) ∧
  (∀ (s : State) (n h : Nat) (early : Bool) (d d' : Decision) (it : Item),
      h < 256 → (s.chase n).item h = some it → (it.handed = false ∨ s.clk ≤ it.handedAt ∨ early = true) →
      let t := (decideItem s n h early d).2
      (t.chase n).item h = none ∧ (t.context it.ctx).verdictSeq = ((s.context it.ctx).verdictSeq + 1) % 2 ^ 32 ∧
        decideItem t n h early d' = (false, t.bump .seqRefused n))

/-- R159, R195, R197 and R199: an open item whose deadline the live position has reached is handed over, and no other; in a
later cycle a handed item is decided from its exit record where that is valid, or by the no-read action where it is not
and the live position has reached its exit limit; a decided item's handle is free, its verdict numbered, and no other item
changes. -/
def Obligations.DeadlinesAreMonitored : Prop :=
  ∀ (s : State) (n : ChaseNo) (h : BitVec 8) (it : Item),
    let k := n.val
    let i := h.toNat
    let found := exitRecord s k i it
    (s.chase k).item i = some it →
      (it.handed = false → pastDeadline s it = true → ∃ t, exec (.deadlineReached n h) s = .next t ∧
        (t.chase k).item i = some { it with handed := true, handedAt := s.clk } ∧ { t with chases := s.chases } = s ∧
        ∀ j, j ≠ i → (t.chase k).item j = (s.chase k).item j) ∧
      ((it.handed = true ∨ pastDeadline s it = false) → exec (.deadlineReached n h) s = .next s) ∧
      (∀ d, it.handed = true → it.handedAt < s.clk → found = some d →
        exec (.exitRecordValid n h) s = .next (monitorDecide s k i it 1 d false)) ∧
      (it.handed = true → it.handedAt < s.clk → found = none → pastExitLimit s it = true →
        exec (.exitLimitReached n h) s = .next (monitorDecide s k i it 2 (noRead s it.ctx) false)) ∧
      (∀ path d u, let t := monitorDecide s k i it path d u
        (t.chase k).item i = none ∧ (t.context it.ctx).verdictSeq = ((s.context it.ctx).verdictSeq + 1) % 2 ^ 32 ∧
          ∀ j, j ≠ i → (t.chase k).item j = (s.chase k).item j)

/-- R157, R161 and R311: FIRE pushes a command and TRIG arms a one-shot where the context, the channels, the width and
a free one-shot are there, else the refusal is counted; TSTAMP writes device time and live position. That a FIRE of
width 0 is refused is log entry 78, that the position of an unbound slot is 0 is log entry 14. -/
def Obligations.FireTrigAndTstampComplete : Prop :=
  ∀ (q : SeqId) (w : ZWord) (s : State),
    let o := opOf w
    let x := sequencer s q
    let n := q.chase.val
    (∀ k, goes q w (isOp 5 0x02) s → slotCtx s n (o.sub % 16) = some k →
      let chans := filterChannels s k (o.imm1 % 65536)
      let r := pushFire s (fireCmd (x.pair48 o.sa) chans (o.imm1 / 65536) k 3 0)
      exec (.fire q w) s = (if chans = 0 ∨ o.imm1 / 65536 = 0
        then .next (retire q (modSeq (s.bump .seqRefused n) q (fun y => y.setP o.pdst false)))
        else .next (retire q (modSeq r.2 q (fun y => y.setP o.pdst (r.1 == .accepted)))))) ∧
    (goes q w (isOp 5 0x02) s → slotCtx s n (o.sub % 16) = none →
      exec (.fire q w) s = .next (retire q (modSeq (s.bump .seqRefused n) q (fun y => y.setP o.pdst false)))) ∧
    (goes q w (isOp 5 0x03) s → slotCtx s n (o.sub % 16) = none →
      exec (.trig q w) s = .next (retire q (modSeq (s.bump .seqRefused n) q (fun y => y.setP o.pdst false)))) ∧
    (goes q w (isOp 5 0x04) s → slotCtx s n (o.sub % 16) = none →
      ∃ t, exec (.tstamp q w) s = .next t ∧
        seqChanges q (fun y => ((y.setPair o.sd s.now).setSigned (o.sd + 2) 0).advance) s t) ∧
    (∀ k i, goes q w (isOp 5 0x03) s → slotCtx s n (o.sub % 16) = some k → supplies s (o.imm0 % 16) = false →
      (List.range 4).find? (fun i => ((s.context k).oneshots.get none i).isNone) = some i →
      exec (.trig q w) s = .next (retire q (modSeq (s.setCtx k { s.context k with
        oneshots := (s.context k).oneshots.set i
          (some ⟨x.pair48 o.sa, o.imm0 % 16, bitsAt o.imm0 8 8⟩) }) q (fun y => y.setP o.pdst true)))) ∧
    (∀ k, goes q w (isOp 5 0x03) s → slotCtx s n (o.sub % 16) = some k →
      (supplies s (o.imm0 % 16) = true ∨ ∀ i, i < 4 → (s.context k).oneshots.get none i ≠ none) →
      exec (.trig q w) s =
        .next (retire q (modSeq (s.bump .seqRefused n) q (fun y => y.setP o.pdst false)))) ∧
    (∀ k, goes q w (isOp 5 0x04) s → slotCtx s n (o.sub % 16) = some k →
      ∃ t, exec (.tstamp q w) s = .next t ∧
        seqChanges q (fun y => ((y.setPair o.sd s.now).setSigned (o.sd + 2) (livePos s k)).advance) s t)

/-- R313 to R315: a push is refused late where its position is not ahead of the live one, even when the queue is full;
dropped and counted where 32 are held; else it lands in the first empty stage of its encoder's queue, behind every
entry held, and closes an open spoil marker. R313: a FIRE whose position is not ahead of the live one clears its
predicate and is counted in FQ_LATE_REFUSED, and nothing enters a queue; a DECIDE whose fire command has passed
answers so, with no queue changed. -/
def Obligations.FireQueueAcceptsInOrder : Prop :=
  ((∀ (s : State) (c : FireCmd),
      let e := s.get .ctxEncoder c.context
      let late := countAhead (sext 48 c.position) (s.s48 .encPos e) ≤ 0
      ((pushFire s c).1 = .late ↔ late) ∧
        (late → (pushFire s c).2 = s.bump .fqLateRefused e) ∧
        (¬late → 32 ≤ (s.fq e).length → (pushFire s c).1 = .dropped ∧ (pushFire s c).2.fq e = s.fq e ∧
          (pushFire s c).2.get .fqDropped e = min (s.get .fqDropped e + 1) 0xFFFFFFFF) ∧
        (¬late → (s.fq e).length < 32 → (pushFire s c).1 = .accepted ∧
          (pushFire s c).2.fq e = s.fq e ++ [c] ∧ (pushFire s c).2.flag .fqSpoilOpen e = false))) ∧
  ((∀ (q : SeqId) (w : ZWord) (s : State) (k : Nat),
      let o := opOf w
      let e := s.get .ctxEncoder k
      goes q w (isOp 5 0x02) s → slotCtx s q.chase.val (o.sub % 16) = some k →
        filterChannels s k (o.imm1 % 65536) ≠ 0 → o.imm1 / 65536 ≠ 0 →
        countAhead (sext 48 ((sequencer s q).pair48 o.sa)) (s.s48 .encPos e) ≤ 0 →
        exec (.fire q w) s =
          .next (retire q (modSeq (s.bump .fqLateRefused e) q (fun y => y.setP o.pdst false)))) ∧
    (∀ (s : State) (n h : Nat) (early : Bool) (d : Decision) (it : Item),
      let e := s.get .ctxEncoder it.ctx
      let t := (decideItem s n h early d).2
      h < 256 → (s.chase n).item h = some it → (it.handed = false ∨ s.clk ≤ it.handedAt ∨ early = true) →
        d.width ≠ 0 →
        countAhead (sext 48 it.firePos) (s.s48 .encPos e) ≤ 0 →
        (decideItem s n h early d).1 = false ∧ t.fqs = s.fqs ∧
          t.get .fqLateRefused e = min (s.get .fqLateRefused e + 1) 0xFFFFFFFF ∧
          t.get .fqDropped e = s.get .fqDropped e ∧ t.get .fqSpoilOpen e = s.get .fqSpoilOpen e))

/-- R162 to R164 and R247: PARAM registers its apply and writes the line used, or is refused and counted where its slot is
unbound (log entry 14) or its mesh too large; BWSET sets a rate up to its ceiling, MBX posts
its message, QUOIN performs its sub-function; each writes its result and goes on. -/
def Obligations.ClassKCompletes : Prop :=
  ∀ (q : SeqId) (w : ZWord) (s : State),
    let o := opOf w
    let x := sequencer s q
    let n := q.chase.val
    (goes q w (isOp 6 0x01) s → (slotCtx s n (o.sub % 16) = none ∨
        ∃ k, slotCtx s n (o.sub % 16) = some k ∧ o.imm0 % 4 = 2 ∧ meshTooLarge s k (b2n (bitAt o.imm0 2)) = true) →
      exec (.param q w) s = .next (retire q (modSeq (s.bump .seqRefused n) q (fun y => y.setP o.pdst false)))) ∧
    (∀ k, goes q w (isOp 6 0x01) s → slotCtx s n (o.sub % 16) = some k →
      (o.imm0 % 4 = 2 → meshTooLarge s k (b2n (bitAt o.imm0 2)) = false) →
      let line := x.pair48 o.sa
      exec (.param q w) s = .next (retire q (modSeq (applyBank s k (o.imm0 % 4) (b2n (bitAt o.imm0 2)) line none) q
        (fun y => (y.setPair o.sd (lineUsed s k line)).setP o.pdst (lineUsed s k line == line))))) ∧
    (goes q w (isOp 6 0x02) s →
      let top := ceiling s n (o.imm0 % 4)
      ∃ t, exec (.bwset q w) s = .next t ∧
        sequencer t q = (x.setP o.pdst (decide (o.imm1 ≤ top))).advance ∧
        (t.chase n).rates.get 0 (o.imm0 % 4) = min o.imm1 top ∧
        t.get .seqRefused n = (if top < o.imm1 then min (s.get .seqRefused n + 1) 0xFFFFFFFF else s.get .seqRefused n) ∧
        keepsRegs [.seqRefused] s t) ∧
    (goes q w (isOp 6 0x03) s →
      let r := postMessage s (s.get .chOwner n) (32 + n) (o.imm0 % 32) 64 false
        ((List.range 16).map (fun i => BitVec.ofNat 32 (x.s (o.sa + i)))) none
      exec (.mbx q w) s = .next (retire q (modSeq r.2 q (fun y => (y.setS o.sd r.1).setP o.pdst (r.1 == cOk))))) ∧
    (goes q w (fun o => isOp 6 0x04 o && o.sub % 4 == 0) s →
      let r := quoinAcquire s (o.imm0 % 64) (32 + n)
      exec (.quoinAcquire q w) s = .next (retire q (modSeq r.2 q (fun y =>
        (y.setS o.sd r.1).setP o.pdst (r.1 == cOk || r.1 == cBroken))))) ∧
    (goes q w (fun o => isOp 6 0x04 o && o.sub % 4 == 1) s →
      let r := Machine.quoinRelease s (o.imm0 % 64) (32 + n)
      exec (.quoinRelease q w) s = .next (retire q (modSeq r.2 q (fun y => (y.setS o.sd r.1).setP o.pdst false)))) ∧
    (goes q w (fun o => isOp 6 0x04 o && o.sub % 4 == 2) s →
      let r := quoinClear s (o.imm0 % 64) (32 + n)
      exec (.quoinClear q w) s =
        .next (retire q (modSeq r.2 q (fun y => (y.setS o.sd r.1).setP o.pdst (r.1 == cOk)))))

/-! ### Faults and the ladder -/

/-- R78, R79, R108, R113 and R115: a corrected word is counted and latched; an uncorrectable one, a residue fault and
a signature that disagrees are recorded and enter the ladder; a clean word and a signature that agrees change nothing.
-/
def Obligations.FabricFaultsAreRecorded : Prop :=
  ∀ (s : State) (c : CoreNo) (word : BitVec 19) (istore : Bool) (e : Fin 5),
    exec (.scrubRead c word istore .clean) s = .next s ∧ exec (.signatureTest c e true) s = .next s ∧
      (coreRuns s c.val = true →
        (∃ t, exec (.scrubRead c word istore .corrected) s = .next t ∧
          t.get .sramCe c.val = min (s.get .sramCe c.val + 1) 0xFFFFFFFF ∧
          (s.flag .errValid c.val = false → t.get .errWord c.val = word.toNat ∧ t.get .errUncorr c.val = 0 ∧
            t.get .errByScrub c.val = 1 ∧ t.get .errIstore c.val = b2n istore ∧ t.get .errValid c.val = 1) ∧
          (s.flag .errValid c.val = true → t = s.bump .sramCe c.val) ∧
          keepsRegs [.sramCe, .errWord, .errUncorr, .errByScrub, .errIstore, .errValid] s t) ∧
        exec (.scrubRead c word istore .uncorrectable) s = .next
          (coreFault (latchError (s.bump .sramUe c.val) c.val word.toNat istore true true) c.val causeSram) ∧
        exec (.sramUncorrectableError c word istore) s = .next
          (coreFault (latchError (s.bump .sramUe c.val) c.val word.toNat istore true false) c.val causeSram)) ∧
      (engineRuns s c.val e.val = true →
        exec (.residueFault c e) s = .next (engineFault
          (s.put .engResidue c.val (s.get .engResidue c.val ||| 2 ^ e.val)) c.val e.val causeEngine) ∧
        exec (.signatureTest c e false) s = .next (engineFault
          (s.put .engSignature c.val (s.get .engSignature c.val ||| 2 ^ e.val)) c.val e.val causeEngine))

/-- R109, R201 and R413: the supervisor's fence of an engine whose spare is free records its rung and gives the spare
the engine's slot; the fence of a core enters the ladder with the cause its registers latched; the windows and the
watchdog enter it for their unit. R201: when a failover completes the chase runs again, or is HALTED if its line
sequencer halted meanwhile; its time and failover_seen are kept, and the alternate placement it took is marked used.
-/
def Obligations.FencesAndWindowsEnterTheLadder : Prop :=
  (∀ (s : State) (c : CoreNo) (e : Fin 5) (n : ChaseNo) (k : Ctx),
      let faulty := bitAt (s.get .engResidue c.val ||| s.get .engSignature c.val) e.val
      (engineRuns s c.val e.val = true → curableEngine s c.val e.val = true → s.get .engSpare c.val ≠ noEngine →
        mayClimb s (.engine c.val e.val) rungFence = true → rungCovered s (.engine c.val e.val) rungFence = false →
        exec (.engineFence c e) s = .next (fenceEngine (recordRung s (.engine c.val e.val) rungFence
          (if faulty then causeEngine else causeWindow)) c.val e.val)) ∧
      (coreRuns s c.val = true → exec (.failover c) s = .next (coreFault s c.val
        (if s.flag .errValid c.val && s.flag .errUncorr c.val then causeSram
         else if s.get .engResidue c.val = 0 ∧ s.get .engSignature c.val = 0 then causeWindow else causeEngine))) ∧
      (engineRuns s c.val e.val = true →
        exec (.progressWindowExpiry (.engine c e)) s = .next (engineFault s c.val e.val causeWindow)) ∧
      (chaseChecked s n.val = true →
        exec (.progressWindowExpiry (.chase n)) s = .next (escalate s (.chase n.val) rungChase causeWindow)) ∧
      (contextChecked s k.val = true →
        exec (.progressWindowExpiry (.context k)) s = .next (escalate s (.context k.val) rungContext causeWindow)) ∧
      (barrierStall s n.val = true →
        exec (.progressWindowExpiry (.barrier n)) s = .next (escalate s (.chase n.val) rungChase causeBarrier)) ∧
      (s.power ≠ .off → exec .watchdogExpiry s = .next (escalate s .whole rungWarm causeWatchdog))) ∧
  (∀ (s : State) (n : ChaseNo) (ns : BitVec 16), s.get .chState n.val = chFailover →
      ∃ t, exec (.failoverComplete n ns) s = .next t ∧ t.get .failoverTime n.val = ns.toNat ∧
        t.get .modFailoverSeen 0 = 1 ∧ (t.get .chState n.val = chRunning ∨ t.get .chState n.val = chHalted) ∧
        (∀ pi, pi < 16 → (s.chase n.val).failPlace = some pi →
          t.get .chPlacement n.val = pi ∧ t.get .chAltUsed n.val = 1 ∧ (t.chase n.val).failPlace = none))

/-- R415 and R416: a unit climbs its rung while it has taken it fewer than its retries within the window, and the rung
above after that, unless hold_chase keeps a chase where it is; every rung taken is recorded in SUP_LAST, counted, logged as
event 0x0005 and raises vector 7. R12: an escalation that a wider one or a reset of equal or wider reach covers is logged
as absorbed, and nothing else of the module changes. -/
def Obligations.LadderClimbsByRetries : Prop :=
  (∀ (s : State) (u : LadderUnit) (rung cause : Nat), rung ≠ rungPower → rungCovered s u rung = false →
    mayClimb s u rung = true → escalate s u rung cause = performRung (recordRung s u rung cause) u rung) ∧
  (∀ (s : State) (u : LadderUnit) (rung cause fuel : Nat), rung ≠ rungPower → rungCovered s u rung = false →
    mayClimb s u rung = false → (∀ n, u = .chase n → s.flag .supHoldChase 0 = false) →
    climb (fuel + 1) s u rung cause = climb fuel s (nextRung s u rung).1 (nextRung s u rung).2 cause) ∧
  (∀ (s : State) (u : LadderUnit) (rung cause : Nat), rung ≠ rungPower → rungCovered s u rung = true →
    let t := escalate s u rung cause
    (t.log.head?.map (fun e => (e.code, e.details))) = some (0x0005, [rung, cause, unitNumber u, 2]) ∧
      keepsRegs [.evlogHead, .evlogWrap] s t ∧ t.mgmt = s.mgmt ∧ t.chases = s.chases ∧ t.ctxs = s.ctxs) ∧
  (∀ (s : State) (u : LadderUnit) (rung cause : Nat), rung < 8 → cause < 8 → unitNumber u < 64 →
    let t := recordRung s u rung cause
    t.get .supRung 0 = rung ∧ t.get .supCause 0 = cause ∧ t.get .supUnit 0 = unitNumber u ∧ t.get .supValid 0 = 1 ∧
      t.get .escCount 0 = min (s.get .escCount 0 + 1) 0xFFFFFFFF ∧
      (t.log.head?.map (fun e => e.code)) = some 0x0005 ∧ .msix 0 7 ∈ t.tx ∧
      rungsTaken t u rung = rungsTaken s u rung + 1)

/-! ### Firmware commands, chases and formes -/

/-- R363, R376, R422 and R433: what firmware answers before it looks at a command: STALE_GENERATION with the
generation the sender now holds, CAPABILITY_MISSING in FAILED, VERSION_MISMATCH without a HELLO, BUSY in BRINGUP or a
reset; the message is taken and the command has no other effect. R374: a completion goes to the completion queue of
its mailbox, or is counted as lost when 16 wait there; that of a command-ring entry goes to the event ring while it
runs. -/
def Obligations.FirmwareGateComesFirst : Prop :=
  (∀ (s : State) (r : Req) (always hello : Bool) (run : State → State),
      let u := takeRequest s r
      let gen := BitVec.ofNat 32 (senderGen s r.sender.toNat)
      let greeted := hello = true ∨ s.flag .helloDone (senderFn s r.sender.toNat) = true
      (requestStale s r = true → firmware s r always hello run = answer u r cStaleGen [gen]) ∧
      (requestStale s r = false →
        (s.get .modService 0 = svcFailed → always = false →
          firmware s r always hello run = answer u r cCapability []) ∧
        (s.get .modService 0 ≠ svcFailed → ¬greeted → firmware s r always hello run = answer u r cVersion []) ∧
        (s.get .modService 0 ≠ svcFailed → greeted → (s.get .modService 0 = svcBringup ∨ s.mgmt.hold ≠ .none) →
          always = false → firmware s r always hello run = answer u r cBusy []) ∧
        (greeted → s.get .modService 0 ≠ svcFailed → s.get .modService 0 ≠ svcBringup → s.mgmt.hold = .none →
          firmware s r always hello run = run u))) ∧
  (∀ (s : State) (m fn tag code : Nat) (d : List Word),
      let c : Cpl := ⟨byteOf code, byteOf (s.get .mbxRxGen m), BitVec.ofNat 16 tag, d⟩
      ((s.mbox m).cpls.length < 16 →
        ((complete s m fn tag none code d).mbox m).cpls = (s.mbox m).cpls ++ [c] ∧
          keepsRegs [] s (complete s m fn tag none code d)) ∧
      (16 ≤ (s.mbox m).cpls.length → complete s m fn tag none code d = s.bump .mbxCplLost m) ∧
      (∀ idx, ringRuns s (eventRing fn) = true → complete s m fn tag (some idx) code d =
        stageEvent s fn (completionRecord fn code idx.toNat d)) ∧
      (∀ idx, ringRuns s (eventRing fn) = false →
        complete s m fn tag (some idx) code d = complete s m fn tag none code d))

/-- R179 and R181: CHASE_CREATE on cores of an allowed shape that are free and present makes an EMPTY chase with those
cores, that owner and those ceilings; CHASE_DELETE of an EMPTY or STOPPED chase unbinds its contexts, moves its generation
on and makes it absent. R180, R181, R207, R228 and R309: CONTEXT_BIND binds a
free slot to a context whose configuration the rules accept, arms its compare one pitch ahead and empties its galley;
CONTEXT_UNBIND undoes it and moves the context's generation on. The completion codes of refusals are log entry 27. -/
def Obligations.ChasesAndContextsAreBound : Prop :=
  ((∀ (s : State) (r : Req) (n : ChaseNo) (owner : Fn) (cores : BitVec 32) (g : Regions) (lp ga rh : Word),
      let u := takeRequest s r
      let l := (List.range 32).filter (bitAt cores.toNat)
      served s r false false → senderFn u r.sender.toNat = 0 → u.flag .chPresent n.val = false → shapeOk l = true →
        l.any (coreTaken u) = false → l.all (fun c => u.flag .fpcPresent c) = true →
        ∃ t, exec (.chaseCreate r n owner cores g lp ga rh) s = .next (answer t r cOk []) ∧
          t.get .chPresent n.val = 1 ∧ t.get .chState n.val = 0 ∧ t.get .chOwner n.val = owner.val ∧
          t.get .bwCeilLpddr n.val = lp.toNat ∧ (t.chase n.val).cores = l ∧ (t.chase n.val).regions = g ∧
          (t.chase n.val).forme = none ∧ (∀ m, m ≠ n.val → t.chase m = u.chase m)) ∧
    (∀ (s : State) (r : Req) (n : ChaseNo),
      let u := takeRequest s r
      served s r false false → senderFn u r.sender.toNat = 0 → u.flag .chPresent n.val = true →
        (u.chase n.val).draining = false → (∀ k ∈ boundTo u n.val, (u.context k).resetting = false) →
        (u.get .chState n.val = chEmpty ∨ u.get .chState n.val = chStopped) →
        ∃ t, exec (.chaseDelete r n) s = .next (answer t r cOk []) ∧ t.get .chPresent n.val = 0 ∧
          t.get .genChase n.val = (u.get .genChase n.val + 1) % 256 ∧ t.chase n.val = Chase.reset ∧
          ∀ k ∈ boundTo u n.val, t.get .ctxBound k = 0 ∧ t.get .galEnabled k = 0)) ∧
  ((∀ (s : State) (r : Req) (n : ChaseNo) (slot : Fin 16) (k : Ctx) (p : BindParams),
      let u := takeRequest s r
      served s r false false → mayChase u r n.val = true → 0 < p.pitch → p.pitch ≤ 65535 → p.margin < 2 ^ 31 →
        p.guard < 65536 → (u.get .chOwner n.val = 0 ∨ u.get .chOwner n.val = k.val + 1) →
        u.flag .chPresent n.val = true → u.get .chState n.val ≠ chLoading → (u.chase n.val).draining = false →
        (u.context k.val).resetting = false → u.flag .ctxBound k.val = false → slotCtx u n.val slot.val = none →
        0 < p.guard → p.guard ≤ p.margin → bindRefusal u k.val = none →
        ∃ t, exec (.contextBind r n slot k p) s = .next (answer t r cOk []) ∧ t.get .ctxBound k.val = 1 ∧
          t.get .ctxChase k.val = n.val ∧ t.get .ctxSlot k.val = slot.val ∧ t.get .ctxEncoder k.val = p.encoder.val ∧
          t.get .ctxMargin k.val = p.margin ∧ t.get .ctxGuard k.val = p.guard ∧
          t.get .trigNext k.val = wrapTo 48 (u.s48 .encPos p.encoder.val + p.pitch) ∧ t.get .galEnabled k.val = 1 ∧
          (t.context k.val).slots = [] ∧ (t.context k.val).armed = true ∧
          (∀ j, j ≠ k.val → t.context j = u.context j)) ∧
    (∀ (s : State) (r : Req) (n : ChaseNo) (slot : Fin 16) (k : Nat),
      let u := takeRequest s r
      served s r false false → mayChase u r n.val = true → u.flag .chPresent n.val = true →
        (u.chase n.val).draining = false → (u.get .chState n.val = chStopped ∨ u.get .chState n.val = chEmpty) →
        slotCtx u n.val slot.val = some k → (u.context k).resetting = false →
        ∃ t, exec (.contextUnbind r n slot) s = .next (answer t r cOk []) ∧ t.get .ctxBound k = 0 ∧
          t.get .galEnabled k = 0 ∧ (t.context k).slots = [] ∧ (t.context k).armed = false ∧
          t.get .genCtx k = (u.get .genCtx k + 1) % 256 ∧
          ∀ h, h < 256 → ∀ it, (t.chase n.val).item h = some it → it.ctx ≠ k))

/-- R182 to R188: FORME_LOAD drops the old forme and stages the image, whose checks end in a refusal with the chase
EMPTY or in the forme installed; an accepted patch waits behind those before it for its swap, with no code memory changed;
CHASE_START runs a chase whose digest still agrees; CHASE_STOP leaves every sequencer idle and every open item an orphan.
R188: while an item is begun no patch is swapped in; then every waiting patch is, and each completes with the sequence
number of the first verdict after it, that of the chase's first bound context (without one a free value, log entry 29).
The layout of a patch image is log entry 29. R183 and R184: a start whose digest disagrees leaves the chase EMPTY and without its forme; one that agrees leaves it RUNNING
with every open item an orphan and no unit at work. -/
def Obligations.FormesAreLoadedStartedAndStopped : Prop :=
  (∀ (s : State) (r : Req) (n : ChaseNo) (addr size : Nat),
      let u := takeRequest s r
      let k := n.val
      let st := u.get .chState k
      served s r false false → mayChase u r k = true → u.flag .chPresent k = true → (u.chase k).draining = false →
        ((st = chEmpty ∨ st = chStopped) →
          ∃ t, exec (.formeLoad r n addr size) s = .next t ∧ t.get .chState k = chLoading ∧
            (t.chase k).load = some ⟨r, addr, size, u.clk, priorForme u k⟩ ∧ (t.chase k).forme = none ∧ t.get .formeId k = 0) ∧
        (∀ f, (st = chRunning ∨ st = chStopped) → (u.chase k).forme = some f →
          (patchVerdict u f addr size).1 = none →
          ∃ t, exec (.formePatch r n addr size) s = .next t ∧
            (t.chase k).patches = (u.chase k).patches ++
              [⟨patchData u addr (patchRanges u addr) (64 + 16 * (patchRanges u addr).length), r,
                imgNum u addr 0x0C 1 == 1⟩] ∧ t.sram = u.sram ∧ t.istore = u.istore) ∧
        (∀ f, (st = chStopped ∨ st = chHalted ∨ st = chTrapped) → (u.chase k).forme = some f →
          exec (.chaseStart r n) s = .next (answer (startChase u k).2 r (if (startChase u k).1 then cOk else cSignature) [])) ∧
        ((st = chRunning ∨ st = chHalted ∨ st = chTrapped) →
          ∃ t, exec (.chaseStop r n) s = .next (answer t r cOk []) ∧ t.get .chState k = chStopped ∧
            (∀ q : SeqId, q.chase = n → (sequencer t q).run = .idle) ∧
            ∀ e ∈ (t.chase k).openItems, e.2.orphan = true)) ∧
  ((∀ (s : State) (n : ChaseNo) (l : LoadReq), (s.chase n.val).load = some l →
      (∀ e, loaderRefusal s n.val l.addr l.size = some e → e.2 ≠ 0x20 →
        ∃ t, exec (.formeLoadDone n) s = .next (answer t l.req e.1 [BitVec.ofNat 32 e.2]) ∧
          t.get .chState n.val = chEmpty ∧ (t.chase n.val).load = none ∧ keepsRegs [.chState] s t) ∧
      (∀ e, loaderRefusal s n.val l.addr l.size = some e → e.2 = 0x20 →
        ∃ t, exec (.formeLoadDone n) s = .next (answer t l.req e.1 [0x20]) ∧ t.get .rhImpoDetail n.val = 0x20 ∧
          t.get .chState n.val = chEmpty ∧ (t.chase n.val).load = none ∧ keepsRegs [.chState, .rhImpoDetail] s t) ∧
      (loaderRefusal s n.val l.addr l.size = none →
        exec (.formeLoadDone n) s = .next (answer (installForme s n.val l.addr) l.req cOk []))) ∧
    (∀ (s : State) (n : ChaseNo) (f : Forme), (s.chase n.val).patches ≠ [] → (s.chase n.val).forme = some f →
      (itemBegun s n.val f = true → exec (.patchSwap n) s = .next s) ∧
      (itemBegun s n.val f = false → ∃ t v,
        exec (.patchSwap n) s =
          .next ((s.chase n.val).patches.foldl (fun t p => answer t p.req cOk [BitVec.ofNat 32 v]) t) ∧
        (∀ k ks, boundTo s n.val = k :: ks → v = (s.context k).verdictSeq) ∧
        (t.chase n.val).patches = [] ∧ t.get .chPatched n.val = 1 ∧ keepsRegs [.chPatched] s t ∧ t.lpddr = s.lpddr ∧
        t.galley = s.galley))) ∧
  (∀ (s : State) (n : Nat) (f : Forme), (s.chase n).forme = some f →
      (Config.sha384 (memBytes s.lpddr f.addr f.size) ≠ f.digest →
        (startChase s n).1 = false ∧ (startChase s n).2.get .chState n = chEmpty ∧
          ((startChase s n).2.chase n).forme = none) ∧
      (Config.sha384 (memBytes s.lpddr f.addr f.size) = f.digest →
        (startChase s n).1 = true ∧ (startChase s n).2.get .chState n = chRunning ∧
          ((startChase s n).2.chase n).busy = [] ∧ ∀ e ∈ ((startChase s n).2.chase n).openItems, e.2.orphan = true))

/-! ### Camera front end, galleys, pipeline, replay, trainer -/

/-- R211 to R213, R429 and R430: a down lane that locks joins its device's group, whose every lane steps at one rate that
all support and is told the number of connections; a stepping lane that locks is up where it qualified at that rate, else
in qualification; a lane that qualification excluded is excluded again; a lock timeout steps the group down or, at CXP-1,
excludes the lane, which is logged; a lane that loses lock goes down and is counted. R210: an
event packet or heartbeat of a device is counted in CXP_CODE_ERR and has no other effect. -/
def Obligations.LanesStepUpAndGoDown : Prop :=
  ∀ (s : State) (l : CxpLane) (info : LaneInfo),
    (bitAt (s.get .buExclCxp 0) l.val = true →
      exec (.laneLock l info) s = .next (s.put .cxpLaneState l.val lnExcluded)) ∧
    (bitAt (s.get .buExclCxp 0) l.val = false → s.get .cxpLaneState l.val = lnDown →
      ∃ t, exec (.laneLock l info) s = .next t ∧ t.get .cxpLaneState l.val = lnStepping ∧
        t.get .cxpLaneDevice l.val = info.device.toNat ∧ t.get .cxpLaneConn l.val = info.connection.toNat ∧
        (∀ m ∈ groupLanes t info.device.toNat, t.get .cxpLaneState m = lnStepping ∧
          t.get .cxpLaneRate m = t.get .cxpLaneRate l.val ∧
          (∀ top, t.mgmt.laneTop.get none m = some top → t.get .cxpLaneRate m ≤ top) ∧
          .connConfig m (groupLanes t info.device.toNat).length (t.get .cxpLaneRate m) ∈ t.tx)) ∧
    (s.get .cxpLaneState l.val = lnStepping →
      (bitAt (s.get .buExclCxp 0) l.val = false → ∃ t, exec (.laneLock l info) s = .next t ∧ t.get .cxpLaneState l.val =
        (if laneQualifiedAt s l.val (s.get .cxpLaneRate l.val) then lnUp else lnDiscovery)) ∧
      (0 < s.get .cxpLaneRate l.val → ∃ t, exec (.laneLockTimeout l) s = .next t ∧
        ∀ m ∈ groupLanes s (s.get .cxpLaneDevice l.val), t.get .cxpLaneState m = lnStepping ∧
          t.get .cxpLaneRate m = s.get .cxpLaneRate l.val - 1) ∧
      (s.get .cxpLaneRate l.val = 0 → ∃ t, exec (.laneLockTimeout l) s = .next t ∧
        t.get .cxpLaneState l.val = lnExcluded ∧ bitAt (t.get .fpLanesCxp 0) l.val = false ∧
        (t.log.head?.map (fun e => e.code)) = some 0x0010)) ∧
    ((s.get .cxpLaneState l.val = lnStepping ∨ s.get .cxpLaneState l.val = lnUp) →
      ∃ t, exec (.laneLockLoss l) s = .next t ∧ t.get .cxpLaneState l.val = lnDown ∧ t.get .cxpLaneRate l.val = 0 ∧
        t.get .cxpLockLoss l.val = min (s.get .cxpLockLoss l.val + 1) 0xFFFFFFFF) ∧
    exec (.deviceEventPacket l) s = .next (s.bump .cxpCodeErr l.val)

/-- R15, R217, R308 and R309: a compare hits only where it is armed, its encoder has no wire fault and the live
position has reached the target; each hit takes the next line number and moves the target on by its pitch; otherwise
nothing happens. R218 and R219: the end of a trigger packet sends a deferred trigger, or leaves the uplink idle; a
line that begins answers the oldest trigger outstanding, and one that answers none is counted unsolicited and marks
the context out of step; a context that is unbound, replays or has no camera up receives none. -/
def Obligations.LinesAnswerTheirTriggers : Prop :=
  (∀ (s : State) (k : Ctx),
      let x := s.context k.val
      let hits := x.armed && compareLive s (s.get .ctxEncoder k.val) &&
        countReached (sext 48 x.trigTarget) (livePos s k.val)
      (hits = false → exec (.triggerCompareHit k) s = .next s) ∧
      (hits = true → ∃ t, exec (.triggerCompareHit k) s = .next t ∧
        (t.context k.val).nextLine = (x.nextLine + 1) % 2 ^ 48 ∧
        (t.context k.val).trigTarget = wrapTo 48 ((x.trigTarget : Int) + x.trigPitch) ∧
        t.get .trigNext k.val = (t.context k.val).trigTarget)) ∧
  (∀ (s : State) (k : Ctx),
      let x := s.context k.val
      let receives := s.flag .ctxBound k.val = true ∧ replaying x = false ∧ sourceUp s k.val = true
      (∀ d, x.pktBusy = true → x.deferred = some d → d.lost = 0 →
        s.get .cxpLaneState (s.get .cxpSrcMaster k.val) = lnUp →
        ∃ t, exec (.triggerPacketEnd k) s = .next t ∧ t.tx = .trigger k.val d.line :: s.tx ∧
          t.context k.val = { x with deferred := none, pktBusy := true, outstanding := x.outstanding ++ [d] } ∧
          { t with ctxs := s.ctxs, tx := s.tx } = s) ∧
      (x.pktBusy = true → x.deferred = none →
        exec (.triggerPacketEnd k) s = .next (s.setCtx k.val { x with pktBusy := false })) ∧
      (x.pktBusy = false → exec (.triggerPacketEnd k) s = .next s) ∧
      (∀ d ds, x.outstanding = d :: ds → d.lost = 0 → receives → exec (.lineBegin k) s =
        .next (s.setCtx k.val { x with outstanding := ds, rx := x.rx ++ [⟨d, false, 0⟩] })) ∧
      (receives → (∀ d ∈ x.outstanding, d.lost ≠ 0) → x.resetting = false → x.quiet = 0 →
        exec (.lineBegin k) s = .next (((s.bump .linesUnsol k.val).setCtx k.val { x with desync := true }).put
          .cxpDesync k.val 1)) ∧
      (¬receives → exec (.lineBegin k) s = .next s))

/-- R223 and R224: a stream packet's errors count in its lane and damage every line that has begun on a lane of its device
(log entry 96); a complete line is counted as damaged where it was or its length was wrong, and no longer arriving. R231
and R232: with no range waiting and no gap open, a line takes a free slot, else it opens a gap and is counted as
dropped; a galley never holds more entries than its depth. -/
def Obligations.LinesAreReceived : Prop :=
  (∀ (s : State) (l : CxpLane) (k : Ctx) (crcOk framed : Bool) (errors : Nat) (samples : List Nat),
      let x := s.context k.val
      let n := (s.get .cxpWidthM1 k.val + 1) * cameraComps s k.val
      (∃ t, exec (.streamPacket l k crcOk errors framed) s = .next t ∧
        t.get .cxpCodeErr l.val = min (s.get .cxpCodeErr l.val + errors) 0xFFFFFFFF ∧
        t.get .cxpCrcErr l.val =
          (if crcOk then s.get .cxpCrcErr l.val else min (s.get .cxpCrcErr l.val + 1) 0xFFFFFFFF) ∧
        keepsRegs [.cxpCodeErr, .cxpCrcErr] s t ∧
        ((crcOk = true ∧ framed = true) → t.ctxs = s.ctxs) ∧
        ((deviceLanes s k.val).contains l.val = true → (crcOk = false ∨ framed = false) →
          ∀ (i : Nat) (r : LineRx), x.rx[i]? = some r →
            ∃ r' : LineRx, (t.context k.val).rx[i]? = some r' ∧ r'.damaged = true ∧ r'.trig = r.trig)) ∧
      (x.rx = [] → exec (.lineComplete k samples) s = .next s) ∧
      (∀ r rs, x.rx = r :: rs → ∃ t, exec (.lineComplete k samples) s = .next t ∧ (rs = [] → (t.context k.val).rx = []) ∧
        t.get .linesDamaged k.val = (if r.damaged = true ∨ samples.length ≠ n
          then min (s.get .linesDamaged k.val + 1) 0xFFFFFFFF else s.get .linesDamaged k.val))) ∧
  (∀ (s : State) (k : Nat) (t : Trig) (g : Slug),
      ((s.context k).closedGaps = [] → (s.context k).gap = none → (s.context k).slots.length < s.get .galDepth k →
        ∃ g', ((commitSlug s k t g).context k).slots = (s.context k).slots ++ [g'] ∧
          g' = (if (s.context k).afterGap then { g with flags := g.flags ||| 64 } else g) ∧
          ((commitSlug s k t g).context k).writeLine = (g.lastLine + 1) % 2 ^ 48) ∧
      ((s.context k).closedGaps = [] → (s.context k).gap = none → s.get .galDepth k ≤ (s.context k).slots.length →
        ((commitSlug s k t g).context k).slots = (s.context k).slots ∧
          ((commitSlug s k t g).context k).gap = some ⟨t.line, 1, BitVec.ofNat 32 rsFull, t.count⟩ ∧
          (commitSlug s k t g).get .galDropped k = min (s.get .galDropped k + 1) 0xFFFFFFFF) ∧
      ((s.context k).slots.length ≤ s.get .galDepth k →
        ((commitSlug s k t g).context k).slots.length ≤ s.get .galDepth k))

/-- R221: a control request of the function that owns the context goes to the camera when none is outstanding; the
reply completes it OK with outcome 0 and the reply's bytes, the end of its time with outcome 1. -/
def Obligations.CameraControlAnswers : Prop :=
  ∀ (s : State) (r : Req) (k : Ctx) (settle : Bool) (addr : Word) (len : BitVec 7) (data : List Byte),
    let x := s.context k.val
    let free := ((((s.mbox (fwMbox s r.sender.toNat)).msgs.find? (carriesControl r)).map (fun e => e.stale)).getD
      false) = false ∧ senderFn s r.sender.toNat = k.val + 1 ∧ serving s = true ∧ s.mgmt.hold = .none ∧
      x.resetting = false ∧ x.ctrl = none ∧ x.ctrlQueue = [] ∧
      s.get .cxpLaneState (s.get .cxpSrcMaster k.val) = lnUp
    (free → (∃ t, exec (.cameraControlRead r k settle addr len) s = .next t ∧
        (t.context k.val).ctrl = some ⟨r, false, settle, addr, [BitVec.ofNat 8 len.toNat]⟩ ∧
        t.tx = .control k.val false addr [BitVec.ofNat 8 len.toNat] :: s.tx) ∧
      (∃ t, exec (.cameraControlWrite r k settle addr data) s = .next t ∧
        (t.context k.val).ctrl = some ⟨r, true, settle, addr, data.take 56⟩ ∧
        t.tx = .control k.val true addr (data.take 56) :: s.tx)) ∧
    (∀ c, x.ctrl = some c → x.ctrlQueue = [] →
      (∃ t, exec (.cameraReply k data) s = .next (answer t c.req cOk ((0 : Word) ::
          (List.range 5).map (fun i => BitVec.ofNat 32 (leNat ((data.drop (4 * i)).take 4))))) ∧
        (t.context k.val).ctrl = none) ∧
      (∃ t, exec (.cameraReplyTimeout k) s = .next (answer t c.req cOk ((1 : Word) :: List.replicate 5 0)) ∧
        (t.context k.val).ctrl = none))

/-- R13, R163 and R251: PIPE_STAGE queues a copy, whose end puts the image at its bank and completes OK; PIPE_APPLY
registers the switch of a bank at its line. R13: an apply is used from the line it names, or from the first line that
has not begun where that is later; it is the one apply pending for its target. -/
def Obligations.PipeBanksAreStagedAndApplied : Prop :=
  (∀ (s : State) (r : Req) (k : Ctx) (target : Fin 4) (bank : Fin 2) (addr size : Nat) (line : BitVec 48),
      let u := takeRequest s r
      let n := k.val
      (served s r false false → mayContext u r n = true → (u.context n).resetting = false → bankActive u n target.val bank.val = false →
        bankPending u n target.val bank.val = false → bankStaging u n target.val bank.val = false →
        imageBad u n target.val (memBytes u.lpddr addr size) = false →
        ∃ t, exec (.pipeStage r k target bank addr size) s = .next t ∧
          (t.context n).stages = (u.context n).stages ++ [⟨target.val, bank.val, addr, size, r⟩] ∧
          { t with ctxs := u.ctxs } = u) ∧
      (∀ e es, memoriesCanonical s → (s.context n).stages = e :: es →
        ∃ t, exec (.pipeStageDone k) s = .next (answer t e.req cOk []) ∧ (t.context n).stages = es ∧
          (e.target = 3 → (t.context n).paramBlocks.get [] e.bank = memBytes s.lpddr e.addr e.size ∧ t.galley = s.galley) ∧
          (e.target ≠ 3 → memBytes t.galley (bankAddr s n e.target e.bank) e.size = memBytes s.lpddr e.addr e.size ∧
            ∀ a, (a < bankAddr s n e.target e.bank ∨ bankAddr s n e.target e.bank + e.size ≤ a) →
              memRead t.galley a = memRead s.galley a)) ∧
      (served s r false false → mayContext u r n = true → (u.context n).resetting = false →
        bankStaging u n target.val bank.val = false → (target.val = 2 → meshTooLarge u n bank.val = false) →
        exec (.pipeApply r k target bank line) s =
          .next (applyBank u n target.val bank.val line.toNat (some r)))) ∧
  (∀ (s : State) (k target bank line : Nat) (req : Option Req),
      ((applyBank s k target bank line req).context k).applies.get none target = some ⟨bank, lineUsed s k line, req⟩ ∧
        (lineDiff line (firstUnbegun s k) < 0 → lineUsed s k line = firstUnbegun s k) ∧
        (0 ≤ lineDiff line (firstUnbegun s k) → lineUsed s k line = line) ∧
        (∀ u, u ≠ target → ((applyBank s k target bank line req).context k).applies.get none u =
          (s.context k).applies.get none u))

/-- R262 and R264: REPLAY_START holds a replay that begins at its start line, REPLAY_STOP lets it end at the next hit,
and prefetch, once the bucket of its chase has paid for the entry (log entry 98), puts it behind those that wait, at most
16; of the module only that chase and the context change. R265, R269 and R271: TRAIN_START starts a feeder on a RUNNING
chase, TRAIN_STOP ends it after the batch being filled; a fill marks its buffer ready with its epoch and batch numbers
and no more records than the batch holds, and waits for a buffer that is not free. -/
def Obligations.ReplayAndTrainingRun : Prop :=
  (∀ (s : State) (r : Req) (k : Ctx) (addr size : Nat) (start : BitVec 48) (looped : Bool),
      let u := takeRequest s r
      let n := k.val
      let f : RecFile := ⟨addr, size⟩
      (served s r false false → mayContext u r n = true → u.flag .ctxBound n = true → (u.context n).resetting = false →
        (u.context n).replay = none → f.check u = none →
        (u.get .galDepth n + 16) * u.get .galStride n ≤ u.get .galLimit n * 64 →
        (∃ i, nextRun f u 0 = some i ∧ (f.entry u i).count ≠ 0 ∧ runMatches u n f (f.entry u i) = true) →
        ∃ t p, exec (.replayStart r k addr size start looped) s = .next (answer t r cOk []) ∧
          (t.context n).replay = some p ∧ p.start = start.toNat ∧ p.looped = looped ∧ p.begun = false ∧ p.buf = []) ∧
      (∀ p, served s r false false → mayContext u r n = true → (u.context n).resetting = false →
        (u.context n).replay = some p →
        ∃ t, exec (.replayStop r k) s = .next (answer t r cOk []) ∧
          (t.context n).replay = some { p with stopping := true }) ∧
      (∀ p, (s.context n).replay = some p → p.buf.length ≤ 16 →
        ∃ t q, exec (.replayPrefetch k) s = .next t ∧ (t.context n).replay = some q ∧ q.buf.length ≤ 16 ∧
          (∀ i, i < p.buf.length → q.buf[i]? = p.buf[i]?) ∧
          { t with ctxs := s.ctxs, chases := s.chases } = s ∧
          (∀ s1 q0, p.ended = false → p.buf.length < 16 → chargePrefetch s n p = some (s1, q0, true) →
            q = q0.fetch s n ∧ t.chases = s1.chases))) ∧
  (∀ (s : State) (r : Req) (n : ChaseNo) (p : TrainParams) (arrival : List Nat),
      let u := takeRequest s r
      let k := n.val
      (served s r false false → mayChase u r k = true → u.get .chState k = chRunning → (u.chase k).trainer = none →
        trainParamsOk p = true → (trainFile p).check u = none →
        ∃ t tr, exec (.trainStart r n p) s = .next (answer t r cOk []) ∧ (t.chase k).trainer = some tr ∧ tr.p = p ∧
          tr.epoch = p.firstEpoch.toNat ∧ tr.batch = 0 ∧ tr.stopping = false ∧ t.get .trnState k = 1) ∧
      (∀ tr, served s r false false → mayChase u r k = true → (u.chase k).trainer = some tr →
        ∃ t, exec (.trainStop r n) s = .next (answer t r cOk []) ∧
          (t.chase k).trainer = some { tr with stopping := true }) ∧
      (∀ tr, memoriesCanonical s → (s.chase k).trainer = some tr →
        let a := tr.p.ringAddr + tr.buf * (64 + tr.p.batch * entryBytes tr.p)
        (memNat s.lpddr a 4 ≠ 0 → exec (.batchFill n arrival) s = .next (s.put .trnState k 2)) ∧
        (memNat s.lpddr a 4 = 0 → ∃ t, exec (.batchFill n arrival) s = .next t ∧ memNat t.lpddr a 4 = 1 ∧
          memNat t.lpddr (a + 4) 4 = tr.epoch % 2 ^ 32 ∧ memNat t.lpddr (a + 8) 4 = tr.batch % 2 ^ 32 ∧
          memNat t.lpddr (a + 12) 4 ≤ tr.p.batch ∧ (tr.stopping = true → (t.chase k).trainer = none) ∧
          t.sram = s.sram ∧ t.galley = s.galley ∧ ∀ b, b < a → memRead t.lpddr b = memRead s.lpddr b)))

/-- R266: the order of an epoch is a permutation of the samples: every record is delivered once. -/
def Obligations.EpochOrderIsAPermutation : Prop :=
  ∀ (seed : BitVec 64) (e n : Nat), (epochOrder seed e n).Perm (List.range n)

/-! ### Rhasha -/

/-- R280 to R282 and R301: what trains a port: the host's retrain, the ends of RETRAIN and DOWN, the locks, the
capability words, and the times that run out; a port whose step failed tunes again at the code it had and enters ACTIVE
there when its lanes lock. What R280 and R282 leave to the receiver is log entry 19. R279: each
dwell of a sweep judges the next code; after the sixteenth the lane takes a code that was free of errors, unless its
register is overridden or no code was. -/
def Obligations.PortsTrain : Prop :=
  (∀ (s : State) (p : RhPort),
      let st := s.get .rhState p.val
      let x := s.port p.val
      let detects := fun (t : State) => t.get .rhState p.val =
        (if s.flag .rhPortEn p.val && soundLanes s p.val != 0 then lnkDetect else lnkDisabled) ∧
        t.get .rhRate p.val = 0 ∧ t.get .rhLanes p.val = 0 ∧ (t.port p.val).capRun = [] ∧ (t.port p.val).unacked = x.unacked
      (st = lnkActive → ∃ t, exec (.rhRetrain 0 p) s = .next t ∧ t.get .rhState p.val = lnkRetrain ∧
        (t.port p.val).suspended = true ∧ .rate p.val 0 15 ∈ t.tx) ∧
      (∀ fn : Fn, fn ≠ 0 → exec (.rhRetrain fn p) s = .next s) ∧
      (st = lnkRetrain → ∃ t, exec (.retrainEnd p) s = .next t ∧ detects t) ∧
      (st = lnkDown → ∃ t, exec (.downEnd p) s = .next t ∧ detects t ∧ (t.port p.val).lastGen = none) ∧
      (∀ lanes : BitVec 4, st = lnkDetect → lanes.toNat &&& goodLanes s p.val ≠ 0 →
        ∃ t, exec (.tsLocked p lanes) s = .next t ∧ t.get .rhState p.val = lnkCap ∧
          (t.port p.val).ready.toNat = lanes.toNat &&& goodLanes s p.val ∧
          t.tx = .cap p.val (BitVec.ofNat 64 (capWord s p.val false)) :: s.tx) ∧
      (st = lnkCap → s.flag .rhDupId p.val = false → ∃ t, exec (.capTimeout p) s = .next t ∧ detects t) ∧
      (∀ (w : BitVec 64) (crc : BitVec 16), st = lnkCap →
        (crc16 (natLe 8 w.toNat) = crc.toNat → exec (.capReceived p w crc) s = .next (capGood s p.val w)) ∧
        (crc16 (natLe 8 w.toNat) ≠ crc.toNat →
          exec (.capReceived p w crc) s = .next (s.setPort p.val { x with capRun := [] }))) ∧
      (st = lnkWiden → x.ready ≠ 0 →
        exec (.widenTimeout p) s = .next (nextStep (s.put .rhLanes p.val x.ready.toNat) p.val)) ∧
      (∀ (code : BitVec 8) (lanes : BitVec 4), st = lnkStep → code.toNat ∈ stepCodes x.maxCode →
        s.get .rhLanes p.val ≠ 0 →
        ∃ t, exec (.rateReceived p code lanes) s = .next t ∧ t.get .rhState p.val = lnkStep ∧
          (t.port p.val).target = code.toNat ∧ (t.port p.val).stepFrom = s.get .rhRate p.val ∧
          t.get .rhLanes p.val = s.get .rhLanes p.val &&& lanes.toNat) ∧
      (st = lnkStep → x.failedCode = none → ∃ t, exec (.stepTimeout p) s = .next t ∧ t.get .rhState p.val = lnkStep ∧
        t.get .rhRate p.val = s.get .rhRate p.val ∧ (t.port p.val).failedCode = some x.target ∧
        (t.port p.val).target = x.stepFrom) ∧
      (∀ lanes : BitVec 4, st = lnkStep → x.failedCode ≠ none → x.target ≤ 5 →
        lanes.toNat &&& s.get .rhLanes p.val &&& sweptLanes x ≠ 0 →
        ∃ t, exec (.tsLocked p lanes) s = .next t ∧ t.get .rhState p.val = lnkActive ∧ t.get .rhRate p.val = x.target) ∧
      (st = lnkStep → x.failedCode ≠ none → ∃ t, exec (.stepTimeout p) s = .next t ∧ detects t)) ∧
  ((∀ (s : State) (p : RhPort) (lane : Fin 4) (errors : Nat),
      let w := (s.port p.val).sweep.get [] lane.val
      let i := p.val * 4 + lane.val
      s.flag .rhEqOverride i = false → w.length < 16 →
        (s.get .rhState p.val = lnkWiden ∨ s.get .rhState p.val = lnkStep) →
        ∃ t, exec (.eqCodeDwell p lane errors) s = .next t ∧
          (t.port p.val).sweep.get [] lane.val = w ++ [(w.length, errors == 0)] ∧
          (w.length < 15 → t.get .rhEqCode i = s.get .rhEqCode i) ∧
          (∀ c, w.length = 15 → sweepChoice (w ++ [(15, errors == 0)]) = some c → t.get .rhEqCode i = c % 16)) ∧
    (∀ (l : List (Nat × Bool)) (c : Nat), sweepChoice l = some c → ∃ h : c < l.length, (l[c]).2 = true) ∧
    (∀ l : List (Nat × Bool), sweepChoice l = none ↔ ∀ e ∈ l, e.2 = false))

/-- R278, R286, R287 and R404: heartbeats, skips and SYNC sets go out on their ports; a heartbeat whose generation has
changed, a missing one and a suspension that lasted too long take the link down. R286: a link that goes down is in
DOWN with its replay buffer and what waited discarded, both directions at sequence 0; it is counted and logged as
event 0x0020. R284 and R285: an acknowledgement frees the packets up to the one it names, a NAK resends those after
it; one that names no packet held is counted; timers send what is due and resend everything, and after four resends of
the oldest packet, by timer or by NAK, the port retrains; a second replay of the same cycle is none. -/
def Obligations.LinksKeepTheirPackets : Prop :=
  (∀ (s : State) (p : RhPort) (gen st : BitVec 8) (count : BitVec 16),
      let x := s.port p.val
      (linkActive s p.val = true → s.mgmt.hold = .none →
        exec (.hbSend p) s = .next (s.emit (.hb p.val (s.get .rhGen 0) (hbStateByte s)))) ∧
      (s.get .rhState p.val ≠ lnkDisabled → exec (.skpSend p) s = .next (s.emit (.skp p.val))) ∧
      (linkActive s p.val = true →
        exec (.syncSend p) s =
          .next ((s.setPort p.val { x with syncCount := x.syncCount + 1 }).emit (.sync p.val x.syncCount.toNat)) ∧
        exec (.syncReceived p count) s = .next (s.setPort p.val { x with
          rxSync := some count,
          syncRun := if x.rxSync = some (count - 1) then min 100 (x.syncRun + 1) else 0 }) ∧
        (∀ g, s.mgmt.hold = .none → x.lastGen = some g → g ≠ gen →
          exec (.hbReceived p gen st) s = .next (linkDown s p.val)) ∧
        (s.mgmt.hold = .none → (x.lastGen = none ∨ x.lastGen = some gen) → ∃ t, exec (.hbReceived p gen st) s = .next t ∧
          (t.port p.val).lastGen = some gen ∧ (t.port p.val).hbState = st ∧ (t.port p.val).hbSeen = true ∧
          keepsRegs [.rhClkStratum, .rhClkLocked, .rhClkLockedTo, .clkSource, .clkSwitched, .clkRamping, .evlogHead,
            .evlogWrap] s t) ∧
        (s.mgmt.hold = .none → exec (.hbTimeout p) s = .next (linkDown s p.val))) ∧
      (x.suspended = true → linkActive s p.val = false → s.get .rhState p.val ≠ lnkDisabled →
        exec (.suspensionTimeout p) s = .next (linkDown s p.val)) ∧
      (x.suspended = true → s.get .rhState p.val = lnkDisabled →
        exec (.suspensionTimeout p) s = .next ((linkDown s p.val).put .rhState p.val lnkDisabled))) ∧
  (∀ (s : State) (p : Nat),
      let t := linkDown s p
      t.get .rhState p = lnkDown ∧ (t.port p).unacked = [] ∧ (t.port p).waiting = [] ∧ (t.port p).through = [] ∧
        (t.port p).txSeq = 0 ∧ (t.port p).rxExpected = 0 ∧ t.get .rhDown p = min (s.get .rhDown p + 1) 0xFFFFFFFF ∧
        ∃ e ∈ t.log, e.code = 0x0020 ∧ e.seq = s.logSeq) ∧
  (∀ (s : State) (p : RhPort) (seq : BitVec 12),
      let x := s.port p.val
      let at0 := x.unacked.findIdx? (fun k => k.hdr.seq.toNat == seq.toNat)
      linkRuns s p.val = true →
        (∀ i, at0 = some i → x.waiting = [] → x.through = [] → exec (.ack p seq) s =
          .next (s.setPort p.val { x with unacked := x.unacked.drop (i + 1), resends := 0 })) ∧
        (at0 = none → exec (.ack p seq) s = .next (s.bump .rhCodeErr p.val)) ∧
        (∀ i k ks, x.unacked = k :: ks → (seq.toNat + 1) % 4096 ≠ k.hdr.seq.toNat → at0 = some i →
          replayedNow s p.val = false → ∃ t, exec (.nak p seq) s = .next t ∧
            t.tx = ((x.unacked.drop (i + 1)).map (fun k => Tx.packet p.val k)).reverse ++ s.tx ∧
            t.port p.val = { x with replayAt := some s.clk } ∧ t.regs = s.regs) ∧
        (∀ k ks, x.unacked = k :: ks → (seq.toNat + 1) % 4096 = k.hdr.seq.toNat → replayedNow s p.val = false →
          (x.resends < 4 → ∃ t, exec (.nak p seq) s = .next t ∧
            t.tx = (x.unacked.map (fun k => Tx.packet p.val k)).reverse ++ s.tx ∧
            t.port p.val = { x with resends := x.resends + 1, replayAt := some s.clk } ∧ t.regs = s.regs) ∧
          (4 ≤ x.resends → exec (.nak p seq) s = .next (enterRetrain s p.val))) ∧
        (x.unacked ≠ [] → replayedNow s p.val = true → exec (.replayTimeout p) s = .next s ∧
          (at0.isSome = true → exec (.nak p seq) s = .next s)) ∧
        (x.ackDue = true → exec (.ackTimer p) s = .next (sendAck s p.val)) ∧
        (x.unacked ≠ [] → x.resends < 4 → replayedNow s p.val = false →
          ∃ t, exec (.replayTimeout p) s = .next t ∧ (t.port p.val).resends = x.resends + 1 ∧
            t.get .rhReplay p.val = min (s.get .rhReplay p.val + 1) 0xFFFFFFFF ∧
            t.tx = (x.unacked.map (fun k => Tx.packet p.val k)).reverse ++ s.tx) ∧
        (x.unacked ≠ [] → 4 ≤ x.resends → replayedNow s p.val = false → exec (.replayTimeout p) s = .next (enterRetrain s p.val)) ∧
        exec (.packetCrcError p) s = .next (sendNak (s.bump .rhCrcErr p.val) p.val) ∧
        (seqDiff seq.toNat x.rxExpected < 0 → exec (.duplicatePacket p seq) s = .next (sendAck s p.val)))

/-- R288, R292, R293 and R295: what a packet in order does at its destination, by its kind, and that one for another
module goes on with one hop fewer, or is counted as undeliverable without a hop left. R283: a packet of another type value
is counted as a code error and discarded, and one too long has broken framing. R284: data packets are delivered
in the order of their numbers: the expected one once, one ahead of it not at all but answered with one NAK, an old one
not again but acknowledged. R293: a sort for a running home chase whose epoch it serves takes the lowest free slot;
any other is counted as refused and answered with NO_EXPERT. R292: a reply that answers a sort still awaited takes its
rank, by its output or as missing; any other is stale, and only counted. -/
def Obligations.PacketsReachTheirDestination : Prop :=
  (∀ (s : State) (p : RhPort) (hdr : PktHdr) (h : SortHdr) (payload : List Byte) (m : CtrlMsg) (body : PktBody),
      let x := s.port p.val
      let u := s.setPort p.val { x with
        rxExpected := (x.rxExpected + 1) % 4096, nakSent := false, accepted := x.accepted + 1, ackDue := true }
      linkRuns s p.val = true → seqDiff hdr.seq.toNat x.rxExpected = 0 → hdr.ack = none → x.accepted < 15 →
        (hdr.dest.toNat = ownModule s →
          (hdr.ptype = 1 → bodyBytes (.sort h payload) ≤ 2112 →
            exec (.sort p hdr h payload) s = .next (deliverSort u h payload)) ∧
          (hdr.ptype = 2 → bodyBytes (.reply h payload) ≤ 2112 →
            exec (.reply p hdr h payload) s = .next (acceptReply u h payload)) ∧
          (hdr.ptype = 3 →
            exec (.join p hdr m) s = .next (onJoin u { m with op := 1 }) ∧
            exec (.propose p hdr m) s = .next (onPropose u { m with op := 2 }) ∧
            exec (.accept p hdr m) s = .next (onAccept u { m with op := 3 }) ∧
            exec (.commit p hdr m) s = .next (onCommit u { m with op := 4 }) ∧
            exec (.unreach p hdr m) s = .next (onUnreach u { m with op := 5 }))) ∧
        (hdr.ptype.toNat = bodyType body → bodyBytes body ≤ 2112 → hdr.dest.toNat ≠ ownModule s →
          (∀ o, hdr.hops ≠ 0 → routePort s hdr.dest.toNat = some o → linkServes s o = true →
            exec (.packetForward p ⟨hdr, body⟩) s =
              .next (sendThrough u o ⟨{ hdr with hops := hdr.hops - 1 }, body⟩)) ∧
          (hdr.hops = 0 → exec (.packetForward p ⟨hdr, body⟩) s = .next (undeliverable u body)))) ∧
  (∀ (s : State) (p : RhPort) (hdr : PktHdr) (body : PktBody), linkRuns s p.val = true →
      (2112 < bodyBytes body →
        exec (.packetForward p ⟨hdr, body⟩) s = .next (sendNak (s.bump .rhCrcErr p.val) p.val)) ∧
      (bodyBytes body ≤ 2112 → hdr.ptype.toNat ≠ bodyType body →
        exec (.packetForward p ⟨hdr, body⟩) s = .next (s.bump .rhCodeErr p.val))) ∧
  (∀ (s : State) (p : Nat) (h : PktHdr) (deliver : State → State), linkRuns s p = true →
      let x := s.port p
      let d := seqDiff h.seq.toNat x.rxExpected
      (d < 0 → receive s p h deliver = sendAck s p ∧ (sendAck s p).tx = .ack p ((x.rxExpected + 4095) % 4096) :: s.tx) ∧
      (0 < d → receive s p h deliver = sendNak s p ∧
        (x.nakSent = false → (sendNak s p).tx = .nak p ((x.rxExpected + 4095) % 4096) :: s.tx ∧
          sendNak (sendNak s p) p = sendNak s p)) ∧
      (d = 0 → h.ack = none → x.accepted < 15 →
        receive s p h deliver = deliver (s.setPort p { x with
          rxExpected := (x.rxExpected + 1) % 4096, nakSent := false, accepted := x.accepted + 1, ackDue := true }))) ∧
  (∀ (s : State) (h : SortHdr) (payload : List Byte),
      let n := h.dstChase.toNat
      let serves := s.get .chState n = 3 ∧ epochServed s n h.epoch.toNat = true
      (∀ i, serves → freeSlot (s.chase n) = some i →
        ((deliverSort s h payload).chase n).inbound.get none i = some ⟨h, payload, false⟩ ∧
          ((deliverSort s h payload).chase n).inOrder = (s.chase n).inOrder ++ [i] ∧
          (∀ j, j < i → (s.chase n).inbound.get none j ≠ none) ∧ { deliverSort s h payload with chases := s.chases } = s) ∧
      ((¬serves ∨ freeSlot (s.chase n) = none) →
        deliverSort s h payload = sendReply (s.bump .rhSortRefused n) h cNoExpert [])) ∧
  (∀ (s : State) (h : SortHdr) (output : List Byte),
      let n := h.srcChase.toNat
      let c := s.chase n
      (∀ x, c.sorts.find? (answersSort h) = some x → h.status = 0 →
        ((acceptReply s h output).chase n).sorts = c.sorts.erase x ++ [{ x with fate := .arrived output }] ∧
          { acceptReply s h output with chases := s.chases } = s) ∧
      (∀ x, c.sorts.find? (answersSort h) = some x → h.status ≠ 0 →
        ((acceptReply s h output).chase n).sorts = c.sorts.erase x ++ [{ x with fate := .missing cNoExpert }] ∧
          (acceptReply s h output).get .rhNoExpert n = min (s.get .rhNoExpert n + 1) 0xFFFFFFFF) ∧
      (c.sorts.find? (answersSort h) = none → acceptReply s h output = s.bump .rhStale n))

/-- R295 and R296: a silent module leaves the mask of a proposal whose time ran out; a committed epoch becomes current
with its mask, the one before kept; a deferred proposal goes out when its interval ends. What a leader alone and a
COMMIT not yet applied do is log entries 22 and 23. -/
def Obligations.EpochsAreAgreedAndApplied : Prop :=
  ∀ (s : State) (n : ChaseNo),
    let c := s.chase n.val
    (∀ pr, c.proposal = some pr →
      let silent := pr.mask &&& ~~~(pr.accepted ||| oneModule (ownModule s))
      exec (.acceptTimeout n) s = .next (wantPropose (s.setChase n.val { c with
        proposal := none, joined := c.joined &&& ~~~silent, lost := c.lost ||| silent }) n.val)) ∧
    (∀ e, c.pendEpoch = some e → e.1 < 65536 →
      ∃ t, exec (.epochApply n) s = .next t ∧ t.get .rhEpoch n.val = e.1 ∧ presentMask t n.val = e.2 ∧
        (t.chase n.val).pendEpoch = none ∧
        (t.chase n.val).prevEpochs.get 0 (s.get .rhEpoch n.val) = presentMask s n.val ∧
        (inMask e.2 (ownModule s) = true → t.get .rhJoining n.val = 0)) ∧
    exec (.proposeIntervalEnd n) s = .next
      (let u := s.setChase n.val { c with proposeHold := false, proposeDue := false }
       if c.proposeDue then wantPropose u n.val else u)

/-! ### Clocks, motion and field -/

/-- R402 to R405 and R420: a source R402 allows now is chosen and a ramp begins; each step of the ramp moves the
divider by one and the last ends it; a REF that is lost hands over to PORT where that is there, the distance of whose ramp
is open (log entry 33), and else to HOLDOVER; the trim moves its code one
step against an error beyond 0.05 %; a meter's gate refreshes its frequency. -/
def Obligations.ClocksFollowTheirSources : Prop :=
  ∀ (s : State) (src : ClkSource) (steps : Int) (n : Fin 39) (khz : Word),
    (sourceAllowed s src = true → src ≠ .holdover →
      ∃ t, exec (.clockSourceChange src steps) s = .next t ∧ t.get .clkSource 0 = srcCode src ∧
        t.get .clkRamping 0 = 1 ∧ t.get .clkSwitched 0 = 1 ∧ t.clock = { s.clock with steps := steps } ∧
        (t.log.head?.map (fun e => e.code)) = some 0x0006) ∧
    (sourceAllowed s .holdover = true → s.get .clkSource 0 ≠ 3 →
      ∃ t, exec (.clockSourceChange .holdover steps) s = .next t ∧ t.get .clkSource 0 = 3 ∧ t.get .clkRamping 0 = 0 ∧
        t.get .clkSwitched 0 = 1 ∧ t.clock = { s.clock with steps := 0 }) ∧
    (sourceAllowed s src = false → exec (.clockSourceChange src steps) s = .next s) ∧
    (s.flag .clkRamping 0 = true → 0 < s.clock.steps →
      ∃ t, exec .clockRampStep s = .next t ∧ t.clock = ⟨s.clock.steps - 1, s.clock.divider + 1⟩ ∧
        (t.get .clkRamping 0 = 0 ↔ s.clock.steps = 1)) ∧
    (s.get .clkSource 0 = 0 → s.flag .clkRefOk 0 = true → clkFollows s = false →
      ∃ t, exec .refClkLost s = .next t ∧ t.get .clkRefOk 0 = 0 ∧ t.get .clkSource 0 = 3 ∧ t.get .clkSwitched 0 = 1 ∧
        t.clock.divider = s.clock.divider ∧ t.clock.steps = 0) ∧
    (s.get .clkSource 0 = 0 → s.flag .clkRefOk 0 = true → clkFollows s = true →
      ∃ t, exec .refClkLost s = .next t ∧ t.get .clkRefOk 0 = 0 ∧ t.get .clkSource 0 = 1 ∧ t.get .clkSwitched 0 = 1 ∧
        t.get .clkRamping 0 = 1 ∧ t.clock.divider = s.clock.divider) ∧
    (s.flag .clkRefOk 0 = true →
      (∃ t, exec (.oscTrimWindow steps false) s = .next t ∧
        t.get .oscCode 0 = (if 500 < steps then s.get .oscCode 0 - 1
          else if steps < -500 then min 511 (s.get .oscCode 0 + 1) else s.get .oscCode 0) % 512 ∧
        t.get .oscBySync 0 = 0 ∧ t.get .oscTrimmed 0 = b2n (decide (steps.natAbs ≤ 1000)) ∧
        keepsRegs [.oscCode, .oscBySync, .oscTrimmed] s t) ∧
      exec (.oscTrimWindow steps true) s = .next s) ∧
    (∃ t, exec (.freqMeterGate n khz) s = .next t ∧ t.get .freqKhz n.val = khz.toNat % 2 ^ Fld.freqKhz.info.width ∧
      (n = 0 → (99980 ≤ khz.toNat ∧ khz.toNat ≤ 100020 → t.get .clkRefOk 0 = 1) ∧
        ((khz.toNat < 99980 ∨ 100020 < khz.toNat) → t.get .clkRefOk 0 = 0)))

/-- R304 to R306: in Aux and Full an enabled encoder counts one up or down with each edge, modulo 2⁴⁸, unless a wire
fault holds it; an illegal transition is only counted; a wire fault clears valid and is counted, and its end leaves
valid 0; transitions too fast for Aux leave a free position that is not valid (log entry 47), and nothing in Full. What an emulated encoder counts is log entry 31. R306 and R307: a preset of an encoder nothing uses writes
its position and makes it valid; an index edge latches the position, and one away from the last by other than a
revolution is drift. -/
def Obligations.EncodersCount : Prop :=
  (∀ (s : State) (e : Enc) (wire : EncWire),
      (s.power ≠ .off → s.flag .encEnable e.val = true → wireNow s e.val = false →
        (∃ t, exec (.encoderEdge e .forward) s = .next t ∧
          t.get .encPos e.val = wrapTo 48 (s.s48 .encPos e.val + (if s.flag .encInvert e.val then -1 else 1)) ∧
          t.get .encDirection e.val = b2n (s.flag .encInvert e.val) ∧
          keepsRegs [.encPos, .encDirection, .emuLost] s t ∧ ∀ j, j ≠ e.val → t.get .encPos j = s.get .encPos j) ∧
        (∃ t, exec (.encoderEdge e .backward) s = .next t ∧
          t.get .encPos e.val = wrapTo 48 (s.s48 .encPos e.val + (if s.flag .encInvert e.val then 1 else -1))) ∧
        exec (.encoderEdge e .illegal) s = .next (s.bump .quadErr e.val) ∧
        (s.power = .full → exec (.encoderEdge e .tooFast) s = .next s) ∧
        (s.power = .aux → ∃ t, exec (.encoderEdge e .tooFast) s = .next t ∧ t.get .encOverspeed e.val = 1 ∧
          t.get .encValid e.val = 0 ∧ keepsRegs [.encPos, .encOverspeed, .encValid] s t)) ∧
      (wireNow s e.val = true → ∀ edge, exec (.encoderEdge e edge) s = .next s) ∧
      (s.power ≠ .off → (wire = .z → s.flag .encZCheck e.val = true) → (s.enc e.val).fault wire = false →
        ∃ t, exec (.wireFault e wire) s = .next t ∧ wireNow t e.val = true ∧ t.get .encWireFault e.val = 1 ∧ t.get .encValid e.val = 0 ∧
          t.get .wireFaults e.val = min (s.get .wireFaults e.val + 1) 0xFFFFFFFF ∧
          t.get .encPos e.val = s.get .encPos e.val ∧
          (∀ c p, c < 16 → (t.chan c).pulse = some p → p.started = true → p.enc ≠ e.val)) ∧
      (∃ t, exec (.wireFaultClear e) s = .next t ∧ wireNow t e.val = false ∧ (∀ j, j ≠ e.val → t.enc j = s.enc j) ∧
        { t with encs := s.encs } = s)) ∧
  (∀ (s : State) (e : Enc) (hi : Word),
      let v := (s.loOf .encPreset e.val + hi.toNat * 2 ^ 32) % 2 ^ 48
      (s.power = .full → presetFree s e.val = true → ∃ t, exec (.preset 0 e hi) s = .next t ∧ t.get .encPos e.val = v ∧
        t.get .encValid e.val = b2n !wireNow s e.val ∧ keepsRegs [.encPreset, .encPos, .encValid] s t) ∧
      (s.power = .full → presetFree s e.val = false →
        exec (.preset 0 e hi) s = .next (regFault s 0 (0xA00024 + 0x40 * e.val) (v / 2 ^ 32))) ∧
      (s.power ≠ .off → ∃ t, exec (.indexEdge e) s = .next t ∧
        t.get .encIndexLatch e.val = s.get .encPos e.val ∧ t.get .encPos e.val = s.get .encPos e.val ∧
        (t.enc e.val).lastIndex = some (s.get .encPos e.val, true) ∧
        (∀ prev, (s.enc e.val).lastIndex = some (prev, true) → s.get .encRev e.val ≠ 0 →
          (let d := (sext 48 (wrapTo 48 ((s.get .encPos e.val : Int) - prev))).natAbs
           (d + s.get .encTol e.val < s.get .encRev e.val ∨ s.get .encRev e.val + s.get .encTol e.val < d) →
            t.get .encDrift e.val = 1 ∧ t.get .driftErr e.val = min (s.get .driftErr e.val + 1) 0xFFFFFFFF))))

/-- R308, R310, R311 and R335: a periodic compare that is due moves its target on by its pitch; a one-shot that is due
sends its packet and disarms; a lagging output pays back one count. R316: a tick takes every command that was in its
queue before it and whose position its encoder has reached, each once, and leaves the others queued, landed; a channel no
command and no pulse concerns keeps its state; of the field link only the changes to send change. R314: a
cycle's exchanges compare the stages (0, 1), (2, 3) and so on, or (1, 2), (3, 4) and so on, and change the places of
two entries where the one ahead is later; they lose no command and repeat none, and leave a queue in order as it
stands. That one command exchanges the queues of all encoders and carries the parity is the model's choice (log entry
13). -/
def Obligations.ComparesAndTicksAct : Prop :=
  (∀ (s : State) (j : Fin 8) (k : Ctx) (i : Fin 4) (o : Fin 2),
      (periodicDue s j.val = true → compareLive s (s.get .pcmpEncoder j.val) = true → s.get .pcmpPitch j.val ≠ 0 →
        ∃ t, exec (.periodicCompareHit j) s = .next t ∧
          t.get .pcmpTarget j.val = wrapTo 48 (s.s48 .pcmpTarget j.val + (s.get .pcmpPitch j.val : Nat))) ∧
      (periodicDue s j.val = false → exec (.periodicCompareHit j) s = .next s) ∧
      (∀ a, (s.context k.val).oneshots.get none i.val = some a → compareLive s (s.get .ctxEncoder k.val) = true →
        countReached (sext 48 a.target) (livePos s k.val) = true →
        ∃ t, exec (.trigOneshotHit k i) s = .next t ∧ (t.context k.val).oneshots.get none i.val = none ∧
          t.tx = .trigPacket k.val a.conn a.tag :: s.tx ∧ { t with ctxs := s.ctxs, tx := s.tx } = s) ∧
      (s.power = .full → s.flag .emuEnable o.val = true → wireNow s (s.get .emuSource o.val) = false →
        (0 < (s.emu o.val).lag → ∃ t, exec (.emulationOutputCount o) s = .next t ∧
          (t.emu o.val).lag = (s.emu o.val).lag - 1 ∧ t.tx = .emu o.val true :: s.tx) ∧
        ((s.emu o.val).lag = 0 → exec (.emulationOutputCount o) s = .next s))) ∧
  (∀ s : State, s.power = .full → s.mgmt.hold = .none →
      ∃ t, exec .fireTick s = .next t ∧ t.tick = s.tick + 1 ∧
        (∀ e, e < 4 → t.fq e = ((s.fq e).filter (fun c => !entryReached s e c)).map
          (fun c => { c with landed := some (c.landed.getD t.tick) })) ∧
        (∀ c, (∀ e cmd, e < 4 → cmd ∈ s.fq e → entryReached s e cmd = true → bitAt cmd.channels.toNat c = false) →
          (s.chan c).pulse = none → t.chan c = s.chan c) ∧
        { t.barrier with changes := s.barrier.changes } = s.barrier ∧ t.ctxs = s.ctxs ∧ t.tx = s.tx) ∧
  (∀ (s : State) (odd : Bool),
      let land := fun (c : FireCmd) => { c with landed := some (c.landed.getD s.tick) }
      ∃ t, exec (.fireQueueExchange odd) s = .next t ∧
      (∀ e, e < 4 → (t.fq e).Perm ((s.fq e).map land)) ∧
      (∀ e i a b, e < 4 → i % 2 = b2n odd → (s.fq e)[i]? = some a → (s.fq e)[i + 1]? = some b →
        if countAhead (sext 48 b.position) (sext 48 a.position) < 0
        then (t.fq e)[i]? = some (land b) ∧ (t.fq e)[i + 1]? = some (land a)
        else (t.fq e)[i]? = some (land a) ∧ (t.fq e)[i + 1]? = some (land b)) ∧
      (∀ e, e < 4 → (s.fq e).Pairwise (fun a b =>
        0 ≤ countAhead (sext 48 b.position) (sext 48 a.position)) → t.fq e = (s.fq e).map land) ∧
      { t with fqs := s.fqs } = s)

/-- R318 to R323: a change of an output enters the down frame that starts 12 to 76 ns after it, its instant within 2 ns
of 74 ns minus that start; the die's frame carries the levels, its number, its word of the configuration stream and its
CRC, and with no change left to send no slot and no instant. What arrives counts only where its CRC and its sequence hold;
the 64th good frame in a row brings the link up, the fourth bad or missing one in a row takes it down, and then the field
side is in its safe state with every output off. The order of the bits of a status word is log entry 30, the phase of the
frames and the layout of a configuration record log entry 101. R333 and R334: a trip latches and switches every output of
the mask that the field side has applied off; a clear is refused with TRIP_ACTIVE while the input is active, else it
clears the latch, and without the link it stays pending. -/
def Obligations.BarrierLinkAndTripsLatch : Prop :=
  (∀ (s : State) (c : Nat) (on : Bool), c < 16 → (s.chan c).commanded ≠ on →
      let start := framePhase s + 128 * frameFor s - halfNs s
      ((commandTo s c on).chan c).commanded = on ∧
      (commandTo s c on).barrier.changes = s.barrier.changes ++ [⟨frameFor s, offsetFor s, c, on⟩] ∧
      24 ≤ start ∧ start < 152 ∧ offsetFor s < 16 ∧
      8 * (offsetFor s : Int) - (148 - start) ≤ 4 ∧ (148 - start) - 8 * (offsetFor s : Int) ≤ 4) ∧
  (∀ (s : State),
      let d := composeDown s
      frameCrcOk d.1 = true ∧ bitsAt d.1 0 16 = d.2.barrier.sent.toNat ∧
      bitsAt d.1 40 4 = s.barrier.downNo.toNat % 16 ∧ d.2.barrier.downNo = s.barrier.downNo + 1 ∧
      bitsAt d.1 44 12 = (d.2.barrier.auxRec.getD (s.barrier.downNo.toNat % 8) 0).toNat ∧
      (s.barrier.downNo.toNat % 8 = 0 → d.2.barrier.auxRec = configRecord s (s.barrier.downNo.toNat / 8)) ∧
      (s.barrier.changes = [] → bitsAt d.1 16 24 = 0 ∧ d.2.barrier.sent = s.barrier.sent)) ∧
  (∀ (s : State) (frame : BitVec 64), framesRun s = true →
      let f := frame.toNat
      let d := (composeDown s).2.emit (.down (composeDown s).1)
      let b := s.barrier
      let seq := BitVec.ofNat 4 (bitsAt f 40 4)
      exec (.downFrame frame) s = .next (downArrives d f) ∧
      (frameCrcOk f = true → (b.fieldSeq = none ∨ b.fieldSeq = some (seq - 1)) →
        downArrives d f = downGood { d with barrier := { d.barrier with fieldSeq := some seq } } f) ∧
      (frameCrcOk f = false → downArrives d f = downLost (d.bump .barBadUp 0) ∧
        exec (.upFrame frame) s = .next (upLost (s.bump .barBadDown 0))) ∧
      (frameCrcOk f = true → (∃ q, b.fieldSeq = some q ∧ q ≠ seq - 1) →
        (downArrives d f).barrier.fieldSeq = some seq ∧
        { downArrives d f with barrier := (downLost (d.bump .barBadUp 0)).barrier } = downLost (d.bump .barBadUp 0)) ∧
      (frameCrcOk f = true → (b.upSeq = none ∨ b.upSeq = some (BitVec.ofNat 3 (bitsAt f 1 3) - 1)) →
        exec (.upFrame frame) s =
          .next (upGoodFrame { s with barrier := { b with upSeq := some (BitVec.ofNat 3 (bitsAt f 1 3)) } } f)) ∧
      exec (.frameMissing .down) s = .next (downLost (composeDown s).2) ∧
      exec (.frameMissing .up) s = .next (upLost s) ∧
      (b.fieldSafe = false → b.fieldBad = 3 → (downLost s).barrier.fieldSafe = true ∧
        (downLost s).get .barFieldSafe 0 = 1 ∧ ∀ c, c < 16 → ((downLost s).chan c).driven = false) ∧
      (b.fieldBad < 3 → (downLost s).barrier.fieldSafe = b.fieldSafe ∧ (downLost s).chans = s.chans) ∧
      (s.flag .barUp 0 = true → b.upBad = 3 → (upLost s).get .barUp 0 = 0 ∧ (upLost s).get .barSafeSeen 0 = 1 ∧
        ∀ c, c < 16 → (upLost s).get .fcStale c = 1) ∧
      (s.flag .barUp 0 = false → b.upGood = 63 → (upGoodFrame s f).get .barUp 0 = 1)) ∧
  (∀ (s : State) (n : Fin 2) (c0 c1 : Bool),
      (s.power ≠ .off → ∃ t, exec (.trip n) s = .next t ∧
        t.get .tripLatch 0 = (s.get .tripLatch 0 ||| 2 ^ n.val) % 4 ∧ bitAt (t.get .tripActive 0) n.val = true ∧
        (∀ c, c < 16 → bitAt (fieldMask s n.val) c = true → (t.chan c).driven = false) ∧
        (∀ c, c < 16 → bitAt (fieldMask s n.val) c = false → t.chan c = s.chan c)) ∧
      (s.power = .full → s.flag .barUp 0 = true → s.barrier.fieldSafe = false → s.barrier.clearReq = 0 →
        (bitAt (s.get .tripActive 0) 0 = false → ∃ t, exec (.tripClear 0 true false) s = .next t ∧
          bitAt (t.get .tripLatch 0) 0 = false ∧ bitAt (t.get .tripLatch 0) 1 = bitAt (s.get .tripLatch 0) 1 ∧
          t.get .tripLastClear 0 = cOk ∧ t.get .tripClearPending 0 = 0) ∧
        (bitAt (s.get .tripActive 0) 0 = true → ∃ t, exec (.tripClear 0 true false) s = .next t ∧
          bitAt (t.get .tripLatch 0) 0 = bitAt (s.get .tripLatch 0) 0 ∧ t.get .tripLastClear 0 = cTripActive)) ∧
      (s.power = .full → (s.flag .barUp 0 = false ∨ s.barrier.fieldSafe = true) → (c0 = true ∨ c1 = true) →
        ∃ t, exec (.tripClear 0 c0 c1) s = .next t ∧ t.get .tripClearPending 0 = 1 ∧
          t.get .tripLatch 0 = s.get .tripLatch 0) ∧
      (∀ fn : Fn, fn ≠ 0 → exec (.tripClear fn c0 c1) s = .next s))

/-- R326 to R330, R324 and R461: an input's settled edge sets its level and, stamped and assigned, makes one record;
an open wire, an overload and a temperature latch their flags, the last two with the output off; without supply every
output is off and every input undetermined. What the field side runs as an input or an output is what the configuration
it has applied says (R322; log entry 101). -/
def Obligations.FieldChannelsReport : Prop :=
  ∀ (s : State) (c : Chan) (level : Bool),
    let i := c.val
    let s' := s.setChan i { s.chan i with reported := true }
    (isInput s i = true → fieldInput s i = true → framesRun s = true → s.barrier.supply = true →
      s.flag .barUp 0 = true → s.flag .fcUndet i = false → s.flag .fcStamp i = true → s.flag .fcAssigned i = true →
      s.get .fcLevel i ≠ b2n level →
      exec (.inputEdge c level) s = .next (stageEvent (s'.put .fcLevel i (b2n level)) (s.get .fcContext i + 1)
        (edgeRecord s' i level s.now s.clk))) ∧
    (isInput s i = true → fieldInput s i = true → framesRun s = true → s.barrier.supply = true →
      s.flag .barUp 0 = true → s.flag .fcUndet i = true → exec (.inputEdge c level) s =
        .next ((s'.put .fcLevel i (b2n level)).put .fcUndet i 0)) ∧
    (fieldInput s i = true → bitAt (fieldCfg s i) 8 = true →
      exec (.inputOpenWire c) s = .next (s.put .fcOpenWire i 1)) ∧
    (fieldOutput s i = true → (s.chan i).driven = true →
      (∃ t, exec (.outputOverload c) s = .next t ∧ t.get .fcOverload i = 1 ∧ (t.chan i).driven = false ∧
        (t.chan i).blocked = true ∧ t.get .fcOverloads i = min (s.get .fcOverloads i + 1) 0xFFFFFFFF ∧
        (∀ d, d ≠ i → t.chan d = s.chan d) ∧ t.tx = .field i false none :: s.tx) ∧
      exec (.outputOpenWire c) s = .next (s.put .fcOpenWire i 1)) ∧
    (fieldOutput s i = true → ∃ t, exec (.overTemperature c) s = .next t ∧ t.get .fcOverTemp i = 1 ∧
      (t.chan i).driven = false) ∧
    (∃ t, exec .fieldSupplyLost s = .next t ∧ t.barrier.supply = false ∧ t.get .barSupplyOk 0 = 0 ∧
      (∀ d, d < 16 → (t.chan d).driven = false) ∧
      (∀ d, d < 16 → isInput s d = true → t.get .fcLevel d = 0 ∧ t.get .fcUndet d = 1)) ∧
    exec .fieldSupplyReturn s =
      .next ({ s with barrier := { s.barrier with supply := true } }.put .barSupplyOk 0 1)

/-! ### Network time, the host interface -/

/-- R343, R345 and R346: a Sync feeds the servo of an enabled domain, which is LOCKED after sixteen good intervals in
a row; a lost domain is LOST and a selection set to auto yields to the other one where that is LOCKED; TIME_STEP steps
device time where no context is bound and no launch waits, and leaves both domains' own clocks; a pdelay request is
answered in a domain that measures its port. R348 to R350: the head of a launch queue waits for its launch time, goes
out when that has fallen by at most 8 ns, and after that late or not at all, as the port's policy says; a frame that
goes out leaves its status in its slot and its time-stamp where it asked for one. The length of an entry is taken as
it stands (log entry 64). -/
def Obligations.DeviceTimeAndLaunches : Prop :=
  (∀ (s : State) (d : Dom) (time : BitVec 64) (ppb : BitVec 32) (fn : Fn) (hi : Word) (p : EPort),
      let x := s.servo d.val
      let seen : Int := sext 64 (wrapTo 64 ((time.toNat : Int) - s.now)) * nsUnits
      let good := if x.synced = true ∧ (seen - x.offset).natAbs < 100 * nsUnits.natAbs then x.good + 1 else 0
      let step := s.loOf .timeStep 0 + hi.toNat * 2 ^ 32
      let profile := s.get .domProfile d.val
      let measures := s.flag .domEnable d.val = true ∧ s.get .domPort d.val = p.val ∧ (profile = 1 ∨ profile = 2)
      (s.power ≠ .off → s.flag .domEnable d.val = true →
        ∃ t, exec (.ptpSync d time ppb) s = .next t ∧ (t.servo d.val).synced = true ∧ (t.servo d.val).good = good ∧
          t.get .domFreq d.val = ppb.toNat ∧
          t.get .domState d.val = (if 16 ≤ good ∨ s.get .domState d.val = domLocked then domLocked else domAcquiring) ∧
          (s.flag .timeValid 0 = true → t.now = s.now ∧ (t.servo d.val).offset = seen)) ∧
      (s.get .domState d.val ≠ domDisabled →
        ∃ t, exec (.domainLost d) s = .next t ∧ t.get .domState d.val = domLost ∧ (t.servo d.val).synced = false ∧
          (s.flag .timeValid 0 = true → t.now = s.now) ∧
          (s.flag .timeAuto 0 = true → s.get .timeSel 0 = d.val → s.get .domState (1 - d.val) = domLocked →
            t.get .timeSel 0 = 1 - d.val ∧ t.get .timeSwitched 0 = 1)) ∧
      (s.power = .full → (∀ k, k < 16 → s.flag .ctxBound k = false) → (∀ e, e < 2 → (s.eport e).queue = []) →
        ∃ t, exec (.timeStep 0 hi) s = .next t ∧ t.now = step % 2 ^ 64 ∧ t.get .timeValid 0 = 1 ∧
          ∀ e, e < 2 → (t.servo e).offset = (s.servo e).offset - ((step : Int) - s.now) * nsUnits) ∧
      (s.power = .full → ((∃ k, k < 16 ∧ s.flag .ctxBound k = true) ∨ (∃ e, e < 2 ∧ (s.eport e).queue ≠ [])) →
        exec (.timeStep 0 hi) s = .next (s.put .timeStepRefused 0 1)) ∧
      (fn ≠ 0 → exec (.timeStep fn hi) s = .next s) ∧
      (measures → exec (.pdelayReq p d) s = .next (s.emit (.pdelayResp p.val d.val))) ∧
      (¬measures → exec (.pdelayReq p d) s = .next s)) ∧
  (∀ (s : State) (p : EPort) (val : Word),
      let x := s.eport p.val
      exec (.launchTimeReached p) s = .next (serveLaunch s p.val) ∧
      exec (.launchFrameEnd p) s = .next (serveLaunch (s.setEport p.val { x with sending := false }) p.val) ∧
      exec (.pcsReady p) s = .next (serveLaunch (s.put .lqPcsReady p.val 1) p.val) ∧
      exec (.pcsNotReady p) s = .next (s.put .lqPcsReady p.val 0) ∧
      (s.power = .full → bitAt val.toNat 0 = true →
        exec (.txtsPop 0 p val) s = .next (s.setEport p.val { x with txts := x.txts.drop 1 })) ∧
      (∀ e es, memoriesCanonical s → x.queue = e :: es → x.sending = false →
        let ready := s.flag .lqPcsReady p.val
        (e.time ≠ 0 → sinceLaunch s e < 0 → serveLaunch s p.val = s) ∧
        ((e.time = 0 ∨ (0 ≤ sinceLaunch s e ∧ sinceLaunch s e ≤ 8)) → ready = true →
          serveLaunch s p.val = sendHead s p.val e false) ∧
        (e.time ≠ 0 → 8 < sinceLaunch s e → s.flag .lqLatePolicy p.val = true → ready = true →
          serveLaunch s p.val = sendHead s p.val e true) ∧
        (e.time ≠ 0 → 8 < sinceLaunch s e → s.flag .lqLatePolicy p.val = false →
          (serveLaunch s p.val).get .lqDropped p.val ≠ 0) ∧
        (∀ late, let t := sendHead s p.val e late
          .frame p.val e.frame late ∈ t.tx ∧ (t.eport p.val).sending = true ∧
            memRead t.host (slotAddr s (launchRing p.val) e.slot + 14) = BitVec.ofNat 8 (b2n late) ∧
            t.get .ringProd (launchRing p.val) = (e.slot + 1) % 2 ^ 32 ∧
            (e.tsReq = true → x.txts.length < 16 → (t.eport p.val).txts =
              x.txts ++ [(e.tsId, wrapTo 64 ((s.now : Int) + sext 16 (s.get .tsTxCorr p.val)))]))))

/-- R354 to R356, R361, R362 and R367: a consumer index takes the value written; a command-ring entry becomes a
message of its function's firmware mailbox, or waits while that is full; the status block, at most once a microsecond,
shows the command ring's index and device time; an interrupt that fell inside its interval fires at the interval's end. R358 to R360 and R366: a page that is
ready goes into the next slot of the crop ring with its header; a partial page becomes ready when its flush time has run
out; one held for its whole hold time is abandoned with its records, and a SPOIL record at the front of the page that
follows names them where that still fits (log entry 103). -/
def Obligations.RingsAndPagesKeepTheirIndices : Prop :=
  (∀ (s : State) (fn : Fn) (ring : Fin 6) (val : Word),
      let cmd := ringOf fn.val 0
      let idx := s.get .ringProd cmd
      let box := s.mbox fn.val
      let at0 := statusAddr s fn.val
      (∀ r, s.power = .full → hostRing fn.val ring.val = some r →
        ∃ t, exec (.ringConsWrite fn ring val) s = .next t ∧ t.get .ringCons r = val.toNat ∧
          t.chases = s.chases ∧ t.mboxes = s.mboxes) ∧
      (hostRing fn.val ring.val = none → exec (.ringConsWrite fn ring val) s = .next s) ∧
      (ringRuns s cmd = true → idx ≠ s.get .ringCons cmd → box.msgs.length < 16 →
        ∃ t m, exec (.commandRingEntry fn) s = .next t ∧ (t.mbox fn.val).msgs = box.msgs ++ [m] ∧
          m.words = slotWords s (slotAddr s cmd idx) ∧ m.ring = some (BitVec.ofNat 32 idx) ∧
          m.sender.toNat = fn.val ∧ m.stale = false ∧ t.get .ringProd cmd = (idx + 1) % 2 ^ 32) ∧
      ((ringRuns s cmd = false ∨ idx = s.get .ringCons cmd ∨ 16 ≤ box.msgs.length) →
        exec (.commandRingEntry fn) s = .next s) ∧
      (memoriesCanonical s → at0 ≠ 0 → s.power = .full → statusDue s fn.val = true →
        ∃ t, exec (.statusBlockWrite fn) s = .next t ∧ memNat t.host (at0 + 12) 4 = idx % 2 ^ 32 ∧
          memNat t.host (at0 + 16) 8 = s.now % 2 ^ 64 ∧ { t with host := s.host, rings := s.rings } = s ∧
          statusDue t fn.val = false ∧ ∀ a, (a < at0 ∨ at0 + 64 ≤ a) → memRead t.host a = memRead s.host a) ∧
      ((at0 = 0 ∨ s.power ≠ .full ∨ statusDue s fn.val = false) → exec (.statusBlockWrite fn) s = .next s) ∧
      (∀ r v, hostRing fn.val ring.val = some r → ringVector r = some v → (s.ring r).due = true →
        ∃ t, exec (.interruptInterval fn ring) s = .next t ∧ t.tx = .msix (ringFn r) v :: s.tx ∧
          (t.ring r).due = false ∧ (t.ring r).fired = some s.clk) ∧
      (∀ r, hostRing fn.val ring.val = some r → (s.ring r).due = false →
        exec (.interruptInterval fn ring) s = .next s)) ∧
  (∀ (s : State) (k : Ctx),
      let c := (s.context k.val).crop
      let r := cropRing k.val
      let at0 := slotAddr s r (s.get .ringProd r)
      (∀ p, memoriesCanonical s → c.held = some p → ringRuns s r = true → ringFree s r = true →
        ∃ t, exec (.cropPageDelivery k) s = .next t ∧ (t.context k.val).crop = { c with held := none } ∧
          t.get .ringProd r = (s.get .ringProd r + 1) % 2 ^ 32 ∧ memNat t.host at0 1 = 0x20 ∧
          memNat t.host (at0 + 4) 4 = p.seq % 2 ^ 32 ∧ memNat t.host (at0 + 8) 4 = p.bytes.length % 2 ^ 32 ∧
          memNat t.host (at0 + 12) 4 = p.records % 2 ^ 32 ∧ memBytes t.host (at0 + 64) p.bytes.length = p.bytes) ∧
      ((c.held = none ∨ ringRuns s r = false ∨ ringFree s r = false) → exec (.cropPageDelivery k) s = .next s) ∧
      (∀ p, c.filling = some p → c.held = none → s.get .winCropFlush k.val ≠ 0 →
        p.since + Config.k4PerUs * s.get .winCropFlush k.val ≤ s.clk →
        ∃ t, exec (.cropFlushTimeout k) s = .next t ∧ (t.context k.val).crop.filling = none ∧
          (t.context k.val).crop.held =
            (if ringRuns s r && ringFree s r then none else some { p with since := s.clk })) ∧
      (∀ p, c.held = some p → p.since + Config.k4PerUs * s.get .winPageHold k.val ≤ s.clk →
        ∃ t, exec (.pageHoldTimeout k) s = .next t ∧ { t with ctxs := s.ctxs } = s ∧
          (t.context k.val).crop =
            ({ c with held := none, abandoned := c.abandoned + 1, lost := c.lost + p.records,
                      firstLost := some (c.firstLost.getD p.seq) } : Crop).spoilNext k.val (pageRoom s k.val)) ∧
      (∀ p, c.held = some p → s.clk < p.since + Config.k4PerUs * s.get .winPageHold k.val →
        exec (.pageHoldTimeout k) s = .next s))

/-- R363, R369 and R371 to R374: HELLO agrees on the highest version both ranges hold; an undefined code completes
VERSION_MISMATCH; a post goes in behind the messages that wait, or is turned away; a take removes the oldest message
and completes it with the taker's code; a pop removes the oldest completion. R380 and R381: a free quoin goes to the
function that reads QACQ; one that is held answers BUSY and stays with its holder; its holder alone releases it and
clears its BROKEN mark; a function that is not granted gets ISOLATED. -/
def Obligations.MailboxesAndQuoins : Prop :=
  (∀ (s : State) (r : Req) (lo hi : BitVec 16) (code : BitVec 8) (fn : Fn) (m : MbxNo) (len : BitVec 7) (chan : Bool),
      let u := takeRequest s r
      let f := senderFn s r.sender.toNat
      let v := min (s.get .fwProto 0 / 65536) hi.toNat
      let b := s.mbox m.val
      (served s r true true → s.flag .helloDone f = false → s.get .fwProto 0 % 65536 ≤ v → lo.toNat ≤ v →
        ∃ t, exec (.hello r lo hi) s = .next (answer t r cOk [BitVec.ofNat 32 v]) ∧ t.get .helloVer f = v ∧
          t.get .helloDone f = 1 ∧ keepsRegs [.helloVer, .helloDone] s t) ∧
      (served s r true true → s.flag .helloDone f = false → (v < s.get .fwProto 0 % 65536 ∨ v < lo.toNat) →
        exec (.hello r lo hi) s = .next (answer u r cVersion [])) ∧
      (served s r true true → s.flag .helloDone f = true → exec (.hello r lo hi) s = .next (answer u r cBusy [])) ∧
      (definedCode code.toNat = false → served s r false false →
        exec (.undefinedCommand r code) s = .next (answer u r cVersion [0xFFFFFFFF])) ∧
      (s.power = .full → mayPost s fn.val m.val = true → 0 < len.toNat → len.toNat ≤ 64 → b.msgs.length < 16 →
        ∃ t msg, exec (.mbxPost fn m len chan) s = .next t ∧ (t.mbox m.val).msgs = b.msgs ++ [msg] ∧
          msg.words = postData s m.val ∧ msg.length = len.toNat ∧ msg.channel = chan ∧ msg.sender.toNat = fn.val ∧
          msg.gen.toNat = senderGen s fn.val % 256 ∧ msg.stale = false ∧ t.get .mbxPostResult m.val = cOk ∧
          keepsRegs [.mbxPostResult] s t) ∧
      (s.power = .full → mayPost s fn.val m.val = true → 16 ≤ b.msgs.length →
        exec (.mbxPost fn m len chan) s = .next (s.put .mbxPostResult m.val cBusy)) ∧
      (s.power = .full → mayPost s fn.val m.val = false →
        exec (.mbxPost fn m len chan) s = .next (s.put .mbxPostResult m.val cIsolated)) ∧
      (∀ (who : Option Fn) (h : Msg) (rest : List Msg), b.msgs = h :: rest →
        mayTake s (who.map (fun f => f.val)) m.val = true → (who = none ∨ s.power = .full) →
        exec (.mbxTake who m code) s = .next (complete (s.setMbox m.val { b with msgs := rest }) m.val
          (senderFn s h.sender.toNat) ((h.words.getD 0 0).toNat / 65536) h.ring code.toNat [])) ∧
      (s.power = .full → (fn = 0 ∨ mayPost s fn.val m.val = true) →
        exec (.mbxCplPop fn m) s = .next (s.setMbox m.val { b with cpls := b.cpls.drop 1 })) ∧
      (fn ≠ 0 → mayPost s fn.val m.val = false → exec (.mbxCplPop fn m) s = .next s)) ∧
  (∀ (s : State) (fn : Fn) (q : QuoinNo), s.power = .full →
      let granted := quoinGranted s q.val fn.val
      let held := s.flag .quoinHeld q.val
      let mine := quoinHeldBy s q.val fn.val
      (granted = true → held = false →
        ∃ t, exec (.qacqRead fn q) s = .next t ∧ quoinHeldBy t q.val fn.val = true ∧
          t.rd = BitVec.ofNat 32 (if s.flag .quoinBroken q.val then cBroken else cOk) ∧
          keepsRegs [.quoinHeld, .quoinHolder, .quoinHolderGen] s t) ∧
      (granted = true → held = true → exec (.qacqRead fn q) s = .next { s with rd := BitVec.ofNat 32 cBusy }) ∧
      (granted = false → exec (.qacqRead fn q) s = .next { s with rd := BitVec.ofNat 32 cIsolated }) ∧
      (granted = true → mine = true →
        (∃ t, exec (.qopRelease fn q) s = .next t ∧ t.flag .quoinHeld q.val = false ∧ t.get .qopCode fn.val = cOk ∧
          t.get .quoinBroken q.val = s.get .quoinBroken q.val ∧
          ∀ j, j ≠ q.val → quoinHeldBy t j fn.val = quoinHeldBy s j fn.val) ∧
        (s.flag .quoinBroken q.val = true → ∃ t, exec (.qopClear fn q) s = .next t ∧ t.flag .quoinBroken q.val = false ∧
          quoinHeldBy t q.val fn.val = true ∧ t.get .qopCode fn.val = cOk)) ∧
      (granted = true → mine = false → exec (.qopRelease fn q) s = .next (s.put .qopCode fn.val cBusy) ∧
        exec (.qopClear fn q) s = .next (s.put .qopCode fn.val cBusy)) ∧
      (granted = false → exec (.qopRelease fn q) s = .next (s.put .qopCode fn.val cIsolated) ∧
        exec (.qopClear fn q) s = .next (s.put .qopCode fn.val cIsolated)))

/-! ### Management -/

/-- R27, R385, R386 and R457: a level window updates level_ok, and one outside ±3 % sets level_fault with its event
and alert cause 3; a telemetry round refreshes every sensor and its limits; a thermal crit is taken up, and its hold
ends in bring-up on the WARM path once the sensor has stayed below warn for 10 s. R389 and R390: what the board port answers while
firmware runs, that a command of another check byte and one that firmware cannot serve stay unacknowledged and change
nothing else, and that a reset runs only when it was armed. The answers of the port are log entry 43. -/
def Obligations.SensorsAndBoardPortAnswer : Prop :=
  (∀ (s : State) (samples : List (BitVec 16)) (dev : BitVec 16),
      (serving s = true →
        (let held := s.mgmt.levelSeen != 2
         exec (.levelWindow true dev) s =
          .next (statusChanged s ({ s with mgmt := { s.mgmt with levelSeen := if held then 1 else 2 } }.put .modLevelOk 0
            (b2n held)))) ∧
        exec (.levelWindow false dev) s =
          .next (statusChanged s (raiseAlert (logEvent
            (({ s with mgmt := { s.mgmt with levelSeen := 2 } }.put .modLevelOk 0 0).put .modLevelFault 0 1) 0x0002 0x4D 1
              [dev.toNat, 0, 0, 0]) 3))) ∧
      (samples.length = 14 → firmwareRuns s = true → s.mgmt.hold = .none →
        let value := fun n => (samples.getD n 0).toNat
        ((∀ n ∈ [0, 2, 3], critAt n (value n) = false) →
          ∃ t, exec (.telemetryRound samples) s = .next t ∧ ∀ n, n < 14 → t.get .telValue n = value n ∧
            t.get .telWarn n = b2n (warnAt n (value n)) ∧ t.get .telCrit n = b2n (critAt n (value n))) ∧
        (s.power = .full → rungCovered s .whole rungWarm = false → mayClimb s .whole rungWarm = true → critAt 0 (value 0) = true →
          ∃ t, exec (.telemetryRound samples) s = .next t ∧ t.mgmt.hold = .thermal 0 ∧ t.mgmt.alerts.getLsbD 1 = true)) ∧
      (∀ n since, s.mgmt.hold = .thermal n → s.mgmt.coolSince = some since → since + 10000 * Config.k4PerMs ≤ s.clk →
        s.power = .full → s.mgmt.tray = false →
        ∃ t, exec .thermalHoldEnd s = .next t ∧ t.mgmt.hold = .none ∧ t.get .modService 0 = svcBringup ∧
          t.get .buStep 0 = 2 ∧ t.get .buWarmPath 0 = 1) ∧
      (∀ n, s.mgmt.hold = .thermal n →
        (s.mgmt.coolSince = none ∨ ∃ since, s.mgmt.coolSince = some since ∧ s.clk < since + 10000 * Config.k4PerMs) →
        exec .thermalHoldEnd s = .next s)) ∧
  (∀ (s : State) (n kind causes : BitVec 8) (index : BitVec 16),
      let nack := smbNack s
      exec (.smbBadPec n) s = .next nack ∧
      (s.power ≠ .off → s.mgmt.hold ≠ .pin →
        exec .smbStatus s = .next (smbReply s (natLe 4 (boardStatus s) ++ natLe 4 (lifecycleWord s)))) ∧
      (s.power ≠ .off → s.mgmt.alerts ≠ 0 →
        exec .smbAlertResponse s = .next (smbReply s [BitVec.ofNat 8 (2 * (0x50 + s.mgmt.slotPins.toNat))])) ∧
      (s.mgmt.alerts = 0 → exec .smbAlertResponse s = .next nack) ∧
      (firmwareRuns s = false →
        exec (.smbTelemetry n) s = .next nack ∧ exec (.smbEvent index) s = .next nack ∧ exec .smbIdentity s = .next nack ∧
        exec (.resetArm kind) s = .next nack ∧ exec (.resetExec kind) s = .next nack ∧
        exec (.alertClear causes) s = .next nack) ∧
      (firmwareRuns s = true →
        (n.toNat < 14 → exec (.smbTelemetry n) s = .next (smbReply s (natLe 4 (s.get .telValue n.toNat +
          65536 * s.get .telWarn n.toNat + 131072 * s.get .telCrit n.toNat)))) ∧
        (∀ e, index.toNat < 4096 → logAt s index.toNat = some e →
          exec (.smbEvent index) s = .next (smbReply s (logBytes e))) ∧
        (exec .smbIdentity s = .next (smbReply s (natLe 4 (s.field .idDevice 0 + 65536 * s.field .idStepping 0) ++
          natLe 4 s.fuses.variant ++ natLe 4 (s.get .fwVersion 0) ++ uidBytes s))) ∧
        (kind.toNat ≤ 1 → exec (.resetArm kind) s =
          .next (smbReply { s with mgmt := { s.mgmt with arm := some (kind.toNat, s.clk) } } [])) ∧
        (kind = 0 → armedFor s 0 = false → exec (.resetExec kind) s = .next (smbReply s [])) ∧
        (kind = 0 → armedFor s 0 = true → s.power = .full → coveredBy s .warm = false →
          ∃ t, exec (.resetExec kind) s = .next t ∧ t.mgmt.hold = .warm ∧ t.mgmt.arm = none ∧ t.smbAck = true) ∧
        (∃ t, exec (.alertClear causes) s = .next t ∧ t.smbAck = true ∧ t.regs = s.regs ∧ ∀ i, i < 4 →
          t.mgmt.alerts.getLsbD i = (s.mgmt.alerts.getLsbD i && !(causes.getLsbD i && causeEnded s i)))))

/-- R391 to R394 and R408: what PF0's security commands leave when they are authorised, and that every other
function's complete ISOLATED; that a locked policy answers BUSY is the model's choice (log entry 34). R394 and R396 to
R398: a challenge keeps the nonce it answers with, whatever its value; a token opens what it asks and the power state
gives; a session is logged at its start and end; the debugger halts a running sequencer within its reach and no other.
-/
def Obligations.SecurityAndDebugComplete : Prop :=
  (∀ (s : State) (r : Req) (slot : BitVec 8) (key auth : List Byte) (trained lock : Bool) (target uid bit count : Word),
      let u := takeRequest s r
      let n := slot.toNat
      let policy := natLe 1 0x42 ++ natLe 1 (b2n trained + 2 * b2n lock)
      let state := lifecycle u
      served s r false false →
        (senderFn u r.sender.toNat ≠ 0 → ∀ c ∈ [Instr.fwSvnCommit r, .keyEnrol r slot key auth, .keyRevoke r slot,
            .policySet r trained lock auth, .lifecycleAdvance r target uid auth, .optProgram r bit count auth],
          exec c s = .next (answer u r cIsolated [])) ∧
        (senderFn u r.sender.toNat = 0 →
          (∃ t, exec (.fwSvnCommit r) s = .next (answer t r cOk []) ∧
            t.fuses.svn = max (u.get .secRollback 0) (u.get .secSvn 0) ∧ t.get .secRollback 0 = t.fuses.svn % 256) ∧
          (n < 8 → u.flag .secAdvPending 0 = false → bitAt (u.get .secFilled 0) n = false →
            (needsAuth u = false ∨ authorised u (if n = 1 then 0 else 1) (natLe 1 0x40 ++ natLe 1 n ++ key) auth = true) →
            ∃ t, exec (.keyEnrol r slot key auth) s = .next (answer t r cOk []) ∧ t.fuses.keys.get [] n = key ∧
              bitAt (t.get .secFilled 0) n = true ∧
              ∀ j, j ≠ n → t.fuses.keys.get [] j = u.fuses.keys.get [] j) ∧
          (n < 8 → bitAt (u.get .secFilled 0) n = true →
            ∃ t, exec (.keyRevoke r slot) s = .next (answer t r cOk []) ∧ keyUsable t n = false ∧
              t.get .secFilled 0 = u.get .secFilled 0) ∧
          (u.flag .secLock 0 = false → (needsAuth u = false ∨ authorised u 1 policy auth = true) →
            ∃ t, exec (.policySet r trained lock auth) s = .next (answer t r cOk []) ∧ t.fuses.trained = trained ∧
              t.get .secDevTrained 0 = b2n trained ∧ t.get .secLock 0 = b2n lock) ∧
          (u.flag .secLock 0 = true →
            exec (.policySet r trained lock auth) s = .next (answer u r cBusy [])) ∧
          (u.power = .full → uid.toNat = u.get .secUid 0 → target.toNat = state + 1 → target.toNat ≠ lcOpen →
            target.toNat ≤ lcSealed → u.flag .secAdvPending 0 = false → (∀ c, c < 16 → u.get .chState c ≠ chRunning) →
            (target.toNat ≠ lcSealed ∨ bitAt (u.get .secFilled 0) 1 = false) →
            ∃ t, exec (.lifecycleAdvance r target uid auth) s = .next (answer t r cOk []) ∧
              t.fuses.lifecycle = target.toNat ∧ t.get .secTarget 0 = target.toNat ∧ t.get .secAdvPending 0 = 1 ∧
              t.get .secToken 0 = 0 ∧ (∀ j, t.fuses.keys.get [] j = []) ∧ t.get .secFilled 0 = u.get .secFilled 0 % 2 ∧
              t.fuses.wrapGen = u.fuses.wrapGen + 1) ∧
          (bit.toNat < 5 → bit.toNat + count.toNat ≤ 5 → state < lcProvisioned →
            ∃ t, exec (.optProgram r bit count auth) s = .next (answer t r cOk []) ∧ keepsRegs [] s t ∧
              ∀ i, t.fuses.optBits.get false i = (u.fuses.optBits.get false i ||
                (decide (bit.toNat ≤ i) && decide (i < bit.toNat + count.toNat)))))) ∧
  ((∀ (s : State) (r : Req) (token : List Byte),
      let u := takeRequest s r
      served s r false false → senderFn u r.sender.toNat = 0 →
        (∃ t v, exec (.debugChallenge r) s = .next (answer t r cOk
            ((List.range 6).map (fun i => BitVec.ofNat 32 (bitsAt v (32 * i) 32)))) ∧
          t.mgmt.nonce = some v ∧ v < 2 ^ 256 ∧ t.regs = u.regs) ∧
        (u.flag .secAdvPending 0 = false → lifecycle u = lcProvisioned →
          (tokenGood u token = true → ∃ t, exec (.debugToken r token) s = .next (answer t r cOk []) ∧
            t.get .secToken 0 = 1 ∧ t.get .secReach 0 = (leNat ((token.drop 6).take 2) &&& reachLimit u) % 8 ∧
            keepsRegs [.secToken, .secReach] s t) ∧
          (tokenGood u token = false → exec (.debugToken r token) s = .next (answer u r cSignature []))) ∧
        (u.flag .secAdvPending 0 = false → lcProvisioned < lifecycle u →
          exec (.debugToken r token) s = .next (answer u r cSignature [])) ∧
        (u.flag .secSession 0 = true → ∃ t, exec (.debugEnd r) s = .next (answer t r cOk []) ∧ t.get .secSession 0 = 0 ∧
          t.get .secToken 0 = 0 ∧ (t.log.head?.map (fun e => e.code)) = some 0x0051 ∧
          (lifecycle u = lcProvisioned → t.get .secReach 0 = 0))) ∧
    (∀ s : State, s.power ≠ .off →
      ∃ t, exec .debugSessionOpen s = .next t ∧ t.get .secSession 0 = 1 ∧
        (t.log.head?.map (fun e => e.code)) = some 0x0051 ∧
        (lcOpen < lifecycle s → t.get .secReach 0 = s.get .secReach 0) ∧
        (lifecycle s ≤ lcOpen → s.flag .secAdvPending 0 = false → t.get .secReach 0 = reachLimit s)) ∧
    (∀ (s : State) (q : SeqId),
      (s.flag .secSession 0 = true → bitAt (s.get .secReach 0) 1 = true → (sequencer s q).run = .running →
        ∃ t, exec (.debugHalt q) s = .next t ∧ (sequencer t q).run = .halted ∧
          (∀ p, p ≠ q → sequencer t p = sequencer s p) ∧
          (q.core.isNone = true → t.get .chState q.chase.val = chHalted ∧
            ∀ e ∈ (t.chase q.chase.val).openItems, e.2.orphan = true) ∧
          keepsRegs [.chState] s t) ∧
      ((s.flag .secSession 0 = false ∨ bitAt (s.get .secReach 0) 1 = false) → exec (.debugHalt q) s = .next s)))

/-- R409 to R412, R416 and R418: what each reset a command asks for leaves, and when its command completes; a chase keeps
its forme, or one that a load accepted in this cycle would have taken the place of (R12); a requester without the right
gets ISOLATED. -/
def Obligations.ResetsTakeHold : Prop :=
  ∀ (s : State) (r : Req) (n : ChaseNo) (k : Ctx) (g : ResetTarget),
    let u := takeRequest s r
    let v := restorePrior u n.val
    let allowed := fun (x : ResetTarget) => served s r true false ∧ mayReset u r x = true ∧ coveredBy u x = false
    (served s r true false → mayReset u r g = false → exec (.reset r g) s = .next (answer u r cIsolated [])) ∧
    (allowed .warm → u.power = .full →
      ∃ t, exec (.reset r .warm) s = .next t ∧ t.mgmt.hold = .warm ∧ t.sram = [] ∧ t.galley = [] ∧ t.chases = .empty ∧
        t.ctxs = .empty ∧ t.ports = .empty ∧ t.rings = .empty ∧ t.lpddr = s.lpddr ∧ t.fuses = s.fuses) ∧
    (allowed .fabric →
      ∃ t, exec (.reset r .fabric) s = .next t ∧ t.mgmt.hold = .fabric ∧ t.sram = [] ∧ t.istore = [] ∧ t.fqs = .empty ∧
        t.lpddr = s.lpddr ∧ (∀ c, c < 16 → (t.chan c).driven = false) ∧
        ∀ j, j < 16 → (t.context j).resetting = true) ∧
    (allowed (.chase n) → u.flag .chPresent n.val = true →
      ∃ t, exec (.reset r (.chase n)) s = .next t ∧ (t.chase n.val).draining = true ∧
        t.get .chState n.val = (if (v.chase n.val).forme.isSome then chLoading else chEmpty) ∧
        t.get .genChase n.val = (u.get .genChase n.val + 1) % 256 ∧ (t.chase n.val).forme = (v.chase n.val).forme ∧
        (∀ c ∈ (v.chase n.val).allCores, ∀ a, memRead t.sram (sramAddr c a) = 0) ∧
        t.mgmt.resetReqs = s.mgmt.resetReqs ++ [(n.val, r)]) ∧
    (allowed (.context k) →
      ∃ t, exec (.reset r (.context k)) s = .next t ∧ (t.context k.val).resetting = true ∧
        t.get .genDraining k.val = 1 ∧ t.get .genCtx k.val = (u.get .genCtx k.val + 1) % 256 ∧
        (t.context k.val).oneshots = .empty ∧ (t.context k.val).applies = .empty ∧ t.sram = s.sram ∧
        t.galley = s.galley ∧ (∀ j, j ≠ k.val → t.context j = s.context j) ∧
        t.mgmt.resetReqs = s.mgmt.resetReqs ++ [(16 + k.val, r)])

/-- R352, R409, R411, R422, R423 and R452: RST_N, the function level resets and PERST#, and the ends of the resets
that hold the module. R406, R411, R416, R418 and R419: a drained context is served again with an empty galley; a
drained chase reloads its forme, or is EMPTY where it has none, and the reload's digest decides whether it is STOPPED
or EMPTY; an arrival of another generation is dropped and counted; a forced gate stop is counted. -/
def Obligations.ResetsEndInService : Prop :=
  (∀ (s : State) (slot : BitVec 4) (k : Ctx),
      exec .pciePerst s = .next s ∧
      (s.power ≠ .off →
        ∃ t, exec (.pinReset slot) s = .next t ∧ t.mgmt.hold = .pin ∧ t.get .rhModule 0 = slot.toNat ∧ t.sram = [] ∧
          t.lpddr = [] ∧ t.log = [] ∧ t.fuses = s.fuses ∧ t.power = s.power ∧ t.pending = s.pending ∧
          t.mgmt.tray = s.mgmt.tray ∧ t.mgmt.alerts = s.mgmt.alerts &&& 1 ∧ (∀ c, (t.chan c).driven = false)) ∧
      (s.mgmt.hold = .pin → s.mgmt.tray = true →
        ∃ t, exec .rstNRelease s = .next t ∧ t.get .modService 0 = svcFailed ∧ t.get .buFailReason 0 = 5) ∧
      (s.mgmt.hold = .pin → s.mgmt.tray = false → s.power = .full →
        ∃ t, exec .rstNRelease s = .next t ∧ t.mgmt.hold = .none ∧ t.get .modService 0 = svcBringup ∧
          t.get .buStep 0 = 1 ∧ t.get .buWarmPath 0 = 0) ∧
      (s.mgmt.hold = .pin → s.mgmt.tray = false → s.power = .aux →
        exec .rstNRelease s = .next { s with mgmt := { s.mgmt with hold := .none } }) ∧
      (s.mgmt.hold = .warm → s.mgmt.tray = false → s.power = .full →
        ∃ t, exec .warmResetEnd s = .next t ∧ t.mgmt.hold = .none ∧ t.get .modService 0 = svcBringup ∧
          t.get .buStep 0 = 2 ∧ t.get .buWarmPath 0 = 1 ∧ t.mgmt.resetReqs = []) ∧
      (s.mgmt.hold = .warm → s.mgmt.tray = true →
        ∃ t, exec .warmResetEnd s = .next t ∧ t.get .modService 0 = svcFailed ∧ t.get .buFailReason 0 = 5) ∧
      (s.mgmt.hold = .fabric → s.get .modService 0 ≠ svcFailed →
        ∃ t, exec .fabricResetEnd s = .next t ∧ t.mgmt.hold = .none ∧ t.get .rhGen 0 = (s.get .rhGen 0 + 1) % 256 ∧
          ∀ j, j < 16 → (t.context j).resetting = false) ∧
      (s.power = .full → ∃ t, exec (.vfFlr k) s = .next t ∧ t.get .helloDone (k.val + 1) = 0 ∧
        (∀ kind, kind < 4 → t.get .ringEnable (ringOf (k.val + 1) kind) = 0 ∧
          t.get .ringProd (ringOf (k.val + 1) kind) = 0) ∧
        (coveredBy s (.context k) = false → (t.context k.val).resetting = true)) ∧
      (s.power = .full → ∃ t, exec .pf0Flr s = .next t ∧ (∀ q, q < 70 → t.get .ringEnable q = 0) ∧
        t.get .genPf0 0 = (s.get .genPf0 0 + 1) % 256 ∧ (coveredBy s .fabric = false → t.mgmt.hold = .fabric))) ∧
  (∀ (s : State) (n : ChaseNo) (k : Ctx) (gen : BitVec 8),
      let c := s.chase n.val
      exec .gateStopForced s = .next (s.bump .gateForced 0) ∧
      ((s.context k.val).resetting = true → s.mgmt.hold = .none →
        ∃ t, exec (.teardownDrainEnd (.context k)) s = .next t ∧ (t.context k.val).resetting = false ∧
          (t.context k.val).slots = [] ∧ t.get .genDraining k.val = 0) ∧
      (c.draining = true → c.forme = none →
        ∃ t, exec (.teardownDrainEnd (.chase n)) s = .next t ∧ t.get .chState n.val = chEmpty ∧
          (t.chase n.val).draining = false) ∧
      (∀ f, c.draining = true → c.forme = some f → placementPresent s n.val = true →
        ∃ t, exec (.teardownDrainEnd (.chase n)) s = .next t ∧ (t.chase n.val).draining = false ∧
          (t.chase n.val).reloading = true ∧ (t.chase n.val).forme = some f ∧ t.regs = s.regs) ∧
      (∀ f, c.reloading = true → c.restart = false → c.forme = some f → placementPresent s n.val = true →
        (Config.sha384 (memBytes s.lpddr f.addr f.size) = f.digest →
          ∃ t, exec (.chaseReloadDone n) s = .next t ∧ t.get .chState n.val = chStopped ∧
            (t.chase n.val).reloading = false ∧ (t.chase n.val).forme = some f) ∧
        (Config.sha384 (memBytes s.lpddr f.addr f.size) ≠ f.digest →
          ∃ t, exec (.chaseReloadDone n) s = .next t ∧ t.get .chState n.val = chEmpty ∧ (t.chase n.val).forme = none)) ∧
      (gen.toNat ≠ s.get .genCtx k.val →
        exec (.staleArrival (.context k) gen) s = .next (s.bump .genStaleCtx k.val)) ∧
      (gen.toNat = s.get .genCtx k.val → exec (.staleArrival (.context k) gen) s = .next s) ∧
      (gen.toNat ≠ s.get .genChase n.val →
        exec (.staleArrival (.chase n) gen) s = .next (s.bump .genStaleChase n.val)))

/-- R402, R422 to R424, R428 to R430 and R437: bring-up goes on step by step, and waits in step 2 for a clock source;
a step that fails leaves FAILED with its reason; a lane that qualifies enters service and one with an error is
excluded; a burst of the background test that fails is counted, and the last one ends the pass. When step 2 ends and
when a lane is admitted is log entry 59. -/
def Obligations.BringUpGoesOnStepByStep : Prop :=
  ∀ (s : State) (f : StepFindings) (lane : Fin 16) (addr : Nat) (passed : Bool),
    let step := s.get .buStep 0
    let runs := s.power = .full ∧ s.mgmt.hold = .none ∧ s.get .modService 0 = svcBringup
    let l := lane.val
    let size := lpddrBytes s
    (runs → (step = 1 ∨ step = 3 ∨ step = 4 ∨ step = 6 ∨ (step = 2 ∧ rootLocked s = true ∧ f.failure.val = 0)) →
      ∃ t, exec (.bringupStepDone f) s = .next t ∧ t.get .buStep 0 = step + 1 ∧ t.get .modService 0 = svcBringup) ∧
    (runs → step = 2 → f.failure.val = 0 → rootLocked s = false →
      ∃ t, exec (.bringupStepDone f) s = .next t ∧ t.get .buStep 0 = 2 ∧ keepsRegs [.buElapsed] s t) ∧
    (runs → step = 2 → f.failure.val ≠ 0 →
      ∃ t, exec (.bringupStepDone f) s = .next t ∧ t.get .modService 0 = svcFailed ∧
        t.get .buFailReason 0 = f.failure.val ∧ t.mgmt.alerts.getLsbD 2 = true) ∧
    (runs → step = 7 → ∃ t, exec (.bringupStepDone f) s = .next t ∧
      t.get .buStep 0 = (if s.flag .buWarmPath 0 = true ∧ s.mgmt.testsDone = true then 9 else 8)) ∧
    (runs → step = 9 → ∃ t, exec (.bringupStepDone f) s = .next t ∧ t.get .modService 0 ≠ svcBringup ∧
      (t.get .modService 0 = svcReady → ∀ c, c < 32 → t.get .fpcPresent c ≠ 0 ∧ t.get .fpcEngines c = 4)) ∧
    (rhQualifying s l = true → ∃ t, exec (.laneQualified true lane) s = .next t ∧
      rhQualifying t l = false ∧ bitAt (t.get .buQualRh 0) l = true) ∧
    (s.get .cxpLaneState l = lnDiscovery → ∃ t, exec (.laneQualified false lane) s = .next t ∧
      laneQualifiedAt t l (s.get .cxpLaneRate l) = true ∧ bitAt (t.get .buQualCxp 0) l = true ∧
      t.get .cxpLaneState l = (if serving s then lnUp else lnDiscovery)) ∧
    (rhQualifying s l = true → ∃ t, exec (.laneQualificationError true lane) s = .next t ∧
      bitAt (t.get .buExclRh 0) l = true ∧ bitAt (t.get .fpLanesRh 0) l = false ∧ bitAt (soundLanes t (l / 4)) (l % 4) = false ∧
      t.get .rhState (l / 4) = (if soundLanes t (l / 4) = 0 then lnkDisabled else lnkRetrain)) ∧
    (s.get .cxpLaneState l = lnDiscovery → ∃ t, exec (.laneQualificationError false lane) s = .next t ∧
      t.get .cxpLaneState l = lnExcluded ∧ bitAt (t.get .buExclCxp 0) l = true ∧ bitAt (t.get .fpLanesCxp 0) l = false ∧
      (t.log.head?.map (fun e => e.code)) = some 0x0010) ∧
    (s.flag .buLpddrBg 0 = true → addr < size →
      ∃ t, exec (.lpddrBgBurst addr passed) s = .next t ∧
        t.get .buLpddrFail 0 = (if passed then s.get .buLpddrFail 0 else min (s.get .buLpddrFail 0 + 1) 0xFFFFFFFF) ∧
        (size ≤ addr + 64 → t.get .buBgDone 0 = 1 ∧ t.get .buLpddrBg 0 = 0) ∧
        (addr + 64 < size → t.get .buBgProgress 0 = addr * 256 / size ∧ t.get .buLpddrBg 0 = s.get .buLpddrBg 0))
end

