-- ==== Sys2Proof/Laws/Memory.lean ====
section
/-! SUPPORT. The laws of tables and memories: what a read after a write gives, and that every operation keeps the
canonical form. -/

namespace Sys2Proof.Laws

open Sys2Proof.Machine

/-! ### Tables -/

/-- Reading the index just set gives the value. -/
@[simp] theorem tab_get_set_same {α : Type} (t : Tab α) (d v : α) (i : Nat) : (t.set i v).get d i = v := by
  simp [Tab.get, Tab.set]

/-- Finding a key in a list from which another key was removed. -/
theorem find_filter_ne {α : Type} (l : List (Nat × α)) {i j : Nat} (h : j ≠ i) :
    (l.filter (fun e => e.1 != i)).find? (fun e => e.1 == j) = l.find? (fun e => e.1 == j) := by
  induction l with
  | nil => rfl
  | cons e l ih =>
    by_cases hi : e.1 = i
    · have hij : (i == j) = false := beq_eq_false_iff_ne.mpr (fun x => h x.symm)
      simp [hi, ih, hij]
    · by_cases hj : e.1 = j
      · simp [hj, h]
      · simp [hi, ih, beq_eq_false_iff_ne.mpr hj]

/-- Setting one index leaves every other as it was. -/
theorem tab_get_set_other {α : Type} (t : Tab α) (d v : α) {i j : Nat} (h : j ≠ i) :
    (t.set i v).get d j = t.get d j := by
  have hij : (i == j) = false := beq_eq_false_iff_ne.mpr (fun e => h e.symm)
  simp [Tab.get, Tab.set, hij, find_filter_ne t.entries h]

/-- Every index of an empty table reads its default. -/
@[simp] theorem tab_get_empty {α : Type} (d : α) (i : Nat) : (Tab.empty : Tab α).get d i = d := rfl

/-! ### Canonical memories -/

/-- What the canonical form of a non-empty memory says. -/
theorem wf_cons (c : Host.Cell) (m : Memory) :
    Memory.wf (c :: m) = true ↔ c.2 ≠ 0 ∧ (∀ d ∈ m.head?, c.1 < d.1) ∧ Memory.wf m = true := by
  cases m with
  | nil => simp [Memory.wf]
  | cons d m => simp [Memory.wf, and_assoc]

/-- In a canonical memory every later cell lies above the first. -/
theorem wf_tail_above {c : Host.Cell} {m : Memory} (h : Memory.wf (c :: m) = true) : ∀ d ∈ m, c.1 < d.1 := by
  induction m generalizing c with
  | nil => simp
  | cons e m ih =>
    obtain ⟨_, h1, h2⟩ := (wf_cons c (e :: m)).mp h
    have hce : c.1 < e.1 := h1 e (by simp)
    intro d hd
    rcases List.mem_cons.mp hd with rfl | hd
    · exact hce
    · exact lt_trans hce (ih h2 d hd)

/-- The first cell of a memory after a write lies above a bound that the old first cell and the written address lie above. -/
theorem write_head_above {m : Memory} {a : Nat} {v : Byte} {b : Nat} (hm : ∀ d ∈ m.head?, b < d.1) (ha : b < a)
    (hw : Memory.wf m = true) : ∀ d ∈ (memWrite m a v).head?, b < d.1 := by
  cases m with
  | nil =>
    by_cases hv : v = 0#8 <;> simp [memWrite, hv, ha]
  | cons c m =>
    have hc : b < c.1 := hm c (by simp)
    obtain ⟨c1, c2⟩ := c
    simp only [memWrite]
    split
    · split
      · simpa using hc
      · simpa using ha
    · split
      · split
        · intro d hd
          exact lt_trans hc (wf_tail_above hw d (List.mem_of_mem_head? hd))
        · simpa using ha
      · simpa using hc

/-- A byte write keeps the canonical form. -/
theorem memWrite_wf {m : Memory} (h : Memory.wf m = true) (a : Nat) (v : Byte) : Memory.wf (memWrite m a v) = true := by
  induction m with
  | nil => by_cases hv : v = 0#8 <;> simp [memWrite, hv, Memory.wf]
  | cons c m ih =>
    obtain ⟨c1, c2⟩ := c
    obtain ⟨h0, h1, h2⟩ := (wf_cons _ _).mp h
    simp only [memWrite]
    split
    · split
      · exact h
      · rename_i ha hv
        exact (wf_cons _ _).mpr ⟨hv, by simpa using ha, h⟩
    · split
      · rename_i ha
        split
        · exact h2
        · rename_i hv
          exact (wf_cons _ _).mpr ⟨hv, by simpa [ha] using h1, h2⟩
      · rename_i hlt hne
        have hgt : c1 < a := by omega
        exact (wf_cons _ _).mpr ⟨h0, write_head_above h1 hgt h2, ih h2⟩

/-- Storing bytes keeps the canonical form. -/
theorem memStore_wf {m : Memory} (h : Memory.wf m = true) (a : Nat) (l : List Byte) :
    Memory.wf (memStore m a l) = true := by
  induction l generalizing m a with
  | nil => exact h
  | cons b l ih => exact ih (memWrite_wf h a b) (a + 1)

/-- Removing cells keeps the canonical form. -/
theorem filter_wf {m : Memory} (h : Memory.wf m = true) (p : Host.Cell → Bool) : Memory.wf (m.filter p) = true := by
  induction m with
  | nil => rfl
  | cons c m ih =>
    obtain ⟨h0, _, h2⟩ := (wf_cons _ _).mp h
    rw [List.filter_cons]
    split
    · refine (wf_cons _ _).mpr ⟨h0, fun d hd => ?_, ih h2⟩
      exact wf_tail_above h d (List.mem_of_mem_filter (List.mem_of_mem_head? hd))
    · exact ih h2

/-- Clearing a range keeps the canonical form. -/
theorem memZero_wf {m : Memory} (h : Memory.wf m = true) (lo hi : Nat) : Memory.wf (memZero m lo hi) = true :=
  filter_wf h _

/-! ### Reads after writes -/

/-- Below every listed address a memory reads 0. -/
theorem memRead_below {m : Memory} {a : Nat} (h : ∀ d ∈ m.head?, a < d.1) : memRead m a = 0 := by
  cases m with
  | nil => rfl
  | cons c m =>
    obtain ⟨c1, c2⟩ := c
    have hc : a < c1 := h (c1, c2) (by simp)
    simp [memRead, hc, Nat.ne_of_gt hc]

/-- A read of the written address gives the written byte. -/
theorem memRead_memWrite_same {m : Memory} (h : Memory.wf m = true) (a : Nat) (v : Byte) :
    memRead (memWrite m a v) a = v := by
  induction m with
  | nil => by_cases hv : v = 0#8 <;> simp [memWrite, memRead, hv]
  | cons c m ih =>
    obtain ⟨c1, c2⟩ := c
    obtain ⟨_, h1, h2⟩ := (wf_cons _ _).mp h
    simp only [memWrite]
    split
    · rename_i ha
      split
      · rename_i hv
        simp [memRead, ha, Nat.ne_of_gt ha, hv]
      · simp [memRead]
    · split
      · rename_i ha
        subst ha
        split
        · rename_i hv
          rw [memRead_below h1, hv]
        · simp [memRead]
      · rename_i hlt hne
        have hca : ¬ c1 = a := fun e => hne e.symm
        simp [memRead, hca, hlt, ih h2]

/-- A write leaves every other address as it was. -/
theorem memRead_memWrite_other {m : Memory} (h : Memory.wf m = true) {a b : Nat} (hab : b ≠ a) (v : Byte) :
    memRead (memWrite m a v) b = memRead m b := by
  induction m with
  | nil => by_cases hv : v = 0#8 <;> simp [memWrite, memRead, hv, Ne.symm hab]
  | cons c m ih =>
    obtain ⟨c1, c2⟩ := c
    obtain ⟨_, h1, h2⟩ := (wf_cons _ _).mp h
    simp only [memWrite]
    split
    · rename_i ha
      split
      · rfl
      · by_cases hb : b < a
        · simp [memRead, Ne.symm hab, hb, lt_trans hb ha, Nat.ne_of_gt (lt_trans hb ha)]
        · simp [memRead, Ne.symm hab, hb]
    · split
      · rename_i ha
        subst ha
        split
        · by_cases hb : b < a
          · have hz : memRead m b = 0 := memRead_below (fun d hd => lt_trans hb (h1 d hd))
            simp [memRead, Ne.symm hab, hb, hz]
          · simp [memRead, Ne.symm hab, hb]
        · simp [memRead, Ne.symm hab]
      · simp [memRead, ih h2]

/-- Storing bytes leaves every address outside them as it was. -/
theorem memRead_memStore_outside {m : Memory} (h : Memory.wf m = true) {a b : Nat} (l : List Byte)
    (hb : b < a ∨ a + l.length ≤ b) : memRead (memStore m a l) b = memRead m b := by
  induction l generalizing m a with
  | nil => rfl
  | cons x l ih =>
    have hne : b ≠ a := by simp at hb; omega
    have hb' : b < a + 1 ∨ a + 1 + l.length ≤ b := by simp at hb; omega
    rw [memStore, ih (memWrite_wf h a x) hb', memRead_memWrite_other h hne]

end Sys2Proof.Laws
end

