-- ==== Sys2Proof/Laws/State.lean ====
section
/-! SUPPORT. What each update of the state does to each of its fields. -/

namespace Sys2Proof.Machine

@[simp] theorem State.setChase_pending (s : State) (n : Nat) (c : Chase) : (s.setChase n c).pending = s.pending := rfl
@[simp] theorem State.setChase_power (s : State) (n : Nat) (c : Chase) : (s.setChase n c).power = s.power := rfl
@[simp] theorem State.setChase_clk (s : State) (n : Nat) (c : Chase) : (s.setChase n c).clk = s.clk := rfl
@[simp] theorem State.setChase_timeFrac (s : State) (n : Nat) (c : Chase) : (s.setChase n c).timeFrac = s.timeFrac := rfl
@[simp] theorem State.setChase_regs (s : State) (n : Nat) (c : Chase) : (s.setChase n c).regs = s.regs := rfl
@[simp] theorem State.setChase_pairLatch (s : State) (n : Nat) (c : Chase) : (s.setChase n c).pairLatch = s.pairLatch := rfl
@[simp] theorem State.setChase_pairLo (s : State) (n : Nat) (c : Chase) : (s.setChase n c).pairLo = s.pairLo := rfl
@[simp] theorem State.setChase_rd (s : State) (n : Nat) (c : Chase) : (s.setChase n c).rd = s.rd := rfl
@[simp] theorem State.setChase_sram (s : State) (n : Nat) (c : Chase) : (s.setChase n c).sram = s.sram := rfl
@[simp] theorem State.setChase_istore (s : State) (n : Nat) (c : Chase) : (s.setChase n c).istore = s.istore := rfl
@[simp] theorem State.setChase_galley (s : State) (n : Nat) (c : Chase) : (s.setChase n c).galley = s.galley := rfl
@[simp] theorem State.setChase_lpddr (s : State) (n : Nat) (c : Chase) : (s.setChase n c).lpddr = s.lpddr := rfl
@[simp] theorem State.setChase_host (s : State) (n : Nat) (c : Chase) : (s.setChase n c).host = s.host := rfl
@[simp] theorem State.setChase_chases (s : State) (n : Nat) (c : Chase) : (s.setChase n c).chases = s.chases.set n c := rfl
@[simp] theorem State.setChase_ctxs (s : State) (n : Nat) (c : Chase) : (s.setChase n c).ctxs = s.ctxs := rfl
@[simp] theorem State.setChase_ports (s : State) (n : Nat) (c : Chase) : (s.setChase n c).ports = s.ports := rfl
@[simp] theorem State.setChase_lineRd (s : State) (n : Nat) (c : Chase) : (s.setChase n c).lineRd = s.lineRd := rfl
@[simp] theorem State.setChase_fqs (s : State) (n : Nat) (c : Chase) : (s.setChase n c).fqs = s.fqs := rfl
@[simp] theorem State.setChase_chans (s : State) (n : Nat) (c : Chase) : (s.setChase n c).chans = s.chans := rfl
@[simp] theorem State.setChase_encs (s : State) (n : Nat) (c : Chase) : (s.setChase n c).encs = s.encs := rfl
@[simp] theorem State.setChase_emus (s : State) (n : Nat) (c : Chase) : (s.setChase n c).emus = s.emus := rfl
@[simp] theorem State.setChase_barrier (s : State) (n : Nat) (c : Chase) : (s.setChase n c).barrier = s.barrier := rfl
@[simp] theorem State.setChase_tick (s : State) (n : Nat) (c : Chase) : (s.setChase n c).tick = s.tick := rfl
@[simp] theorem State.setChase_eports (s : State) (n : Nat) (c : Chase) : (s.setChase n c).eports = s.eports := rfl
@[simp] theorem State.setChase_servos (s : State) (n : Nat) (c : Chase) : (s.setChase n c).servos = s.servos := rfl
@[simp] theorem State.setChase_rings (s : State) (n : Nat) (c : Chase) : (s.setChase n c).rings = s.rings := rfl
@[simp] theorem State.setChase_mboxes (s : State) (n : Nat) (c : Chase) : (s.setChase n c).mboxes = s.mboxes := rfl
@[simp] theorem State.setChase_log (s : State) (n : Nat) (c : Chase) : (s.setChase n c).log = s.log := rfl
@[simp] theorem State.setChase_logSeq (s : State) (n : Nat) (c : Chase) : (s.setChase n c).logSeq = s.logSeq := rfl
@[simp] theorem State.setChase_fuses (s : State) (n : Nat) (c : Chase) : (s.setChase n c).fuses = s.fuses := rfl
@[simp] theorem State.setChase_mgmt (s : State) (n : Nat) (c : Chase) : (s.setChase n c).mgmt = s.mgmt := rfl
@[simp] theorem State.setChase_clock (s : State) (n : Nat) (c : Chase) : (s.setChase n c).clock = s.clock := rfl
@[simp] theorem State.setChase_smb (s : State) (n : Nat) (c : Chase) : (s.setChase n c).smb = s.smb := rfl
@[simp] theorem State.setChase_smbAck (s : State) (n : Nat) (c : Chase) : (s.setChase n c).smbAck = s.smbAck := rfl
@[simp] theorem State.setChase_tx (s : State) (n : Nat) (c : Chase) : (s.setChase n c).tx = s.tx := rfl
@[simp] theorem State.setChase_free (s : State) (n : Nat) (c : Chase) : (s.setChase n c).free = s.free := rfl

@[simp] theorem State.setCtx_pending (s : State) (k : Nat) (c : Context) : (s.setCtx k c).pending = s.pending := rfl
@[simp] theorem State.setCtx_power (s : State) (k : Nat) (c : Context) : (s.setCtx k c).power = s.power := rfl
@[simp] theorem State.setCtx_clk (s : State) (k : Nat) (c : Context) : (s.setCtx k c).clk = s.clk := rfl
@[simp] theorem State.setCtx_timeFrac (s : State) (k : Nat) (c : Context) : (s.setCtx k c).timeFrac = s.timeFrac := rfl
@[simp] theorem State.setCtx_regs (s : State) (k : Nat) (c : Context) : (s.setCtx k c).regs = s.regs := rfl
@[simp] theorem State.setCtx_pairLatch (s : State) (k : Nat) (c : Context) : (s.setCtx k c).pairLatch = s.pairLatch := rfl
@[simp] theorem State.setCtx_pairLo (s : State) (k : Nat) (c : Context) : (s.setCtx k c).pairLo = s.pairLo := rfl
@[simp] theorem State.setCtx_rd (s : State) (k : Nat) (c : Context) : (s.setCtx k c).rd = s.rd := rfl
@[simp] theorem State.setCtx_sram (s : State) (k : Nat) (c : Context) : (s.setCtx k c).sram = s.sram := rfl
@[simp] theorem State.setCtx_istore (s : State) (k : Nat) (c : Context) : (s.setCtx k c).istore = s.istore := rfl
@[simp] theorem State.setCtx_galley (s : State) (k : Nat) (c : Context) : (s.setCtx k c).galley = s.galley := rfl
@[simp] theorem State.setCtx_lpddr (s : State) (k : Nat) (c : Context) : (s.setCtx k c).lpddr = s.lpddr := rfl
@[simp] theorem State.setCtx_host (s : State) (k : Nat) (c : Context) : (s.setCtx k c).host = s.host := rfl
@[simp] theorem State.setCtx_chases (s : State) (k : Nat) (c : Context) : (s.setCtx k c).chases = s.chases := rfl
@[simp] theorem State.setCtx_ctxs (s : State) (k : Nat) (c : Context) : (s.setCtx k c).ctxs = s.ctxs.set k c := rfl
@[simp] theorem State.setCtx_ports (s : State) (k : Nat) (c : Context) : (s.setCtx k c).ports = s.ports := rfl
@[simp] theorem State.setCtx_lineRd (s : State) (k : Nat) (c : Context) : (s.setCtx k c).lineRd = s.lineRd := rfl
@[simp] theorem State.setCtx_fqs (s : State) (k : Nat) (c : Context) : (s.setCtx k c).fqs = s.fqs := rfl
@[simp] theorem State.setCtx_chans (s : State) (k : Nat) (c : Context) : (s.setCtx k c).chans = s.chans := rfl
@[simp] theorem State.setCtx_encs (s : State) (k : Nat) (c : Context) : (s.setCtx k c).encs = s.encs := rfl
@[simp] theorem State.setCtx_emus (s : State) (k : Nat) (c : Context) : (s.setCtx k c).emus = s.emus := rfl
@[simp] theorem State.setCtx_barrier (s : State) (k : Nat) (c : Context) : (s.setCtx k c).barrier = s.barrier := rfl
@[simp] theorem State.setCtx_tick (s : State) (k : Nat) (c : Context) : (s.setCtx k c).tick = s.tick := rfl
@[simp] theorem State.setCtx_eports (s : State) (k : Nat) (c : Context) : (s.setCtx k c).eports = s.eports := rfl
@[simp] theorem State.setCtx_servos (s : State) (k : Nat) (c : Context) : (s.setCtx k c).servos = s.servos := rfl
@[simp] theorem State.setCtx_rings (s : State) (k : Nat) (c : Context) : (s.setCtx k c).rings = s.rings := rfl
@[simp] theorem State.setCtx_mboxes (s : State) (k : Nat) (c : Context) : (s.setCtx k c).mboxes = s.mboxes := rfl
@[simp] theorem State.setCtx_log (s : State) (k : Nat) (c : Context) : (s.setCtx k c).log = s.log := rfl
@[simp] theorem State.setCtx_logSeq (s : State) (k : Nat) (c : Context) : (s.setCtx k c).logSeq = s.logSeq := rfl
@[simp] theorem State.setCtx_fuses (s : State) (k : Nat) (c : Context) : (s.setCtx k c).fuses = s.fuses := rfl
@[simp] theorem State.setCtx_mgmt (s : State) (k : Nat) (c : Context) : (s.setCtx k c).mgmt = s.mgmt := rfl
@[simp] theorem State.setCtx_clock (s : State) (k : Nat) (c : Context) : (s.setCtx k c).clock = s.clock := rfl
@[simp] theorem State.setCtx_smb (s : State) (k : Nat) (c : Context) : (s.setCtx k c).smb = s.smb := rfl
@[simp] theorem State.setCtx_smbAck (s : State) (k : Nat) (c : Context) : (s.setCtx k c).smbAck = s.smbAck := rfl
@[simp] theorem State.setCtx_tx (s : State) (k : Nat) (c : Context) : (s.setCtx k c).tx = s.tx := rfl
@[simp] theorem State.setCtx_free (s : State) (k : Nat) (c : Context) : (s.setCtx k c).free = s.free := rfl

@[simp] theorem State.setPort_pending (s : State) (p : Nat) (x : Port) : (s.setPort p x).pending = s.pending := rfl
@[simp] theorem State.setPort_power (s : State) (p : Nat) (x : Port) : (s.setPort p x).power = s.power := rfl
@[simp] theorem State.setPort_clk (s : State) (p : Nat) (x : Port) : (s.setPort p x).clk = s.clk := rfl
@[simp] theorem State.setPort_timeFrac (s : State) (p : Nat) (x : Port) : (s.setPort p x).timeFrac = s.timeFrac := rfl
@[simp] theorem State.setPort_regs (s : State) (p : Nat) (x : Port) : (s.setPort p x).regs = s.regs := rfl
@[simp] theorem State.setPort_pairLatch (s : State) (p : Nat) (x : Port) : (s.setPort p x).pairLatch = s.pairLatch := rfl
@[simp] theorem State.setPort_pairLo (s : State) (p : Nat) (x : Port) : (s.setPort p x).pairLo = s.pairLo := rfl
@[simp] theorem State.setPort_rd (s : State) (p : Nat) (x : Port) : (s.setPort p x).rd = s.rd := rfl
@[simp] theorem State.setPort_sram (s : State) (p : Nat) (x : Port) : (s.setPort p x).sram = s.sram := rfl
@[simp] theorem State.setPort_istore (s : State) (p : Nat) (x : Port) : (s.setPort p x).istore = s.istore := rfl
@[simp] theorem State.setPort_galley (s : State) (p : Nat) (x : Port) : (s.setPort p x).galley = s.galley := rfl
@[simp] theorem State.setPort_lpddr (s : State) (p : Nat) (x : Port) : (s.setPort p x).lpddr = s.lpddr := rfl
@[simp] theorem State.setPort_host (s : State) (p : Nat) (x : Port) : (s.setPort p x).host = s.host := rfl
@[simp] theorem State.setPort_chases (s : State) (p : Nat) (x : Port) : (s.setPort p x).chases = s.chases := rfl
@[simp] theorem State.setPort_ctxs (s : State) (p : Nat) (x : Port) : (s.setPort p x).ctxs = s.ctxs := rfl
@[simp] theorem State.setPort_ports (s : State) (p : Nat) (x : Port) : (s.setPort p x).ports = s.ports.set p x := rfl
@[simp] theorem State.setPort_lineRd (s : State) (p : Nat) (x : Port) : (s.setPort p x).lineRd = s.lineRd := rfl
@[simp] theorem State.setPort_fqs (s : State) (p : Nat) (x : Port) : (s.setPort p x).fqs = s.fqs := rfl
@[simp] theorem State.setPort_chans (s : State) (p : Nat) (x : Port) : (s.setPort p x).chans = s.chans := rfl
@[simp] theorem State.setPort_encs (s : State) (p : Nat) (x : Port) : (s.setPort p x).encs = s.encs := rfl
@[simp] theorem State.setPort_emus (s : State) (p : Nat) (x : Port) : (s.setPort p x).emus = s.emus := rfl
@[simp] theorem State.setPort_barrier (s : State) (p : Nat) (x : Port) : (s.setPort p x).barrier = s.barrier := rfl
@[simp] theorem State.setPort_tick (s : State) (p : Nat) (x : Port) : (s.setPort p x).tick = s.tick := rfl
@[simp] theorem State.setPort_eports (s : State) (p : Nat) (x : Port) : (s.setPort p x).eports = s.eports := rfl
@[simp] theorem State.setPort_servos (s : State) (p : Nat) (x : Port) : (s.setPort p x).servos = s.servos := rfl
@[simp] theorem State.setPort_rings (s : State) (p : Nat) (x : Port) : (s.setPort p x).rings = s.rings := rfl
@[simp] theorem State.setPort_mboxes (s : State) (p : Nat) (x : Port) : (s.setPort p x).mboxes = s.mboxes := rfl
@[simp] theorem State.setPort_log (s : State) (p : Nat) (x : Port) : (s.setPort p x).log = s.log := rfl
@[simp] theorem State.setPort_logSeq (s : State) (p : Nat) (x : Port) : (s.setPort p x).logSeq = s.logSeq := rfl
@[simp] theorem State.setPort_fuses (s : State) (p : Nat) (x : Port) : (s.setPort p x).fuses = s.fuses := rfl
@[simp] theorem State.setPort_mgmt (s : State) (p : Nat) (x : Port) : (s.setPort p x).mgmt = s.mgmt := rfl
@[simp] theorem State.setPort_clock (s : State) (p : Nat) (x : Port) : (s.setPort p x).clock = s.clock := rfl
@[simp] theorem State.setPort_smb (s : State) (p : Nat) (x : Port) : (s.setPort p x).smb = s.smb := rfl
@[simp] theorem State.setPort_smbAck (s : State) (p : Nat) (x : Port) : (s.setPort p x).smbAck = s.smbAck := rfl
@[simp] theorem State.setPort_tx (s : State) (p : Nat) (x : Port) : (s.setPort p x).tx = s.tx := rfl
@[simp] theorem State.setPort_free (s : State) (p : Nat) (x : Port) : (s.setPort p x).free = s.free := rfl

@[simp] theorem State.setFq_pending (s : State) (e : Nat) (q : List FireCmd) : (s.setFq e q).pending = s.pending := rfl
@[simp] theorem State.setFq_power (s : State) (e : Nat) (q : List FireCmd) : (s.setFq e q).power = s.power := rfl
@[simp] theorem State.setFq_clk (s : State) (e : Nat) (q : List FireCmd) : (s.setFq e q).clk = s.clk := rfl
@[simp] theorem State.setFq_timeFrac (s : State) (e : Nat) (q : List FireCmd) : (s.setFq e q).timeFrac = s.timeFrac := rfl
@[simp] theorem State.setFq_regs (s : State) (e : Nat) (q : List FireCmd) : (s.setFq e q).regs = s.regs := rfl
@[simp] theorem State.setFq_pairLatch (s : State) (e : Nat) (q : List FireCmd) : (s.setFq e q).pairLatch = s.pairLatch := rfl
@[simp] theorem State.setFq_pairLo (s : State) (e : Nat) (q : List FireCmd) : (s.setFq e q).pairLo = s.pairLo := rfl
@[simp] theorem State.setFq_rd (s : State) (e : Nat) (q : List FireCmd) : (s.setFq e q).rd = s.rd := rfl
@[simp] theorem State.setFq_sram (s : State) (e : Nat) (q : List FireCmd) : (s.setFq e q).sram = s.sram := rfl
@[simp] theorem State.setFq_istore (s : State) (e : Nat) (q : List FireCmd) : (s.setFq e q).istore = s.istore := rfl
@[simp] theorem State.setFq_galley (s : State) (e : Nat) (q : List FireCmd) : (s.setFq e q).galley = s.galley := rfl
@[simp] theorem State.setFq_lpddr (s : State) (e : Nat) (q : List FireCmd) : (s.setFq e q).lpddr = s.lpddr := rfl
@[simp] theorem State.setFq_host (s : State) (e : Nat) (q : List FireCmd) : (s.setFq e q).host = s.host := rfl
@[simp] theorem State.setFq_chases (s : State) (e : Nat) (q : List FireCmd) : (s.setFq e q).chases = s.chases := rfl
@[simp] theorem State.setFq_ctxs (s : State) (e : Nat) (q : List FireCmd) : (s.setFq e q).ctxs = s.ctxs := rfl
@[simp] theorem State.setFq_ports (s : State) (e : Nat) (q : List FireCmd) : (s.setFq e q).ports = s.ports := rfl
@[simp] theorem State.setFq_lineRd (s : State) (e : Nat) (q : List FireCmd) : (s.setFq e q).lineRd = s.lineRd := rfl
@[simp] theorem State.setFq_fqs (s : State) (e : Nat) (q : List FireCmd) : (s.setFq e q).fqs = s.fqs.set e q := rfl
@[simp] theorem State.setFq_chans (s : State) (e : Nat) (q : List FireCmd) : (s.setFq e q).chans = s.chans := rfl
@[simp] theorem State.setFq_encs (s : State) (e : Nat) (q : List FireCmd) : (s.setFq e q).encs = s.encs := rfl
@[simp] theorem State.setFq_emus (s : State) (e : Nat) (q : List FireCmd) : (s.setFq e q).emus = s.emus := rfl
@[simp] theorem State.setFq_barrier (s : State) (e : Nat) (q : List FireCmd) : (s.setFq e q).barrier = s.barrier := rfl
@[simp] theorem State.setFq_tick (s : State) (e : Nat) (q : List FireCmd) : (s.setFq e q).tick = s.tick := rfl
@[simp] theorem State.setFq_eports (s : State) (e : Nat) (q : List FireCmd) : (s.setFq e q).eports = s.eports := rfl
@[simp] theorem State.setFq_servos (s : State) (e : Nat) (q : List FireCmd) : (s.setFq e q).servos = s.servos := rfl
@[simp] theorem State.setFq_rings (s : State) (e : Nat) (q : List FireCmd) : (s.setFq e q).rings = s.rings := rfl
@[simp] theorem State.setFq_mboxes (s : State) (e : Nat) (q : List FireCmd) : (s.setFq e q).mboxes = s.mboxes := rfl
@[simp] theorem State.setFq_log (s : State) (e : Nat) (q : List FireCmd) : (s.setFq e q).log = s.log := rfl
@[simp] theorem State.setFq_logSeq (s : State) (e : Nat) (q : List FireCmd) : (s.setFq e q).logSeq = s.logSeq := rfl
@[simp] theorem State.setFq_fuses (s : State) (e : Nat) (q : List FireCmd) : (s.setFq e q).fuses = s.fuses := rfl
@[simp] theorem State.setFq_mgmt (s : State) (e : Nat) (q : List FireCmd) : (s.setFq e q).mgmt = s.mgmt := rfl
@[simp] theorem State.setFq_clock (s : State) (e : Nat) (q : List FireCmd) : (s.setFq e q).clock = s.clock := rfl
@[simp] theorem State.setFq_smb (s : State) (e : Nat) (q : List FireCmd) : (s.setFq e q).smb = s.smb := rfl
@[simp] theorem State.setFq_smbAck (s : State) (e : Nat) (q : List FireCmd) : (s.setFq e q).smbAck = s.smbAck := rfl
@[simp] theorem State.setFq_tx (s : State) (e : Nat) (q : List FireCmd) : (s.setFq e q).tx = s.tx := rfl
@[simp] theorem State.setFq_free (s : State) (e : Nat) (q : List FireCmd) : (s.setFq e q).free = s.free := rfl

@[simp] theorem State.setChan_pending (s : State) (c : Nat) (x : ChanSt) : (s.setChan c x).pending = s.pending := rfl
@[simp] theorem State.setChan_power (s : State) (c : Nat) (x : ChanSt) : (s.setChan c x).power = s.power := rfl
@[simp] theorem State.setChan_clk (s : State) (c : Nat) (x : ChanSt) : (s.setChan c x).clk = s.clk := rfl
@[simp] theorem State.setChan_timeFrac (s : State) (c : Nat) (x : ChanSt) : (s.setChan c x).timeFrac = s.timeFrac := rfl
@[simp] theorem State.setChan_regs (s : State) (c : Nat) (x : ChanSt) : (s.setChan c x).regs = s.regs := rfl
@[simp] theorem State.setChan_pairLatch (s : State) (c : Nat) (x : ChanSt) : (s.setChan c x).pairLatch = s.pairLatch := rfl
@[simp] theorem State.setChan_pairLo (s : State) (c : Nat) (x : ChanSt) : (s.setChan c x).pairLo = s.pairLo := rfl
@[simp] theorem State.setChan_rd (s : State) (c : Nat) (x : ChanSt) : (s.setChan c x).rd = s.rd := rfl
@[simp] theorem State.setChan_sram (s : State) (c : Nat) (x : ChanSt) : (s.setChan c x).sram = s.sram := rfl
@[simp] theorem State.setChan_istore (s : State) (c : Nat) (x : ChanSt) : (s.setChan c x).istore = s.istore := rfl
@[simp] theorem State.setChan_galley (s : State) (c : Nat) (x : ChanSt) : (s.setChan c x).galley = s.galley := rfl
@[simp] theorem State.setChan_lpddr (s : State) (c : Nat) (x : ChanSt) : (s.setChan c x).lpddr = s.lpddr := rfl
@[simp] theorem State.setChan_host (s : State) (c : Nat) (x : ChanSt) : (s.setChan c x).host = s.host := rfl
@[simp] theorem State.setChan_chases (s : State) (c : Nat) (x : ChanSt) : (s.setChan c x).chases = s.chases := rfl
@[simp] theorem State.setChan_ctxs (s : State) (c : Nat) (x : ChanSt) : (s.setChan c x).ctxs = s.ctxs := rfl
@[simp] theorem State.setChan_ports (s : State) (c : Nat) (x : ChanSt) : (s.setChan c x).ports = s.ports := rfl
@[simp] theorem State.setChan_lineRd (s : State) (c : Nat) (x : ChanSt) : (s.setChan c x).lineRd = s.lineRd := rfl
@[simp] theorem State.setChan_fqs (s : State) (c : Nat) (x : ChanSt) : (s.setChan c x).fqs = s.fqs := rfl
@[simp] theorem State.setChan_chans (s : State) (c : Nat) (x : ChanSt) : (s.setChan c x).chans = s.chans.set c x := rfl
@[simp] theorem State.setChan_encs (s : State) (c : Nat) (x : ChanSt) : (s.setChan c x).encs = s.encs := rfl
@[simp] theorem State.setChan_emus (s : State) (c : Nat) (x : ChanSt) : (s.setChan c x).emus = s.emus := rfl
@[simp] theorem State.setChan_barrier (s : State) (c : Nat) (x : ChanSt) : (s.setChan c x).barrier = s.barrier := rfl
@[simp] theorem State.setChan_tick (s : State) (c : Nat) (x : ChanSt) : (s.setChan c x).tick = s.tick := rfl
@[simp] theorem State.setChan_eports (s : State) (c : Nat) (x : ChanSt) : (s.setChan c x).eports = s.eports := rfl
@[simp] theorem State.setChan_servos (s : State) (c : Nat) (x : ChanSt) : (s.setChan c x).servos = s.servos := rfl
@[simp] theorem State.setChan_rings (s : State) (c : Nat) (x : ChanSt) : (s.setChan c x).rings = s.rings := rfl
@[simp] theorem State.setChan_mboxes (s : State) (c : Nat) (x : ChanSt) : (s.setChan c x).mboxes = s.mboxes := rfl
@[simp] theorem State.setChan_log (s : State) (c : Nat) (x : ChanSt) : (s.setChan c x).log = s.log := rfl
@[simp] theorem State.setChan_logSeq (s : State) (c : Nat) (x : ChanSt) : (s.setChan c x).logSeq = s.logSeq := rfl
@[simp] theorem State.setChan_fuses (s : State) (c : Nat) (x : ChanSt) : (s.setChan c x).fuses = s.fuses := rfl
@[simp] theorem State.setChan_mgmt (s : State) (c : Nat) (x : ChanSt) : (s.setChan c x).mgmt = s.mgmt := rfl
@[simp] theorem State.setChan_clock (s : State) (c : Nat) (x : ChanSt) : (s.setChan c x).clock = s.clock := rfl
@[simp] theorem State.setChan_smb (s : State) (c : Nat) (x : ChanSt) : (s.setChan c x).smb = s.smb := rfl
@[simp] theorem State.setChan_smbAck (s : State) (c : Nat) (x : ChanSt) : (s.setChan c x).smbAck = s.smbAck := rfl
@[simp] theorem State.setChan_tx (s : State) (c : Nat) (x : ChanSt) : (s.setChan c x).tx = s.tx := rfl
@[simp] theorem State.setChan_free (s : State) (c : Nat) (x : ChanSt) : (s.setChan c x).free = s.free := rfl

@[simp] theorem State.setEnc_pending (s : State) (e : Nat) (x : EncSt) : (s.setEnc e x).pending = s.pending := rfl
@[simp] theorem State.setEnc_power (s : State) (e : Nat) (x : EncSt) : (s.setEnc e x).power = s.power := rfl
@[simp] theorem State.setEnc_clk (s : State) (e : Nat) (x : EncSt) : (s.setEnc e x).clk = s.clk := rfl
@[simp] theorem State.setEnc_timeFrac (s : State) (e : Nat) (x : EncSt) : (s.setEnc e x).timeFrac = s.timeFrac := rfl
@[simp] theorem State.setEnc_regs (s : State) (e : Nat) (x : EncSt) : (s.setEnc e x).regs = s.regs := rfl
@[simp] theorem State.setEnc_pairLatch (s : State) (e : Nat) (x : EncSt) : (s.setEnc e x).pairLatch = s.pairLatch := rfl
@[simp] theorem State.setEnc_pairLo (s : State) (e : Nat) (x : EncSt) : (s.setEnc e x).pairLo = s.pairLo := rfl
@[simp] theorem State.setEnc_rd (s : State) (e : Nat) (x : EncSt) : (s.setEnc e x).rd = s.rd := rfl
@[simp] theorem State.setEnc_sram (s : State) (e : Nat) (x : EncSt) : (s.setEnc e x).sram = s.sram := rfl
@[simp] theorem State.setEnc_istore (s : State) (e : Nat) (x : EncSt) : (s.setEnc e x).istore = s.istore := rfl
@[simp] theorem State.setEnc_galley (s : State) (e : Nat) (x : EncSt) : (s.setEnc e x).galley = s.galley := rfl
@[simp] theorem State.setEnc_lpddr (s : State) (e : Nat) (x : EncSt) : (s.setEnc e x).lpddr = s.lpddr := rfl
@[simp] theorem State.setEnc_host (s : State) (e : Nat) (x : EncSt) : (s.setEnc e x).host = s.host := rfl
@[simp] theorem State.setEnc_chases (s : State) (e : Nat) (x : EncSt) : (s.setEnc e x).chases = s.chases := rfl
@[simp] theorem State.setEnc_ctxs (s : State) (e : Nat) (x : EncSt) : (s.setEnc e x).ctxs = s.ctxs := rfl
@[simp] theorem State.setEnc_ports (s : State) (e : Nat) (x : EncSt) : (s.setEnc e x).ports = s.ports := rfl
@[simp] theorem State.setEnc_lineRd (s : State) (e : Nat) (x : EncSt) : (s.setEnc e x).lineRd = s.lineRd := rfl
@[simp] theorem State.setEnc_fqs (s : State) (e : Nat) (x : EncSt) : (s.setEnc e x).fqs = s.fqs := rfl
@[simp] theorem State.setEnc_chans (s : State) (e : Nat) (x : EncSt) : (s.setEnc e x).chans = s.chans := rfl
@[simp] theorem State.setEnc_encs (s : State) (e : Nat) (x : EncSt) : (s.setEnc e x).encs = s.encs.set e x := rfl
@[simp] theorem State.setEnc_emus (s : State) (e : Nat) (x : EncSt) : (s.setEnc e x).emus = s.emus := rfl
@[simp] theorem State.setEnc_barrier (s : State) (e : Nat) (x : EncSt) : (s.setEnc e x).barrier = s.barrier := rfl
@[simp] theorem State.setEnc_tick (s : State) (e : Nat) (x : EncSt) : (s.setEnc e x).tick = s.tick := rfl
@[simp] theorem State.setEnc_eports (s : State) (e : Nat) (x : EncSt) : (s.setEnc e x).eports = s.eports := rfl
@[simp] theorem State.setEnc_servos (s : State) (e : Nat) (x : EncSt) : (s.setEnc e x).servos = s.servos := rfl
@[simp] theorem State.setEnc_rings (s : State) (e : Nat) (x : EncSt) : (s.setEnc e x).rings = s.rings := rfl
@[simp] theorem State.setEnc_mboxes (s : State) (e : Nat) (x : EncSt) : (s.setEnc e x).mboxes = s.mboxes := rfl
@[simp] theorem State.setEnc_log (s : State) (e : Nat) (x : EncSt) : (s.setEnc e x).log = s.log := rfl
@[simp] theorem State.setEnc_logSeq (s : State) (e : Nat) (x : EncSt) : (s.setEnc e x).logSeq = s.logSeq := rfl
@[simp] theorem State.setEnc_fuses (s : State) (e : Nat) (x : EncSt) : (s.setEnc e x).fuses = s.fuses := rfl
@[simp] theorem State.setEnc_mgmt (s : State) (e : Nat) (x : EncSt) : (s.setEnc e x).mgmt = s.mgmt := rfl
@[simp] theorem State.setEnc_clock (s : State) (e : Nat) (x : EncSt) : (s.setEnc e x).clock = s.clock := rfl
@[simp] theorem State.setEnc_smb (s : State) (e : Nat) (x : EncSt) : (s.setEnc e x).smb = s.smb := rfl
@[simp] theorem State.setEnc_smbAck (s : State) (e : Nat) (x : EncSt) : (s.setEnc e x).smbAck = s.smbAck := rfl
@[simp] theorem State.setEnc_tx (s : State) (e : Nat) (x : EncSt) : (s.setEnc e x).tx = s.tx := rfl
@[simp] theorem State.setEnc_free (s : State) (e : Nat) (x : EncSt) : (s.setEnc e x).free = s.free := rfl

@[simp] theorem State.setEmu_pending (s : State) (o : Nat) (x : Emu) : (s.setEmu o x).pending = s.pending := rfl
@[simp] theorem State.setEmu_power (s : State) (o : Nat) (x : Emu) : (s.setEmu o x).power = s.power := rfl
@[simp] theorem State.setEmu_clk (s : State) (o : Nat) (x : Emu) : (s.setEmu o x).clk = s.clk := rfl
@[simp] theorem State.setEmu_timeFrac (s : State) (o : Nat) (x : Emu) : (s.setEmu o x).timeFrac = s.timeFrac := rfl
@[simp] theorem State.setEmu_regs (s : State) (o : Nat) (x : Emu) : (s.setEmu o x).regs = s.regs := rfl
@[simp] theorem State.setEmu_pairLatch (s : State) (o : Nat) (x : Emu) : (s.setEmu o x).pairLatch = s.pairLatch := rfl
@[simp] theorem State.setEmu_pairLo (s : State) (o : Nat) (x : Emu) : (s.setEmu o x).pairLo = s.pairLo := rfl
@[simp] theorem State.setEmu_rd (s : State) (o : Nat) (x : Emu) : (s.setEmu o x).rd = s.rd := rfl
@[simp] theorem State.setEmu_sram (s : State) (o : Nat) (x : Emu) : (s.setEmu o x).sram = s.sram := rfl
@[simp] theorem State.setEmu_istore (s : State) (o : Nat) (x : Emu) : (s.setEmu o x).istore = s.istore := rfl
@[simp] theorem State.setEmu_galley (s : State) (o : Nat) (x : Emu) : (s.setEmu o x).galley = s.galley := rfl
@[simp] theorem State.setEmu_lpddr (s : State) (o : Nat) (x : Emu) : (s.setEmu o x).lpddr = s.lpddr := rfl
@[simp] theorem State.setEmu_host (s : State) (o : Nat) (x : Emu) : (s.setEmu o x).host = s.host := rfl
@[simp] theorem State.setEmu_chases (s : State) (o : Nat) (x : Emu) : (s.setEmu o x).chases = s.chases := rfl
@[simp] theorem State.setEmu_ctxs (s : State) (o : Nat) (x : Emu) : (s.setEmu o x).ctxs = s.ctxs := rfl
@[simp] theorem State.setEmu_ports (s : State) (o : Nat) (x : Emu) : (s.setEmu o x).ports = s.ports := rfl
@[simp] theorem State.setEmu_lineRd (s : State) (o : Nat) (x : Emu) : (s.setEmu o x).lineRd = s.lineRd := rfl
@[simp] theorem State.setEmu_fqs (s : State) (o : Nat) (x : Emu) : (s.setEmu o x).fqs = s.fqs := rfl
@[simp] theorem State.setEmu_chans (s : State) (o : Nat) (x : Emu) : (s.setEmu o x).chans = s.chans := rfl
@[simp] theorem State.setEmu_encs (s : State) (o : Nat) (x : Emu) : (s.setEmu o x).encs = s.encs := rfl
@[simp] theorem State.setEmu_emus (s : State) (o : Nat) (x : Emu) : (s.setEmu o x).emus = s.emus.set o x := rfl
@[simp] theorem State.setEmu_barrier (s : State) (o : Nat) (x : Emu) : (s.setEmu o x).barrier = s.barrier := rfl
@[simp] theorem State.setEmu_tick (s : State) (o : Nat) (x : Emu) : (s.setEmu o x).tick = s.tick := rfl
@[simp] theorem State.setEmu_eports (s : State) (o : Nat) (x : Emu) : (s.setEmu o x).eports = s.eports := rfl
@[simp] theorem State.setEmu_servos (s : State) (o : Nat) (x : Emu) : (s.setEmu o x).servos = s.servos := rfl
@[simp] theorem State.setEmu_rings (s : State) (o : Nat) (x : Emu) : (s.setEmu o x).rings = s.rings := rfl
@[simp] theorem State.setEmu_mboxes (s : State) (o : Nat) (x : Emu) : (s.setEmu o x).mboxes = s.mboxes := rfl
@[simp] theorem State.setEmu_log (s : State) (o : Nat) (x : Emu) : (s.setEmu o x).log = s.log := rfl
@[simp] theorem State.setEmu_logSeq (s : State) (o : Nat) (x : Emu) : (s.setEmu o x).logSeq = s.logSeq := rfl
@[simp] theorem State.setEmu_fuses (s : State) (o : Nat) (x : Emu) : (s.setEmu o x).fuses = s.fuses := rfl
@[simp] theorem State.setEmu_mgmt (s : State) (o : Nat) (x : Emu) : (s.setEmu o x).mgmt = s.mgmt := rfl
@[simp] theorem State.setEmu_clock (s : State) (o : Nat) (x : Emu) : (s.setEmu o x).clock = s.clock := rfl
@[simp] theorem State.setEmu_smb (s : State) (o : Nat) (x : Emu) : (s.setEmu o x).smb = s.smb := rfl
@[simp] theorem State.setEmu_smbAck (s : State) (o : Nat) (x : Emu) : (s.setEmu o x).smbAck = s.smbAck := rfl
@[simp] theorem State.setEmu_tx (s : State) (o : Nat) (x : Emu) : (s.setEmu o x).tx = s.tx := rfl
@[simp] theorem State.setEmu_free (s : State) (o : Nat) (x : Emu) : (s.setEmu o x).free = s.free := rfl

@[simp] theorem State.setEport_pending (s : State) (p : Nat) (x : EPortSt) : (s.setEport p x).pending = s.pending := rfl
@[simp] theorem State.setEport_power (s : State) (p : Nat) (x : EPortSt) : (s.setEport p x).power = s.power := rfl
@[simp] theorem State.setEport_clk (s : State) (p : Nat) (x : EPortSt) : (s.setEport p x).clk = s.clk := rfl
@[simp] theorem State.setEport_timeFrac (s : State) (p : Nat) (x : EPortSt) : (s.setEport p x).timeFrac = s.timeFrac := rfl
@[simp] theorem State.setEport_regs (s : State) (p : Nat) (x : EPortSt) : (s.setEport p x).regs = s.regs := rfl
@[simp] theorem State.setEport_pairLatch (s : State) (p : Nat) (x : EPortSt) : (s.setEport p x).pairLatch = s.pairLatch := rfl
@[simp] theorem State.setEport_pairLo (s : State) (p : Nat) (x : EPortSt) : (s.setEport p x).pairLo = s.pairLo := rfl
@[simp] theorem State.setEport_rd (s : State) (p : Nat) (x : EPortSt) : (s.setEport p x).rd = s.rd := rfl
@[simp] theorem State.setEport_sram (s : State) (p : Nat) (x : EPortSt) : (s.setEport p x).sram = s.sram := rfl
@[simp] theorem State.setEport_istore (s : State) (p : Nat) (x : EPortSt) : (s.setEport p x).istore = s.istore := rfl
@[simp] theorem State.setEport_galley (s : State) (p : Nat) (x : EPortSt) : (s.setEport p x).galley = s.galley := rfl
@[simp] theorem State.setEport_lpddr (s : State) (p : Nat) (x : EPortSt) : (s.setEport p x).lpddr = s.lpddr := rfl
@[simp] theorem State.setEport_host (s : State) (p : Nat) (x : EPortSt) : (s.setEport p x).host = s.host := rfl
@[simp] theorem State.setEport_chases (s : State) (p : Nat) (x : EPortSt) : (s.setEport p x).chases = s.chases := rfl
@[simp] theorem State.setEport_ctxs (s : State) (p : Nat) (x : EPortSt) : (s.setEport p x).ctxs = s.ctxs := rfl
@[simp] theorem State.setEport_ports (s : State) (p : Nat) (x : EPortSt) : (s.setEport p x).ports = s.ports := rfl
@[simp] theorem State.setEport_lineRd (s : State) (p : Nat) (x : EPortSt) : (s.setEport p x).lineRd = s.lineRd := rfl
@[simp] theorem State.setEport_fqs (s : State) (p : Nat) (x : EPortSt) : (s.setEport p x).fqs = s.fqs := rfl
@[simp] theorem State.setEport_chans (s : State) (p : Nat) (x : EPortSt) : (s.setEport p x).chans = s.chans := rfl
@[simp] theorem State.setEport_encs (s : State) (p : Nat) (x : EPortSt) : (s.setEport p x).encs = s.encs := rfl
@[simp] theorem State.setEport_emus (s : State) (p : Nat) (x : EPortSt) : (s.setEport p x).emus = s.emus := rfl
@[simp] theorem State.setEport_barrier (s : State) (p : Nat) (x : EPortSt) : (s.setEport p x).barrier = s.barrier := rfl
@[simp] theorem State.setEport_tick (s : State) (p : Nat) (x : EPortSt) : (s.setEport p x).tick = s.tick := rfl
@[simp] theorem State.setEport_eports (s : State) (p : Nat) (x : EPortSt) : (s.setEport p x).eports = s.eports.set p x := rfl
@[simp] theorem State.setEport_servos (s : State) (p : Nat) (x : EPortSt) : (s.setEport p x).servos = s.servos := rfl
@[simp] theorem State.setEport_rings (s : State) (p : Nat) (x : EPortSt) : (s.setEport p x).rings = s.rings := rfl
@[simp] theorem State.setEport_mboxes (s : State) (p : Nat) (x : EPortSt) : (s.setEport p x).mboxes = s.mboxes := rfl
@[simp] theorem State.setEport_log (s : State) (p : Nat) (x : EPortSt) : (s.setEport p x).log = s.log := rfl
@[simp] theorem State.setEport_logSeq (s : State) (p : Nat) (x : EPortSt) : (s.setEport p x).logSeq = s.logSeq := rfl
@[simp] theorem State.setEport_fuses (s : State) (p : Nat) (x : EPortSt) : (s.setEport p x).fuses = s.fuses := rfl
@[simp] theorem State.setEport_mgmt (s : State) (p : Nat) (x : EPortSt) : (s.setEport p x).mgmt = s.mgmt := rfl
@[simp] theorem State.setEport_clock (s : State) (p : Nat) (x : EPortSt) : (s.setEport p x).clock = s.clock := rfl
@[simp] theorem State.setEport_smb (s : State) (p : Nat) (x : EPortSt) : (s.setEport p x).smb = s.smb := rfl
@[simp] theorem State.setEport_smbAck (s : State) (p : Nat) (x : EPortSt) : (s.setEport p x).smbAck = s.smbAck := rfl
@[simp] theorem State.setEport_tx (s : State) (p : Nat) (x : EPortSt) : (s.setEport p x).tx = s.tx := rfl
@[simp] theorem State.setEport_free (s : State) (p : Nat) (x : EPortSt) : (s.setEport p x).free = s.free := rfl

@[simp] theorem State.setServo_pending (s : State) (d : Nat) (x : Servo) : (s.setServo d x).pending = s.pending := rfl
@[simp] theorem State.setServo_power (s : State) (d : Nat) (x : Servo) : (s.setServo d x).power = s.power := rfl
@[simp] theorem State.setServo_clk (s : State) (d : Nat) (x : Servo) : (s.setServo d x).clk = s.clk := rfl
@[simp] theorem State.setServo_timeFrac (s : State) (d : Nat) (x : Servo) : (s.setServo d x).timeFrac = s.timeFrac := rfl
@[simp] theorem State.setServo_regs (s : State) (d : Nat) (x : Servo) : (s.setServo d x).regs = s.regs := rfl
@[simp] theorem State.setServo_pairLatch (s : State) (d : Nat) (x : Servo) : (s.setServo d x).pairLatch = s.pairLatch := rfl
@[simp] theorem State.setServo_pairLo (s : State) (d : Nat) (x : Servo) : (s.setServo d x).pairLo = s.pairLo := rfl
@[simp] theorem State.setServo_rd (s : State) (d : Nat) (x : Servo) : (s.setServo d x).rd = s.rd := rfl
@[simp] theorem State.setServo_sram (s : State) (d : Nat) (x : Servo) : (s.setServo d x).sram = s.sram := rfl
@[simp] theorem State.setServo_istore (s : State) (d : Nat) (x : Servo) : (s.setServo d x).istore = s.istore := rfl
@[simp] theorem State.setServo_galley (s : State) (d : Nat) (x : Servo) : (s.setServo d x).galley = s.galley := rfl
@[simp] theorem State.setServo_lpddr (s : State) (d : Nat) (x : Servo) : (s.setServo d x).lpddr = s.lpddr := rfl
@[simp] theorem State.setServo_host (s : State) (d : Nat) (x : Servo) : (s.setServo d x).host = s.host := rfl
@[simp] theorem State.setServo_chases (s : State) (d : Nat) (x : Servo) : (s.setServo d x).chases = s.chases := rfl
@[simp] theorem State.setServo_ctxs (s : State) (d : Nat) (x : Servo) : (s.setServo d x).ctxs = s.ctxs := rfl
@[simp] theorem State.setServo_ports (s : State) (d : Nat) (x : Servo) : (s.setServo d x).ports = s.ports := rfl
@[simp] theorem State.setServo_lineRd (s : State) (d : Nat) (x : Servo) : (s.setServo d x).lineRd = s.lineRd := rfl
@[simp] theorem State.setServo_fqs (s : State) (d : Nat) (x : Servo) : (s.setServo d x).fqs = s.fqs := rfl
@[simp] theorem State.setServo_chans (s : State) (d : Nat) (x : Servo) : (s.setServo d x).chans = s.chans := rfl
@[simp] theorem State.setServo_encs (s : State) (d : Nat) (x : Servo) : (s.setServo d x).encs = s.encs := rfl
@[simp] theorem State.setServo_emus (s : State) (d : Nat) (x : Servo) : (s.setServo d x).emus = s.emus := rfl
@[simp] theorem State.setServo_barrier (s : State) (d : Nat) (x : Servo) : (s.setServo d x).barrier = s.barrier := rfl
@[simp] theorem State.setServo_tick (s : State) (d : Nat) (x : Servo) : (s.setServo d x).tick = s.tick := rfl
@[simp] theorem State.setServo_eports (s : State) (d : Nat) (x : Servo) : (s.setServo d x).eports = s.eports := rfl
@[simp] theorem State.setServo_servos (s : State) (d : Nat) (x : Servo) : (s.setServo d x).servos = s.servos.set d x := rfl
@[simp] theorem State.setServo_rings (s : State) (d : Nat) (x : Servo) : (s.setServo d x).rings = s.rings := rfl
@[simp] theorem State.setServo_mboxes (s : State) (d : Nat) (x : Servo) : (s.setServo d x).mboxes = s.mboxes := rfl
@[simp] theorem State.setServo_log (s : State) (d : Nat) (x : Servo) : (s.setServo d x).log = s.log := rfl
@[simp] theorem State.setServo_logSeq (s : State) (d : Nat) (x : Servo) : (s.setServo d x).logSeq = s.logSeq := rfl
@[simp] theorem State.setServo_fuses (s : State) (d : Nat) (x : Servo) : (s.setServo d x).fuses = s.fuses := rfl
@[simp] theorem State.setServo_mgmt (s : State) (d : Nat) (x : Servo) : (s.setServo d x).mgmt = s.mgmt := rfl
@[simp] theorem State.setServo_clock (s : State) (d : Nat) (x : Servo) : (s.setServo d x).clock = s.clock := rfl
@[simp] theorem State.setServo_smb (s : State) (d : Nat) (x : Servo) : (s.setServo d x).smb = s.smb := rfl
@[simp] theorem State.setServo_smbAck (s : State) (d : Nat) (x : Servo) : (s.setServo d x).smbAck = s.smbAck := rfl
@[simp] theorem State.setServo_tx (s : State) (d : Nat) (x : Servo) : (s.setServo d x).tx = s.tx := rfl
@[simp] theorem State.setServo_free (s : State) (d : Nat) (x : Servo) : (s.setServo d x).free = s.free := rfl

@[simp] theorem State.setRing_pending (s : State) (r : Nat) (x : RingSt) : (s.setRing r x).pending = s.pending := rfl
@[simp] theorem State.setRing_power (s : State) (r : Nat) (x : RingSt) : (s.setRing r x).power = s.power := rfl
@[simp] theorem State.setRing_clk (s : State) (r : Nat) (x : RingSt) : (s.setRing r x).clk = s.clk := rfl
@[simp] theorem State.setRing_timeFrac (s : State) (r : Nat) (x : RingSt) : (s.setRing r x).timeFrac = s.timeFrac := rfl
@[simp] theorem State.setRing_regs (s : State) (r : Nat) (x : RingSt) : (s.setRing r x).regs = s.regs := rfl
@[simp] theorem State.setRing_pairLatch (s : State) (r : Nat) (x : RingSt) : (s.setRing r x).pairLatch = s.pairLatch := rfl
@[simp] theorem State.setRing_pairLo (s : State) (r : Nat) (x : RingSt) : (s.setRing r x).pairLo = s.pairLo := rfl
@[simp] theorem State.setRing_rd (s : State) (r : Nat) (x : RingSt) : (s.setRing r x).rd = s.rd := rfl
@[simp] theorem State.setRing_sram (s : State) (r : Nat) (x : RingSt) : (s.setRing r x).sram = s.sram := rfl
@[simp] theorem State.setRing_istore (s : State) (r : Nat) (x : RingSt) : (s.setRing r x).istore = s.istore := rfl
@[simp] theorem State.setRing_galley (s : State) (r : Nat) (x : RingSt) : (s.setRing r x).galley = s.galley := rfl
@[simp] theorem State.setRing_lpddr (s : State) (r : Nat) (x : RingSt) : (s.setRing r x).lpddr = s.lpddr := rfl
@[simp] theorem State.setRing_host (s : State) (r : Nat) (x : RingSt) : (s.setRing r x).host = s.host := rfl
@[simp] theorem State.setRing_chases (s : State) (r : Nat) (x : RingSt) : (s.setRing r x).chases = s.chases := rfl
@[simp] theorem State.setRing_ctxs (s : State) (r : Nat) (x : RingSt) : (s.setRing r x).ctxs = s.ctxs := rfl
@[simp] theorem State.setRing_ports (s : State) (r : Nat) (x : RingSt) : (s.setRing r x).ports = s.ports := rfl
@[simp] theorem State.setRing_lineRd (s : State) (r : Nat) (x : RingSt) : (s.setRing r x).lineRd = s.lineRd := rfl
@[simp] theorem State.setRing_fqs (s : State) (r : Nat) (x : RingSt) : (s.setRing r x).fqs = s.fqs := rfl
@[simp] theorem State.setRing_chans (s : State) (r : Nat) (x : RingSt) : (s.setRing r x).chans = s.chans := rfl
@[simp] theorem State.setRing_encs (s : State) (r : Nat) (x : RingSt) : (s.setRing r x).encs = s.encs := rfl
@[simp] theorem State.setRing_emus (s : State) (r : Nat) (x : RingSt) : (s.setRing r x).emus = s.emus := rfl
@[simp] theorem State.setRing_barrier (s : State) (r : Nat) (x : RingSt) : (s.setRing r x).barrier = s.barrier := rfl
@[simp] theorem State.setRing_tick (s : State) (r : Nat) (x : RingSt) : (s.setRing r x).tick = s.tick := rfl
@[simp] theorem State.setRing_eports (s : State) (r : Nat) (x : RingSt) : (s.setRing r x).eports = s.eports := rfl
@[simp] theorem State.setRing_servos (s : State) (r : Nat) (x : RingSt) : (s.setRing r x).servos = s.servos := rfl
@[simp] theorem State.setRing_rings (s : State) (r : Nat) (x : RingSt) : (s.setRing r x).rings = s.rings.set r x := rfl
@[simp] theorem State.setRing_mboxes (s : State) (r : Nat) (x : RingSt) : (s.setRing r x).mboxes = s.mboxes := rfl
@[simp] theorem State.setRing_log (s : State) (r : Nat) (x : RingSt) : (s.setRing r x).log = s.log := rfl
@[simp] theorem State.setRing_logSeq (s : State) (r : Nat) (x : RingSt) : (s.setRing r x).logSeq = s.logSeq := rfl
@[simp] theorem State.setRing_fuses (s : State) (r : Nat) (x : RingSt) : (s.setRing r x).fuses = s.fuses := rfl
@[simp] theorem State.setRing_mgmt (s : State) (r : Nat) (x : RingSt) : (s.setRing r x).mgmt = s.mgmt := rfl
@[simp] theorem State.setRing_clock (s : State) (r : Nat) (x : RingSt) : (s.setRing r x).clock = s.clock := rfl
@[simp] theorem State.setRing_smb (s : State) (r : Nat) (x : RingSt) : (s.setRing r x).smb = s.smb := rfl
@[simp] theorem State.setRing_smbAck (s : State) (r : Nat) (x : RingSt) : (s.setRing r x).smbAck = s.smbAck := rfl
@[simp] theorem State.setRing_tx (s : State) (r : Nat) (x : RingSt) : (s.setRing r x).tx = s.tx := rfl
@[simp] theorem State.setRing_free (s : State) (r : Nat) (x : RingSt) : (s.setRing r x).free = s.free := rfl

@[simp] theorem State.setMbox_pending (s : State) (m : Nat) (x : Mailbox) : (s.setMbox m x).pending = s.pending := rfl
@[simp] theorem State.setMbox_power (s : State) (m : Nat) (x : Mailbox) : (s.setMbox m x).power = s.power := rfl
@[simp] theorem State.setMbox_clk (s : State) (m : Nat) (x : Mailbox) : (s.setMbox m x).clk = s.clk := rfl
@[simp] theorem State.setMbox_timeFrac (s : State) (m : Nat) (x : Mailbox) : (s.setMbox m x).timeFrac = s.timeFrac := rfl
@[simp] theorem State.setMbox_regs (s : State) (m : Nat) (x : Mailbox) : (s.setMbox m x).regs = s.regs := rfl
@[simp] theorem State.setMbox_pairLatch (s : State) (m : Nat) (x : Mailbox) : (s.setMbox m x).pairLatch = s.pairLatch := rfl
@[simp] theorem State.setMbox_pairLo (s : State) (m : Nat) (x : Mailbox) : (s.setMbox m x).pairLo = s.pairLo := rfl
@[simp] theorem State.setMbox_rd (s : State) (m : Nat) (x : Mailbox) : (s.setMbox m x).rd = s.rd := rfl
@[simp] theorem State.setMbox_sram (s : State) (m : Nat) (x : Mailbox) : (s.setMbox m x).sram = s.sram := rfl
@[simp] theorem State.setMbox_istore (s : State) (m : Nat) (x : Mailbox) : (s.setMbox m x).istore = s.istore := rfl
@[simp] theorem State.setMbox_galley (s : State) (m : Nat) (x : Mailbox) : (s.setMbox m x).galley = s.galley := rfl
@[simp] theorem State.setMbox_lpddr (s : State) (m : Nat) (x : Mailbox) : (s.setMbox m x).lpddr = s.lpddr := rfl
@[simp] theorem State.setMbox_host (s : State) (m : Nat) (x : Mailbox) : (s.setMbox m x).host = s.host := rfl
@[simp] theorem State.setMbox_chases (s : State) (m : Nat) (x : Mailbox) : (s.setMbox m x).chases = s.chases := rfl
@[simp] theorem State.setMbox_ctxs (s : State) (m : Nat) (x : Mailbox) : (s.setMbox m x).ctxs = s.ctxs := rfl
@[simp] theorem State.setMbox_ports (s : State) (m : Nat) (x : Mailbox) : (s.setMbox m x).ports = s.ports := rfl
@[simp] theorem State.setMbox_lineRd (s : State) (m : Nat) (x : Mailbox) : (s.setMbox m x).lineRd = s.lineRd := rfl
@[simp] theorem State.setMbox_fqs (s : State) (m : Nat) (x : Mailbox) : (s.setMbox m x).fqs = s.fqs := rfl
@[simp] theorem State.setMbox_chans (s : State) (m : Nat) (x : Mailbox) : (s.setMbox m x).chans = s.chans := rfl
@[simp] theorem State.setMbox_encs (s : State) (m : Nat) (x : Mailbox) : (s.setMbox m x).encs = s.encs := rfl
@[simp] theorem State.setMbox_emus (s : State) (m : Nat) (x : Mailbox) : (s.setMbox m x).emus = s.emus := rfl
@[simp] theorem State.setMbox_barrier (s : State) (m : Nat) (x : Mailbox) : (s.setMbox m x).barrier = s.barrier := rfl
@[simp] theorem State.setMbox_tick (s : State) (m : Nat) (x : Mailbox) : (s.setMbox m x).tick = s.tick := rfl
@[simp] theorem State.setMbox_eports (s : State) (m : Nat) (x : Mailbox) : (s.setMbox m x).eports = s.eports := rfl
@[simp] theorem State.setMbox_servos (s : State) (m : Nat) (x : Mailbox) : (s.setMbox m x).servos = s.servos := rfl
@[simp] theorem State.setMbox_rings (s : State) (m : Nat) (x : Mailbox) : (s.setMbox m x).rings = s.rings := rfl
@[simp] theorem State.setMbox_mboxes (s : State) (m : Nat) (x : Mailbox) : (s.setMbox m x).mboxes = s.mboxes.set m x := rfl
@[simp] theorem State.setMbox_log (s : State) (m : Nat) (x : Mailbox) : (s.setMbox m x).log = s.log := rfl
@[simp] theorem State.setMbox_logSeq (s : State) (m : Nat) (x : Mailbox) : (s.setMbox m x).logSeq = s.logSeq := rfl
@[simp] theorem State.setMbox_fuses (s : State) (m : Nat) (x : Mailbox) : (s.setMbox m x).fuses = s.fuses := rfl
@[simp] theorem State.setMbox_mgmt (s : State) (m : Nat) (x : Mailbox) : (s.setMbox m x).mgmt = s.mgmt := rfl
@[simp] theorem State.setMbox_clock (s : State) (m : Nat) (x : Mailbox) : (s.setMbox m x).clock = s.clock := rfl
@[simp] theorem State.setMbox_smb (s : State) (m : Nat) (x : Mailbox) : (s.setMbox m x).smb = s.smb := rfl
@[simp] theorem State.setMbox_smbAck (s : State) (m : Nat) (x : Mailbox) : (s.setMbox m x).smbAck = s.smbAck := rfl
@[simp] theorem State.setMbox_tx (s : State) (m : Nat) (x : Mailbox) : (s.setMbox m x).tx = s.tx := rfl
@[simp] theorem State.setMbox_free (s : State) (m : Nat) (x : Mailbox) : (s.setMbox m x).free = s.free := rfl

@[simp] theorem State.put_pending (s : State) (f : Fld) (i v : Nat) : (s.put f i v).pending = s.pending := rfl
@[simp] theorem State.put_power (s : State) (f : Fld) (i v : Nat) : (s.put f i v).power = s.power := rfl
@[simp] theorem State.put_clk (s : State) (f : Fld) (i v : Nat) : (s.put f i v).clk = s.clk := rfl
@[simp] theorem State.put_timeFrac (s : State) (f : Fld) (i v : Nat) : (s.put f i v).timeFrac = s.timeFrac := rfl
@[simp] theorem State.put_regs (s : State) (f : Fld) (i v : Nat) : (s.put f i v).regs = ((f, i), v % 2 ^ f.info.width) :: s.regs.filter (fun e => e.1 != (f, i)) := rfl
@[simp] theorem State.put_pairLatch (s : State) (f : Fld) (i v : Nat) : (s.put f i v).pairLatch = s.pairLatch := rfl
@[simp] theorem State.put_pairLo (s : State) (f : Fld) (i v : Nat) : (s.put f i v).pairLo = s.pairLo := rfl
@[simp] theorem State.put_rd (s : State) (f : Fld) (i v : Nat) : (s.put f i v).rd = s.rd := rfl
@[simp] theorem State.put_sram (s : State) (f : Fld) (i v : Nat) : (s.put f i v).sram = s.sram := rfl
@[simp] theorem State.put_istore (s : State) (f : Fld) (i v : Nat) : (s.put f i v).istore = s.istore := rfl
@[simp] theorem State.put_galley (s : State) (f : Fld) (i v : Nat) : (s.put f i v).galley = s.galley := rfl
@[simp] theorem State.put_lpddr (s : State) (f : Fld) (i v : Nat) : (s.put f i v).lpddr = s.lpddr := rfl
@[simp] theorem State.put_host (s : State) (f : Fld) (i v : Nat) : (s.put f i v).host = s.host := rfl
@[simp] theorem State.put_chases (s : State) (f : Fld) (i v : Nat) : (s.put f i v).chases = s.chases := rfl
@[simp] theorem State.put_ctxs (s : State) (f : Fld) (i v : Nat) : (s.put f i v).ctxs = s.ctxs := rfl
@[simp] theorem State.put_ports (s : State) (f : Fld) (i v : Nat) : (s.put f i v).ports = s.ports := rfl
@[simp] theorem State.put_lineRd (s : State) (f : Fld) (i v : Nat) : (s.put f i v).lineRd = s.lineRd := rfl
@[simp] theorem State.put_fqs (s : State) (f : Fld) (i v : Nat) : (s.put f i v).fqs = s.fqs := rfl
@[simp] theorem State.put_chans (s : State) (f : Fld) (i v : Nat) : (s.put f i v).chans = s.chans := rfl
@[simp] theorem State.put_encs (s : State) (f : Fld) (i v : Nat) : (s.put f i v).encs = s.encs := rfl
@[simp] theorem State.put_emus (s : State) (f : Fld) (i v : Nat) : (s.put f i v).emus = s.emus := rfl
@[simp] theorem State.put_barrier (s : State) (f : Fld) (i v : Nat) : (s.put f i v).barrier = s.barrier := rfl
@[simp] theorem State.put_tick (s : State) (f : Fld) (i v : Nat) : (s.put f i v).tick = s.tick := rfl
@[simp] theorem State.put_eports (s : State) (f : Fld) (i v : Nat) : (s.put f i v).eports = s.eports := rfl
@[simp] theorem State.put_servos (s : State) (f : Fld) (i v : Nat) : (s.put f i v).servos = s.servos := rfl
@[simp] theorem State.put_rings (s : State) (f : Fld) (i v : Nat) : (s.put f i v).rings = s.rings := rfl
@[simp] theorem State.put_mboxes (s : State) (f : Fld) (i v : Nat) : (s.put f i v).mboxes = s.mboxes := rfl
@[simp] theorem State.put_log (s : State) (f : Fld) (i v : Nat) : (s.put f i v).log = s.log := rfl
@[simp] theorem State.put_logSeq (s : State) (f : Fld) (i v : Nat) : (s.put f i v).logSeq = s.logSeq := rfl
@[simp] theorem State.put_fuses (s : State) (f : Fld) (i v : Nat) : (s.put f i v).fuses = s.fuses := rfl
@[simp] theorem State.put_mgmt (s : State) (f : Fld) (i v : Nat) : (s.put f i v).mgmt = s.mgmt := rfl
@[simp] theorem State.put_clock (s : State) (f : Fld) (i v : Nat) : (s.put f i v).clock = s.clock := rfl
@[simp] theorem State.put_smb (s : State) (f : Fld) (i v : Nat) : (s.put f i v).smb = s.smb := rfl
@[simp] theorem State.put_smbAck (s : State) (f : Fld) (i v : Nat) : (s.put f i v).smbAck = s.smbAck := rfl
@[simp] theorem State.put_tx (s : State) (f : Fld) (i v : Nat) : (s.put f i v).tx = s.tx := rfl
@[simp] theorem State.put_free (s : State) (f : Fld) (i v : Nat) : (s.put f i v).free = s.free := rfl

@[simp] theorem State.latch_pending (s : State) (f : Fld) (i v : Nat) : (s.latch f i v).pending = s.pending := rfl
@[simp] theorem State.latch_power (s : State) (f : Fld) (i v : Nat) : (s.latch f i v).power = s.power := rfl
@[simp] theorem State.latch_clk (s : State) (f : Fld) (i v : Nat) : (s.latch f i v).clk = s.clk := rfl
@[simp] theorem State.latch_timeFrac (s : State) (f : Fld) (i v : Nat) : (s.latch f i v).timeFrac = s.timeFrac := rfl
@[simp] theorem State.latch_regs (s : State) (f : Fld) (i v : Nat) : (s.latch f i v).regs = s.regs := rfl
@[simp] theorem State.latch_pairLatch (s : State) (f : Fld) (i v : Nat) : (s.latch f i v).pairLatch = ((f, i), v) :: s.pairLatch.filter (fun e => e.1 != (f, i)) := rfl
@[simp] theorem State.latch_pairLo (s : State) (f : Fld) (i v : Nat) : (s.latch f i v).pairLo = s.pairLo := rfl
@[simp] theorem State.latch_rd (s : State) (f : Fld) (i v : Nat) : (s.latch f i v).rd = s.rd := rfl
@[simp] theorem State.latch_sram (s : State) (f : Fld) (i v : Nat) : (s.latch f i v).sram = s.sram := rfl
@[simp] theorem State.latch_istore (s : State) (f : Fld) (i v : Nat) : (s.latch f i v).istore = s.istore := rfl
@[simp] theorem State.latch_galley (s : State) (f : Fld) (i v : Nat) : (s.latch f i v).galley = s.galley := rfl
@[simp] theorem State.latch_lpddr (s : State) (f : Fld) (i v : Nat) : (s.latch f i v).lpddr = s.lpddr := rfl
@[simp] theorem State.latch_host (s : State) (f : Fld) (i v : Nat) : (s.latch f i v).host = s.host := rfl
@[simp] theorem State.latch_chases (s : State) (f : Fld) (i v : Nat) : (s.latch f i v).chases = s.chases := rfl
@[simp] theorem State.latch_ctxs (s : State) (f : Fld) (i v : Nat) : (s.latch f i v).ctxs = s.ctxs := rfl
@[simp] theorem State.latch_ports (s : State) (f : Fld) (i v : Nat) : (s.latch f i v).ports = s.ports := rfl
@[simp] theorem State.latch_lineRd (s : State) (f : Fld) (i v : Nat) : (s.latch f i v).lineRd = s.lineRd := rfl
@[simp] theorem State.latch_fqs (s : State) (f : Fld) (i v : Nat) : (s.latch f i v).fqs = s.fqs := rfl
@[simp] theorem State.latch_chans (s : State) (f : Fld) (i v : Nat) : (s.latch f i v).chans = s.chans := rfl
@[simp] theorem State.latch_encs (s : State) (f : Fld) (i v : Nat) : (s.latch f i v).encs = s.encs := rfl
@[simp] theorem State.latch_emus (s : State) (f : Fld) (i v : Nat) : (s.latch f i v).emus = s.emus := rfl
@[simp] theorem State.latch_barrier (s : State) (f : Fld) (i v : Nat) : (s.latch f i v).barrier = s.barrier := rfl
@[simp] theorem State.latch_tick (s : State) (f : Fld) (i v : Nat) : (s.latch f i v).tick = s.tick := rfl
@[simp] theorem State.latch_eports (s : State) (f : Fld) (i v : Nat) : (s.latch f i v).eports = s.eports := rfl
@[simp] theorem State.latch_servos (s : State) (f : Fld) (i v : Nat) : (s.latch f i v).servos = s.servos := rfl
@[simp] theorem State.latch_rings (s : State) (f : Fld) (i v : Nat) : (s.latch f i v).rings = s.rings := rfl
@[simp] theorem State.latch_mboxes (s : State) (f : Fld) (i v : Nat) : (s.latch f i v).mboxes = s.mboxes := rfl
@[simp] theorem State.latch_log (s : State) (f : Fld) (i v : Nat) : (s.latch f i v).log = s.log := rfl
@[simp] theorem State.latch_logSeq (s : State) (f : Fld) (i v : Nat) : (s.latch f i v).logSeq = s.logSeq := rfl
@[simp] theorem State.latch_fuses (s : State) (f : Fld) (i v : Nat) : (s.latch f i v).fuses = s.fuses := rfl
@[simp] theorem State.latch_mgmt (s : State) (f : Fld) (i v : Nat) : (s.latch f i v).mgmt = s.mgmt := rfl
@[simp] theorem State.latch_clock (s : State) (f : Fld) (i v : Nat) : (s.latch f i v).clock = s.clock := rfl
@[simp] theorem State.latch_smb (s : State) (f : Fld) (i v : Nat) : (s.latch f i v).smb = s.smb := rfl
@[simp] theorem State.latch_smbAck (s : State) (f : Fld) (i v : Nat) : (s.latch f i v).smbAck = s.smbAck := rfl
@[simp] theorem State.latch_tx (s : State) (f : Fld) (i v : Nat) : (s.latch f i v).tx = s.tx := rfl
@[simp] theorem State.latch_free (s : State) (f : Fld) (i v : Nat) : (s.latch f i v).free = s.free := rfl

@[simp] theorem State.setLo_pending (s : State) (f : Fld) (i v : Nat) : (s.setLo f i v).pending = s.pending := rfl
@[simp] theorem State.setLo_power (s : State) (f : Fld) (i v : Nat) : (s.setLo f i v).power = s.power := rfl
@[simp] theorem State.setLo_clk (s : State) (f : Fld) (i v : Nat) : (s.setLo f i v).clk = s.clk := rfl
@[simp] theorem State.setLo_timeFrac (s : State) (f : Fld) (i v : Nat) : (s.setLo f i v).timeFrac = s.timeFrac := rfl
@[simp] theorem State.setLo_regs (s : State) (f : Fld) (i v : Nat) : (s.setLo f i v).regs = s.regs := rfl
@[simp] theorem State.setLo_pairLatch (s : State) (f : Fld) (i v : Nat) : (s.setLo f i v).pairLatch = s.pairLatch := rfl
@[simp] theorem State.setLo_pairLo (s : State) (f : Fld) (i v : Nat) : (s.setLo f i v).pairLo = ((f, i), v) :: s.pairLo.filter (fun e => e.1 != (f, i)) := rfl
@[simp] theorem State.setLo_rd (s : State) (f : Fld) (i v : Nat) : (s.setLo f i v).rd = s.rd := rfl
@[simp] theorem State.setLo_sram (s : State) (f : Fld) (i v : Nat) : (s.setLo f i v).sram = s.sram := rfl
@[simp] theorem State.setLo_istore (s : State) (f : Fld) (i v : Nat) : (s.setLo f i v).istore = s.istore := rfl
@[simp] theorem State.setLo_galley (s : State) (f : Fld) (i v : Nat) : (s.setLo f i v).galley = s.galley := rfl
@[simp] theorem State.setLo_lpddr (s : State) (f : Fld) (i v : Nat) : (s.setLo f i v).lpddr = s.lpddr := rfl
@[simp] theorem State.setLo_host (s : State) (f : Fld) (i v : Nat) : (s.setLo f i v).host = s.host := rfl
@[simp] theorem State.setLo_chases (s : State) (f : Fld) (i v : Nat) : (s.setLo f i v).chases = s.chases := rfl
@[simp] theorem State.setLo_ctxs (s : State) (f : Fld) (i v : Nat) : (s.setLo f i v).ctxs = s.ctxs := rfl
@[simp] theorem State.setLo_ports (s : State) (f : Fld) (i v : Nat) : (s.setLo f i v).ports = s.ports := rfl
@[simp] theorem State.setLo_lineRd (s : State) (f : Fld) (i v : Nat) : (s.setLo f i v).lineRd = s.lineRd := rfl
@[simp] theorem State.setLo_fqs (s : State) (f : Fld) (i v : Nat) : (s.setLo f i v).fqs = s.fqs := rfl
@[simp] theorem State.setLo_chans (s : State) (f : Fld) (i v : Nat) : (s.setLo f i v).chans = s.chans := rfl
@[simp] theorem State.setLo_encs (s : State) (f : Fld) (i v : Nat) : (s.setLo f i v).encs = s.encs := rfl
@[simp] theorem State.setLo_emus (s : State) (f : Fld) (i v : Nat) : (s.setLo f i v).emus = s.emus := rfl
@[simp] theorem State.setLo_barrier (s : State) (f : Fld) (i v : Nat) : (s.setLo f i v).barrier = s.barrier := rfl
@[simp] theorem State.setLo_tick (s : State) (f : Fld) (i v : Nat) : (s.setLo f i v).tick = s.tick := rfl
@[simp] theorem State.setLo_eports (s : State) (f : Fld) (i v : Nat) : (s.setLo f i v).eports = s.eports := rfl
@[simp] theorem State.setLo_servos (s : State) (f : Fld) (i v : Nat) : (s.setLo f i v).servos = s.servos := rfl
@[simp] theorem State.setLo_rings (s : State) (f : Fld) (i v : Nat) : (s.setLo f i v).rings = s.rings := rfl
@[simp] theorem State.setLo_mboxes (s : State) (f : Fld) (i v : Nat) : (s.setLo f i v).mboxes = s.mboxes := rfl
@[simp] theorem State.setLo_log (s : State) (f : Fld) (i v : Nat) : (s.setLo f i v).log = s.log := rfl
@[simp] theorem State.setLo_logSeq (s : State) (f : Fld) (i v : Nat) : (s.setLo f i v).logSeq = s.logSeq := rfl
@[simp] theorem State.setLo_fuses (s : State) (f : Fld) (i v : Nat) : (s.setLo f i v).fuses = s.fuses := rfl
@[simp] theorem State.setLo_mgmt (s : State) (f : Fld) (i v : Nat) : (s.setLo f i v).mgmt = s.mgmt := rfl
@[simp] theorem State.setLo_clock (s : State) (f : Fld) (i v : Nat) : (s.setLo f i v).clock = s.clock := rfl
@[simp] theorem State.setLo_smb (s : State) (f : Fld) (i v : Nat) : (s.setLo f i v).smb = s.smb := rfl
@[simp] theorem State.setLo_smbAck (s : State) (f : Fld) (i v : Nat) : (s.setLo f i v).smbAck = s.smbAck := rfl
@[simp] theorem State.setLo_tx (s : State) (f : Fld) (i v : Nat) : (s.setLo f i v).tx = s.tx := rfl
@[simp] theorem State.setLo_free (s : State) (f : Fld) (i v : Nat) : (s.setLo f i v).free = s.free := rfl

@[simp] theorem State.emit_pending (s : State) (x : Tx) : (s.emit x).pending = s.pending := rfl
@[simp] theorem State.emit_power (s : State) (x : Tx) : (s.emit x).power = s.power := rfl
@[simp] theorem State.emit_clk (s : State) (x : Tx) : (s.emit x).clk = s.clk := rfl
@[simp] theorem State.emit_timeFrac (s : State) (x : Tx) : (s.emit x).timeFrac = s.timeFrac := rfl
@[simp] theorem State.emit_regs (s : State) (x : Tx) : (s.emit x).regs = s.regs := rfl
@[simp] theorem State.emit_pairLatch (s : State) (x : Tx) : (s.emit x).pairLatch = s.pairLatch := rfl
@[simp] theorem State.emit_pairLo (s : State) (x : Tx) : (s.emit x).pairLo = s.pairLo := rfl
@[simp] theorem State.emit_rd (s : State) (x : Tx) : (s.emit x).rd = s.rd := rfl
@[simp] theorem State.emit_sram (s : State) (x : Tx) : (s.emit x).sram = s.sram := rfl
@[simp] theorem State.emit_istore (s : State) (x : Tx) : (s.emit x).istore = s.istore := rfl
@[simp] theorem State.emit_galley (s : State) (x : Tx) : (s.emit x).galley = s.galley := rfl
@[simp] theorem State.emit_lpddr (s : State) (x : Tx) : (s.emit x).lpddr = s.lpddr := rfl
@[simp] theorem State.emit_host (s : State) (x : Tx) : (s.emit x).host = s.host := rfl
@[simp] theorem State.emit_chases (s : State) (x : Tx) : (s.emit x).chases = s.chases := rfl
@[simp] theorem State.emit_ctxs (s : State) (x : Tx) : (s.emit x).ctxs = s.ctxs := rfl
@[simp] theorem State.emit_ports (s : State) (x : Tx) : (s.emit x).ports = s.ports := rfl
@[simp] theorem State.emit_lineRd (s : State) (x : Tx) : (s.emit x).lineRd = nextDisparity s x := rfl
@[simp] theorem State.emit_fqs (s : State) (x : Tx) : (s.emit x).fqs = s.fqs := rfl
@[simp] theorem State.emit_chans (s : State) (x : Tx) : (s.emit x).chans = s.chans := rfl
@[simp] theorem State.emit_encs (s : State) (x : Tx) : (s.emit x).encs = s.encs := rfl
@[simp] theorem State.emit_emus (s : State) (x : Tx) : (s.emit x).emus = s.emus := rfl
@[simp] theorem State.emit_barrier (s : State) (x : Tx) : (s.emit x).barrier = s.barrier := rfl
@[simp] theorem State.emit_tick (s : State) (x : Tx) : (s.emit x).tick = s.tick := rfl
@[simp] theorem State.emit_eports (s : State) (x : Tx) : (s.emit x).eports = s.eports := rfl
@[simp] theorem State.emit_servos (s : State) (x : Tx) : (s.emit x).servos = s.servos := rfl
@[simp] theorem State.emit_rings (s : State) (x : Tx) : (s.emit x).rings = s.rings := rfl
@[simp] theorem State.emit_mboxes (s : State) (x : Tx) : (s.emit x).mboxes = s.mboxes := rfl
@[simp] theorem State.emit_log (s : State) (x : Tx) : (s.emit x).log = s.log := rfl
@[simp] theorem State.emit_logSeq (s : State) (x : Tx) : (s.emit x).logSeq = s.logSeq := rfl
@[simp] theorem State.emit_fuses (s : State) (x : Tx) : (s.emit x).fuses = s.fuses := rfl
@[simp] theorem State.emit_mgmt (s : State) (x : Tx) : (s.emit x).mgmt = s.mgmt := rfl
@[simp] theorem State.emit_clock (s : State) (x : Tx) : (s.emit x).clock = s.clock := rfl
@[simp] theorem State.emit_smb (s : State) (x : Tx) : (s.emit x).smb = s.smb := rfl
@[simp] theorem State.emit_smbAck (s : State) (x : Tx) : (s.emit x).smbAck = s.smbAck := rfl
@[simp] theorem State.emit_tx (s : State) (x : Tx) : (s.emit x).tx = x :: s.tx := rfl
@[simp] theorem State.emit_free (s : State) (x : Tx) : (s.emit x).free = s.free := rfl

@[simp] theorem State.bumpBy_pending (s : State) (f : Fld) (i n : Nat) : (s.bumpBy f i n).pending = s.pending := rfl
@[simp] theorem State.bumpBy_power (s : State) (f : Fld) (i n : Nat) : (s.bumpBy f i n).power = s.power := rfl
@[simp] theorem State.bumpBy_clk (s : State) (f : Fld) (i n : Nat) : (s.bumpBy f i n).clk = s.clk := rfl
@[simp] theorem State.bumpBy_timeFrac (s : State) (f : Fld) (i n : Nat) : (s.bumpBy f i n).timeFrac = s.timeFrac := rfl
@[simp] theorem State.bumpBy_pairLatch (s : State) (f : Fld) (i n : Nat) : (s.bumpBy f i n).pairLatch = s.pairLatch := rfl
@[simp] theorem State.bumpBy_pairLo (s : State) (f : Fld) (i n : Nat) : (s.bumpBy f i n).pairLo = s.pairLo := rfl
@[simp] theorem State.bumpBy_rd (s : State) (f : Fld) (i n : Nat) : (s.bumpBy f i n).rd = s.rd := rfl
@[simp] theorem State.bumpBy_sram (s : State) (f : Fld) (i n : Nat) : (s.bumpBy f i n).sram = s.sram := rfl
@[simp] theorem State.bumpBy_istore (s : State) (f : Fld) (i n : Nat) : (s.bumpBy f i n).istore = s.istore := rfl
@[simp] theorem State.bumpBy_galley (s : State) (f : Fld) (i n : Nat) : (s.bumpBy f i n).galley = s.galley := rfl
@[simp] theorem State.bumpBy_lpddr (s : State) (f : Fld) (i n : Nat) : (s.bumpBy f i n).lpddr = s.lpddr := rfl
@[simp] theorem State.bumpBy_host (s : State) (f : Fld) (i n : Nat) : (s.bumpBy f i n).host = s.host := rfl
@[simp] theorem State.bumpBy_chases (s : State) (f : Fld) (i n : Nat) : (s.bumpBy f i n).chases = s.chases := rfl
@[simp] theorem State.bumpBy_ctxs (s : State) (f : Fld) (i n : Nat) : (s.bumpBy f i n).ctxs = s.ctxs := rfl
@[simp] theorem State.bumpBy_ports (s : State) (f : Fld) (i n : Nat) : (s.bumpBy f i n).ports = s.ports := rfl
@[simp] theorem State.bumpBy_lineRd (s : State) (f : Fld) (i n : Nat) : (s.bumpBy f i n).lineRd = s.lineRd := rfl
@[simp] theorem State.bumpBy_fqs (s : State) (f : Fld) (i n : Nat) : (s.bumpBy f i n).fqs = s.fqs := rfl
@[simp] theorem State.bumpBy_chans (s : State) (f : Fld) (i n : Nat) : (s.bumpBy f i n).chans = s.chans := rfl
@[simp] theorem State.bumpBy_encs (s : State) (f : Fld) (i n : Nat) : (s.bumpBy f i n).encs = s.encs := rfl
@[simp] theorem State.bumpBy_emus (s : State) (f : Fld) (i n : Nat) : (s.bumpBy f i n).emus = s.emus := rfl
@[simp] theorem State.bumpBy_barrier (s : State) (f : Fld) (i n : Nat) : (s.bumpBy f i n).barrier = s.barrier := rfl
@[simp] theorem State.bumpBy_tick (s : State) (f : Fld) (i n : Nat) : (s.bumpBy f i n).tick = s.tick := rfl
@[simp] theorem State.bumpBy_eports (s : State) (f : Fld) (i n : Nat) : (s.bumpBy f i n).eports = s.eports := rfl
@[simp] theorem State.bumpBy_servos (s : State) (f : Fld) (i n : Nat) : (s.bumpBy f i n).servos = s.servos := rfl
@[simp] theorem State.bumpBy_rings (s : State) (f : Fld) (i n : Nat) : (s.bumpBy f i n).rings = s.rings := rfl
@[simp] theorem State.bumpBy_mboxes (s : State) (f : Fld) (i n : Nat) : (s.bumpBy f i n).mboxes = s.mboxes := rfl
@[simp] theorem State.bumpBy_log (s : State) (f : Fld) (i n : Nat) : (s.bumpBy f i n).log = s.log := rfl
@[simp] theorem State.bumpBy_logSeq (s : State) (f : Fld) (i n : Nat) : (s.bumpBy f i n).logSeq = s.logSeq := rfl
@[simp] theorem State.bumpBy_fuses (s : State) (f : Fld) (i n : Nat) : (s.bumpBy f i n).fuses = s.fuses := rfl
@[simp] theorem State.bumpBy_mgmt (s : State) (f : Fld) (i n : Nat) : (s.bumpBy f i n).mgmt = s.mgmt := rfl
@[simp] theorem State.bumpBy_clock (s : State) (f : Fld) (i n : Nat) : (s.bumpBy f i n).clock = s.clock := rfl
@[simp] theorem State.bumpBy_smb (s : State) (f : Fld) (i n : Nat) : (s.bumpBy f i n).smb = s.smb := rfl
@[simp] theorem State.bumpBy_smbAck (s : State) (f : Fld) (i n : Nat) : (s.bumpBy f i n).smbAck = s.smbAck := rfl
@[simp] theorem State.bumpBy_tx (s : State) (f : Fld) (i n : Nat) : (s.bumpBy f i n).tx = s.tx := rfl
@[simp] theorem State.bumpBy_free (s : State) (f : Fld) (i n : Nat) : (s.bumpBy f i n).free = s.free := rfl

@[simp] theorem State.bump_pending (s : State) (f : Fld) (i : Nat) : (s.bump f i).pending = s.pending := rfl
@[simp] theorem State.bump_power (s : State) (f : Fld) (i : Nat) : (s.bump f i).power = s.power := rfl
@[simp] theorem State.bump_clk (s : State) (f : Fld) (i : Nat) : (s.bump f i).clk = s.clk := rfl
@[simp] theorem State.bump_timeFrac (s : State) (f : Fld) (i : Nat) : (s.bump f i).timeFrac = s.timeFrac := rfl
@[simp] theorem State.bump_pairLatch (s : State) (f : Fld) (i : Nat) : (s.bump f i).pairLatch = s.pairLatch := rfl
@[simp] theorem State.bump_pairLo (s : State) (f : Fld) (i : Nat) : (s.bump f i).pairLo = s.pairLo := rfl
@[simp] theorem State.bump_rd (s : State) (f : Fld) (i : Nat) : (s.bump f i).rd = s.rd := rfl
@[simp] theorem State.bump_sram (s : State) (f : Fld) (i : Nat) : (s.bump f i).sram = s.sram := rfl
@[simp] theorem State.bump_istore (s : State) (f : Fld) (i : Nat) : (s.bump f i).istore = s.istore := rfl
@[simp] theorem State.bump_galley (s : State) (f : Fld) (i : Nat) : (s.bump f i).galley = s.galley := rfl
@[simp] theorem State.bump_lpddr (s : State) (f : Fld) (i : Nat) : (s.bump f i).lpddr = s.lpddr := rfl
@[simp] theorem State.bump_host (s : State) (f : Fld) (i : Nat) : (s.bump f i).host = s.host := rfl
@[simp] theorem State.bump_chases (s : State) (f : Fld) (i : Nat) : (s.bump f i).chases = s.chases := rfl
@[simp] theorem State.bump_ctxs (s : State) (f : Fld) (i : Nat) : (s.bump f i).ctxs = s.ctxs := rfl
@[simp] theorem State.bump_ports (s : State) (f : Fld) (i : Nat) : (s.bump f i).ports = s.ports := rfl
@[simp] theorem State.bump_lineRd (s : State) (f : Fld) (i : Nat) : (s.bump f i).lineRd = s.lineRd := rfl
@[simp] theorem State.bump_fqs (s : State) (f : Fld) (i : Nat) : (s.bump f i).fqs = s.fqs := rfl
@[simp] theorem State.bump_chans (s : State) (f : Fld) (i : Nat) : (s.bump f i).chans = s.chans := rfl
@[simp] theorem State.bump_encs (s : State) (f : Fld) (i : Nat) : (s.bump f i).encs = s.encs := rfl
@[simp] theorem State.bump_emus (s : State) (f : Fld) (i : Nat) : (s.bump f i).emus = s.emus := rfl
@[simp] theorem State.bump_barrier (s : State) (f : Fld) (i : Nat) : (s.bump f i).barrier = s.barrier := rfl
@[simp] theorem State.bump_tick (s : State) (f : Fld) (i : Nat) : (s.bump f i).tick = s.tick := rfl
@[simp] theorem State.bump_eports (s : State) (f : Fld) (i : Nat) : (s.bump f i).eports = s.eports := rfl
@[simp] theorem State.bump_servos (s : State) (f : Fld) (i : Nat) : (s.bump f i).servos = s.servos := rfl
@[simp] theorem State.bump_rings (s : State) (f : Fld) (i : Nat) : (s.bump f i).rings = s.rings := rfl
@[simp] theorem State.bump_mboxes (s : State) (f : Fld) (i : Nat) : (s.bump f i).mboxes = s.mboxes := rfl
@[simp] theorem State.bump_log (s : State) (f : Fld) (i : Nat) : (s.bump f i).log = s.log := rfl
@[simp] theorem State.bump_logSeq (s : State) (f : Fld) (i : Nat) : (s.bump f i).logSeq = s.logSeq := rfl
@[simp] theorem State.bump_fuses (s : State) (f : Fld) (i : Nat) : (s.bump f i).fuses = s.fuses := rfl
@[simp] theorem State.bump_mgmt (s : State) (f : Fld) (i : Nat) : (s.bump f i).mgmt = s.mgmt := rfl
@[simp] theorem State.bump_clock (s : State) (f : Fld) (i : Nat) : (s.bump f i).clock = s.clock := rfl
@[simp] theorem State.bump_smb (s : State) (f : Fld) (i : Nat) : (s.bump f i).smb = s.smb := rfl
@[simp] theorem State.bump_smbAck (s : State) (f : Fld) (i : Nat) : (s.bump f i).smbAck = s.smbAck := rfl
@[simp] theorem State.bump_tx (s : State) (f : Fld) (i : Nat) : (s.bump f i).tx = s.tx := rfl
@[simp] theorem State.bump_free (s : State) (f : Fld) (i : Nat) : (s.bump f i).free = s.free := rfl

@[simp] theorem State.resetRegs_pending (s : State) (keep : Kept → Bool) (reach : Fld → Nat → Bool) : (s.resetRegs keep reach).pending = s.pending := rfl
@[simp] theorem State.resetRegs_power (s : State) (keep : Kept → Bool) (reach : Fld → Nat → Bool) : (s.resetRegs keep reach).power = s.power := rfl
@[simp] theorem State.resetRegs_clk (s : State) (keep : Kept → Bool) (reach : Fld → Nat → Bool) : (s.resetRegs keep reach).clk = s.clk := rfl
@[simp] theorem State.resetRegs_timeFrac (s : State) (keep : Kept → Bool) (reach : Fld → Nat → Bool) : (s.resetRegs keep reach).timeFrac = s.timeFrac := rfl
@[simp] theorem State.resetRegs_rd (s : State) (keep : Kept → Bool) (reach : Fld → Nat → Bool) : (s.resetRegs keep reach).rd = s.rd := rfl
@[simp] theorem State.resetRegs_sram (s : State) (keep : Kept → Bool) (reach : Fld → Nat → Bool) : (s.resetRegs keep reach).sram = s.sram := rfl
@[simp] theorem State.resetRegs_istore (s : State) (keep : Kept → Bool) (reach : Fld → Nat → Bool) : (s.resetRegs keep reach).istore = s.istore := rfl
@[simp] theorem State.resetRegs_galley (s : State) (keep : Kept → Bool) (reach : Fld → Nat → Bool) : (s.resetRegs keep reach).galley = s.galley := rfl
@[simp] theorem State.resetRegs_lpddr (s : State) (keep : Kept → Bool) (reach : Fld → Nat → Bool) : (s.resetRegs keep reach).lpddr = s.lpddr := rfl
@[simp] theorem State.resetRegs_host (s : State) (keep : Kept → Bool) (reach : Fld → Nat → Bool) : (s.resetRegs keep reach).host = s.host := rfl
@[simp] theorem State.resetRegs_chases (s : State) (keep : Kept → Bool) (reach : Fld → Nat → Bool) : (s.resetRegs keep reach).chases = s.chases := rfl
@[simp] theorem State.resetRegs_ctxs (s : State) (keep : Kept → Bool) (reach : Fld → Nat → Bool) : (s.resetRegs keep reach).ctxs = s.ctxs := rfl
@[simp] theorem State.resetRegs_ports (s : State) (keep : Kept → Bool) (reach : Fld → Nat → Bool) : (s.resetRegs keep reach).ports = s.ports := rfl
@[simp] theorem State.resetRegs_lineRd (s : State) (keep : Kept → Bool) (reach : Fld → Nat → Bool) : (s.resetRegs keep reach).lineRd = s.lineRd := rfl
@[simp] theorem State.resetRegs_fqs (s : State) (keep : Kept → Bool) (reach : Fld → Nat → Bool) : (s.resetRegs keep reach).fqs = s.fqs := rfl
@[simp] theorem State.resetRegs_chans (s : State) (keep : Kept → Bool) (reach : Fld → Nat → Bool) : (s.resetRegs keep reach).chans = s.chans := rfl
@[simp] theorem State.resetRegs_encs (s : State) (keep : Kept → Bool) (reach : Fld → Nat → Bool) : (s.resetRegs keep reach).encs = s.encs := rfl
@[simp] theorem State.resetRegs_emus (s : State) (keep : Kept → Bool) (reach : Fld → Nat → Bool) : (s.resetRegs keep reach).emus = s.emus := rfl
@[simp] theorem State.resetRegs_barrier (s : State) (keep : Kept → Bool) (reach : Fld → Nat → Bool) : (s.resetRegs keep reach).barrier = s.barrier := rfl
@[simp] theorem State.resetRegs_tick (s : State) (keep : Kept → Bool) (reach : Fld → Nat → Bool) : (s.resetRegs keep reach).tick = s.tick := rfl
@[simp] theorem State.resetRegs_eports (s : State) (keep : Kept → Bool) (reach : Fld → Nat → Bool) : (s.resetRegs keep reach).eports = s.eports := rfl
@[simp] theorem State.resetRegs_servos (s : State) (keep : Kept → Bool) (reach : Fld → Nat → Bool) : (s.resetRegs keep reach).servos = s.servos := rfl
@[simp] theorem State.resetRegs_rings (s : State) (keep : Kept → Bool) (reach : Fld → Nat → Bool) : (s.resetRegs keep reach).rings = s.rings := rfl
@[simp] theorem State.resetRegs_mboxes (s : State) (keep : Kept → Bool) (reach : Fld → Nat → Bool) : (s.resetRegs keep reach).mboxes = s.mboxes := rfl
@[simp] theorem State.resetRegs_log (s : State) (keep : Kept → Bool) (reach : Fld → Nat → Bool) : (s.resetRegs keep reach).log = s.log := rfl
@[simp] theorem State.resetRegs_logSeq (s : State) (keep : Kept → Bool) (reach : Fld → Nat → Bool) : (s.resetRegs keep reach).logSeq = s.logSeq := rfl
@[simp] theorem State.resetRegs_fuses (s : State) (keep : Kept → Bool) (reach : Fld → Nat → Bool) : (s.resetRegs keep reach).fuses = s.fuses := rfl
@[simp] theorem State.resetRegs_mgmt (s : State) (keep : Kept → Bool) (reach : Fld → Nat → Bool) : (s.resetRegs keep reach).mgmt = s.mgmt := rfl
@[simp] theorem State.resetRegs_clock (s : State) (keep : Kept → Bool) (reach : Fld → Nat → Bool) : (s.resetRegs keep reach).clock = s.clock := rfl
@[simp] theorem State.resetRegs_smb (s : State) (keep : Kept → Bool) (reach : Fld → Nat → Bool) : (s.resetRegs keep reach).smb = s.smb := rfl
@[simp] theorem State.resetRegs_smbAck (s : State) (keep : Kept → Bool) (reach : Fld → Nat → Bool) : (s.resetRegs keep reach).smbAck = s.smbAck := rfl
@[simp] theorem State.resetRegs_tx (s : State) (keep : Kept → Bool) (reach : Fld → Nat → Bool) : (s.resetRegs keep reach).tx = s.tx := rfl
@[simp] theorem State.resetRegs_free (s : State) (keep : Kept → Bool) (reach : Fld → Nat → Bool) : (s.resetRegs keep reach).free = s.free := rfl

@[simp] theorem State.fresh_pending (s : State) (bits : Nat) : (s.fresh bits).2.pending = s.pending := rfl
@[simp] theorem State.fresh_power (s : State) (bits : Nat) : (s.fresh bits).2.power = s.power := rfl
@[simp] theorem State.fresh_clk (s : State) (bits : Nat) : (s.fresh bits).2.clk = s.clk := rfl
@[simp] theorem State.fresh_timeFrac (s : State) (bits : Nat) : (s.fresh bits).2.timeFrac = s.timeFrac := rfl
@[simp] theorem State.fresh_regs (s : State) (bits : Nat) : (s.fresh bits).2.regs = s.regs := rfl
@[simp] theorem State.fresh_pairLatch (s : State) (bits : Nat) : (s.fresh bits).2.pairLatch = s.pairLatch := rfl
@[simp] theorem State.fresh_pairLo (s : State) (bits : Nat) : (s.fresh bits).2.pairLo = s.pairLo := rfl
@[simp] theorem State.fresh_rd (s : State) (bits : Nat) : (s.fresh bits).2.rd = s.rd := rfl
@[simp] theorem State.fresh_sram (s : State) (bits : Nat) : (s.fresh bits).2.sram = s.sram := rfl
@[simp] theorem State.fresh_istore (s : State) (bits : Nat) : (s.fresh bits).2.istore = s.istore := rfl
@[simp] theorem State.fresh_galley (s : State) (bits : Nat) : (s.fresh bits).2.galley = s.galley := rfl
@[simp] theorem State.fresh_lpddr (s : State) (bits : Nat) : (s.fresh bits).2.lpddr = s.lpddr := rfl
@[simp] theorem State.fresh_host (s : State) (bits : Nat) : (s.fresh bits).2.host = s.host := rfl
@[simp] theorem State.fresh_chases (s : State) (bits : Nat) : (s.fresh bits).2.chases = s.chases := rfl
@[simp] theorem State.fresh_ctxs (s : State) (bits : Nat) : (s.fresh bits).2.ctxs = s.ctxs := rfl
@[simp] theorem State.fresh_ports (s : State) (bits : Nat) : (s.fresh bits).2.ports = s.ports := rfl
@[simp] theorem State.fresh_lineRd (s : State) (bits : Nat) : (s.fresh bits).2.lineRd = s.lineRd := rfl
@[simp] theorem State.fresh_fqs (s : State) (bits : Nat) : (s.fresh bits).2.fqs = s.fqs := rfl
@[simp] theorem State.fresh_chans (s : State) (bits : Nat) : (s.fresh bits).2.chans = s.chans := rfl
@[simp] theorem State.fresh_encs (s : State) (bits : Nat) : (s.fresh bits).2.encs = s.encs := rfl
@[simp] theorem State.fresh_emus (s : State) (bits : Nat) : (s.fresh bits).2.emus = s.emus := rfl
@[simp] theorem State.fresh_barrier (s : State) (bits : Nat) : (s.fresh bits).2.barrier = s.barrier := rfl
@[simp] theorem State.fresh_tick (s : State) (bits : Nat) : (s.fresh bits).2.tick = s.tick := rfl
@[simp] theorem State.fresh_eports (s : State) (bits : Nat) : (s.fresh bits).2.eports = s.eports := rfl
@[simp] theorem State.fresh_servos (s : State) (bits : Nat) : (s.fresh bits).2.servos = s.servos := rfl
@[simp] theorem State.fresh_rings (s : State) (bits : Nat) : (s.fresh bits).2.rings = s.rings := rfl
@[simp] theorem State.fresh_mboxes (s : State) (bits : Nat) : (s.fresh bits).2.mboxes = s.mboxes := rfl
@[simp] theorem State.fresh_log (s : State) (bits : Nat) : (s.fresh bits).2.log = s.log := rfl
@[simp] theorem State.fresh_logSeq (s : State) (bits : Nat) : (s.fresh bits).2.logSeq = s.logSeq := rfl
@[simp] theorem State.fresh_fuses (s : State) (bits : Nat) : (s.fresh bits).2.fuses = s.fuses := rfl
@[simp] theorem State.fresh_mgmt (s : State) (bits : Nat) : (s.fresh bits).2.mgmt = s.mgmt := rfl
@[simp] theorem State.fresh_clock (s : State) (bits : Nat) : (s.fresh bits).2.clock = s.clock := rfl
@[simp] theorem State.fresh_smb (s : State) (bits : Nat) : (s.fresh bits).2.smb = s.smb := rfl
@[simp] theorem State.fresh_smbAck (s : State) (bits : Nat) : (s.fresh bits).2.smbAck = s.smbAck := rfl
@[simp] theorem State.fresh_tx (s : State) (bits : Nat) : (s.fresh bits).2.tx = s.tx := rfl
@[simp] theorem State.fresh_free (s : State) (bits : Nat) : (s.fresh bits).2.free = s.free + 1 := rfl

end Sys2Proof.Machine
end

