-- ==== Sys2Proof/Laws/Regs.lean ====
section
/-! SUPPORT. The laws of the register fields: what is read after a write, and that every update keeps a state sound. -/

namespace Sys2Proof.Laws

open Sys2Proof.Machine Sys2Proof.Safety

/-! ### Reads after writes -/

/-- A field just put reads the value cut to its width. -/
@[simp] theorem get_put_same (s : State) (f : Fld) (i v : Nat) : (s.put f i v).get f i = v % 2 ^ f.info.width := by
  simp [State.get]

/-- Looking up a key in a list from which another key was removed. -/
theorem find_key_filter {l : List ((Fld × Nat) × Nat)} {a b : Fld × Nat} (h : b ≠ a) :
    (l.filter (fun e => e.1 != a)).find? (fun e => e.1 == b) = l.find? (fun e => e.1 == b) := by
  induction l with
  | nil => rfl
  | cons e l ih =>
    by_cases ha : e.1 = a
    · have hab : (a == b) = false := beq_eq_false_iff_ne.mpr (fun x => h x.symm)
      simp [ha, ih, hab]
    · by_cases hb : e.1 = b
      · simp [hb, h]
      · simp [ha, ih, beq_eq_false_iff_ne.mpr hb]

/-- Putting one field leaves every other field, and every other index of it, as it was. -/
theorem get_put_other (s : State) {f g : Fld} {i j : Nat} (h : (g, j) ≠ (f, i)) (v : Nat) :
    (s.put f i v).get g j = s.get g j := by
  have hfg : ((f, i) == (g, j)) = false := beq_eq_false_iff_ne.mpr (fun x => h x.symm)
  simp [State.get, hfg, find_key_filter h]

/-- Putting one field leaves every field of another name as it was. -/
theorem get_put_ne (s : State) {f g : Fld} (h : g ≠ f) (i j v : Nat) : (s.put f i v).get g j = s.get g j :=
  get_put_other s (fun e => h (congrArg Prod.fst e)) v

/-- A count that fits goes up by one; at its top it holds (R62). -/
theorem get_bump (s : State) (f : Fld) (i : Nat) :
    (s.bump f i).get f i = min (s.get f i + 1) 0xFFFFFFFF % 2 ^ f.info.width := by
  simp [State.bump, State.bumpBy]

/-- Counting in one field leaves every field of another name as it was. -/
theorem get_bump_ne (s : State) {f g : Fld} (h : g ≠ f) (i j : Nat) : (s.bump f i).get g j = s.get g j :=
  get_put_ne s h i j _

/-! ### Entries of tables -/

@[simp] theorem chase_setChase (s : State) (n : Nat) (c : Chase) : (s.setChase n c).chase n = c := by
  simp [State.chase]

@[simp] theorem context_setCtx (s : State) (k : Nat) (c : Context) : (s.setCtx k c).context k = c := by
  simp [State.context]

@[simp] theorem port_setPort (s : State) (p : Nat) (x : Port) : (s.setPort p x).port p = x := by
  simp [State.port]

@[simp] theorem mbox_setMbox (s : State) (m : Nat) (x : Mailbox) : (s.setMbox m x).mbox m = x := by
  simp [State.mbox]

@[simp] theorem chan_setChan (s : State) (c : Nat) (x : ChanSt) : (s.setChan c x).chan c = x := by
  simp [State.chan]

@[simp] theorem fq_setFq (s : State) (e : Nat) (q : List FireCmd) : (s.setFq e q).fq e = q := by
  simp [State.fq]

@[simp] theorem eport_setEport (s : State) (p : Nat) (x : EPortSt) : (s.setEport p x).eport p = x := by
  simp [State.eport]

@[simp] theorem ring_setRing (s : State) (r : Nat) (x : RingSt) : (s.setRing r x).ring r = x := by
  simp [State.ring]

/-! ### Soundness -/

/-- A put keeps a state sound, whatever is put. -/
theorem sound_put {s : State} (h : Sound s) (f : Fld) (i v : Nat) : Sound (s.put f i v) := by
  refine ⟨?_, h.2⟩
  intro e he
  rcases List.mem_cons.mp he with rfl | he
  · exact Nat.mod_lt _ (by positivity)
  · exact h.1 e (List.mem_of_mem_filter he)

/-- Counting keeps a state sound. -/
theorem sound_bumpBy {s : State} (h : Sound s) (f : Fld) (i n : Nat) : Sound (s.bumpBy f i n) := sound_put h f i _

/-- Counting keeps a state sound. -/
theorem sound_bump {s : State} (h : Sound s) (f : Fld) (i : Nat) : Sound (s.bump f i) := sound_put h f i _

/-- A reset of registers keeps a state sound. -/
theorem sound_resetRegs {s : State} (h : Sound s) (keep : Kept → Bool) (reach : Fld → Nat → Bool) :
    Sound (s.resetRegs keep reach) :=
  ⟨fun e he => h.1 e (List.mem_of_mem_filter he), h.2⟩

/-- A state with the same registers and memories as a sound one is sound. -/
theorem sound_of_same {s t : State} (h : Sound s) (hr : t.regs = s.regs) (h1 : t.sram = s.sram)
    (h2 : t.istore = s.istore) (h3 : t.galley = s.galley) (h4 : t.lpddr = s.lpddr) (h5 : t.host = s.host) : Sound t := by
  refine ⟨fun e he => h.1 e (hr ▸ he), ?_⟩
  simpa [memoriesCanonical, h1, h2, h3, h4, h5] using h.2

/-- A fold of steps that each keep a state sound keeps it sound. -/
theorem sound_foldl {α : Type} {g : State → α → State} (hg : ∀ s a, Sound s → Sound (g s a)) (l : List α) {s : State}
    (h : Sound s) : Sound (l.foldl g s) := by
  induction l generalizing s with
  | nil => exact h
  | cons a l ih => exact ih (hg s a h)

end Sys2Proof.Laws
end

