-- ==== Sys2Proof/Laws/Ops.lean ====
section
/-! SUPPORT. What the shared operations can do: the gate of an instruction, the gate of a firmware command, and that
events, interrupts, ring records and completions keep a state sound. -/

namespace Sys2Proof.Laws

open Sys2Proof Sys2Proof.Machine Sys2Proof.Safety

/-! ### Issue -/

/-- An instruction that stays changes nothing. -/
theorem issue_stay {q : SeqId} {w : ZWord} {s : State} {row : Op → Bool} {on : Op → Seq → State → State}
    (h : gateOf s q (opOf w) (row (opOf w)) = .stay) : issue q w s row on = s := by
  simp [issue, h]

/-- An instruction that traps raises its trap. -/
theorem issue_trap {q : SeqId} {w : ZWord} {s : State} {row : Op → Bool} {on : Op → Seq → State → State} {c : Nat}
    (h : gateOf s q (opOf w) (row (opOf w)) = .trap c) :
    issue q w s row on = raiseTrap s q (opOf w) (sequencer s q).pc c := by
  simp [issue, h, sequencer]

/-- A predicated-off instruction occupies its units and goes on. -/
theorem issue_off {q : SeqId} {w : ZWord} {s : State} {row : Op → Bool} {on : Op → Seq → State → State}
    (h : gateOf s q (opOf w) (row (opOf w)) = .off) :
    issue q w s row on = retire q (occupy s q (opOf w) [] [] true []) := by
  simp [issue, h]

/-- An instruction that goes has the effect of its row. -/
theorem issue_go {q : SeqId} {w : ZWord} {s : State} {row : Op → Bool} {on : Op → Seq → State → State}
    (h : goes q w row s) : issue q w s row on = on (opOf w) (sequencer s q) s := by
  simp [issue, h, sequencer]

/-- What it takes for an instruction to go: its sequencer can issue inside its program, no check traps, the row is the
word's, no unit it names is busy, and its predicate holds. -/
theorem goes_iff (q : SeqId) (w : ZWord) (row : Op → Bool) (s : State) :
    goes q w row s ↔
      canIssue s q = true ∧ pastEnd (sequencer s q) = false ∧ issueTrap s q (sequencer s q) (opOf w) = none ∧
        row (opOf w) = true ∧ (unitsOf s q (opOf w)).any (unitBusy s q.chase.val) = false ∧
        (sequencer s q).executes (opOf w) = true := by
  simp only [goes, gateOf, sequencer]
  by_cases h1 : canIssue s q = true
  · cases h2 : pastEnd ((s.chase q.chase.val).seq q.core)
    · cases h3 : issueTrap s q ((s.chase q.chase.val).seq q.core) (opOf w) with
      | some c => simp [h1]; split <;> simp
      | none =>
        cases h4 : row (opOf w) <;> cases h5 : (unitsOf s q (opOf w)).any (unitBusy s q.chase.val) <;>
          cases h6 : ((s.chase q.chase.val).seq q.core).executes (opOf w) <;> simp [h1]
    · simp [h1]
  · simp [h1]
    split
    · simp
    · split
      · simp
      · split
        · split <;> simp
        · simp

/-! ### Firmware commands -/

/-- A firmware command that is served runs on the state without its message. -/
theorem firmware_run {s : State} {r : Req} {always hello : Bool} {run : State → State}
    (h : served s r always hello) : firmware s r always hello run = run (takeRequest s r) := by
  simp [firmware, h]

/-- A firmware command that is not served only answers. -/
theorem firmware_answer {s : State} {r : Req} {always hello : Bool} {run : State → State} {c : Nat} {d : List Word}
    (h : fwGate s r always hello = some (c, d)) :
    firmware s r always hello run = answer (takeRequest s r) r c d := by
  simp [firmware, h]

/-- PF0's own commands run for PF0. -/
theorem pf0Only_run {r : Req} {s : State} {run : State → State} (h : senderFn s r.sender.toNat = 0) :
    pf0Only r s run = run s := by
  simp [pf0Only, h]

/-- PF0's own commands answer any other function ISOLATED. -/
theorem pf0Only_isolated {r : Req} {s : State} {run : State → State} (h : senderFn s r.sender.toNat ≠ 0) :
    pf0Only r s run = answer s r cIsolated [] := by
  simp [pf0Only, h]

/-! ### Soundness -/

/-- Emitting keeps a state sound. -/
theorem sound_emit {s : State} (h : Sound s) (x : Tx) : Sound (s.emit x) := h

/-- An interrupt keeps a state sound. -/
theorem sound_fireVector {s : State} (h : Sound s) (fn v : Nat) : Sound (fireVector s fn v) := h

/-- A choice between an interrupt and none keeps a state sound. -/
theorem sound_ite_fireVector {s : State} (h : Sound s) (p : Prop) [Decidable p] (fn v : Nat) :
    Sound (if p then fireVector s fn v else s) := by
  split <;> exact h

/-- An event-log entry keeps a state sound. -/
theorem sound_logEvent {s : State} (h : Sound s) (code source severity : Nat) (details : List Nat) :
    Sound (logEvent s code source severity details) := by
  have h1 : ∀ l n, Sound { s with log := l, logSeq := n } := fun _ _ => h
  unfold logEvent
  dsimp only
  apply sound_ite_fireVector
  split
  · exact sound_put (sound_put (h1 _ _) _ _ _) _ _ _
  · exact sound_put (h1 _ _) _ _ _

/-- A change of a ring keeps a state sound. -/
theorem sound_setRing {s : State} (h : Sound s) (r : Nat) (x : RingSt) : Sound (s.setRing r x) := h

/-- A change of a mailbox keeps a state sound. -/
theorem sound_setMbox {s : State} (h : Sound s) (m : Nat) (x : Mailbox) : Sound (s.setMbox m x) := h

/-- An advance of a ring's producer index keeps a state sound. -/
theorem sound_ringAdvance {s : State} (h : Sound s) (r : Nat) : Sound (ringAdvance s r) := by
  unfold ringAdvance
  split
  · exact h
  · dsimp only
    split <;> split <;> exact sound_of_same h rfl rfl rfl rfl rfl rfl

/-- A record written to a ring keeps a state sound. -/
theorem sound_ringWrite {s : State} (h : Sound s) (r : Nat) (b : List Byte) : Sound (ringWrite s r b) := by
  unfold ringWrite
  apply sound_ringAdvance
  apply sound_put
  exact ⟨h.1, h.2.1, h.2.2.1, h.2.2.2.1, h.2.2.2.2.1, memStore_wf h.2.2.2.2.2 _ _⟩

/-- Moving staged records to host memory keeps a state sound. -/
theorem sound_ringDrain (n : Nat) : ∀ {s : State}, Sound s → ∀ r, Sound (ringDrain n s r) := by
  induction n with
  | zero => intro s h r; exact h
  | succ n ih =>
    intro s h r
    simp only [ringDrain]
    split
    · split
      · exact h
      · split
        · exact ih (sound_ringWrite (sound_setRing h _ _) _ _) r
        · exact ih (sound_ringWrite (sound_setRing h _ _) _ _) r
    · exact h

/-- Staging a record keeps a state sound. -/
theorem sound_stageRecord {s : State} (h : Sound s) (r first : Nat) (b : List Byte) :
    Sound (stageRecord s r first b) := by
  unfold stageRecord
  dsimp only
  split
  · exact sound_ringDrain _ (sound_setRing h _ _) r
  · exact sound_setRing (sound_bump h .ringSpoils r) _ _

/-- Queueing a completion keeps a state sound. -/
theorem sound_queueCompletion {s : State} (h : Sound s) (m : Nat) (c : Cpl) : Sound (queueCompletion s m c) := by
  unfold queueCompletion
  dsimp only
  split
  · exact sound_of_same h rfl rfl rfl rfl rfl rfl
  · exact sound_bump h _ _

/-- A completion keeps a state sound. -/
theorem sound_complete {s : State} (h : Sound s) (m fn tag : Nat) (ring : Option Word) (code : Nat)
    (details : List Word) : Sound (complete s m fn tag ring code details) := by
  unfold complete
  split
  · split
    · exact sound_stageRecord h _ _ _
    · exact sound_queueCompletion h _ _
  · exact sound_queueCompletion h _ _

/-- Answering a firmware command keeps a state sound. -/
theorem sound_answer {s : State} (h : Sound s) (r : Req) (code : Nat) (details : List Word) :
    Sound (answer s r code details) := sound_complete h _ _ _ _ _ _

/-- A firmware command keeps a state sound where what it runs does. -/
theorem sound_firmware {s : State} (h : Sound s) (r : Req) (always hello : Bool) {run : State → State}
    (hr : ∀ t, Sound t → Sound (run t)) : Sound (firmware s r always hello run) := by
  have h1 : Sound (takeRequest s r) := sound_of_same h rfl rfl rfl rfl rfl rfl
  unfold firmware
  split
  · exact sound_answer h1 _ _ _
  · exact hr _ h1

/-- A change of one sequencer keeps a state sound. -/
theorem sound_modSeq {s : State} (h : Sound s) (q : SeqId) (f : Seq → Seq) : Sound (modSeq s q f) :=
  sound_of_same h rfl rfl rfl rfl rfl rfl

/-- Retiring keeps a state sound. -/
theorem sound_retire {s : State} (h : Sound s) (q : SeqId) : Sound (retire q s) := sound_modSeq h q _

/-- Occupying units keeps a state sound. -/
theorem sound_occupy {s : State} (h : Sound s) (q : SeqId) (o : Op) (reads writes : List Span)
    (furniture : Bool) (rows : List (Nat × Nat × List Byte)) : Sound (occupy s q o reads writes furniture rows) := sound_of_same h rfl rfl rfl rfl rfl rfl

end Sys2Proof.Laws
end

