-- ==== Sys2Proof/Laws/Units.lean ====
section
/-! SUPPORT. What the operations the units share can do: the lines a ring has taken, the corrected words a read finds, the
copies that end, the level changes and configurations on their way over the barrier; each keeps a state sound. -/

namespace Sys2Proof.Laws

open Sys2Proof Sys2Proof.Machine Sys2Proof.Safety

/-- Noting the first line of a ring keeps a state sound. -/
theorem sound_noteLine {s : State} (h : Sound s) (q : SeqId) (d : Desc) (h0 : Nat) : Sound (noteLine s q d h0) := by
  unfold noteLine
  dsimp only
  split
  · exact h
  · exact sound_of_same h rfl rfl rfl rfl rfl rfl

/-- A ring that has taken a line keeps the first one. -/
theorem noteLine_again {s : State} {q : SeqId} {d : Desc} {f : Nat} (h : ringFirst s q d = some f) (h0 : Nat) :
    noteLine s q d h0 = s := by
  simp [noteLine, h]

/-- Finding corrected words keeps a state sound. -/
theorem sound_readCorrected {s : State} (h : Sound s) (sp : Span) : Sound (readCorrected s sp) := by
  unfold readCorrected
  exact sound_put (sound_put (sound_put (sound_put (sound_put (sound_bumpBy h _ _ _) _ _ _) _ _ _) _ _ _) _ _ _) _ _ _

/-- Reading the sources of an instruction keeps a state sound. -/
theorem sound_readSources {s : State} (h : Sound s) (l : List Span) : Sound (readSources s l) := by
  have ht := sound_foldl (fun s a hs => sound_readCorrected (s := s) hs a) (l.filter (fun sp => sp.1 == 0)) h
  exact sound_of_same ht rfl rfl rfl rfl rfl rfl

/-- A command for the level an output already has sends nothing. -/
theorem commandTo_same {s : State} {c : Nat} {on : Bool} (h : (s.chan c).commanded = on) : commandTo s c on = s := by
  simp [commandTo, h]

/-- A command for another level enters one change, in the frame and at the instant of now (R321). -/
theorem commandTo_changes {s : State} {c : Nat} {on : Bool} (h : (s.chan c).commanded ≠ on) :
    (commandTo s c on).barrier.changes = s.barrier.changes ++ [⟨frameFor s, offsetFor s, c, on⟩] := by
  simp [commandTo, h, State.setChan]

/-- Commanding an output keeps a state sound. -/
theorem sound_commandTo {s : State} (h : Sound s) (c : Nat) (on : Bool) : Sound (commandTo s c on) := by
  unfold commandTo
  dsimp only
  split
  · exact h
  · exact sound_of_same h rfl rfl rfl rfl rfl rfl

/-- The end of copies keeps a state sound. -/
theorem sound_endCopies {s : State} (h : Sound s) (l : List Nat) (code : Nat) : Sound (endCopies s l code) :=
  sound_foldl (fun _ _ hs => sound_put (sound_put hs _ _ _) _ _ _) l h

/-- Sending a new configuration keeps a state sound. -/
theorem sound_newConfig {s : State} (h : Sound s) : Sound (newConfig s) :=
  sound_put (sound_of_same (t := { s with barrier := { s.barrier with cfgGen := s.barrier.cfgGen + 1 } }) h
    rfl rfl rfl rfl rfl rfl) _ _ _

end Sys2Proof.Laws
end

