-- ==== Sys2Proof/WellFormed.lean ====
section
/-! DEFINITION. Which commands are well formed: what the types of the operands do not say.  A Zarson command's word must
spell its row's opcode, a firmware command must come from a sender that exists, and lengths must be what the spec gives
them. -/

namespace Sys2Proof

/-- A Zarson word's class and opcode, bits [11:8] and [7:0] of w0 (R119). -/
def ZWord.spells (w : ZWord) (cls code : Nat) : Bool :=
  w.toNat / 256 % 16 == cls && w.toNat % 256 == code

/-- A Zarson word's sub field, bits [31:26] of w0 (R119). -/
def ZWord.subOf (w : ZWord) : Nat := w.toNat / 2 ^ 26 % 64

/-- A sender that may post firmware commands (R372): PF0, a VF, or a chase. -/
def Req.wf (r : Req) : Bool :=
  decide (r.sender.toNat ≤ 16) || (decide (32 ≤ r.sender.toNat) && decide (r.sender.toNat < 48))

/-- Whether the word of a Zarson command spells its row (R134 to R164); a command of another kind has none. -/
def Instr.spelled : Instr → Bool
  | .nop _ w => w.spells 0 0x00
  | .sets _ w => w.spells 0 0x01
  | .alu _ w => w.spells 0 0x02
  | .cmp _ w => w.spells 0 0x03
  | .dld _ w => w.spells 0 0x04
  | .dadd _ w => w.spells 0 0x05
  | .loop _ w => w.spells 0 0x08
  | .br _ w => w.spells 0 0x09
  | .sync _ w => w.spells 0 0x0A
  | .waitl _ w => w.spells 0 0x0C
  | .waite _ w => w.spells 0 0x0D
  | .halt _ w => w.spells 0 0x0E
  | .trap _ w => w.spells 0 0x0F
  | .ldT _ w => w.spells 1 0x01
  | .stT _ w => w.spells 1 0x02
  | .copy2d _ w => w.spells 1 0x03
  | .zpack _ w => w.spells 1 0x04
  | .conv _ w => w.spells 2 0x01
  | .dwconv _ w => w.spells 2 0x02
  | .gemm _ w => w.spells 2 0x03
  | .poolmax _ w => w.spells 2 0x04
  | .poolavg _ w => w.spells 2 0x05
  | .add _ w => w.spells 2 0x06
  | .mul _ w => w.spells 2 0x07
  | .act _ w => w.spells 2 0x08
  | .quant _ w => w.spells 2 0x09
  | .deq _ w => w.spells 2 0x0A
  | .rot _ w => w.spells 2 0x0B
  | .boxdec _ w => w.spells 3 0x01
  | .nms _ w => w.spells 3 0x02
  | .dimsOpen _ w => w.spells 3 0x03 && w.subOf % 4 == 0
  | .dimsAccumulate _ w => w.spells 3 0x03 && w.subOf % 4 == 1
  | .dimsClose _ w => w.spells 3 0x03 && w.subOf % 4 == 2
  | .topk _ w => w.spells 3 0x04
  | .gate _ w => w.spells 4 0x01
  | .sortSend _ w => w.spells 4 0x02 && w.subOf % 2 == 0
  | .sortSendReply _ w => w.spells 4 0x02 && w.subOf % 2 == 1
  | .sortRecv _ w => w.spells 4 0x03 && w.subOf % 2 == 0
  | .sortRecvInbound _ w => w.spells 4 0x03 && w.subOf % 2 == 1
  | .combine _ w => w.spells 4 0x04
  | .verdictOpen _ w => w.spells 5 0x01 && w.subOf / 32 == 0
  | .verdictDecide _ w => w.spells 5 0x01 && w.subOf / 32 == 1
  | .fire _ w => w.spells 5 0x02
  | .trig _ w => w.spells 5 0x03
  | .tstamp _ w => w.spells 5 0x04
  | .param _ w => w.spells 6 0x01
  | .bwset _ w => w.spells 6 0x02
  | .mbx _ w => w.spells 6 0x03
  | .quoinAcquire _ w => w.spells 6 0x04 && w.subOf % 4 == 0
  | .quoinRelease _ w => w.spells 6 0x04 && w.subOf % 4 == 1
  | .quoinClear _ w => w.spells 6 0x04 && w.subOf % 4 == 2
  | _ => true

/-- Who asked for a firmware command (R369). -/
def Instr.req : Instr → Option Req
  | .chaseCreate r .. => some r
  | .chaseDelete r _ => some r
  | .contextBind r .. => some r
  | .contextUnbind r _ _ => some r
  | .formeLoad r .. => some r
  | .formePatch r .. => some r
  | .chaseStart r _ => some r
  | .chaseStop r _ => some r
  | .cameraControlRead r .. => some r
  | .cameraControlWrite r .. => some r
  | .pipeStage r .. => some r
  | .pipeApply r .. => some r
  | .replayStart r .. => some r
  | .replayStop r _ => some r
  | .trainStart r _ _ => some r
  | .trainStop r _ => some r
  | .hello r _ _ => some r
  | .undefinedCommand r _ => some r
  | .fwSvnCommit r => some r
  | .keyEnrol r .. => some r
  | .keyRevoke r _ => some r
  | .policySet r .. => some r
  | .lifecycleAdvance r .. => some r
  | .debugChallenge r => some r
  | .debugToken r _ => some r
  | .debugEnd r => some r
  | .optProgram r .. => some r
  | .reset r _ => some r
  | _ => none

/-- Lengths and addresses the spec fixes: a register access that is not misaligned has rows of its own (R3), a message
has 1 to 64 bytes (R372), camera data at most 56 (R221), a telemetry round 14 sensors (R385), the background test visits
64-byte bursts (R428), and a sort or reply carries the bytes its header counts (R290). -/
def Instr.sized : Instr → Bool
  | .misalignedRegisterAccess _ off bytes _ => off.toNat % 4 != 0 || bytes != 4
  | .mbxPost _ _ len _ => decide (1 ≤ len.toNat) && decide (len.toNat ≤ 64)
  | .cameraControlRead _ _ _ _ len => decide (len.toNat ≤ 56)
  | .cameraControlWrite _ _ _ _ data => decide (data.length ≤ 56)
  | .telemetryRound l => l.length == 14
  | .lpddrBgBurst addr _ => addr % 64 == 0
  | .sort _ _ h payload => payload.length == h.length
  | .reply _ _ h payload => payload.length == h.length
  | _ => true

/-- A well-formed command. -/
def Instr.wf (i : Instr) : Bool :=
  i.spelled && (match i.req with
    | some r => r.wf
    | none => true) && i.sized

end Sys2Proof
end

