-- ==== Sys2Proof/Tests/Slice0.lean ====
section
/-! SUPPORT. Tests: ill-formed terms, the spec's own examples, and states that meet the hypotheses of each statement. -/

set_option Elab.async false
set_option maxRecDepth 100000
open Sys2Proof Sys2Proof.Machine Sys2Proof.Safety
namespace Sys2Proof.Tests

/-- A state with some register fields set. -/
def regs (l : List (Fld × Nat × Nat)) (s : State) : State := l.foldl (fun s e => s.put e.1 e.2.1 e.2.2) s

/-- The module in Full and READY, PF0's HELLO done. -/
def on : State := regs [(.modService, 0, 1), (.helloDone, 0, 1)] { State.reset with power := .full }

/-- An instruction word from its fields (R119). -/
def zw (cls op : Nat) (pred := 0) (pdst := 0) (sub := 0) (dd := 0) (da := 0) (db := 0) (dc := 0) (sd := 0) (sa := 0)
    (imm0 := 0) (imm1 := 0) (emask := 0) (pinv := 0) (sat := 0) : ZWord :=
  BitVec.ofNat 128 (op + cls * 2 ^ 8 + pred * 2 ^ 12 + pinv * 2 ^ 16 + sat * 2 ^ 17 + emask * 2 ^ 18 + pdst * 2 ^ 22 +
    sub * 2 ^ 26 + dd * 2 ^ 32 + da * 2 ^ 37 + db * 2 ^ 42 + dc * 2 ^ 47 + sd * 2 ^ 52 + sa * 2 ^ 58 + imm0 * 2 ^ 64 +
    imm1 * 2 ^ 96)

/-- A tensor descriptor from its fields (R125). -/
def dw (base space code w h : Nat) (c := 1) (layout := 3) (strideH := 64) (strideCb := 0) (core := 0) (grouped := 0)
    (ring := 0) (zslot := 0) (scaleBase := 0) (tscale := 0x3F800000) : DWord :=
  BitVec.ofNat 256 (base + space * 2 ^ 35 + core * 2 ^ 38 + code * 2 ^ 43 + layout * 2 ^ 47 + grouped * 2 ^ 49 +
    zslot * 2 ^ 50 + (w - 1) * 2 ^ 64 + (h - 1) * 2 ^ 80 + (c - 1) * 2 ^ 96 + ring * 2 ^ 112 + strideH * 2 ^ 128 +
    strideCb * 2 ^ 160 + scaleBase * 2 ^ 192 + tscale * 2 ^ 224)

/-- A running sequencer in the middle of its program. -/
def sq : Seq := { Seq.reset with run := .running, lo := 0, hi := 100, pc := 5 }

/-- A forme with one weight and one instruction section and one placement on two cores. -/
def fm : Forme :=
  { id := 7, build := 1, level := 2, caps := 0x3FF, bandLines := 4, reprime := 0, exitBase := 0x1000, addr := 0x1000,
    size := 0x400, digest := 0, sections := [⟨4, 0, 0, 0, 0x100, 0x100, 0⟩, ⟨2, 0, 0xFF, 0, 0x200, 160, 0⟩],
    placements := [⟨0, 0, 0, 100, 0, 0, [0, 1] ++ List.replicate 30 0xFF⟩], impo := none }

/-- A chase on cores 8 and 9 with that forme. -/
def ch : Chase :=
  { Chase.reset with
    cores := [8, 9], regions := ⟨0, 0x400000, 0, 0x100000, 0, 0x1000000⟩, forme := some fm, line := sq,
    streams := (Tab.empty.set 0 sq).set 1 sq }

/-- Sequencers of chase 1: a stream sequencer and the line sequencer. -/
def q0 : SeqId := ⟨1, some 0⟩
def ql : SeqId := ⟨1, none⟩

/-- Chase 1 RUNNING. -/
def run1 : State :=
  regs [(.chPresent, 1, 1), (.chState, 1, 3), (.chOwner, 1, 4), (.chFirstCore, 1, 8), (.chCoreCount, 1, 2),
      (.fpcPresent, 8, 1), (.fpcPresent, 9, 1), (.fpcEngines, 8, 4), (.fpcEngines, 9, 4), (.engSpare, 8, 4),
      (.engMap1, 8, 1), (.engMap2, 8, 2), (.engMap3, 8, 3)]
    { on.setChase 1 ch with lpddr := memStore [] 0x1100 [1, 0, 8, 0] }

/-- Change one sequencer. -/
def onSeq (s : State) (q : SeqId) (f : Seq → Seq) : State := modSeq s q f

/-- A sequencer with values in its scalars. -/
def xs : Seq := { sq with sregs := ((Tab.empty.set 4 0x80000005).set 5 0x8001).set 6 0xFFFFFFFF }

/-- One engine at work; two sequencers at a barrier. -/
def busy1 : State := run1.setChase 1 { ch with busy := [⟨8, .engine 0, [], [], false, []⟩] }
def bar : State :=
  onSeq (onSeq run1 q0 (fun x => { x with wait := .barrier 3 3 false 0 })) ⟨1, some 1⟩
    (fun x => { x with wait := .barrier 3 3 false 0 })

/-- Context 4 bound to slot 2 of chase 1, one slug in its galley. -/
def ctxd : State :=
  (regs [(.ctxBound, 4, 1), (.ctxChase, 4, 1), (.ctxSlot, 4, 2), (.galDepth, 4, 8), (.galBand, 4, 4), (.galCut, 4, 4),
      (.galEnabled, 4, 1), (.ctxEncoder, 4, 1)] run1).setCtx 4
    { Context.reset with
      slots := [⟨10, 1, 1, 2, 7, 0, 0, 0, 0, []⟩], oldest := 10, writeLine := 11, armed := true }

/-- A WAITL; the line sequencer waiting for a line that is there, for one to come, and for a position. -/
def wl : ZWord := zw 0 0x0C (sub := 2) (sd := 4) (sa := 6) (pdst := 1) (imm0 := 5)
def s6 (v : Nat) (s : State) (q : SeqId) : State := onSeq s q (fun x => x.setS 6 v)
def wt : State := onSeq ctxd ql (fun x => { x with wait := .waitl 2 10 4 1 (some 5) })
def wt2 : State := onSeq ctxd ql (fun x => { x with wait := .waitl 2 13 4 1 (some 5) })
def wt3 : State := onSeq ctxd ql (fun x => { x with wait := .waite 2 13 4 1 (some 5) })

/-- An open item. -/
def it : Item := ⟨4, 2, 10, 50, false, false, false, false, false, 0, 0⟩
def itd : State := ctxd.setChase 1 { ctxd.chase 1 with items := Tab.empty.set 0 (some it) }

/-- A sequencer with descriptors; the state a command leaves. -/
def withD (s : State) (q : SeqId) (l : List (Nat × DWord)) : State :=
  modSeq s q (fun x => l.foldl (fun x e => x.setD e.1 e.2) x)
def go (c : Instr) (s : State) : State :=
  match exec c s with
  | .next t => t
  | _ => s

/-! ### Well-formedness: each check refuses a term -/

/-- Every Zarson row refuses a word of another opcode, and takes one of its own. -/
theorem test_wf_spelled :
    ([.nop q0 1, .sets q0 0, .alu q0 0, .cmp q0 0, .dld q0 0, .dadd q0 0, .loop q0 0, .br q0 0, .sync q0 0, .waitl q0 0,
      .waite q0 0, .halt q0 0, .trap q0 0, .ldT q0 0, .stT q0 0, .copy2d q0 0, .zpack q0 0, .conv q0 0, .dwconv q0 0,
      .gemm q0 0, .poolmax q0 0, .poolavg q0 0, .add q0 0, .mul q0 0, .act q0 0, .quant q0 0, .deq q0 0, .rot q0 0,
      .boxdec q0 0, .nms q0 0, .topk q0 0, .gate q0 0, .combine q0 0, .fire q0 0, .trig q0 0, .tstamp q0 0, .param q0 0,
      .bwset q0 0, .mbx q0 0] : List Instr).all (fun c => !c.wf) = true ∧
    (Instr.nop q0 0).wf = true ∧ (Instr.conv q0 0x201).wf = true := by decide +kernel

/-- Rows that share an opcode are told apart by their sub field. -/
theorem test_wf_sub_field :
    ([.dimsOpen q0 (zw 3 3 (sub := 1)), .dimsAccumulate q0 (zw 3 3 (sub := 2)), .dimsClose q0 (zw 3 3),
      .sortSend q0 (zw 4 2 (sub := 1)), .sortSendReply q0 (zw 4 2), .sortRecv q0 (zw 4 3 (sub := 1)),
      .sortRecvInbound q0 (zw 4 3), .verdictOpen q0 (zw 5 1 (sub := 32)), .verdictDecide q0 (zw 5 1),
      .quoinAcquire q0 (zw 6 4 (sub := 1)), .quoinRelease q0 (zw 6 4), .quoinClear q0 (zw 6 4 (sub := 1))] :
      List Instr).all (fun c => !c.wf) = true ∧
    (Instr.dimsClose q0 (zw 3 3 (sub := 2))).wf = true ∧ (Instr.quoinClear q0 (zw 6 4 (sub := 2))).wf = true := by
  decide +kernel

/-- A firmware command needs a sender that exists: 17 and 48 are none. -/
theorem test_wf_sender :
    (Instr.debugEnd ⟨17, 0, none⟩).wf = false ∧ (Instr.debugEnd ⟨48, 0, none⟩).wf = false ∧
    (Instr.debugEnd ⟨16, 0, none⟩).wf = true ∧ (Instr.debugEnd ⟨47, 0, none⟩).wf = true := by decide +kernel

/-- A sort header that counts three bytes. -/
def sortHdr3 : SortHdr := ⟨1, 0, 0, 0, 0, 0, 1, 0, 0, 0, 4, 0, 0, 0, 0, 3, 0, 0, 0, 0⟩

/-- A packet header. -/
def pktHdr : PktHdr := ⟨1, false, 5, 2, 3, 3, none⟩

/-- Lengths the spec fixes. -/
theorem test_wf_sized :
    ([.misalignedRegisterAccess 0 4 4 true, .mbxPost 0 1 0 false, .mbxPost 0 1 65 false,
      .cameraControlRead ⟨0, 0, none⟩ 0 true 0 57, .cameraControlWrite ⟨0, 0, none⟩ 0 true 0 (List.replicate 57 0),
      .telemetryRound [], .lpddrBgBurst 32 true, .sort 0 pktHdr sortHdr3 [1], .reply 0 pktHdr sortHdr3 [1]] :
      List Instr).all (fun c => !c.wf) = true ∧
    (Instr.mbxPost 0 1 64 false).wf = true ∧ (Instr.sort 0 pktHdr sortHdr3 [1, 2, 3]).wf = true := by decide +kernel

/-! ### The spec's own examples -/

/-- The ASCII bytes "123456789". -/
def digits : List Byte := [0x31, 0x32, 0x33, 0x34, 0x35, 0x36, 0x37, 0x38, 0x39]

/-- R281 and R318: the check values of CRC-16 and CRC-8. -/
theorem test_crc_check_values : crc16 digits = 0x29B1 ∧ crc8 digits = 0xF4 := by decide +kernel

/-- R283: the check value of CRC-32. -/
theorem test_crc32_check_value : crc32 digits = 0xCBF43926 := by decide +kernel

/-- R276: K28.5 in both disparities, D16.2 after it (the idle of IEEE 802.3 clause 36), and the alternate form of D11.7. -/
theorem test_line_codes :
    encodeSym false symCom = (0b0011111010, true) ∧ encodeSym true symCom = (0b1100000101, false) ∧
      encodeSym true (.d 0x50) = (0b1001000101, false) ∧ encodeSym true (.d 0xEB) = (0b1101001000, false) := by decide

/-- R40: 2.5 converts to S8 as 3 and −2.5 as −3. -/
theorem test_ties_round_away :
    (convert (.fin false 5 2) .s8 false).val = 3 ∧ (convert (.fin true 5 2) .s8 false).val = 0xFD := by decide +kernel

/-- R43: 60,000 converts to E5M2 as 57,344 (code 0x7B) and is not counted; 61,440 overflows to +∞ (0x7C). -/
theorem test_e5m2_threshold :
    (convert (.fin false 60000 1) .e5m2 false).val = 0x7B ∧ (convert (.fin false 60000 1) .e5m2 false).ev = .zero ∧
    (convert (.fin false 61440 1) .e5m2 false).val = 0x7C ∧ (convert (.fin false 61440 1) .e5m2 true).val = 0x7B := by
  decide +kernel

/-- R42: 2⁻⁶ − 2⁻¹¹ rounds up to 2⁻⁶ at E4M3 and stays normal (code 0x08). -/
theorem test_e4m3_smallest_normal : (convert (.fin false 31 2048) .e4m3 false).val = 0x08 := by decide +kernel

/-- R58's example: the factor 0.75 / 64 maps S32 accumulators to S8, ties away from zero. -/
theorem test_requantise_example :
    ([1100, 128, 384, -384, 12000] : List Int).map (fun a =>
      ((mulExact (.int a) (.fin false 1610612736 (2 ^ 37))).bind fun r => convertPlus r .s8 false 0).val) =
      [13, 2, 5, 0xFB, 127] := by decide +kernel

/-- The CONV of R121's example: bias d3, engines 0 to 3, dd 4, da 1, db 2, sa 10, kernel 3 × 3. -/
theorem test_conv_word :
    let o := opOf (0x22#64 ++ 0x28018824#32 ++ 0x043C0201#32)
    o.cls = 2 ∧ o.opcode = 1 ∧ o.emask = 0xF ∧ o.sub = 1 ∧ o.dd = 4 ∧ o.da = 1 ∧ o.db = 2 ∧ o.dc = 3 ∧ o.sa = 10 ∧
      o.imm0 = 0x22 := by decide +kernel

/-- The WAITL of R141's example: status to s22, line in s20, p3. -/
theorem test_waitl_word :
    let o := opOf (0#64 ++ 0x51600000#32 ++ 0x00C0000C#32)
    o.cls = 0 ∧ o.opcode = 0x0C ∧ o.pdst = 3 ∧ o.sd = 22 ∧ o.sa = 20 := by decide +kernel

/-- The findings of R437's example: cluster 2 without core 4, core 7 with two bad engines. -/
def exampleFindings : StepFindings :=
  { noFindings with badCores := [(2, 4)], badEngines := [(2, 7, 0), (2, 7, 2)] }

/-- R437's example: the seven cores with enough engines and core 7; logical core 22 is physical core 7 with three slots
and no spare, so FP_CORE22 reads 0x0000_01CF. -/
theorem test_floor_plan_core : selectedCores on exampleFindings 2 = [0, 1, 2, 3, 5, 6, 7, 8] ∧
    (go (.rcRead 0 0x198) (writeCore on exampleFindings 22)).rd = 0x1CF := by decide +kernel

/-- A floor plan of 32 cores with four slots each but core 22, four channels and 32 MiB of galley store. -/
def examplePlan : State :=
  regs ([(.fpLpddr, 0, 15), (.fpGalleyMib, 0, 32)] ++ (List.range 32).flatMap (fun c =>
    [(.fpcPresent, c, 1), (.fpcEngines, c, if c = 22 then 3 else 4)])) on

/-- R437's example: FP_SUMMARY reads 0x0183_DFE0. -/
theorem test_floor_plan_summary : (go (.rcRead 0 0x100) (updateSummary examplePlan)).rd = 0x0183DFE0 := by
  decide +kernel

namespace Access
def bnd := regs [(.ctxBound,3,1),(.fcContext,2,3),(.fcAssigned,2,1)] on
def w1 : State := { run1 with pending := [.rhRetrain 0 1] }
def w2 : State := go (.rhRetrain 0 1) run1
def w3 : State := on.setMbox 18 ⟨[⟨[],1,false,0,0,false,none⟩],[]⟩
def w4 : State := {State.reset with power := .off, regs := []}
def w5 : State := State.reset

/-- The hypotheses of MisalignedAccessOnlyLogs can be met (in RegistersAreAccessedAsTyped). -/
theorem test_hyps_MisalignedAccessOnlyLogs :
    (on.power = Power.full ∧ ((0x900001 : BitVec 24).toNat % 4 ≠ 0 ∨ 4 ≠ 4)) := by decide +kernel

/-- The hypotheses of PairsReadAndWriteWhole can be met (in RegistersAreAccessedAsTyped). -/
theorem test_hyps_PairsReadAndWriteWhole :
    (on.power = Power.full) := by decide +kernel

/-- The hypotheses of RegisterTypesBehave can be met (in RegistersAreAccessedAsTyped). -/
theorem test_hyps_RegisterTypesBehave :
    (on.power = Power.full) := by decide +kernel

/-- The hypotheses of VirtualFunctionsReachNoBlock can be met (in WritesOutOfReachHaveNoEffect). -/
theorem test_hyps_VirtualFunctionsReachNoBlock :
    (on.power = Power.full ∧ 16 ≠ 0 ∧ (0x4410 : BitVec 24).toNat % 4 = 0 ∧ 17424 ≤ (0x4410 : BitVec 24).toNat) := by decide +kernel

/-- The hypotheses of ForbiddenWritesAreFaults can be met (in WritesOutOfReachHaveNoEffect). -/
theorem test_hyps_ForbiddenWritesAreFaults :
    (bnd.power = Power.full ∧ bnd.flag Fld.ctxBound 3 = true) ∧
    (bnd.power = Power.full ∧ (chanBound bnd 2 = true ∨ assignsBound bnd (BitVec.toNat (0x303 : Word)) = true)) ∧
    (w3.power = Power.full ∧ (w3.mbox (17 + 1)).msgs ≠ []) := by decide +kernel

/-- The hypotheses of RailsMovePowerStates can be met. -/
theorem test_hyps_RailsMovePowerStates :
    (w4.power = Power.off) ∧
    (w5.power = Power.aux ∧ w5.mgmt.hold = Hold.none ∧ w5.mgmt.tray = false) ∧
    (on.power = Power.full) ∧
    (on.power ≠ Power.off) := by decide +kernel

/-- The hypotheses of StepRunsFrontCommand and StepKeepsSound can be met. -/
theorem test_hyps_StepKeepsSound : Sound w1 ∧ w1.pending = .rhRetrain 0 1 :: [] ∧ ∃ t, step w1 = .next t :=
  ⟨by decide +kernel, rfl, _, rfl⟩

end Access

namespace Scalars
def w1 : State := run1.put .trapValid 1 1
def w2 : ZWord := zw 0 1 (sd := 2) (sub := 1) (imm0 := 7) (imm1 := 9)
def w3 : ZWord := zw 0 2 (sd := 2) (sa := 4) (sub := 32+1) (imm0 := 7)
def w4 : ZWord := zw 0 3 (pdst := 2) (sa := 4) (sub := 32+2) (imm0 := 7)
def w5 : ZWord := zw 0 8 (sub := 1) (imm0 := 7) (imm1 := 3)
def w6 : ZWord := zw 0 2 (sd := 2) (sa := 4) (sub := 32+0) (imm0 := 6)
def w7 : ZWord := zw 0 2 (sd := 2) (sa := 4) (sub := 32+1) (imm0 := 6)
def w8 : ZWord := zw 0 2 (sd := 2) (sa := 4) (sub := 32+5) (imm0 := 6)
def w9 : ZWord := zw 0 2 (sd := 2) (sa := 4) (sub := 32+6) (imm0 := 6)
def w10 : ZWord := zw 0 2 (sd := 2) (sa := 4) (sub := 32+7) (imm0 := 6)
def w11 : ZWord := zw 0 2 (sd := 2) (sa := 4) (sub := 32+8) (imm0 := 6)
def w12 : ZWord := zw 0 2 (sd := 2) (sa := 4) (sub := 32+9) (imm0 := 6)
def w13 : ZWord := zw 0 2 (sd := 2) (sa := 4) (sub := 10) (imm0 := 6)
def w14 : ZWord := zw 0 2 (sd := 2) (sa := 4) (sub := 32+11) (imm0 := 0xFFFFFFFF)
def w15 : ZWord := zw 0 2 (sd := 2) (sa := 4) (sub := 12) (imm0 := 6)
def w16 : ZWord := zw 0 3 (pdst := 2) (sa := 4) (sub := 32+2) (imm0 := 6)
def w17 : ZWord := zw 0 3 (pdst := 2) (sa := 4) (sub := 32+4) (imm0 := 6)
def w18 : ZWord := zw 0 2 (sd := 2) (sa := 4) (sub := 32+2) (imm0 := 6)
def w19 : ZWord := zw 0 2 (sd := 2) (sa := 4) (sub := 32+3) (imm0 := 6)
def w20 : ZWord := zw 0 2 (sd := 2) (sa := 4) (sub := 32+4) (imm0 := 6)
def w21 : ZWord := zw 0 3 (pdst := 1) (sa := 4) (sub := 32+0) (imm0 := 6)
def w22 : ZWord := zw 0 3 (pdst := 1) (sa := 4) (sub := 32+1) (imm0 := 6)
def w23 : ZWord := zw 0 3 (pdst := 15) (sa := 4) (sub := 32+3) (imm0 := 6)
def w24 : ZWord := zw 0 3 (pdst := 15) (sa := 4) (sub := 32+5) (imm0 := 6)
def w25 : State := ctxd.setCtx 4 {(ctxd.context 4) with slots := []}
def w26 : State := s6 10 ctxd ql
def w27 : State := s6 12 ctxd ql
def w28 : ZWord := zw 0 0x0D (sub := 2) (sd := 4) (sa := 6) (pdst := 1) (imm0 := 5)
def w29 : State := (s6 12 ctxd ql).put .encPos 1 20
def w30 : State := {wt with clk := 9}
def w31 : State := {wt2 with clk := 9}
def w32 : State := {wt3 with clk := 9}
def w33 : State := {wt3 with clk := 9}.put .encPos 1 13

/-- The fields an instruction may use on a sequencer, its ring and its galley form read from its descriptors. -/
def named (x : Seq) (o : Op) : Option (List (Nat × Nat)) :=
  namedFields o ((usedDescs x o).any (fun d => d.ring != 0)) ((descOf (x.d o.da)).space == 5)

/-- The checks of R464 before the named fields of an instruction, and before what follows them. -/
def runsHere (q : SeqId) (o : Op) : Bool := decide (o.cls < 7) && classRuns o.cls q.core.isNone
def fieldsOk (q : SeqId) (x : Seq) (o : Op) : Bool :=
  runsHere q o && (named x o).any (reservedZero o) && !codeUndefined o q.core.isNone

/-- A program whose instruction needs a capability the forme lacks; a branch past the program; an odd pair. -/
def poor : State := run1.setChase 1 { ch with forme := some { fm with caps := 0 } }
def rotW : ZWord := zw 2 0xB (dd := 5) (da := 1) (imm0 := 1)
def farBr : ZWord := zw 0 9 (imm0 := 101)
def oddPair : ZWord := zw 0 0x0D (sub := 2) (sd := 4) (sa := 7) (pdst := 1) (imm0 := 5)

/-- The hypotheses of IssueChecksInOrder can be met, check by check. -/
theorem test_hyps_IssueChecksInOrder :
    7 ≤ (opOf (zw 9 0)).cls ∧ 7 ≤ (opOf (zw 7 0)).cls ∧
    ((opOf (zw 5 0x1)).cls < 7 ∧ classRuns (opOf (zw 5 0x1)).cls q0.core.isNone = false) ∧
    (runsHere q0 (opOf (zw 0 0x42)) = true ∧ named sq (opOf (zw 0 0x42)) = none) ∧
    (runsHere q0 (opOf (zw 0 2 (sub := 31))) = true ∧ (named sq (opOf (zw 0 2 (sub := 31)))).isSome = true ∧
      codeUndefined (opOf (zw 0 2 (sub := 31))) q0.core.isNone = true) ∧
    (runsHere q0 (opOf (zw 0 0 (sd := 1))) = true ∧ codeUndefined (opOf (zw 0 0 (sd := 1))) q0.core.isNone = false ∧
      (named sq (opOf (zw 0 0 (sd := 1)))).any (fun l => !reservedZero (opOf (zw 0 0 (sd := 1))) l) = true) ∧
    (fieldsOk q0 sq (opOf rotW) = true ∧ beyondLevel poor 1 sq (opOf rotW) = true) ∧
    (fieldsOk ql sq (opOf oddPair) = true ∧ beyondLevel run1 1 sq (opOf oddPair) = false ∧
      misaligned sq (opOf oddPair) = true) ∧
    (fieldsOk q0 sq (opOf farBr) = true ∧ beyondLevel run1 1 sq (opOf farBr) = false ∧
      misaligned sq (opOf farBr) = false ∧ (flowTrap sq (opOf farBr)).isSome = true) ∧
    (fieldsOk q0 sq (opOf (zw 2 6)) = true ∧ beyondLevel run1 1 sq (opOf (zw 2 6)) = false ∧
      misaligned sq (opOf (zw 2 6)) = false ∧ flowTrap sq (opOf (zw 2 6)) = none ∧
      (descsTrap run1 q0 sq (opOf (zw 2 6)) (uses (opOf (zw 2 6))) 0).isSome = true) := by decide +kernel

/-- What an instruction must pass before the late checks of R464. -/
def passesEarly (s : State) (q : SeqId) (x : Seq) (w : ZWord) : Bool :=
  let o := opOf w
  fieldsOk q x o && !beyondLevel s q.chase.val x o && !misaligned x o && (flowTrap x o).isNone &&
    (descsTrap s q x o (uses o) 0).isNone

/-- A line sequencer with a payload beyond a sort, and one past its program. -/
def bigSort : State := withD run1 ql [(1, dw 0x1000 0 1 64 40), (2, dw 0x2000 0 1 64 1)]
def pastIt : State := onSeq run1 q0 (fun x => { x with pc := 100 })

/-- The hypotheses of LateChecksInOrder can be met (in IssueChecksInOrder). -/
theorem test_hyps_LateChecksInOrder :
    (passesEarly run1 ql (sequencer run1 ql) (zw 6 4) = true ∧ (sequencer run1 ql).inLoose = false) ∧
    (passesEarly bigSort ql (sequencer bigSort ql) (zw 4 2 (da := 1) (db := 2) (sa := 6) (sd := 8)) = true ∧
      1920 < payloadBytes (descOf ((sequencer bigSort ql).d 1))) ∧
    passesEarly run1 q0 (sequencer run1 q0) (zw 0 0xF) = true ∧
    (canIssue pastIt q0 = true ∧ pastEnd (sequencer pastIt q0) = true) ∧
    (canIssue run1 q0 = true ∧ pastEnd (sequencer run1 q0) = false ∧
      issueTrap run1 q0 (sequencer run1 q0) (opOf (zw 0 0xF)) = some 0x0E ∧
      run1.flag .trapValid 1 = false) := by decide +kernel

/-- The hypotheses of TrapStopsItsChase can be met. -/
theorem test_hyps_TrapStopsItsChase :
    (1 < 16 ∧ run1.flag Fld.trapValid ↑q0.chase = false) ∧
    (15 < 16 ∧ w1.flag Fld.trapValid ↑ql.chase = true) := by decide +kernel

/-- The hypotheses of PredicatedOffHasNoEffect can be met. -/
theorem test_hyps_PredicatedOffHasNoEffect :
    (gateOf run1 q0 (opOf (zw 0 0 0 0 0 (pinv := 1))) ((isOp 0 0) (opOf (zw 0 0 0 0 0 (pinv := 1)))) = Gate.off) := by decide +kernel

/-- The hypotheses of ScalarInstructionsComplete can be met. -/
theorem test_hyps_ScalarInstructionsComplete :
    (goes q0 (zw 0 0) (isOp 0 0) run1) ∧
    (goes q0 w2 (isOp 0 1) run1) ∧
    (goes q0 w3 (isOp 0 2) run1) ∧
    (goes ql w4 (isOp 0 3) run1) ∧
    (goes q0 (zw 0 4 (dd := 2) (imm0 := 7)) (isOp 0 4) run1) ∧
    (goes q0 (zw 0 5 (dd := 2) (sa := 7)) (isOp 0 5) run1) ∧
    (goes q0 w5 (isOp 0 8) run1) ∧
    (goes q0 (zw 0 9 (imm0 := 7)) (isOp 0 9) run1) := by decide +kernel

/-- The hypotheses of AluWritesItsResult can be met (in ScalarResultsAreRight). -/
theorem test_hyps_AluWritesItsResult :
    ((opOf w6).sub % 32 = 0) ∧
    ((opOf w7).sub % 32 = 1) ∧
    ((opOf w8).sub % 32 = 5) ∧
    ((opOf w9).sub % 32 = 6) ∧
    ((opOf w10).sub % 32 = 7) ∧
    ((opOf w11).sub % 32 = 8) ∧
    ((opOf w12).sub % 32 = 9) ∧
    ((opOf w13).sub % 32 = 10) ∧
    ((opOf w14).sub % 32 = 11) ∧
    ((opOf w15).sub % 32 = 12) ∧
    ((opOf w18).sub % 32 = 2) ∧
    ((opOf w19).sub % 32 = 3) ∧
    ((opOf w20).sub % 32 = 4) := by decide +kernel

/-- The hypotheses of CmpWritesItsCondition can be met (in ScalarResultsAreRight). -/
theorem test_hyps_CmpWritesItsCondition :
    ((opOf w16).pdst ≠ 0 ∧ (opOf w16).sub % 8 = 2) ∧
    ((opOf w17).pdst ≠ 0 ∧ (opOf w17).sub % 8 = 4) ∧
    ((opOf w21).pdst ≠ 0 ∧ (opOf w21).sub % 8 = 0) ∧
    ((opOf w22).pdst ≠ 0 ∧ (opOf w22).sub % 8 = 1) ∧
    ((opOf w23).pdst ≠ 0 ∧ (opOf w23).sub % 8 = 3) ∧
    ((opOf w24).pdst ≠ 0 ∧ (opOf w24).sub % 8 = 5) := by decide +kernel

/-- The hypotheses of LoopsRunTheirBodies can be met (in ScalarResultsAreRight). -/
theorem test_hyps_LoopsRunTheirBodies :
    (4 ≠ 0 ∧ 2 ≠ 0) ∧
    (({ sq with loops := [⟨2,6,3⟩] } : Machine.Seq).pc + 1 = (⟨2,6,3⟩ : LoopFrame).stop ∧ 1 < (⟨2,6,3⟩ : LoopFrame).left) ∧
    (({ sq with loops := [⟨2,6,1⟩,⟨1,6,4⟩] } : Machine.Seq).pc + 1 = (⟨2,6,1⟩ : LoopFrame).stop ∧ (⟨2,6,1⟩ :
      LoopFrame).left ≤ 1) ∧
    (({ sq with loops := [⟨2,9,1⟩,⟨1,6,4⟩] } : Machine.Seq).pc + 1 ≠ (⟨2,9,1⟩ : LoopFrame).stop) := by decide +kernel

/-- The hypotheses of SyncWaitsAndReleases can be met (in SyncHaltAndTrapComplete). -/
theorem test_hyps_SyncWaitsAndReleases :
    (goes q0 (zw 0 0x0A (imm0 := 3)) (isOp 0 10) run1) ∧
    (bar.get Fld.chState 1 = 3) := by decide +kernel

/-- The hypotheses of WaitlFindsItsLine can be met (in WaitsEndInTheirOutcome). -/
theorem test_hyps_WaitlFindsItsLine :
    (slotCtx run1 1 2 = none) ∧
    ((slotCtx ctxd 1 2).isSome = true ∧ (slotCtx ctxd 1 2).any (fun k => decide ((ctxd.context k).resetting = false)) =
      true ∧ (slotCtx ctxd 1 2).any (fun k => decide (ctxd.flag Fld.genDraining k = false)) = true ∧ (slotCtx ctxd 1
      2).any (fun k => decide (((ctxd.context k).slots).head?.isSome = true)) = true ∧ (slotCtx ctxd 1 2).any (fun k
      => decide (((ctxd.context k).slots).head?.any (fun g => decide ((ctxd.context k).slots = [g])) = true)) = true ∧
      (slotCtx ctxd 1 2).any (fun k => decide (((ctxd.context k).slots).head?.any (fun g => decide (g.line = 10)) =
      true)) = true ∧ 10 < 2 ^ 48) ∧
    ((slotCtx ctxd 1 2).isSome = true ∧ (slotCtx ctxd 1 2).any (fun k => decide ((ctxd.context k).resetting = false)) =
      true ∧ (slotCtx ctxd 1 2).any (fun k => decide (ctxd.flag Fld.genDraining k = false)) = true ∧ (slotCtx ctxd 1
      2).any (fun k => decide (lineDiff 9 (ctxd.context k).oldest < 0)) = true) ∧
    ((slotCtx w25 1 2).isSome = true ∧ (slotCtx w25 1 2).any (fun k => decide ((w25.context k).resetting = false)) = true
      ∧ (slotCtx w25 1 2).any (fun k => decide (w25.flag Fld.genDraining k = false)) = true ∧ (slotCtx w25 1 2).any
      (fun k => decide (0 ≤ lineDiff 10 (w25.context k).oldest)) = true ∧ (slotCtx w25 1 2).any (fun k => decide
      ((w25.context k).slots = [])) = true) := by decide +kernel

/-- The hypotheses of WaitsEndInTheirOutcome can be met. -/
theorem test_hyps_WaitsEndInTheirOutcome :
    (goes ql wl (isOp 0 12) w26 ∧ (waitlOutcome w26 (↑ql.chase) ((opOf wl).sub % 16) ((sequencer w26 ql).pair48 (opOf
      wl).sa)).isSome = true) ∧
    (goes ql wl (isOp 0 12) w27 ∧ waitlOutcome w27 (↑ql.chase) ((opOf wl).sub % 16) ((sequencer w27 ql).pair48 (opOf
      wl).sa) = none) ∧
    (goes ql w28 (isOp 0 13) w27 ∧ waiteOutcome w27 (↑ql.chase) ((opOf w28).sub % 16) ((sequencer w27 ql).pair48 (opOf
      w28).sa) = none) ∧
    (goes ql w28 (isOp 0 13) w29 ∧ (waiteOutcome w29 (↑ql.chase) ((opOf w28).sub % 16) ((sequencer w29 ql).pair48 (opOf
      w28).sa)).isSome = true) ∧
    ((sequencer wt ql).wait = SeqWait.waitl 2 10 4 1 (some 5) ∧ (waitlOutcome wt (↑ql.chase) 2 10).isSome = true) ∧
    ((sequencer w30 ql).wait = SeqWait.waitl 2 10 4 1 (some 5) ∧ (waitlOutcome w30 (↑ql.chase) 2 10).isSome = true ∧
      expired w30 (some 5) = true) ∧
    ((sequencer w31 ql).wait = SeqWait.waitl 2 13 4 1 (some 5) ∧ waitlOutcome w31 (↑ql.chase) 2 13 = none ∧ expired w31
      (some 5) = true) ∧
    ((sequencer w32 ql).wait = SeqWait.waite 2 13 4 1 (some 5) ∧ waiteOutcome w32 (↑ql.chase) 2 13 = none ∧ expired w32
      (some 5) = true) ∧
    ((sequencer w33 ql).wait = SeqWait.waite 2 13 4 1 (some 5) ∧ (waiteOutcome w33 (↑ql.chase) 2 13).isSome = true) := by decide +kernel

/-- The hypotheses of HaltAndTrapStop can be met (in SyncHaltAndTrapComplete). -/
theorem test_hyps_HaltAndTrapStop :
    (goes ql (zw 0 0x0E) (isOp 0 14) itd ∧ itd.get Fld.chState ↑ql.chase = 3) ∧
    (gateOf itd q0 (opOf (zw 0 0x0F (imm0 := 4))) (isOp 0 15 (opOf (zw 0 0x0F (imm0 := 4)))) = Gate.trap 14) := by decide +kernel

end Scalars

namespace Transfers
def A := dw 0x1000 0 1 16 2       -- u8 plain 16x2
def B := dw 0x2000 0 1 16 2
def C := dw 0x3000 0 1 16 2
def t0 : State :=
    { (withD run1 q0 [(1,A),(2,B),(3,C)]) with sram := memStore [] (8*0x400000+0x1000) ((List.range 12).map (fun i => BitVec.ofNat 8 (i*7))) }
def t1 := withD t0 q0 [(4, dw 0x100 3 1 16 2), (5, dw 0x100 5 1 16 2 (core := 2)),(6, dw 0x100 4 1 16 2 (core := 2)),
    (7, dw 0x4000 1 1 16 2 (core := 1))]
def t5 := (regs
    [(.ctxBound,4,1),(.ctxChase,4,1),(.ctxSlot,4,2),(.ringEnable,22,1),(.ringLog2,22,4),(.ringPageLog2,22,12)]
    t1).setCtx 4
    { Context.reset with slots := [⟨10,1,1,2,15,0,0,0,0,(List.range 16).map (fun i => BitVec.ofNat 8 (i+1))⟩], oldest := 10, writeLine := 11 , armed := true}
def bz := t0.setChase 1
    { (t0.chase 1) with busy := [⟨1, .copy 0, [], [], false, []⟩, ⟨8, .vector, [], [], false, []⟩, ⟨8, .engine 2, [], [], false, []⟩] }
def w1 : ZWord := zw 1 1 (dd := 2) (da := 5) (sa := 6) (sd := 9) (pdst := 3)
def w2 : State := s6 10 t5 q0
def w3 : State := bz.put .ceBusy 2 1

/-- The hypotheses of PlainTensorReadsBack can be met. -/
theorem test_hyps_PlainTensorReadsBack :
    (memoriesCanonical t0 ∧ (descOf A).space < 4 ∧ (fmtOf (descOf A).code).isSome = true ∧ (descOf A).layout = 3 ∧ (descOf
      A).ring = 0 ∧ strideBad (descOf A) = false ∧ 1 < (descOf A).h ∧ 15 < (descOf A).w ∧ (fun h w _ => (h*16+w)%256)
      1 15 0 < 2 ^ (descOf A).fmt.bits ∧ (t0.chase ↑q0.chase).busy = []) := by decide +kernel

/-- The hypotheses of TransfersComplete can be met. -/
theorem test_hyps_TransfersComplete :
    (memoriesCanonical t0 ∧ goes q0 (zw 1 3 (dd := 2) (da := 1)) (isOp 1 3) t0 ∧ flows t0 q0 [tensor t0 q0 1, tensor t0 q0 2]) ∧
    (memoriesCanonical t1 ∧ goes q0 (zw 1 1 (dd := 2) (da := 7)) (isOp 1 1) t1 ∧ (tensor t1 q0 (opOf (zw 1 1 (dd := 2) (da
      := 7))).da).space ≠ 5 ∧ flows t1 q0 [tensor t1 q0 7]) ∧
    (memoriesCanonical t1 ∧ goes q0 (zw 1 2 (dd := 7) (da := 1)) (isOp 1 2) t1 ∧ (tensor t1 q0 (opOf (zw 1 2 (dd := 7) (da
      := 1))).dd).space ≠ 4 ∧ flows t1 q0 [tensor t1 q0 7]) ∧
    (memoriesCanonical w2 ∧ (slotCtx w2 (↑q0.chase) ((tensor w2 q0 (opOf w1).da).core % 16)).isSome = true ∧ goes q0 w1
      (isOp 1 1) w2 ∧ (tensor w2 q0 (opOf w1).da).space = 5 ∧ (slotCtx w2 (↑q0.chase) ((tensor w2 q0 (opOf
      w1).da).core % 16)).any (fun k => decide ((w2.context k).resetting = false)) = true) ∧
    (memoriesCanonical t5 ∧ goes q0 (zw 1 2 (dd := 6) (da := 1)) (isOp 1 2) t5 ∧ (tensor t5 q0 (opOf (zw 1 2 (dd := 6) (da
      := 1))).dd).space = 4) := by decide +kernel

/-- The hypotheses of CopyMovesTheWholeRectangle can be met (in TransfersComplete). -/
theorem test_hyps_CopyMovesTheWholeRectangle :
    (memoriesCanonical t0 ∧ goes q0 (zw 1 3 (dd := 2) (da := 1)) (isOp 1 3) t0 ∧ flows t0 q0 [tensor t0 q0 1, tensor t0 q0 2] ∧ (t0.chase
      ↑q0.chase).busy = [] ∧ (tensor t0 q0 (opOf (zw 1 3 (dd := 2) (da := 1))).dd).ring = 0 ∧ (tensor t0 q0 (opOf (zw
      1 3 (dd := 2) (da := 1))).da).ring = 0) := by decide +kernel

/-- The hypotheses of UnitCompletionFreesItsUnit can be met (in UnitsAndGrantsAreReleased). -/
theorem test_hyps_UnitCompletionFreesItsUnit :
    (unitBusy w3 ↑q0.chase (unitPlace w3 q0 (.copy 0), (.copy 0)) = true) := by decide +kernel

end Transfers

namespace Tensors
def D0 (b : Nat) (code := 1) := dw b 0 code 2 2 (c := 32) (layout := 0) (strideH := 128) (strideCb := 64)
def D32 (b : Nat) := dw b 0 6 2 2 (c := 32) (layout := 0) (strideH := 256) (strideCb := 256)
def Wt (n : Nat) := dw 0x8000 0 5 n 1 (strideH := n)
def mem := memStore (memStore [] (8*0x400000+0x1000) ((List.range 12).map (fun i => BitVec.ofNat 8 (i*7))))
    (8*0x400000+0x8000) ((List.range 12).map (fun i => BitVec.ofNat 8 (i*11+1)))
def t0 : State :=
    { (withD run1 q0 [(1,D0 0x1000),(2,D32 0x2000),(3,Wt 2048),(4,Wt 64), (5, D0 0x3000),(6, dw 0x4000 0 5 2 2 (c := 32) (layout := 0) (strideH := 128) (strideCb := 64)), (7, dw 0x5000 0 1 2 2 (c := 32) (layout := 2) (strideH := 128) (strideCb := 128) (zslot := 2)), (8, dw 0x6000 0 9 2 2 (c := 32) (layout := 1) (strideH := 256) (strideCb := 128)),(9, dw 0x7000 0 1 2 2 (c := 32) (layout := 0) (strideH := 128) (strideCb := 64)),(10,Wt 32),
      (14, dw 0xC000 0 11 2 2 (c := 32) (layout := 0) (strideH := 256) (strideCb := 256))]) with sram := mem }
def ck (cls op : Nat) (w : ZWord) := gateOf t0 q0 (opOf w) (isOp cls op (opOf w))
def f32 (b w h : Nat) := dw b 0 11 w h (strideH := 64*((4*w+63)/64))
def p0 : State := withD t0 q0 [(11, f32 0x9000 16 4), (12, f32 0xA000 8 4),(13, f32 0xB000 8 1)]
def pl := withD t0 ql [(11, f32 0x9000 16 4), (12, f32 0xA000 8 4),(13, f32 0xB000 8 1)]
def w1 : ZWord := zw 3 2 (dd := 12) (da := 11) (sd := 3) (imm0 := 0x030080)
def w2 : ZWord := zw 3 1 (dd := 12) (da := 11) (db := 12)
def w3 : ZWord := zw 3 4 (dd := 12) (da := 13) (imm0 := 3)
def w4 : ZWord := zw 4 1 (dd := 12) (da := 13) (imm0 := 3)
def w5 : ZWord := zw 4 4 (dd := 11) (da := 12) (db := 13)

/-- The hypotheses of PostProcessingCompletes can be met. -/
theorem test_hyps_PostProcessingCompletes :
    (memoriesCanonical p0 ∧ goes q0 w1 (isOp 3 2) p0) ∧
    (memoriesCanonical p0 ∧ goes q0 w2 (isOp 3 1) p0) ∧
    (memoriesCanonical p0 ∧ goes q0 w3 (isOp 3 4) p0) ∧
    (memoriesCanonical pl ∧ goes ql w4 (isOp 4 1) pl) ∧
    (memoriesCanonical pl ∧ goes ql w5 (isOp 4 4) pl) := by decide +kernel

def nmsBoxes : List Box :=
  [⟨0, 0, 10, 10, 0x3F000000, 1, 0, 0⟩, ⟨2, 0, 12, 10, 0x3F400000, 1, 0, 1⟩, ⟨0, 0, 10, 10, 0x3F000000, 2, 0, 3⟩,
    ⟨7, 5, 2, 9, 0x80000000, 1, 0, 5⟩]

/-- The hypotheses of NmsKeepsWhatNothingSuppresses can be met: scores that are numbers, two zero-area boxes, an
instruction that goes with room for its boxes. -/
theorem test_hyps_NmsKeepsWhatNothingSuppresses :
    (∀ b ∈ nmsBoxes, Machine.f32 b.score ≠ .nan) ∧
    (max 0 ((2 : Int) - 7) * max 0 ((9 : Int) - 5) = 0) ∧
    (let o := opOf w1
     let out := (keepBoxes (o.imm0 % 256) (bitAt o.imm0 8)
      ((bufferBoxes (srcOf p0 q0 (tensor p0 q0 o.da))).foldr rankInsert []) []).take (bitsAt o.imm0 16 8 + 1)
     goes q0 w1 (isOp 3 0x02) p0 ∧ (p0.chase q0.chase.val).busy = [] ∧ 32 * out.length ≤ (tensor p0 q0 o.dd).extent) := by
  decide +kernel

/-- R101 by hand: of two boxes of one class that overlap by 80 of 120 the better stays at T = 128 (256 × 80 > 128 × 120)
and both stay at T = 171 (256 × 80 ≤ 171 × 120); a box of another class stays unless the mode is class-agnostic. -/
theorem test_nms_keeps : (keepBoxes 128 false (nmsBoxes.foldr rankInsert []) []).map (fun b => b.index) = [1, 3, 5] ∧
    (keepBoxes 171 false (nmsBoxes.foldr rankInsert []) []).map (fun b => b.index) = [1, 0, 3, 5] ∧
    (keepBoxes 128 true (nmsBoxes.foldr rankInsert []) []).map (fun b => b.index) = [1, 5] := by decide +kernel

/-- The hypotheses of TensorInstructionsComplete can be met, row by row. -/
theorem test_hyps_TensorInstructionsComplete :
    memoriesCanonical t0 ∧ goes q0 (zw 1 4 (dd := 7) (da := 1)) (isOp 1 4) t0 ∧
    goes q0 (zw 2 1 (dd := 2) (da := 1) (db := 3) (emask := 1)) (isOp 2 1) t0 ∧
    goes q0 (zw 2 2 (dd := 2) (da := 1) (db := 10) (emask := 8)) (isOp 2 2) t0 ∧
    goes q0 (zw 2 3 (dd := 2) (da := 1) (db := 3) (emask := 3)) (isOp 2 3) t0 ∧
    goes q0 (zw 2 4 (dd := 5) (da := 1) (imm0 := 0x11)) (isOp 2 4) t0 ∧
    goes q0 (zw 2 5 (dd := 5) (da := 1) (imm0 := 0x11)) (isOp 2 5) t0 ∧
    goes q0 (zw 2 6 (dd := 5) (da := 1) (db := 9)) (isOp 2 6) t0 ∧
    goes q0 (zw 2 7 (dd := 5) (da := 1) (db := 9)) (isOp 2 7) t0 ∧
    goes q0 (zw 2 8 (dd := 5) (da := 1)) (isOp 2 8) t0 ∧
    goes q0 (zw 2 9 (dd := 5) (da := 2) (imm0 := 0x3F800000)) (isOp 2 9) t0 ∧
    goes q0 (zw 2 10 (dd := 8) (da := 1) (sub := 1) (imm0 := 0x3F800000)) (isOp 2 10) t0 ∧
    goes q0 (zw 2 11 (dd := 14) (da := 1) (imm0 := 1)) (isOp 2 11) t0 := by decide +kernel

end Tensors

namespace Sorts
def dmem :=
    { run1 with sram := memStore [] (8*0x400000+0x1000) ((List.range 12).map (fun i => BitVec.ofNat 8 (i*7))) }
def di : State :=
  let s := withD dmem q0 [(1, dw 0x1000 0 6 4 1), (2, dw 0x2000 0 6 8 1), (3, dw 0x3000 0 1 16 2)]
  s.setChase 1 { s.chase 1 with dimsSlots := Tab.empty.set 1 2 }
def dfull :=
  (s6 3 di q0).setChase 1 { (s6 3 di q0).chase 1 with dimsSlots := .empty, items := Tab.empty.set 3 (some it) }
def dop := go (.dimsOpen q0 (zw 3 3 (db := 2) (sa := 6))) (s6 3 di q0)
def dop' := dop.setChase 1 { dop.chase 1 with busy := [] }
def so : State := withD (s6 0 itd ql) ql [(1, dw 0x1000 0 1 16 1),(2, dw 0x2000 0 1 64 1),(3, dw 0x3000 0 1 64 4)]
def so2 := go (.sortSend ql (zw 4 2 (da := 1) (db := 2) (sa := 6) (sd := 8))) so
def sh : SortHdr := ⟨1,0,0,0,0,0,1,0,0,0,4,0,0,0,0,64,0,0,0,0⟩
def so3 := so.setChase 1 { so.chase 1 with sorts := [⟨sh, none, .waiting⟩] }
def so4 := so.setChase 1 { so.chase 1 with inbound := Tab.empty.set 2 (some ⟨sh, [1,2,3], false⟩), inOrder := [2] }
def so5 := onSeq so ql (fun x => { x with wait := .sortRecv 0 3 8 2 (some 0)})
def so6 := onSeq so4 ql (fun x => { x with wait := .inbound 3 8 2 (some 0)})
def w1 : State := s6 3 di q0
def w2 : ZWord := zw 3 3 (dd := 2) (da := 3) (dc := 1) (sa := 6) (sub := 1)
def w3 : State := dop'
def w4 : ZWord := zw 4 2 (da := 1) (db := 2) (sa := 6) (sd := 8)
def w5 : State := s6 5 so ql
def w6 : ZWord := zw 4 2 (da := 1) (sub := 1) (sa := 6) (sd := 8)
def w7 : ZWord := zw 4 3 (dd := 3) (sa := 6) (sd := 8) (pdst := 2)
def w8 : ZWord := zw 4 3 (dd := 3) (sub := 1) (sd := 8) (pdst := 2)

/-- Item states of the sequencer's cluster beside a handle's. -/
def restHere (s : State) (h : Nat) : Nat :=
  ((dimsRest (s.chase 1) (ownCluster s q0) h).filter (fun d => d.cluster == ownCluster s q0)).length

/-- The hypotheses of DimsKeepsItemStates can be met: an open with a slot and without, an accumulate and a close of an open
state and of none, samples on either side of the threshold. -/
theorem test_hyps_DimsKeepsItemStates :
    (memoriesCanonical w1 ∧ goes q0 (zw 3 3 (db := 2) (sa := 6)) (isDims 0) w1 ∧
      restHere w1 3 < (w1.chase 1).dimsSlots.get 0 (ownCluster w1 q0)) ∧
    (memoriesCanonical dfull ∧ goes q0 (zw 3 3 (db := 2) (sa := 6)) (isDims 0) dfull ∧
      (dfull.chase 1).dimsSlots.get 0 (ownCluster dfull q0) ≤ restHere dfull 3 ∧ (dfull.chase 1).item 3 = some it) ∧
    (memoriesCanonical w3 ∧ (dimsOf (w3.chase 1) (ownCluster w3 q0) 3).isSome = true ∧ goes q0 w2 (isDims 1) w3) ∧
    (memoriesCanonical dfull ∧ dimsOf (dfull.chase 1) (ownCluster dfull q0) 3 = none ∧ goes q0 w2 (isDims 1) dfull ∧
      descTrap dfull q0 (sequencer dfull q0) (opOf w2) 0 ⟨(opOf w2).dd, [0], false⟩ = none ∧
      32 ≤ (tensor dfull q0 (opOf w2).dd).extent) ∧
    (memoriesCanonical w3 ∧ goes q0 (zw 3 3 (dd := 2) (sa := 6) (sub := 2)) (isDims 2) w3 ∧ (w3.chase 1).busy = [] ∧
      32 ≤ (tensor w3 q0 2).extent ∧ (dimsOf (w3.chase 1) (ownCluster w3 q0) 3).isSome = true) ∧
    (goes q0 (zw 3 3 (dd := 2) (sa := 6) (sub := 2)) (isDims 2) dfull ∧ (dfull.chase 1).busy = [] ∧
      dimsOf (dfull.chase 1) (ownCluster dfull q0) 3 = none) ∧
    ((7 : Nat) - 3 < 5 ∧ (9 : Nat) - 3 ≥ 5) := by decide +kernel

/-- The hypotheses of SortInstructionsComplete can be met. -/
theorem test_hyps_SortInstructionsComplete :
    (((so.chase (↑ql.chase)).item ((sequencer so ql).s (opOf w4).sa)).isSome = true ∧ goes ql w4 (fun o => isOp 4 2 o &&
      !bitAt o.sub 0) so ∧ ((sequencer so ql).s (opOf w4).sa) < 256) ∧
    (goes ql w4 (fun o => isOp 4 2 o && !bitAt o.sub 0) w5 ∧ (256 ≤ ((sequencer w5 ql).s (opOf w4).sa) ∨ (w5.chase
      (↑ql.chase)).item ((sequencer w5 ql).s (opOf w4).sa) = none)) ∧
    (goes ql w6 (fun o => isOp 4 2 o && bitAt o.sub 0) so) ∧
    (goes ql w7 (fun o => isOp 4 3 o && !bitAt o.sub 0) so ∧ collected (so.chase (↑ql.chase)) ((sequencer so ql).s (opOf
      w7).sa) = true) ∧
    (goes ql w7 (fun o => isOp 4 3 o && !bitAt o.sub 0) so3 ∧ collected (so3.chase (↑ql.chase)) ((sequencer so3 ql).s
      (opOf w7).sa) = false) ∧
    (goes ql w8 (fun o => isOp 4 3 o && bitAt o.sub 0) so3 ∧ takeInbound so3 ql (opOf w8).dd (opOf w8).sd = none) ∧
    (goes ql w8 (fun o => isOp 4 3 o && bitAt o.sub 0) so4 ∧ (takeInbound so4 ql (opOf w8).dd (opOf w8).sd).isSome = true) := by decide +kernel

/-- The hypotheses of SortWaitsEnd can be met (in SortInstructionsComplete). -/
theorem test_hyps_SortWaitsEnd :
    ((sequencer so5 ql).wait = SeqWait.sortRecv 0 3 8 2 (some 0) ∧ collected (so5.chase ↑ql.chase) 0 = true ∧ expired so5
      (some 0) = true) ∧
    ((sequencer so6 ql).wait = SeqWait.inbound 3 8 2 (some 0) ∧ (takeInbound so6 ql 3 8).isSome = true ∧ expired so6 (some
      0) = true) := by decide +kernel

/-- The hypotheses of SortRecvWritesItsMask can be met (in SortInstructionsComplete). -/
theorem test_hyps_SortRecvWritesItsMask :
    (((so3.chase ↑ql.chase).item 0).isSome = true ∧ (missingMask (sortsOf (so3.chase ↑ql.chase) 0)) ≠ 0 ∧
      memoriesCanonical so3 ∧ (so3.chase ↑ql.chase).busy = [] ∧ (tensor so3 ql 3).space < 4) ∧
    ((missingMask (sortsOf (so.chase ↑ql.chase) 0)) = 0) := by decide +kernel

/-- The hypotheses of GateChoosesTheBestLogits can be met: one logit of three is left out. -/
theorem test_hyps_GateChoosesTheBestLogits :
    (∀ b n d, Val.fin b n d ∈ [Val.nan, .fin false 3 1, .fin false 4 1] → 0 < d) ∧
    (2, Val.fin false 4 1) ∈ topLogits 1 [.nan, .fin false 3 1, .fin false 4 1] ∧
    (1, Val.fin false 3 1) ∉ topLogits 1 [.nan, .fin false 3 1, .fin false 4 1] := by
  refine ⟨?_, by decide +kernel, by decide +kernel⟩
  intro b n d h
  simp only [List.mem_cons, List.not_mem_nil, reduceCtorEq, Val.fin.injEq, false_or, or_false] at h
  omega

end Sorts

namespace Verdicts
def vs : State := s6 10 (regs
    [(.encEnable,1,1),(.encValid,1,1),(.ctxMargin,4,40),(.ctxGuard,4,10),(.ctxNrMask,4,3),(.ctxNrWidth,4,5),(.fcContext,0,4),(.fcAssigned,0,1),(.fcMode,0,3)]
    itd) ql
def vop := zw 5 1 (sa := 8) (sd := 3) (pdst := 2) (sub := 2)
def vdec := zw 5 1 (sa := 7) (pdst := 2) (sub := 32) (imm0 := 5) (imm1 := 0x50001)
def vfull := vs.setChase 1 { vs.chase 1 with items := ⟨(List.range 256).map (fun h => (h, some it))⟩ }
def vex (s : State) := { s with sram := memWrite s.sram (exitAddr s 1 0 + 3) 1 }
def it2 := { it with handed := true, handedAt := 3 }
def vh := ({ vs with clk := 4 }.put .encPos 1 45).setChase 1 { vs.chase 1 with items := Tab.empty.set 0 (some it2) }
def fc (p : Nat) : FireCmd := ⟨p, 1, 5, 4, 3, 0, some 0, none⟩
def lo := onSeq (vs.put .quoinGrant 3 16) ql (fun x => { x with loose := [(0,50)] })
def w1 : ZWord := zw 5 1 (sa := 8) (sd := 3) (pdst := 2) (sub := 3)
def w2 : State := vs.put .encPos 1 20
def w3 : State := vex (vs.put .encPos 1 20)
def w4 : State := vex vh
def w5 : ZWord := zw 5 2 (sa := 6) (pdst := 2) (sub := 2) (imm1 := 0x50001)
def w6 : ZWord := zw 5 3 (sa := 6) (pdst := 2) (sub := 2) (imm0 := 0x301)
def w7 : State := vs.setCtx 4 { vs.context 4 with oneshots := ⟨(List.range 4).map (fun i => (i, some ⟨0,0,0⟩))⟩}
def w8 : State := vs.setFq 1 (List.replicate 32 (fc 7))
def w9 : ZWord := zw 6 1 (sa := 6) (sd := 8) (pdst := 2) (sub := 2) (imm0 := 5)
def w10 : ZWord := zw 6 2 (pdst := 2) (imm0 := 1) (imm1 := 7)
def w11 : State := vs.put .bwCeilGalley 1 9
def w12 : ZWord := zw 6 3 (sa := 16) (sd := 8) (pdst := 2) (imm0 := 4)
def w13 : ZWord := zw 6 4 (sd := 8) (pdst := 2) (imm0 := 3)
def w14 : ZWord := zw 6 4 (sd := 8) (pdst := 2) (imm0 := 3) (sub := 1)
def w15 : ZWord := zw 6 4 (sd := 8) (pdst := 2) (imm0 := 3) (sub := 2)

/-- The hypotheses of VerdictInstructionsComplete can be met. -/
theorem test_hyps_VerdictInstructionsComplete :
    ((slotCtx vs (↑ql.chase) ((opOf vop).sub % 16)).isSome = true ∧ goes ql vop (fun o => isOp 5 1 o && !bitAt o.sub 5)
      vs) ∧
    (goes ql w1 (fun o => isOp 5 1 o && !bitAt o.sub 5) vs ∧ slotCtx vs (↑ql.chase) ((opOf w1).sub % 16) = none) ∧
    (goes ql vdec (fun o => isOp 5 1 o && bitAt o.sub 5) vs) := by decide +kernel

/-- The hypotheses of OpenTakesTheLowestHandle can be met (in VerdictsAreNumberedAndFinal). -/
theorem test_hyps_OpenTakesTheLowestHandle :
    (((openItem vs 1 4 2 10 50).1).isSome = true) ∧
    ((openItem vfull 1 4 2 10 50).1 = none) := by decide +kernel

/-- The hypotheses of VerdictsAreNumberedAndCounted can be met (in VerdictsAreNumberedAndFinal). -/
theorem test_hyps_VerdictsAreNumberedAndCounted :
    (0 < 3) := by decide +kernel

/-- The hypotheses of ItemsAreDecidedOnce can be met (in VerdictsAreNumberedAndFinal). -/
theorem test_hyps_ItemsAreDecidedOnce :
    (0 < 256 ∧ (vs.chase 1).item 0 = some it ∧ it.orphan = false ∧ (it.handed = false ∨ vs.clk ≤ it.handedAt ∨ false = true)) := by decide +kernel

/-- The hypotheses of DeadlinesAreMonitored can be met. -/
theorem test_hyps_DeadlinesAreMonitored :
    ((vs.chase 1).item ((0 : BitVec 8).toNat) = some it ∧ (it.handed = true ∨ pastDeadline vs it = false)) ∧
    ((w2.chase 1).item ((0 : BitVec 8).toNat) = some it ∧ it.handed = false ∧ pastDeadline w2 it = true ∧ (exitRecord w2 1
      ((0 : BitVec 8).toNat) it) = none) ∧
    ((w3.chase 1).item ((0 : BitVec 8).toNat) = some it ∧ it.handed = false ∧ pastDeadline w3 it = true ∧ ((exitRecord w3
      1 ((0 : BitVec 8).toNat) it)).isSome = true) ∧
    ((vh.chase 1).item ((0 : BitVec 8).toNat) = some it2 ∧ it2.handed = true ∧ it2.handedAt < vh.clk ∧ (exitRecord vh 1 ((0 : BitVec 8).toNat)
      it2) = none ∧ pastExitLimit vh it2 = true) ∧
    ((w4.chase 1).item ((0 : BitVec 8).toNat) = some it2 ∧ ((exitRecord w4 1 ((0 : BitVec 8).toNat) it2)).isSome = true ∧
      it2.handed = true ∧
      it2.handedAt < w4.clk) := by decide +kernel

/-- The hypotheses of FireQueueAcceptsInOrder can be met. -/
theorem test_hyps_FireQueueAcceptsInOrder :
    (countAhead (sext 48 (fc 0).position) (vs.s48 Fld.encPos (vs.get Fld.ctxEncoder (fc 0).context)) ≤ 0) ∧
    (¬countAhead (sext 48 (fc 50).position) (vs.s48 Fld.encPos (vs.get Fld.ctxEncoder (fc 50).context)) ≤ 0 ∧ (vs.fq
      (vs.get Fld.ctxEncoder (fc 50).context)).length < 32) ∧
    (¬countAhead (sext 48 (fc 50).position) (w8.s48 Fld.encPos (w8.get Fld.ctxEncoder (fc 50).context)) ≤ 0 ∧ 32 ≤ (w8.fq
      (w8.get Fld.ctxEncoder (fc 50).context)).length) := by decide +kernel

/-- The hypotheses of ExchangesKeepTheQueue can be met (in ComparesAndTicksAct), and an exchange moves an entry. -/
theorem test_hyps_ExchangesKeepTheQueue :
    ((vs.setFq 1 [fc 9, fc 7]).fq 1)[0]? = some (fc 9) ∧ ((vs.setFq 1 [fc 9, fc 7]).fq 1)[1]? = some (fc 7) ∧
      countAhead (sext 48 (fc 7).position) (sext 48 (fc 9).position) < 0 ∧
      (match execFireQueueExchange false (vs.setFq 1 [fc 9, fc 7]) with
        | .next t => decide (t.fq 1 = [fc 7, fc 9])
        | _ => false) = true := by decide +kernel

def passed : State := vs.put .encPos 1 100

/-- The hypotheses of PassedCommandsAreRefused can be met (in FireQueueAcceptsInOrder). -/
theorem test_hyps_PassedCommandsAreRefused :
    (goes ql w5 (isOp 5 2) passed ∧ slotCtx passed 1 ((opOf w5).sub % 16) = some 4 ∧
      filterChannels passed 4 ((opOf w5).imm1 % 65536) ≠ 0 ∧ (opOf w5).imm1 / 65536 ≠ 0 ∧
      countAhead (sext 48 ((sequencer passed ql).pair48 (opOf w5).sa)) (passed.s48 .encPos (passed.get .ctxEncoder 4)) ≤ 0) ∧
    ((passed.chase 1).item 0 = some it ∧ it.orphan = false ∧ it.handed = false ∧ (⟨5, 0, 0, 3⟩ : Decision).width ≠ 0 ∧
      countAhead (sext 48 it.firePos) (passed.s48 .encPos (passed.get .ctxEncoder it.ctx)) ≤ 0) := by decide +kernel

/-- A PARAM of target 2, bank 1, and a staged mesh whose look-back needs more than the stage window. -/
def w9big : ZWord := zw 6 1 (sa := 6) (sd := 8) (pdst := 2) (sub := 2) (imm0 := 6)
def bigMesh : State :=
  let s := vs.put .cxpWidthM1 4 99
  { s with galley := memStore s.galley (bankAddr s 4 2 1) ([2, 0, 2, 0] ++ List.replicate 16 0 ++ [0, 16]) }

/-- The hypotheses of ClassKCompletes can be met. -/
theorem test_hyps_ClassKCompletes :
    ((slotCtx vs (↑ql.chase) ((opOf w9).sub % 16)).isSome = true ∧ goes ql w9 (isOp 6 1) vs) ∧
    (slotCtx vs 1 3 = none ∧ goes ql (zw 6 1 (sa := 6) (sd := 8) (sub := 3) (imm0 := 5)) (isOp 6 1) vs) ∧
    (goes ql w9big (isOp 6 1) bigMesh ∧ slotCtx bigMesh 1 2 = some 4 ∧ (opOf w9big).imm0 % 4 = 2 ∧
      meshTooLarge bigMesh 4 (b2n (bitAt (opOf w9big).imm0 2)) = true) ∧
    (goes ql w10 (isOp 6 2) w11) ∧ (goes ql w10 (isOp 6 2) vs ∧ ceiling vs 1 1 < (opOf w10).imm1) ∧
    (goes ql w12 (isOp 6 3) vs) ∧
    (goes ql w13 (fun o => isOp 6 4 o && o.sub % 4 == 0) lo) ∧
    (goes ql w14 (fun o => isOp 6 4 o && o.sub % 4 == 1) lo) ∧
    (goes ql w15 (fun o => isOp 6 4 o && o.sub % 4 == 2) lo) := by decide +kernel

/-- The hypotheses of FireTrigAndTstampComplete can be met. -/
theorem test_hyps_FireTrigAndTstampComplete :
    (slotCtx vs 1 2 = some 4 ∧ goes ql (zw 5 2 (sa := 6) (pdst := 2) (sub := 2) (imm1 := 0x50001)) (isOp 5 2) vs) ∧
    (goes ql (zw 5 3 (sa := 6) (pdst := 2) (sub := 2) (imm0 := 0x301)) (isOp 5 3) vs ∧ supplies vs 1 = false ∧
      (vs.context 4).oneshots.get none 0 = none) ∧
    (goes ql (zw 5 3 (sa := 6) (pdst := 2) (sub := 2) (imm0 := 0x301)) (isOp 5 3) w7 ∧
      (List.range 4).all (fun i => ((w7.context 4).oneshots.get none i).isSome) = true) ∧
    goes ql (zw 5 4 (sd := 4) (sub := 2)) (isOp 5 4) vs ∧
    (slotCtx vs 1 3 = none ∧ goes ql (zw 5 2 (sa := 6) (sub := 3) (imm1 := 0x50001)) (isOp 5 2) vs ∧
      goes ql (zw 5 3 (sa := 6) (sub := 3) (imm0 := 0x301)) (isOp 5 3) vs ∧
      goes ql (zw 5 4 (sd := 4) (sub := 3)) (isOp 5 4) vs) := by decide +kernel

end Verdicts

namespace Chases
def f0 := ctxd
def fo := (f0.put .chState 1 6).setChase 1 { f0.chase 1 with failPlace := some 0 }
def r0 : Req := ⟨0, 5, none⟩
def rr : Req := ⟨0, 5, some 3⟩
def bd : State := regs
    [(.ctxBound,4,0),(.chOwner,1,0),(.cxpSrcLanes,4,1),(.cxpSrcMaster,4,0),(.cxpLaneState,0,3),(.cxpFmt,4,1),(.cxpWidthM1,4,15),(.galStride,4,2),(.galDepth,4,256),(.galLimit,4,1024)]
    f0
def pimg := natLe 4 0x54415046 ++ natLe 4 7 ++ natLe 4 1 ++ natLe 4 1 ++ natLe 4 1 ++ List.replicate 44 (0:Byte) ++
    natLe 4 0 ++ natLe 4 16 ++ natLe 4 4 ++ natLe 4 0 ++ [1,2,3,4]
def pf : State := regs [(.secDevTrained,0,1)]
    { f0 with lpddr := memStore f0.lpddr 0x9000 pimg, chases := f0.chases.set 1 { f0.chase 1 with forme := some { fm with sections := fm.sections ++ [⟨3,0,0,2,0x300,0x40,0⟩] } } }
def ps := go (.formePatch r0 1 0x9000 84) pf
def ld := go (.formeLoad r0 1 0x1000 0x400) (f0.put .chState 1 2)
def ldReq : LoadReq := ⟨r0, 0x1000, 0x400, ld.clk, priorForme (f0.put .chState 1 2) 1⟩
def w1 : State := regs [(.engResidue,8,2)] { bar with clk := 100000000 }
def w2 : State := recordRung (f0.put .supRetry 0 1) (.chase 1) 3 1
def w3 : State := f0.put .modService 0 3
def w4 : State := f0.put .modService 0 0
def w5 : State := f0.put .helloDone 0 0
def w6 : State := f0.setMbox 0 ⟨[⟨[5*65536],64,false,0,0,true,none⟩],[]⟩
def w7 : State := regs [(.fpcPresent,16,1),(.fpcPresent,17,1)] f0
def w8 : State := f0.put .chState 1 2
def w9 : State := (f0.put .chState 1 2).setChase 1 { f0.chase 1 with items := Tab.empty.set 3 (some it) }
def w10 : State := f0.put .chState 1 2
def w11 : Forme := { fm with sections := fm.sections ++ [⟨3,0,0,2,0x300,0x40,0⟩] }
def w12 : State := f0.setChase 1 { f0.chase 1 with bwWait := Tab.empty.set 0 100 }
def w13 : State := f0.setChase 1 { f0.chase 1 with forme := some { fm with digest := 1 } }
def deadlines : Forme := { w11 with sections := w11.sections ++ [⟨6, 0, 0, 0, 0x380, 32, 0⟩] }
def begun : State :=
  { ps.setChase 1 { ps.chase 1 with forme := some deadlines } with
    lpddr := memStore ps.lpddr 0x1380 (natLe 16 1 ++ [2, 0, 10, 0, 0xFF]) }

/-- The hypotheses of FabricFaultsAreRecorded can be met. -/
theorem test_hyps_FabricFaultsAreRecorded :
    (coreRuns f0 8 = true ∧ engineRuns f0 8 1 = true) := by decide +kernel

/-- The hypotheses of FencesAndWindowsEnterTheLadder can be met. -/
theorem test_hyps_FencesAndWindowsEnterTheLadder :
    (engineRuns f0 8 1 = true ∧ curableEngine f0 8 1 = true ∧ f0.get Fld.engSpare 8 ≠ noEngine ∧ mayClimb f0
      (LadderUnit.engine 8 1) rungFence = true ∧ rungCovered f0 (.engine 8 1) rungFence = false ∧ coreRuns f0 8 = true ∧ chaseChecked f0 1 = true ∧ contextChecked f0 4
      = true ∧ f0.power ≠ Power.off) ∧
    (barrierStall w1 1 = true) := by decide +kernel

/-- The hypotheses of FailoverCompletes can be met (in FencesAndWindowsEnterTheLadder). -/
theorem test_hyps_FailoverCompletes :
    fo.get Fld.chState 1 = chFailover ∧ (fo.chase 1).failPlace = some 0 := by decide +kernel

/-- The hypotheses of FirmwareGateComesFirst can be met. -/
theorem test_hyps_FirmwareGateComesFirst :
    (requestStale f0 r0 = false ∧ (false = true ∨ f0.flag Fld.helloDone (senderFn f0 r0.sender.toNat) = true) ∧ f0.get
      Fld.modService 0 ≠ svcFailed ∧ f0.get Fld.modService 0 ≠ svcBringup ∧ f0.mgmt.hold = Hold.none) ∧
    (requestStale w3 r0 = false ∧ w3.get Fld.modService 0 = svcFailed ∧ false = false) ∧
    (requestStale w4 r0 = false ∧ w4.get Fld.modService 0 ≠ svcFailed ∧ (false = true ∨ w4.flag Fld.helloDone (senderFn w4
      r0.sender.toNat) = true) ∧ (w4.get Fld.modService 0 = svcBringup ∨ w4.mgmt.hold ≠ Hold.none) ∧ false = false) ∧
    (requestStale w5 r0 = false ∧ w5.get Fld.modService 0 ≠ svcFailed ∧ (¬(false = true ∨ w5.flag Fld.helloDone (senderFn
      w5 r0.sender.toNat) = true))) ∧
    (requestStale w6 r0 = true) := by decide +kernel

/-- The hypotheses of ChasesAreCreatedAndDeleted can be met (in ChasesAndContextsAreBound). -/
theorem test_hyps_ChasesAreCreatedAndDeleted :
    (served w7 r0 false false ∧ senderFn (takeRequest w7 r0) r0.sender.toNat = 0 ∧ (takeRequest w7 r0).flag Fld.chPresent
      3 = false ∧ shapeOk (List.filter (bitAt (0x30000 : BitVec 32).toNat) (List.range 32)) = true ∧ (List.filter
      (bitAt (0x30000 : BitVec 32).toNat) (List.range 32)).any (coreTaken (takeRequest w7 r0)) = false ∧ ((List.filter
      (bitAt (0x30000 : BitVec 32).toNat) (List.range 32)).all fun c => (takeRequest w7 r0).flag Fld.fpcPresent c) =
      true) ∧
    (served w8 r0 false false ∧ senderFn (takeRequest w8 r0) r0.sender.toNat = 0 ∧ (takeRequest w8 r0).flag Fld.chPresent
      1 = true ∧ ((takeRequest w8 r0).chase 1).draining = false ∧ boundTo (takeRequest w8 r0) 1 = [4] ∧ (∀ k ∈ boundTo (takeRequest w8 r0) 1, ((takeRequest w8 r0).context
      k).resetting = false) ∧ ((takeRequest
      w8 r0).get Fld.chState 1 = chEmpty ∨ (takeRequest w8 r0).get Fld.chState 1 = chStopped)) := by decide +kernel

/-- The hypotheses of ContextsAreBoundAndUnbound can be met (in ChasesAndContextsAreBound). -/
theorem test_hyps_ContextsAreBoundAndUnbound :
    (served bd r0 false false ∧ mayChase (takeRequest bd r0) r0 1 = true ∧ 0 < (⟨1, 10, 40, 10, 3, 5⟩ : BindParams).pitch
      ∧ (⟨1, 10, 40, 10, 3, 5⟩ : BindParams).pitch ≤ 65535 ∧ (⟨1, 10, 40, 10, 3, 5⟩ : BindParams).margin < 2 ^ 31 ∧
      (⟨1, 10, 40, 10, 3, 5⟩ : BindParams).guard < 65536 ∧ ((takeRequest bd r0).get Fld.chOwner 1 = 0 ∨ (takeRequest
      bd r0).get Fld.chOwner 1 = 4 + 1) ∧ (takeRequest bd r0).flag Fld.chPresent 1 = true ∧ (takeRequest bd r0).get
      Fld.chState 1 ≠ chLoading ∧ ((takeRequest bd r0).chase 1).draining = false ∧ ((takeRequest bd r0).context
      4).resetting = false ∧ (takeRequest bd r0).flag Fld.ctxBound 4 = false ∧ slotCtx (takeRequest bd r0) 1 2 = none
      ∧ 0 < (⟨1, 10, 40, 10, 3, 5⟩ : BindParams).guard ∧ (⟨1, 10, 40, 10, 3, 5⟩ : BindParams).guard ≤ (⟨1, 10, 40, 10,
      3, 5⟩ : BindParams).margin ∧ bindRefusal (takeRequest bd r0) 4 = none) ∧
    (served w9 r0 false false ∧ mayChase (takeRequest w9 r0) r0 1 = true ∧ (takeRequest w9 r0).flag Fld.chPresent 1 = true
      ∧ ((takeRequest w9 r0).chase 1).draining = false ∧ ((takeRequest w9 r0).get Fld.chState 1 = chStopped ∨
      (takeRequest w9 r0).get Fld.chState 1 = chEmpty) ∧ slotCtx (takeRequest w9 r0) 1 2 = some 4 ∧ ((takeRequest w9
      r0).context 4).resetting = false) := by decide +kernel

/-- The hypotheses of FormesAreLoadedStartedAndStopped can be met. -/
theorem test_hyps_FormesAreLoadedStartedAndStopped :
    (served f0 r0 false false ∧ mayChase (takeRequest f0 r0) r0 1 = true ∧ (takeRequest f0 r0).flag Fld.chPresent 1 = true
      ∧ ((takeRequest f0 r0).chase 1).draining = false ∧ (((takeRequest f0 r0).get Fld.chState 1) = chRunning ∨
      ((takeRequest f0 r0).get Fld.chState 1) = chHalted ∨ ((takeRequest f0 r0).get Fld.chState 1) = chTrapped)) ∧
    (served w10 r0 false false ∧ mayChase (takeRequest w10 r0) r0 1 = true ∧ (takeRequest w10 r0).flag Fld.chPresent 1 =
      true ∧ ((takeRequest w10 r0).chase 1).draining = false ∧ (((takeRequest w10 r0).get Fld.chState 1) = chEmpty ∨
      ((takeRequest w10 r0).get Fld.chState 1) = chStopped) ∧ (((takeRequest w10 r0).chase 1).forme).isSome = true ∧
      (((takeRequest w10 r0).get Fld.chState 1) = chStopped ∨ ((takeRequest w10 r0).get Fld.chState 1) = chHalted ∨
      ((takeRequest w10 r0).get Fld.chState 1) = chTrapped)) ∧
    (served pf r0 false false ∧ mayChase (takeRequest pf r0) r0 1 = true ∧ (takeRequest pf r0).flag Fld.chPresent 1 = true
      ∧ ((takeRequest pf r0).chase 1).draining = false ∧ (((takeRequest pf r0).chase 1).forme).isSome = true ∧
      (((takeRequest pf r0).get Fld.chState 1) = chRunning ∨ ((takeRequest pf r0).get Fld.chState 1) = chStopped) ∧
      (((takeRequest pf r0).chase 1).forme).any (fun f => decide
      ((patchVerdict (takeRequest pf r0) f 0x9000 84).1 = none)) = true) := by decide +kernel

/-- The hypotheses of LoadsAndPatchesTakeEffect can be met (in FormesAreLoadedStartedAndStopped): a patch that waits, with
an item begun and without, and a load whose image is refused. -/
theorem test_hyps_LoadsAndPatchesTakeEffect :
    ((ps.chase 1).patches = [⟨[(0,16,[1,2,3,4])],r0,true⟩] ∧ (ps.chase 1).forme = some w11 ∧
      itemBegun ps 1 w11 = false ∧ boundTo ps 1 = [4]) ∧
    (itemBegun begun 1 deadlines = true ∧ (begun.chase 1).patches ≠ [] ∧ (begun.chase 1).forme = some deadlines) ∧
    ((ld.chase 1).load = some ldReq ∧ (loaderRefusal ld 1 ldReq.addr ldReq.size).any (fun e => e.2 != 32) = true) := by
  decide +kernel

/-- The hypotheses of LooseSectionsAndGrants can be met (in UnitsAndGrantsAreReleased). -/
theorem test_hyps_LooseSectionsAndGrants :
    (f0.get Fld.chState 1 = chRunning) ∧
    (grantReady w12 1 0 = true) := by decide +kernel

/-- The hypotheses of LadderClimbsByRetries can be met: a first rung, a chase that has used its retries, a context that
has, a rung that a wider one of this cycle or the reset of its unit covers, and a unit whose number fits its field. -/
theorem test_hyps_LadderClimbsByRetries :
    (3 ≠ rungPower ∧ rungCovered f0 (.chase 1) 3 = false ∧ mayClimb f0 (.chase 1) 3 = true) ∧
    (rungCovered w2 (.chase 1) 3 = false ∧ mayClimb w2 (.chase 1) 3 = false ∧ w2.flag .supHoldChase 0 = false) ∧
    mayClimb (recordRung (f0.put .supRetry 0 1) (.context 4) 1 1) (.context 4) 1 = false ∧
    rungCovered (recordRung f0 .whole rungFabric 1) (.chase 1) rungChase = true ∧
    rungCovered (f0.setCtx 4 { f0.context 4 with resetting := true }) (.context 4) rungContext = true ∧
    (2 < 8 ∧ unitNumber (.engine 8 1) < 64) := by decide +kernel

/-- A forme with a digest, in a chase. -/
def signed (d : BitVec 384) : State := f0.setChase 1 { f0.chase 1 with forme := some { fm with digest := d } }

/-- The digest of the staged image, open to any function (log entry 5). -/
def stagedDigest : BitVec 384 := Config.sha384 (memBytes f0.lpddr fm.addr fm.size)

/-- The hypotheses of StartChecksTheDigest can be met, both where the digest agrees and where it does not. -/
theorem test_hyps_StartChecksTheDigest :
    ((signed stagedDigest).chase 1).forme = some { fm with digest := stagedDigest } ∧
    ((signed (stagedDigest + 1)).chase 1).forme = some { fm with digest := stagedDigest + 1 } ∧
    stagedDigest ≠ stagedDigest + 1 := by
  refine ⟨rfl, rfl, fun h => ?_⟩
  exact absurd (BitVec.add_right_eq_self.mp h.symm) (by decide)

end Chases

namespace Loads
/-- The header (R173) of a forme image of one NOP. -/
def headCells : Memory :=
  [(0, 70#8), (1, 82#8), (2, 77#8), (3, 69#8), (4, 1#8), (7, 1#8), (8, 2#8), (12, 255#8), (13, 3#8), (20, 255#8),
   (21, 255#8), (22, 255#8), (23, 255#8), (24, 7#8), (28, 1#8), (32, 64#8), (33, 5#8), (36, 10#8), (38, 1#8),
   (41, 16#8), (48, 16#8)]

/-- Its section table (R174): sections 0x01 to 0x08, an imposition table and the signature. -/
def sectionCells : Memory :=
  [(256, 1#8), (258, 255#8), (260, 192#8), (261, 1#8), (264, 96#8), (272, 2#8), (274, 255#8), (276, 64#8),
   (277, 2#8), (280, 16#8), (288, 3#8), (290, 255#8), (292, 128#8), (293, 2#8), (304, 4#8), (306, 255#8),
   (308, 128#8), (309, 2#8), (312, 80#8), (320, 5#8), (322, 255#8), (325, 3#8), (328, 16#8), (336, 6#8),
   (338, 255#8), (340, 64#8), (341, 3#8), (344, 16#8), (352, 7#8), (354, 255#8), (356, 128#8), (357, 3#8),
   (368, 8#8), (370, 255#8), (372, 128#8), (373, 3#8), (376, 220#8), (384, 10#8), (386, 255#8), (388, 128#8),
   (389, 4#8), (392, 36#8), (400, 15#8), (402, 255#8), (404, 192#8), (405, 4#8), (408, 128#8)]

/-- The unit records (R468) of both placements: one idle run over the band each. -/
def scheduleCells : Memory :=
  [(896, 12#8), (913, 16#8), (916, 1#8), (920, 208#8), (929, 32#8), (932, 1#8), (936, 208#8), (944, 1#8),
   (945, 32#8), (948, 1#8), (952, 208#8), (960, 16#8), (961, 48#8), (964, 1#8), (968, 208#8), (976, 17#8),
   (977, 48#8), (980, 1#8), (984, 208#8), (992, 16#8), (993, 64#8), (996, 1#8), (1000, 208#8), (1009, 16#8),
   (1010, 1#8), (1012, 1#8), (1016, 208#8), (1025, 32#8), (1026, 1#8), (1028, 1#8), (1032, 208#8), (1040, 1#8),
   (1041, 32#8), (1042, 1#8), (1044, 1#8), (1048, 208#8), (1056, 16#8), (1057, 48#8), (1058, 1#8), (1060, 1#8),
   (1064, 208#8), (1072, 17#8), (1073, 48#8), (1074, 1#8), (1076, 1#8), (1080, 208#8), (1088, 16#8), (1089, 64#8),
   (1090, 1#8), (1092, 1#8), (1096, 208#8), (1108, 32#8)]

/-- An imposition table (R294) whose participants are module 1 alone. -/
def impoCells : Memory :=
  [(1152, 73#8), (1153, 77#8), (1154, 80#8), (1155, 79#8), (1156, 1#8), (1158, 1#8), (1160, 2#8), (1164, 1#8)]

/-- Two placements of logical core 0 on the chase's first core, their bands 32 cycles long, and the stream section's word. -/
def placeCells : Memory :=
  (452, 32#8) :: (List.range 31).map (fun i => (465 + i, 255#8)) ++ (496, 1#8) :: (500, 32#8) ::
    (List.range 31).map (fun i => (513 + i, 255#8)) ++ [(640, 2#8), (642, 1#8)]

/-- A chase on core 8 whose load of that image is under way, on module `m`. -/
def loading (m : Nat) : State :=
  let s := regs [(.chPresent, 1, 1), (.chState, 1, 1), (.fpcPresent, 8, 1), (.rhModule, 0, m), (.secLifecycle, 0, 1)] on
  { s.setChase 1 { Chase.reset with
      cores := [8], regions := ⟨0, 0x400000, 0, 0x100000, 0, 0x1000000⟩,
      load := some ⟨⟨0, 5, none⟩, 0, 1344, 0, none⟩ } with
    lpddr := headCells ++ sectionCells ++ placeCells ++ scheduleCells ++ impoCells }
/-- What the image itself decides of the loader's checks, before the rings and after them. -/
def early (s : State) : Bool :=
  let f := formeAt s 0
  layoutBad s 0 1344 || decide (s.get .fwVersion 0 < imgNum s 0 0x10 4) ||
    decide (imgNum s 0 0x14 4 < s.get .fwVersion 0) || !unsignedOk s || capsBad s 1 f || fitBad s 1 f ||
    reservedBad s f || rulesBad s f || kerfBad s f || scheduleBad s 1 f || slotsBad s 1 f || placementsBad s 1 f ||
    storeBad s 1 f || costsBad s 1 f || !(depthsNeeded s f).isEmpty

theorem test_image_passes : early (loading 1) = false := by decide +kernel

/-- None of these checks looks at the module's number. -/
theorem early_module : early (loading 2) = early (loading 1) := rfl

/-- Whether the image's imposition table leaves the module out. -/
def namesOthers (s : State) : Bool :=
  match (formeAt s 0).impo with
  | none => false
  | some i => !inMask i.participants (ownModule s) || i.experts.any (fun e => e.homeMod == ownModule s && e.homeChase != 1)

theorem test_image_imposition : namesOthers (loading 2) = true ∧ namesOthers (loading 1) = false := by decide +kernel

/-- A load is accepted, or refused for its imposition, that passes every other check, given the open one of the rings (log
entry 6). -/
theorem early_decides (s : State) (e : early s = false)
    (h : Config.loaderCheck 0x0D (memBytes s.lpddr (formeAt s 0).addr (formeAt s 0).size) = true) :
    loaderRefusal s 1 0 1344 = if namesOthers s then some (cCapability, 0x20) else none := by
  simp only [early, Bool.or_eq_false_iff, Bool.not_eq_false', decide_eq_false_iff_not, List.isEmpty_iff] at e
  simp only [loaderRefusal, ringsBad, e, h, List.any_nil]
  unfold namesOthers
  cases (formeAt s 0).impo <;> simp

/-- The hypotheses of FormesAreLoadedStartedAndStopped about a load that ends can be met: with nothing at its address, on the
module the image names, on another module. -/
theorem test_hyps_LoadsEnd :
    (Chases.ld.chase 1).load = some Chases.ldReq ∧ loaderRefusal Chases.ld 1 0x1000 0x400 = some (cVersion, 0x01) ∧
    (∀ m, ((loading m).chase 1).load = some ⟨⟨0, 5, none⟩, 0, 1344, 0, none⟩) ∧
    ∀ m ∈ [1, 2], Config.loaderCheck 0x0D (memBytes (loading m).lpddr (formeAt (loading m) 0).addr
        (formeAt (loading m) 0).size) = true →
      loaderRefusal (loading m) 1 0 1344 = if m = 1 then none else some (cCapability, 0x20) := by
  refine ⟨by decide +kernel, by decide +kernel, fun _ => rfl, fun m hm h => ?_⟩
  obtain rfl | rfl : m = 1 ∨ m = 2 := by simpa using hm
  · rw [early_decides _ test_image_passes h, test_image_imposition.2]; rfl
  · rw [early_decides _ (early_module.trans test_image_passes) h, test_image_imposition.1]; rfl

end Loads

namespace Lines
def r0 : Req := ⟨0, 5, none⟩
def r5 : Req := ⟨5, 5, none⟩
def f0 := regs [(.helloDone,5,1)] ctxd
def nf : StepFindings := noFindings
def li : LaneInfo := ⟨3, 1, 4, false⟩
def lane (st rate : Nat) := regs
    [(.cxpLaneState,2,st),(.cxpLaneRate,2,rate),(.cxpLaneDevice,2,3),(.cxpLaneState,3,2),(.cxpLaneRate,3,rate),(.cxpLaneDevice,3,3),(.fpLanesCxp,0,0xFFFF)]
    { f0 with mgmt := { f0.mgmt with findings := some nf } }
def cq := { lane 2 3 with mgmt := { (lane 2 3).mgmt with qualRate := Tab.empty.set 2 (some 4) } }
def src (s : State) : State := (regs
    [(.cxpSrcLanes,4,1),(.cxpSrcMaster,4,0),(.cxpLaneState,0,3),(.cxpFmt,4,1),(.cxpWidthM1,4,3),(.encEnable,1,1),(.encValid,1,1),(.encPos,1,100)]
    s)
def tc (f : Context → Context) : State := let s := src f0; s.setCtx 4 (f { s.context 4 with trigTarget := 90, trigPitch := 20, nextLine := 7 })
def tg : Trig := ⟨7, 3, false, 0, 0⟩
def rxs := tc (fun x => { x with rx := [⟨tg, false, 0⟩], writeLine := 7, oldest := 7, slots := [] })
def g : Slug := ⟨11,1,1,2,7,0,0,0,0,[]⟩
def img : List Byte := List.replicate 64 0
def stg (t : Nat) :=
    { f0.setCtx 4 { f0.context 4 with stages := [⟨t, 1, 0x1100, 4, r0⟩] } with galley := memStore [] 5 [1,2,3] }
def w1 : State := lane 0 0
def w2 : State := lane 2 3
def w3 : State := lane 2 0
def w4 : State := tc id
def w5 : State := tc (fun x => { x with trigTarget := 110 })
def w6 : State := tc (fun x => { x with pktBusy := true, deferred := some tg})
def w7 : State := tc (fun x => { x with pktBusy := true})
def w8 : State := tc (fun x => { x with outstanding := [tg]})
def w9 : State := f0.put .galDepth 4 1
def w10 : State := src f0
def w11 : State := (src f0).setCtx 4 { f0.context 4 with ctrl := some ⟨r5, false, false, 4, [8]⟩}
def w12 : State := { f0 with lpddr := memStore f0.lpddr 0x9000 img }
def w13 : State := stg 3

/-- The hypotheses of LanesStepUpAndGoDown can be met. -/
theorem test_hyps_LanesStepUpAndGoDown :
    (bitAt ((w1.put .buExclCxp 0 4).get .buExclCxp 0) 2 = true) ∧
    (bitAt (w1.get .buExclCxp 0) 2 = false ∧ w1.get Fld.cxpLaneState 2 = lnDown) ∧
    (w2.get Fld.cxpLaneState 2 = lnStepping ∧ bitAt (w2.get .buExclCxp 0) 2 = false ∧ 0 < w2.get Fld.cxpLaneRate 2 ∧ (w2.get Fld.cxpLaneState 2 = lnStepping ∨
      w2.get Fld.cxpLaneState 2 = lnUp)) ∧
    (w3.get Fld.cxpLaneState 2 = lnStepping ∧ w3.get Fld.cxpLaneRate 2 = 0) := by decide +kernel

/-- The hypotheses of CompareHitsNumberTheLines can be met (in LinesAnswerTheirTriggers). -/
theorem test_hyps_CompareHitsNumberTheLines :
    (((w4.context 4).armed && compareLive w4 (w4.get Fld.ctxEncoder 4) && countReached (sext 48 (w4.context 4).trigTarget)
      (livePos w4 4)) = true) ∧
    (((w5.context 4).armed && compareLive w5 (w5.get Fld.ctxEncoder 4) && countReached (sext 48 (w5.context 4).trigTarget)
      (livePos w5 4)) = false) := by decide +kernel

/-- Whether a context receives camera lines. -/
def receives (s : State) : Bool := s.flag .ctxBound 4 && !replaying (s.context 4) && sourceUp s 4

/-- The hypotheses of LinesAnswerTheirTriggers can be met. -/
theorem test_hyps_LinesAnswerTheirTriggers :
    ((w6.context 4).pktBusy = true ∧ (w6.context 4).deferred = some tg ∧ tg.lost = 0 ∧
      w6.get .cxpLaneState (w6.get .cxpSrcMaster 4) = lnUp) ∧
    ((w7.context 4).pktBusy = true ∧ (w7.context 4).deferred = none) ∧ (w4.context 4).pktBusy = false ∧
    ((w8.context 4).outstanding = [tg] ∧ receives w8 = true) ∧
    (receives w4 = true ∧ (w4.context 4).outstanding = [] ∧ (w4.context 4).resetting = false ∧ (w4.context 4).quiet = 0) ∧
    receives f0 = false := by decide +kernel

/-- The hypotheses of LinesAreReceived can be met: a line that arrives on the packet's lane, and none. -/
theorem test_hyps_LinesAreReceived :
    ((rxs.context 4).rx = [⟨tg, false, 0⟩] ∧ (deviceLanes rxs 4).contains 0 = true) ∧ (w4.context 4).rx = [] := by
  decide +kernel

/-- The hypotheses of GalleyTakesOrDropsALine can be met (in LinesAreReceived). -/
theorem test_hyps_GalleyTakesOrDropsALine :
    ((f0.context 4).closedGaps = [] ∧ (f0.context 4).gap = none ∧ (f0.context 4).slots.length < f0.get Fld.galDepth 4 ∧
      (f0.context 4).slots.length ≤ f0.get Fld.galDepth 4) ∧
    ((w9.context 4).closedGaps = [] ∧ (w9.context 4).gap = none ∧ w9.get Fld.galDepth 4 ≤ (w9.context 4).slots.length) := by decide +kernel

/-- The hypotheses of CameraControlAnswers can be met. -/
theorem test_hyps_CameraControlAnswers :
    (((Option.map (fun e => e.stale) (List.find? (carriesControl r5) (w10.mbox (fwMbox w10 r5.sender.toNat)).msgs)).getD
      false = false ∧ senderFn w10 r5.sender.toNat = 4 + 1 ∧ serving w10 = true ∧ w10.mgmt.hold = Hold.none ∧
      (w10.context 4).resetting = false ∧ (w10.context 4).ctrl = none ∧ (w10.context 4).ctrlQueue = [] ∧ w10.get
      Fld.cxpLaneState (w10.get Fld.cxpSrcMaster 4) = lnUp)) ∧
    (((w11.context 4).ctrl).isSome = true ∧ (w11.context 4).ctrlQueue = []) := by decide +kernel

/-- The hypotheses of PipeBanksAreStagedAndApplied can be met. -/
theorem test_hyps_PipeBanksAreStagedAndApplied :
    (served w12 r0 false false ∧ mayContext (takeRequest w12 r0) r0 4 = true ∧ bankActive (takeRequest w12 r0) 4 3 1 =
      false ∧ bankPending (takeRequest w12 r0) 4 3 1 = false ∧ bankStaging (takeRequest w12 r0) 4 3 1 = false ∧
      imageBad (takeRequest w12 r0) 4 (3) (memBytes (takeRequest w12 r0).lpddr 0x9000 64) = false ∧ ((takeRequest w12
      r0).context 4).resetting = false ∧ (3 = 2 → meshTooLarge (takeRequest w12 r0) 4 1 = false)) ∧
    (((w13.context 4).stages).head?.isSome = true ∧ memoriesCanonical w13) := by decide +kernel

/-- The hypotheses of ApplyNamesItsLine can be met (in PipeBanksAreStagedAndApplied). -/
theorem test_hyps_ApplyNamesItsLine :
    (lineDiff 0 (firstUnbegun f0 4) < 0) ∧
    (0 ≤ lineDiff 5000 (firstUnbegun f0 4)) := by decide +kernel

end Lines

namespace Records
def r0 : Req := ⟨0, 5, none⟩
def f0 := regs [(.helloDone,5,1)] ctxd
def rec1 (ty cnt : Nat) (pl : List Byte) : List Byte := let b := natLe 4 0x43455242 ++ natLe 2 ty ++ natLe 10 0 ++ natLe 4 pl.length ++ natLe 4 cnt ++ natLe 8 0 ++ pl; b ++ natLe 4 (crc32c b)
def slugB : List Byte := natLe 6 3 ++ natLe 1 2 ++ natLe 1 1 ++ natLe 4 0 ++ natLe 2 3 ++ natLe 50 0 ++ natLe 8 0
def run1B : List Byte := natLe 8 0 ++ natLe 4 72 ++ natLe 4 0 ++ slugB
def file (ty cnt : Nat) (pl : List Byte) : List Byte := let r := rec1 ty cnt pl; let h := natLe 4 0x4E595242 ++ natLe 2 1 ++ natLe 10 0 ++ natLe 8 1 ++ natLe 8 (64 + r.length) ++ natLe 28 0; let x := natLe 4 0x58444942 ++ natLe 4 1 ++ natLe 8 0 ++ natLe 8 77 ++ natLe 8 64 ++ natLe 4 cnt ++ natLe 2 ty ++ natLe 2 0; h ++ natLe 4 (crc32c h) ++ r ++ x ++ natLe 4 (crc32c x)
def fB := file 1 1 run1B
def rp : State := regs [(.cxpFmt,4,3),(.cxpWidthM1,4,3)] { f0 with lpddr := memStore [] 0x40000 fB }
def dec := fun (s : State) => s
def rp2 := go (.replayStart r0 4 0x40000 fB.length 5 false) rp
def smp : List Byte := natLe 2 1 ++ natLe 2 3 ++ natLe 2 2 ++ natLe 2 1 ++ natLe 56 0 ++ [1,2,3,4,5,6]
def fT := file 2 1 smp
def tp : TrainParams := ⟨0x40000, fT.length, 5, 1, 2, 2, 1, 3, 2, 1, 128, 1, 0x3F800000, 0x80000, 2,
    false⟩
def tr : State := { f0 with lpddr := memStore [] 0x40000 fT }
def tr2 := go (.trainStart r0 1 tp) tr
def tr3 := { tr2 with lpddr := memStore tr2.lpddr 0x80000 [1] }
/-- The replay with a full bucket to pay its next entry from. -/
def rp3 : State := rp2.setChase (rp2.get .ctxChase 4)
  { rp2.chase (rp2.get .ctxChase 4) with buckets := (rp2.chase (rp2.get .ctxChase 4)).buckets.set 0 (2 ^ 30) }

/-- The hypotheses of ReplayIsStartedAndStopped can be met (in ReplayAndTrainingRun). -/
theorem test_hyps_ReplayIsStartedAndStopped :
    (served rp r0 false false ∧ mayContext (takeRequest rp r0) r0 4 = true ∧ (takeRequest rp r0).flag Fld.ctxBound 4 =
      true ∧ ((takeRequest rp r0).context 4).resetting = false ∧ ((takeRequest rp r0).context 4).replay = none ∧
      ({ addr := 0x40000, size := fB.length } : RecFile).check (takeRequest rp r0) = none ∧ ((takeRequest rp r0).get
      Fld.galDepth 4 + 16) * (takeRequest rp r0).get Fld.galStride 4 ≤ (takeRequest rp r0).get Fld.galLimit 4 * 64 ∧
      (∃ i, nextRun ({ addr := 0x40000, size := fB.length } : RecFile) (takeRequest rp r0) 0 = some i ∧
      (({ addr := 0x40000, size := fB.length } : RecFile).entry (takeRequest rp r0) i).count ≠ 0 ∧ runMatches
      (takeRequest rp r0) 4 ({ addr := 0x40000, size := fB.length } : RecFile)
      (({ addr := 0x40000, size := fB.length } : RecFile).entry (takeRequest rp r0) i) = true)) ∧
    ((((takeRequest rp2 r0).context 4).replay).isSome = true ∧ served rp2 r0 false false ∧ mayContext (takeRequest rp2 r0)
      r0 4 = true ∧ ((rp2.context 4).replay).isSome = true ∧ ((rp2.context 4).replay).any (fun p => decide
      (p.buf.length ≤ 16)) = true) ∧
    ((rp3.context 4).replay.any (fun p => !p.ended && decide (p.buf.length < 16) &&
      ((chargePrefetch rp3 4 p).map (fun e => e.2.2) == some true)) = true) := by decide +kernel

/-- The hypotheses of TrainerFillsItsBatches can be met (in ReplayAndTrainingRun). -/
theorem test_hyps_TrainerFillsItsBatches :
    (served tr r0 false false ∧ mayChase (takeRequest tr r0) r0 1 = true ∧ (takeRequest tr r0).get Fld.chState 1 =
      chRunning ∧ ((takeRequest tr r0).chase 1).trainer = none ∧ trainParamsOk tp = true ∧ (trainFile tp).check (takeRequest tr r0) = none) ∧
    ((((takeRequest tr2 r0).chase 1).trainer).isSome = true ∧ served tr2 r0 false false ∧ mayChase (takeRequest tr2 r0) r0
      1 = true ∧ ((tr2.chase 1).trainer).isSome = true ∧ memoriesCanonical tr2 ∧ ((tr2.chase 1).trainer).any (fun tr
      => decide (memNat tr2.lpddr (tr.p.ringAddr + tr.buf * (64 + tr.p.batch * entryBytes tr.p)) 4 = 0)) = true) ∧
    (((tr3.chase 1).trainer).any (fun tr => decide (memoriesCanonical tr3 ∧
      memNat tr3.lpddr (tr.p.ringAddr + tr.buf * (64 + tr.p.batch * entryBytes tr.p)) 4 ≠ 0)) = true) := by decide +kernel

end Records

namespace Links
def pst (st : Nat) (f : Port → Port := id) : State := let s := regs [(.rhState,1,st),(.rhLanes,1,15),(.rhLaneEn,1,15),(.rhPortEn,1,1),(.rhModule,0,2),(.rhRate,1,2),(.rhMaxRate,1,5),(.rhPartner,1,3),(.rhRoute0,0,0x00001080 ||| 0x10000),(.chState,3,3),(.rhEpoch,3,9)] ctxd; s.setPort 1 (f { s.port 1 with laneEn := 15, maxRate := 5, maxCode := 5, target := 4, stepFrom := 2, ready := 3 })
def h0 : PktHdr := ⟨1, false, 5, 2, 3, 3, none⟩
def sh : SortHdr :=
    { kind := 0, status := 0, expert := 5, srcMod := 1, srcChase := 4, dstMod := 2, dstChase := 3, genChase := 0, genCtx := 0, rank := 0, context := 4, handle := 6, epoch := 9, item := 50, gate := 0, length := 3, h := 1, w := 1, c := 1, format := 1 }
def cm : CtrlMsg := ⟨1, 1, 10, 6, 7, 0⟩
def pk (n : Nat) : Packet := ⟨{ h0 with seq := n }, .sort sh [1,2,3]⟩
def so : SortOut := ⟨{ sh with }, none, .waiting⟩
def ss (x : List SortOut) : State := (pst 5).setChase 4 { (pst 5).chase 4 with sorts := x }
def w1 : State := pst 2
def w2 : State := pst 3
def w3 : State := pst 4
def w4 : State := pst 5
def w5 : State := pst 6
def w6 : State := pst 7
def w7 : State := pst 5 fun p => {p with lastGen := some 6, rxSync := some 9, syncRun := 3}
def w8 : State := pst 6 fun p => {p with suspended := true}
def w9 : State := pst 5 fun p => {p with rxExpected := 5}
def w10 : State := pst 5 fun p => {p with rxExpected := 4}
def w11 : State := pst 5 fun p => {p with rxExpected := 6}
def w12 : State := pst 5 fun p => {p with unacked := [pk 4, pk 5, pk 6], rxExpected := 6}
def w13 : State := pst 5 fun p =>
    {p with unacked := [pk 4, pk 5, pk 6], resends := 4, ackDue := true, rxExpected := 6}
def w14 : State := (pst 5 fun p => {p with rxExpected := 5}).put .rhLanes 1 0
def w15 : State := ss [⟨{sh with handle := 1}, none, .waiting⟩, so]
def w16 : State := ss [so]
def w17 : State := ss []
def w19 : State := (pst 4 fun p =>
    { p with failedCode := some 5, target := 2, sweep := Tab.empty.set 2 ((List.range 16).map (fun i => (i, true))) }).put
  .rhLanes 1 4
def w20 : State := pst 0 fun p => {p with suspended := true}
def w21 : State := pst 5 fun p => {p with unacked := [pk 4, pk 5], replayAt := some (pst 5).clk}
def w22 : State := pst 5 fun p => {p with unacked := [pk 6], resends := 4}
def w18 : State := (pst 5).setChase 3
    {(pst 5).chase 3 with proposal := some ⟨10, 0xF, 3⟩, joined := 0xF, pendEpoch := some (10, 0x6), proposeDue := true, proposeHold := true}

/-- The hypotheses of PortsTrain can be met. -/
theorem test_hyps_PortsTrain :
    ((w1.get Fld.rhState 1) = lnkCap ∧ w1.flag Fld.rhDupId 1 = false) ∧
    ((w2.get Fld.rhState 1) = lnkWiden ∧ (w2.port 1).ready ≠ 0) ∧
    ((w3.get Fld.rhState 1) = lnkStep ∧ (w3.port 1).failedCode = none) ∧
    ((w19.get Fld.rhState 1) = lnkStep ∧ (w19.port 1).failedCode ≠ none ∧ (w19.port 1).target ≤ 5 ∧
      (4 : BitVec 4).toNat &&& w19.get .rhLanes 1 &&& sweptLanes (w19.port 1) ≠ 0) ∧
    ((w4.get Fld.rhState 1) = lnkActive) ∧
    ((w5.get Fld.rhState 1) = lnkRetrain) ∧
    ((w6.get Fld.rhState 1) = lnkDown) := by decide +kernel

/-- The hypotheses of SweepsChooseAGoodCode can be met (in PortsTrain). -/
theorem test_hyps_SweepsChooseAGoodCode :
    (w3.flag Fld.rhEqOverride (1 * 4 + 2) = false ∧ ((w3.port 1).sweep.get [] 2).length < 16 ∧ (w3.get Fld.rhState 1 =
      lnkWiden ∨ w3.get Fld.rhState 1 = lnkStep)) := by decide +kernel

/-- The hypotheses of HeartbeatsKeepTheLink can be met (in LinksKeepTheirPackets). -/
theorem test_hyps_HeartbeatsKeepTheLink :
    (linkActive w4 1 = true ∧ w4.mgmt.hold = Hold.none ∧ w4.get Fld.rhState 1 ≠ lnkDisabled ∧ ((w4.port 1).lastGen = none
      ∨ (w4.port 1).lastGen = some (7 : BitVec 8))) ∧
    (linkActive w7 1 = true ∧ ((w7.port 1).lastGen).isSome = true ∧ ((w7.port 1).lastGen).any (fun g => decide (g ≠ (7 :
      BitVec 8))) = true) ∧
    (w7.mgmt.hold = Hold.none) ∧
    ((w8.port 1).suspended = true ∧ linkActive w8 1 = false ∧ w8.get .rhState 1 ≠ lnkDisabled) ∧
    ((w20.port 1).suspended = true ∧ w20.get .rhState 1 = lnkDisabled) := by decide +kernel

/-- The hypotheses of PacketsAreDeliveredInOrder can be met (in PacketsReachTheirDestination). -/
theorem test_hyps_PacketsAreDeliveredInOrder :
    (linkRuns w9 1 = true ∧ seqDiff h0.seq.toNat (w9.port 1).rxExpected = 0 ∧ h0.ack = none ∧ (w9.port 1).accepted < 15) ∧
    (linkRuns w10 1 = true ∧ 0 < seqDiff h0.seq.toNat (w10.port 1).rxExpected ∧ (w10.port 1).nakSent = false) ∧
    (linkRuns w11 1 = true ∧ seqDiff h0.seq.toNat (w11.port 1).rxExpected < 0) := by decide +kernel

/-- The hypotheses of AcknowledgementsFreePackets can be met (in LinksKeepTheirPackets): packets held, resent four times, one
that a NAK resends from the oldest, and a replay of this cycle. -/
theorem test_hyps_AcknowledgementsFreePackets :
    (linkRuns w12 1 = true ∧ (w12.port 1).unacked = [pk 4, pk 5, pk 6] ∧ (w12.port 1).waiting = [] ∧
      (w12.port 1).through = [] ∧ replayedNow w12 1 = false ∧ (w12.port 1).resends < 4 ∧
      seqDiff (5 : BitVec 12).toNat (w12.port 1).rxExpected < 0) ∧
    (linkRuns w13 1 = true ∧ (w13.port 1).unacked.findIdx? (fun k => k.hdr.seq.toNat == (7 : BitVec 12).toNat) = none ∧
      (w13.port 1).ackDue = true ∧ (w13.port 1).unacked ≠ [] ∧ 4 ≤ (w13.port 1).resends ∧ replayedNow w13 1 = false) ∧
    (linkRuns w22 1 = true ∧ (w22.port 1).unacked = [pk 6] ∧ replayedNow w22 1 = false ∧ 4 ≤ (w22.port 1).resends ∧
      ((5 : BitVec 12).toNat + 1) % 4096 = (pk 6).hdr.seq.toNat) ∧
    (((4 : BitVec 12).toNat + 1) % 4096 ≠ (pk 4).hdr.seq.toNat ∧ ((3 : BitVec 12).toNat + 1) % 4096 = (pk 4).hdr.seq.toNat) ∧
    (linkRuns w21 1 = true ∧ (w21.port 1).unacked ≠ [] ∧ replayedNow w21 1 = true ∧
      ((w21.port 1).unacked.findIdx? (fun k => k.hdr.seq.toNat == (4 : BitVec 12).toNat)).isSome = true) := by decide +kernel

/-- What every clause of PacketsReachTheirDestination about a packet in order asks of it. -/
def arrives (s : State) (h : PktHdr) : Bool :=
  linkRuns s 1 && seqDiff h.seq.toNat (s.port 1).rxExpected == 0 && h.ack == none && decide ((s.port 1).accepted < 15)

/-- The hypotheses of PacketsReachTheirDestination can be met: a packet of each type for this module, one that goes on and one
without a hop left; one too long and one of another type. -/
theorem test_hyps_PacketsReachTheirDestination :
    (arrives w9 h0 = true ∧ h0.dest.toNat = ownModule w9 ∧ bodyBytes (.sort sh [1, 2]) ≤ 2112 ∧
      bodyBytes (.reply sh [1, 2]) ≤ 2112 ∧ ∀ ty ∈ [1, 2, 3], arrives w9 { h0 with ptype := ty } = true) ∧
    (let h : PktHdr := { h0 with dest := 4, ptype := 1 };
      arrives w14 h = true ∧ h.ptype.toNat = bodyType (.sort sh []) ∧ h.dest.toNat ≠ ownModule w14 ∧ h.hops ≠ 0 ∧
      (routePort w14 h.dest.toNat).any (fun o => linkServes w14 o) = true) ∧
    (let h : PktHdr := { h0 with dest := 1, hops := 0, ptype := 1 };
      arrives w9 h = true ∧ h.ptype.toNat = bodyType (.sort sh []) ∧ h.dest.toNat ≠ ownModule w9 ∧ h.hops = 0) ∧
    (linkRuns w9 1 = true ∧ 2112 < bodyBytes (.sort sh (List.replicate 2049 0)) ∧ bodyBytes (.ctrl cm) ≤ 2112 ∧
      ({ h0 with ptype := 1 } : PktHdr).ptype.toNat ≠ bodyType (.ctrl cm)) := by decide +kernel

/-- The hypotheses of HomeChasesHoldTheirSorts can be met (in PacketsReachTheirDestination). -/
theorem test_hyps_HomeChasesHoldTheirSorts :
    ((freeSlot (w4.chase sh.dstChase.toNat)).isSome = true ∧ (w4.get Fld.chState sh.dstChase.toNat = 3 ∧ epochServed w4
      sh.dstChase.toNat sh.epoch.toNat = true)) ∧
    ((¬(w4.get Fld.chState (({sh with epoch := 10} : SortHdr).dstChase.toNat) = 3 ∧ epochServed w4 (({sh with epoch := 10}
      : SortHdr).dstChase.toNat) ({sh with epoch := 10} : SortHdr).epoch.toNat = true) ∨ freeSlot (w4.chase
      (({sh with epoch := 10} : SortHdr).dstChase.toNat)) = none)) := by decide +kernel

/-- The hypotheses of RepliesAnswerTheirSorts can be met (in PacketsReachTheirDestination). -/
theorem test_hyps_RepliesAnswerTheirSorts :
    ((List.find? (answersSort sh) (w15.chase sh.srcChase.toNat).sorts).isSome = true ∧ sh.status = 0) ∧
    ((List.find? (answersSort ({sh with status := 3} : SortHdr)) (w16.chase (({sh with status := 3} :
      SortHdr).srcChase.toNat)).sorts).isSome = true ∧ ({sh with status := 3} : SortHdr).status ≠ 0) ∧
    (List.find? (answersSort ({sh with status := 3} : SortHdr)) (w17.chase (({sh with status := 3} :
      SortHdr).srcChase.toNat)).sorts = none) := by decide +kernel

/-- The hypotheses of EpochsAreAgreedAndApplied can be met. -/
theorem test_hyps_EpochsAreAgreedAndApplied :
    (((w18.chase 3).proposal).isSome = true ∧ ((w18.chase 3).pendEpoch).isSome = true ∧ ((w18.chase 3).pendEpoch).any (fun
      e => decide (e.1 < 65536)) = true) := by decide +kernel

/-- The inner hypotheses of PortsTrain: locks, capability words with a right and a wrong CRC, a rate. -/
theorem test_hyps_PortsTrainInputs :
    ((1 : Fn) ≠ 0 ∧ (pst 1).get .rhState 1 = lnkDetect ∧ (8 : BitVec 4).toNat &&& goodLanes (pst 1) 1 ≠ 0) ∧
    ((pst 2).get .rhState 1 = lnkCap ∧ crc16 (natLe 8 5) = (BitVec.ofNat 16 (crc16 (natLe 8 5))).toNat ∧
      crc16 (natLe 8 5) ≠ (0 : BitVec 16).toNat) ∧
    (5 ∈ stepCodes ((pst 4).port 1).maxCode ∧ (pst 4).get .rhLanes 1 ≠ 0) := by decide +kernel

end Links

namespace Field
def cl (l : List (Fld × Nat × Nat)) (d : Int := 0) : State := let s := regs l ctxd; { s with clock := ⟨d, 7⟩ }
def en (l : List (Fld × Nat × Nat)) : State := regs
    ([(.encEnable,1,1),(.encValid,1,1),(.encPos,1,100),(.encZCheck,1,1)] ++ l) ctxd
def ctx0 := ctxd.put .ctxEncoder 4 1
def ee := en [(.emuEnable,0,1),(.emuSource,0,1)]
def fr : BitVec 64 := let b := (0x0400300000000#56).toNat ; BitVec.ofNat 64 (b + crc8 (natLe 7 b) * 2^56)
/-- The configuration of a state, as the field side holds it once every record has reached it. -/
def applied (s : State) : Tab Nat := (List.range 12).foldl (fun t i => t.set i ((configImage s).getD i 0)) Tab.empty
def fs (l : List (Fld × Nat × Nat)) (f : Barrier → Barrier := id) : State :=
  let s := en ([(.fcMode,2,1),(.fcMode,3,3),(.fcMode,4,3),(.fcAssigned,2,1),(.fcStamp,2,1),(.fcContext,2,4)] ++ l)
  { s with barrier := f { s.barrier with supply := true, cfgApplied := applied s } }
/-- An encoder with a pair in fault. -/
def wf (e : Nat) (s : State) : State := { s with encs := s.encs.set e { s.enc e with faultA := true } }
def ft (l : List (Fld × Nat × Nat)) (f : Barrier → Barrier := id) := ((fs
    ([(.barUp,0,1),(.tripMask,0,8),(.tripMask,1,16)] ++ l) fun b => f {b with fieldSafe := false}).setChan 3 ⟨true, some ⟨1,100,true,3⟩, none, true, false,
    false⟩).setChan 4 ⟨true, some ⟨1,100,true,3⟩, none, true, false, false⟩
def cmd (p : Nat) (c : Nat) (w : Nat := 5) : FireCmd := ⟨p, c, w, 4, 0, 1, some 0, none⟩
def tk (q : List FireCmd) := { ft [] with fqs := Tab.empty.set 1 q }
def w1 : State := cl [(.clkRefOk,0,1),(.clkSource,0,0)] 1
def w2 : State := cl [(.clkRefOk,0,1),(.clkRamping,0,1)] 3
def w3 : State := en []
def w4 : State := wf 1 (en [])
def w5 : State := wf 2 (en [(.encEnable,2,1)])
def w6 : State := en [(.pcmpEnable,2,1),(.pcmpEncoder,2,1),(.pcmpTarget,2,90),(.pcmpPitch,2,20),(.pcmpContext,2,4)]
def w7 : State := (en [(.emuEnable,0,1),(.emuSource,0,1)]).setCtx 4
    { (en []).context 4 with oneshots := Tab.empty.set 1 (some ⟨90, 3, 5⟩) }
def w8 : State := { ee with emus := ee.emus.set 0 { ee.emu 0 with lag := 2 } }
def w9 : State := fs []
def w10 : State := (fs [(.barUp,0,1)] fun b => {b with fieldSafe := false, fieldBad := 3, upBad := 3}).setChan 3
    ⟨true, some ⟨1,100,true,3⟩, none, true, false, false⟩
def w11 : State := (fs [(.barUp,0,0)] fun b => {b with fieldSafe := false, fieldBad := 2, upGood := 63}).setChan 3
    ⟨true, some ⟨1,100,true,3⟩, none, true, false, false⟩
def w12 : State := ft []
def w13 : State := ft [(.tripLatch,0,3),(.barUp,0,0)]
def w14 : State := ft [(.fcMode,2,1)]
def w15 : State := ft [(.fcMode,2,2),(.fcOwCheck,2,1)]
def w16 : State := tk [cmd 50 8, cmd 99 16, cmd 100 4, cmd 101 1]
def w17 : State := ft [(.tripLatch,0,3),(.tripActive,0,2)]
def w18 : State := ft [(.fcMode,2,1),(.fcUndet,2,0)]
/-- An encoder whose last index was 50 counts away, of a revolution of 400. -/
def w19 : State :=
  let s := en [(.encRev,1,400),(.encTol,1,2)]
  { s with encs := s.encs.set 1 { s.enc 1 with lastIndex := some (50, true) } }
/-- A root whose port 1 carries a clock. -/
def w20 : State :=
  let s := cl [(.clkRefOk,0,1),(.clkSource,0,0),(.rhClkEn,0,1),(.rhClkPort,0,1),(.rhState,1,lnkActive)]
  s.setPort 1 { s.port 1 with clkLock := true, hbSeen := true, hbState := 2 }
def w21 : State := cl [(.clkRefOk,0,0),(.clkSource,0,0)]
/-- Two commands out of order in the stages 0 and 1, and the frame numbers the field side expects. -/
def w22 : State := tk [cmd 99 8, cmd 50 16, cmd 101 4]
def w23 : State := fs [] fun b => { b with fieldSeq := some 9, downNo := 8 }

/-- The hypotheses of ClocksFollowTheirSources can be met. -/
theorem test_hyps_ClocksFollowTheirSources :
    (sourceAllowed w1 (.ref : ClkSource) = true ∧ (.ref : ClkSource) ≠ ClkSource.holdover ∧ w1.get Fld.clkSource 0 = 0 ∧
      w1.flag Fld.clkRefOk 0 = true ∧ clkFollows w1 = false) ∧
    (sourceAllowed w20 .port = true ∧ w20.get .clkSource 0 = 0 ∧ w20.flag .clkRefOk 0 = true ∧ clkFollows w20 = true) ∧
    (sourceAllowed w21 .holdover = true ∧ w21.get .clkSource 0 ≠ 3) ∧
    (sourceAllowed w2 (.port : ClkSource) = false ∧ w2.flag Fld.clkRamping 0 = true ∧ 0 < w2.clock.steps) := by decide +kernel

/-- The hypotheses of EncodersCount can be met. -/
theorem test_hyps_EncodersCount :
    (w3.power = Power.full ∧ w3.flag Fld.encEnable 1 = true ∧ wireNow w3 1 = false ∧
      (w3.flag Fld.encZCheck 1 = true ∧ ∀ w ∈ [EncWire.a, .b, .z], (w3.enc 1).fault w = false)) ∧
    (let s := { w3 with power := Power.aux }; s.flag Fld.encEnable 1 = true ∧ wireNow s 1 = false) ∧
    wireNow w4 1 = true := by decide +kernel

/-- The hypotheses of PresetsAndIndexEdges can be met (in EncodersCount). -/
theorem test_hyps_PresetsAndIndexEdges :
    (presetFree w3 1 = false ∧ w3.power = Power.full) ∧ (presetFree w5 2 = true ∧ w5.power = Power.full) ∧
    (w19.power ≠ Power.off ∧ (w19.enc 1).lastIndex = some (50, true) ∧ w19.get .encRev 1 ≠ 0 ∧
      (sext 48 (wrapTo 48 ((w19.get .encPos 1 : Int) - 50))).natAbs + w19.get .encTol 1 < w19.get .encRev 1) := by
  decide +kernel

/-- The hypotheses of ComparesFireAndOutputsCatchUp can be met (in ComparesAndTicksAct). -/
theorem test_hyps_ComparesFireAndOutputsCatchUp :
    (periodicDue w6 2 = true ∧ compareLive w6 (w6.get Fld.pcmpEncoder 2) = true ∧ w6.get Fld.pcmpPitch 2 ≠ 0) ∧
    (periodicDue w7 2 = false ∧ ((w7.context 4).oneshots.get none 1).isSome = true ∧ compareLive w7 (w7.get Fld.ctxEncoder
      4) = true ∧ ((w7.context 4).oneshots.get none 1).any (fun a => decide (countReached (sext 48 a.target) (livePos
      w7 4) = true)) = true ∧ w7.power = Power.full ∧ w7.flag Fld.emuEnable 0 = true ∧ wireNow w7 (w7.get
      Fld.emuSource 0) = false ∧ (w7.emu 0).lag = 0) ∧
    (w8.power = Power.full ∧ w8.flag Fld.emuEnable 0 = true ∧ wireNow w8 (w8.get Fld.emuSource 0) = false ∧ 0
      < (w8.emu 0).lag) := by decide +kernel

/-- The hypotheses of FramesKeepTheBarrierLink can be met (in BarrierLinkAndTripsLatch). -/
theorem test_hyps_FramesKeepTheBarrierLink :
    (framesRun w9 = true ∧ frameCrcOk fr.toNat = true ∧ (w9.barrier.fieldSeq = none ∨ w9.barrier.fieldSeq = some
      (BitVec.ofNat 4 (bitsAt fr.toNat 40 4) - 1)) ∧ (w9.barrier.upSeq = none ∨ w9.barrier.upSeq = some (BitVec.ofNat
      3 (bitsAt fr.toNat 1 3) - 1)) ∧ w9.barrier.fieldBad < 3) ∧
    (framesRun w9 = true ∧ frameCrcOk ((3 : BitVec 64).toNat) = false) ∧
    (framesRun w23 = true ∧ frameCrcOk fr.toNat = true ∧ w23.barrier.fieldSeq = some 9 ∧
      (9 : BitVec 4) ≠ BitVec.ofNat 4 (bitsAt fr.toNat 40 4) - 1 ∧ w23.barrier.downNo.toNat % 8 = 0 ∧
      w23.barrier.changes = [] ∧ (w23.chan 3).commanded ≠ true) ∧
    (framesRun w10 = true ∧ w10.barrier.fieldSafe = false ∧ w10.barrier.fieldBad = 3 ∧ w10.flag Fld.barUp 0 = true ∧
      w10.barrier.upBad = 3) ∧
    (framesRun w11 = true ∧ w11.flag Fld.barUp 0 = false ∧ w11.barrier.upGood = 63) := by decide +kernel

/-- The hypotheses of TripsLatchUntilCleared can be met (in BarrierLinkAndTripsLatch). -/
theorem test_hyps_TripsLatchUntilCleared :
    (bitAt (fieldMask w12 0) 3 = true ∧ bitAt (fieldMask w12 0) 4 = false) ∧ (w12.power = Power.full ∧ w12.flag Fld.barUp 0 = true ∧ w12.barrier.fieldSafe = false ∧ w12.barrier.clearReq = 0 ∧
      bitAt (w12.get Fld.tripActive 0) 0 = true) ∧
    (w13.power = Power.full ∧ (1 : Fn) ≠ 0 ∧ w17.power = Power.full) ∧
    ((w13.flag Fld.barUp 0 = false ∨ w13.barrier.fieldSafe = true) ∧ (true = true ∨ true = true)) ∧
    (w17.flag Fld.barUp 0 = true ∧ w17.barrier.fieldSafe = false ∧ w17.barrier.clearReq = 0 ∧ bitAt (w17.get
      Fld.tripActive 0) 0 = false) := by decide +kernel

/-- The hypotheses of FieldChannelsReport can be met. -/
theorem test_hyps_FieldChannelsReport :
    (isInput w14 2 = true ∧ fieldInput w14 2 = true ∧ framesRun w14 = true ∧ w14.barrier.supply = true ∧ w14.flag Fld.barUp 0 = true ∧ w14.flag
      Fld.fcUndet 2 = true) ∧
    (fieldInput w15 2 = true ∧ bitAt (fieldCfg w15 2) 8 = true) ∧
    (fieldOutput w12 3 = true ∧ (w12.chan 3).driven = true) ∧
    (isInput w18 2 = true ∧ fieldInput w18 2 = true ∧ framesRun w18 = true ∧ w18.barrier.supply = true ∧ w18.flag Fld.barUp 0 = true ∧ w18.flag
      Fld.fcUndet 2 = false ∧ w18.flag Fld.fcStamp 2 = true ∧ w18.flag Fld.fcAssigned 2 = true ∧ w18.get Fld.fcLevel 2
      ≠ b2n true) := by decide +kernel

/-- The hypotheses of TicksTakeReachedCommands can be met (in ComparesAndTicksAct): commands reached and not, a channel none of
them names, two neighbours out of order. -/
theorem test_hyps_TicksTakeReachedCommands :
    (w16.power = Power.full ∧ w16.mgmt.hold = Hold.none ∧ (w16.fq 1).map (entryReached w16 1) = [true, true, true, false] ∧
      (∀ e < 4, ∀ cmd ∈ w16.fq e, entryReached w16 e cmd = true → bitAt cmd.channels.toNat 0 = false) ∧ (w16.chan 0).pulse = none) ∧
    ((w22.fq 1).map (fun c => c.position) = [99, 50, 101] ∧
      countAhead (sext 48 50) (sext 48 99) < 0 ∧ ¬countAhead (sext 48 101) (sext 48 99) < 0) := by decide +kernel

end Field

namespace HostSide
def r0 : Req := ⟨0, 5, none⟩
def r5 : Req := ⟨5, 5, some 17⟩
def f0 := regs [(.helloDone,5,1)] ctxd
def dm (l : List (Fld × Nat × Nat)) (x : Servo := Servo.reset) (b : State := f0) : State := (regs
    ([(.domEnable,0,1),(.domEnable,1,1),(.domState,0,1),(.domState,1,2),(.timeNow,0,1000000),(.timeValid,0,1),(.domProfile,0,1),(.domPort,0,1)]
    ++ l) b).setServo 0 x
def le (t : Nat) : Launch := ⟨18, true, 7, t, [1,2,3]⟩
def lq (q : List Launch) (l : List (Fld × Nat × Nat) := []) : State := let s := dm ([(.lqPcsReady,1,1),(.ringBase,69,0x1000),(.ringLog2,69,4),(.ringEnable,69,1)] ++ l); s.setEport 1 ⟨q, false, []⟩
def cr (l : List (Fld × Nat × Nat)) : State :=
    { regs ([(.ringBase,20,0x1000),(.ringLog2,20,4),(.ringEnable,20,1),(.ringCons,20,3),(.winStatusAddr,4,0x2000),(.ringBase,21,0x3000),(.ringLog2,21,4),(.ringEnable,21,1)] ++ l) f0 with host := memStore [] 0x1010 [1,2,3,4,5,6,7,8] }
def pg : Page := ⟨3, 2, false, 10, 0, [1,2,3,4,5,6,7,8]⟩
def cp (c : Crop) (l : List (Fld × Nat × Nat)) : State := let s := regs ([(.ringBase,22,0x10000),(.ringLog2,22,4),(.ringEnable,22,1),(.ringPageLog2,22,12),(.winCropFlush,4,5)] ++ l) f0; s.setCtx 4 { s.context 4 with crop := c }
def mb (l : List Msg) (b : State := f0) : State := b.setMbox 5 ⟨l, [⟨0,0,0,[]⟩]⟩
def ms : Msg := ⟨[0x50000, 2, 3], 3, false, 5, 0, false, some 17⟩
def qn (l : List (Fld × Nat × Nat)) : State := regs ([(.quoinGrant,9,0x3F)] ++ l) f0
def w1 : State := dm [(.timeAuto,0,1)]
def w2 : State := dm [(.timeAuto,0,1)] ⟨15, true, 60*2000000000⟩
def w3 : State := dm [(.timeAuto,0,1)] ⟨15, true, 60*2000000000⟩ on
def w4 : State := lq [le 1000001]
def w5 : State := lq [le 1000000, le 5]
def w6 : State := lq [le 900000] [(.lqLatePolicy,1,1)]
def w7 : State := lq [le 900000, le 800000, le 3000000]
def w8 : State := cr []
def w9 : State := cr [(.ringProd,20,3)]
def w10 : State := (cr [(.ringProd,20,3)]).setRing 21
    { (cr []).ring 21 with due := true, fired := some 3, staged := [[1,2]] }
def w11 : State := (cr [(.ringProd,20,3)])
def w12 : State := cp ⟨none, some pg, 4, 5, 0, 0, none⟩ []
def w13 : State := cp ⟨some pg, some pg, 4, 5, 0, 0, some 2⟩ [(.ringProd,22,16)]
def w14 : State := cp ⟨some pg, none, 4, 5, 0, 0, some 2⟩ [(.ringProd,22,16)]
/-- Late enough for every time of a page to have run out. -/
def late (s : State) : State := { s with clk := 1000000000 }
/-- The status block has just been written. -/
def w21 : State := go (.statusBlockWrite 5) w8
def w15 : State := mb [ms] (f0.put .helloDone 5 0)
def w16 : State := mb [ms]
def w17 : State := mb (List.replicate 16 ms)
def w18 : State := qn []
def w19 : State := qn [(.quoinBroken,9,1),(.quoinHeld,9,1),(.quoinHolder,9,5)]
def w20 : State := qn [(.quoinBroken,9,1),(.quoinHeld,9,1),(.quoinHolder,9,4)]

/-- The hypotheses of DeviceTimeFollowsItsDomain can be met (in DeviceTimeAndLaunches). -/
theorem test_hyps_DeviceTimeFollowsItsDomain :
    (w1.power ≠ Power.off ∧ w1.flag Fld.domEnable 0 = true ∧ w1.get Fld.domState 0 ≠ domDisabled ∧ (∃ k < 16, w1.flag
      Fld.ctxBound k = true) ∧ (w1.flag Fld.domEnable 0 = true ∧ w1.get Fld.domPort 0 = 1 ∧ ((w1.get Fld.domProfile 0)
      = 1 ∨ (w1.get Fld.domProfile 0) = 2))) ∧
    ((3 : Fn) ≠ 0 ∧ (¬(w2.flag Fld.domEnable 0 = true ∧ w2.get Fld.domPort 0 = 0 ∧ ((w2.get Fld.domProfile 0) = 1 ∨
      (w2.get Fld.domProfile 0) = 2)))) ∧
    (w1.flag .timeAuto 0 = true ∧ w1.get .timeSel 0 = 0 ∧ w1.get .domState 1 = domLocked ∧ w1.flag .timeValid 0 = true) ∧
    (w1.power = .full ∧ w4.power = .full ∧ (w4.eport 1).queue ≠ [] ∧ w3.power = .full) ∧
    ((∀ k < 16, w3.flag Fld.ctxBound k = false) ∧ (∀ e < 2, (w3.eport e).queue = [])) := by decide +kernel

/-- The hypotheses of LaunchesGoOutOnTime can be met (in DeviceTimeAndLaunches). -/
theorem test_hyps_LaunchesGoOutOnTime :
    (w4.power = .full ∧ ({ le 5 with tsReq := true } : Launch).tsReq = true) ∧
    (bitAt (BitVec.toNat (1 : Word)) 0 = true ∧ ((w4.eport 1).queue).head?.isSome = true ∧ memoriesCanonical w4 ∧
      (w4.eport 1).sending = false ∧ ((w4.eport 1).queue).head?.any (fun e => decide (e.time ≠ 0)) = true ∧ ((w4.eport
      1).queue).head?.any (fun e => decide (sinceLaunch w4 e < 0)) = true) ∧
    (((w5.eport 1).queue).head?.isSome = true ∧ memoriesCanonical w5 ∧ (w5.eport 1).sending = false ∧ (((w5.eport
      1).queue).head?.any (fun e => decide (e.time = 0 ∨ 0 ≤ sinceLaunch w5 e ∧ sinceLaunch w5 e ≤ 8)) = true) ∧
      (w5.flag Fld.lqPcsReady 1) = true) ∧
    (((w6.eport 1).queue).head?.isSome = true ∧ memoriesCanonical w6 ∧ (w6.eport 1).sending = false ∧ ((w6.eport
      1).queue).head?.any (fun e => decide (e.time ≠ 0)) = true ∧ ((w6.eport 1).queue).head?.any (fun e => decide (8 <
      sinceLaunch w6 e)) = true ∧ w6.flag Fld.lqLatePolicy 1 = true ∧ (w6.flag Fld.lqPcsReady 1) = true) ∧
    (((w7.eport 1).queue).head?.isSome = true ∧ memoriesCanonical w7 ∧ (w7.eport 1).sending = false ∧ ((w7.eport
      1).queue).head?.any (fun e => decide (e.time ≠ 0)) = true ∧ ((w7.eport 1).queue).head?.any (fun e => decide (8 <
      sinceLaunch w7 e)) = true ∧ w7.flag Fld.lqLatePolicy 1 = false) := by decide +kernel

/-- The hypotheses of RingsKeepTheirIndices can be met (in RingsAndPagesKeepTheirIndices). -/
theorem test_hyps_RingsKeepTheirIndices :
    ((hostRing 5 0).isSome = true ∧ ringRuns w8 (ringOf (5) 0) = true ∧ (w8.get Fld.ringProd (ringOf (5) 0)) ≠ w8.get
      Fld.ringCons (ringOf (5) 0) ∧ (w8.mbox 5).msgs.length < 16 ∧ memoriesCanonical w8 ∧ (statusAddr w8 5) ≠ 0 ∧ statusDue w8 5 = true ∧
      w8.power = Power.full ∧ (hostRing 5 0).any (fun r => decide ((w8.ring r).due = false)) = true) ∧
    ((ringRuns w9 (ringOf (5) 0) = false ∨ (w9.get Fld.ringProd (ringOf (5) 0)) = w9.get Fld.ringCons (ringOf (5) 0) ∨ 16
      ≤ (w9.mbox 5).msgs.length)) ∧
    ((hostRing 5 1).isSome = true ∧ (hostRing 5 1).any (fun r => decide ((ringVector r).isSome = true)) = true ∧ (hostRing
      5 1).any (fun r => decide ((w10.ring r).due = true)) = true) ∧
    (statusDue w21 5 = false ∧ hostRing 0 2 = none) := by decide +kernel

/-- The hypotheses of CropPagesAreDeliveredOrAbandoned can be met (in RingsAndPagesKeepTheirIndices). -/
theorem test_hyps_CropPagesAreDeliveredOrAbandoned :
    ((((w12.context 4).crop).held).isSome = true ∧ memoriesCanonical w12 ∧ ringRuns w12 (cropRing 4) = true ∧ ringFree w12
      (cropRing 4) = true) ∧
    ((((w13.context 4).crop).held = none ∨ ringRuns w13 (cropRing 4) = false ∨ ringFree w13 (cropRing 4) = false)) ∧
    ((((w14.context 4).crop).filling).isSome = true ∧ ((w14.context 4).crop).held = none ∧ w14.get Fld.winCropFlush 4 ≠ 0 ∧
      ∀ p ∈ ((late w14).context 4).crop.filling, p.since + Config.k4PerUs * w14.get .winCropFlush 4 ≤ (late w14).clk) ∧
    (∀ p ∈ (w12.context 4).crop.held, p.since + Config.k4PerUs * w12.get .winPageHold 4 ≤ (late w12).clk ∧
      w12.clk < p.since + Config.k4PerUs * w12.get .winPageHold 4) := by decide +kernel

/-- The hypotheses of MailboxesAreQueues can be met (in MailboxesAndQuoins). -/
theorem test_hyps_MailboxesAreQueues :
    (served w15 r5 true true ∧ w15.flag Fld.helloDone (senderFn w15 r5.sender.toNat) = false ∧ w15.get Fld.fwProto 0 %
      65536 ≤ (min (w15.get Fld.fwProto 0 / 65536) (0x10 : BitVec 16).toNat) ∧ (1 : BitVec 16).toNat ≤ (min (w15.get
      Fld.fwProto 0 / 65536) (0x10 : BitVec 16).toNat) ∧ mayPost w15 5 5 = true ∧ 0 < (3 : BitVec 7).toNat ∧ (3 :
      BitVec 7).toNat ≤ 64 ∧ (w15.mbox 5).msgs.length < 16 ∧ ((5 : Fn) = 0 ∨ mayPost w15 5 5 = true)) ∧
    (served w15 r5 true true ∧ w15.flag Fld.helloDone (senderFn w15 r5.sender.toNat) = false ∧ ((min (w15.get Fld.fwProto
      0 / 65536) (0x0 : BitVec 16).toNat) < w15.get Fld.fwProto 0 % 65536 ∨ (min (w15.get Fld.fwProto 0 / 65536) (0x0
      : BitVec 16).toNat) < (1 : BitVec 16).toNat)) ∧
    (w15.power = .full ∧ w17.power = .full ∧ served w16 r5 true true ∧ w16.flag Fld.helloDone (senderFn w16 r5.sender.toNat) = true ∧ definedCode (0x77 : BitVec
      8).toNat = false ∧ served w16 r5 false false) ∧
    (mayPost w17 5 5 = true ∧ 16 ≤ (w17.mbox 5).msgs.length) ∧
    (mayPost w17 3 5 = false ∧ (3 : Fn) ≠ 0) := by decide +kernel

/-- The hypotheses of QuoinsHaveOneHolder can be met (in MailboxesAndQuoins). -/
theorem test_hyps_QuoinsHaveOneHolder :
    (w18.power = .full ∧ w19.power = .full ∧ w20.power = .full) ∧
    ((quoinGranted w18 9 5) = true ∧ (w18.flag Fld.quoinHeld 9) = false ∧ (quoinHeldBy w18 9 5) = false) ∧
    ((quoinGranted w19 9 5) = true ∧ (w19.flag Fld.quoinHeld 9) = true ∧ (quoinHeldBy w19 9 5) = true ∧ w19.flag
      Fld.quoinBroken 9 = true) ∧
    ((quoinGranted w20 9 7) = false) := by decide +kernel

/-- The hypotheses on MBX_TAKE of MailboxesAreQueues: firmware takes from mailbox 5, the granted function from 17. -/
theorem test_hyps_MbxTake :
    ((mb [ms]).mbox 5).msgs = ms :: [] ∧ mayTake (mb [ms]) ((none : Option Fn).map (fun f => f.val)) 5 = true ∧
    (mb [ms]).power = .full ∧ mayTake (regs [(.mbxGrantEn, 0, 1), (.mbxGrantFn, 0, 5)] f0) ((some (5 : Fn)).map (fun f => f.val)) 17 = true := by
  decide +kernel

end HostSide

namespace Management
def r0 : Req := ⟨0, 5, none⟩
def r5 : Req := ⟨5, 5, none⟩
def f0 := regs [(.helloDone,5,1)] ctxd
def mg (s : State) (f : Mgmt → Mgmt) : State := { s with mgmt := f s.mgmt }
def smp (a : Nat) : List (BitVec 16) := (BitVec.ofNat 16 a) :: List.replicate 13 (BitVec.ofNat 16 300)
def lgd := logEvent f0 0x0020 5 1 [1,2,3,4]
def ut (v : Nat) := v
def lc (n : Nat) (l : List (Fld × Nat × Nat)) : State := let s := regs ([(.secLifecycle,0,n),(.chState,1,2)] ++ l) f0; { s with fuses := { s.fuses with lifecycle := n } }
def dbg := regs [(.secSession,0,1),(.secReach,0,7)] itd
def sf : StepFindings := noFindings
def bu (n : Nat) (l : List (Fld × Nat × Nat)) : State := regs ([(.modService,0,0),(.buStep,0,n),(.clkRefOk,0,1)] ++ l)
    f0
def rq (f : Bool) := regs
    [(.rhState,1,5),(.rhLanes,1,15),(.rhRate,1,3),(.cxpLaneState,5,1),(.cxpLaneRate,5,2),(.modService,0,b2n
    f),(.buLpddrBg,0,1)] f0
def w1 : State := mg f0 fun m => {m with levelSeen := 2}
def w2 : State := mg lgd fun m => {m with alerts := 5, arm := some (0,0)}
def w3 : State := mg lgd fun m => {m with hold := .warm}
def w4 : State := f0.put .secFilled 0 8
def w5 : State := f0.put .secLock 0 1
def w6 : State := lc 1 []
def w7 : State := f0.put .secSession 0 1
def w8 : State := (lc 3 [(.secReach,0,7)]).put .secSession 0 1
def w9 : State := f0.put .secSession 0 0
def w10 : State := { f0 with sram := memStore [] 5 [1,2,3], galley := memStore [] 5 [1] }
def w11 : State := f0.setChan 3 ⟨true, some ⟨1,100,true,3⟩, none, true, false, false⟩
def w12 : State := mg f0 fun m => {m with hold := .pin}
def w13 : State := mg {f0 with power := .aux} fun m => {m with hold := .pin}
def w14 : State := mg f0 fun m => {m with hold := .warm, resetReqs := [(32, r0)]}
def w15 : State := mg f0 fun m => {m with hold := .warm, tray := true}
def w16 : State := mg (f0.setCtx 4 {f0.context 4 with resetting := true}) fun m =>
    {m with hold := .fabric, resetReqs := [(32, r0)]}
def w17 : State := f0.setCtx 4 {f0.context 4 with resetting := true}
def w18 : State := f0.setChase 1 {f0.chase 1 with draining := true}
def w19 : State := f0.setChase 1 {f0.chase 1 with draining := true, forme := none}
def w20 : State := f0.setChase 1 {f0.chase 1 with reloading := true}
def w21 : State := bu 1 []
def w22 : State := bu 2 [(.clkRefOk,0,0)]
def w23 : State := bu 2 []
def w24 : State := bu 7 []
def w25 : State := bu 9 []
def w26 : State := rq true
def w27 : State := (rq false).put .fpLpddr 0 1

/-- The hypotheses of SensorsAreSampled can be met (in SensorsAndBoardPortAnswer). -/
theorem test_hyps_SensorsAreSampled :
    (serving f0 = true ∧ (smp 300).length = 14 ∧ firmwareRuns f0 = true ∧ f0.mgmt.hold = Hold.none ∧ (∀ n ∈ [0, 2, 3],
      critAt n ((fun n => ((smp 300).getD n 0).toNat) n) = false)) ∧
    ((smp 2000).length = 14 ∧ firmwareRuns w1 = true ∧ w1.mgmt.hold = Hold.none ∧ w1.power = Power.full ∧ rungCovered w1 .whole rungWarm = false ∧ mayClimb w1
      LadderUnit.whole rungWarm = true ∧ critAt 0 ((fun n => ((smp 2000).getD n 0).toNat) 0) = true) := by decide +kernel

/-- The hypotheses of BoardPortAnswers can be met (in SensorsAndBoardPortAnswer). -/
theorem test_hyps_BoardPortAnswers :
    (f0.power ≠ Power.off ∧ f0.mgmt.hold ≠ Hold.pin ∧ f0.mgmt.alerts = 0 ∧ firmwareRuns f0 = true ∧ (3 : BitVec 8).toNat <
      14 ∧ (0 : BitVec 8).toNat ≤ 1 ∧ (0 : BitVec 8) = 0 ∧ armedFor f0 0 = false) ∧
    (w2.power ≠ Power.off ∧ w2.mgmt.alerts ≠ 0 ∧ firmwareRuns w2 = true ∧ (logAt w2 (0 : BitVec 16).toNat).isSome = true ∧
      (0 : BitVec 16).toNat < 4096 ∧ (0 : BitVec 8) = 0 ∧ armedFor w2 0 = true ∧ w2.power = Power.full ∧ coveredBy w2
      ResetTarget.warm = false) ∧
    (firmwareRuns w3 = false) := by decide +kernel

/-- The hypotheses of SecurityCommandsComplete can be met (in SecurityAndDebugComplete). -/
theorem test_hyps_SecurityCommandsComplete :
    (served f0 r0 false false ∧ senderFn (takeRequest f0 r0) r0.sender.toNat = 0) ∧
    (served f0 r5 false false ∧ senderFn (takeRequest f0 r5) r5.sender.toNat ≠ 0) ∧
    (served w4 r0 false false ∧ senderFn (takeRequest w4 r0) r0.sender.toNat = 0 ∧ ((3 : BitVec 8).toNat) < 8 ∧ bitAt
      ((takeRequest w4 r0).get Fld.secFilled 0) ((3 : BitVec 8).toNat) = true) ∧
    (served w5 r0 false false ∧ senderFn (takeRequest w5 r0) r0.sender.toNat = 0 ∧ (takeRequest w5 r0).flag Fld.secLock 0
      = true) ∧
    (served w6 r0 false false ∧ senderFn (takeRequest w6 r0) r0.sender.toNat = 0 ∧ ((3 : BitVec 8).toNat) < 8 ∧
      (takeRequest w6 r0).flag Fld.secAdvPending 0 = false ∧ bitAt ((takeRequest w6 r0).get Fld.secFilled 0) ((3 :
      BitVec 8).toNat) = false ∧ (needsAuth (takeRequest w6 r0) = false ∨ authorised (takeRequest w6 r0) (if ((3 :
      BitVec 8).toNat) = 1 then 0 else 1) (natLe 1 64 ++ natLe 1 ((3 : BitVec 8).toNat) ++ ([1,2] : List Byte)) ([3] :
      List Byte) = true) ∧ (takeRequest w6 r0).flag Fld.secLock 0 = false ∧ (needsAuth (takeRequest w6 r0) = false ∨
      authorised (takeRequest w6 r0) 1 (natLe 1 66 ++ natLe 1 (b2n true + 2 * b2n true)) ([3] : List Byte) = true) ∧
      (takeRequest w6 r0).power = Power.full ∧ BitVec.toNat (0 : Word) = (takeRequest w6 r0).get Fld.secUid 0 ∧
      BitVec.toNat (2 : Word) = (lifecycle (takeRequest w6 r0)) + 1 ∧ BitVec.toNat (2 : Word) ≠ lcOpen ∧ BitVec.toNat
      (2 : Word) ≤ lcSealed ∧ (∀ c < 16, (takeRequest w6 r0).get Fld.chState c ≠ chRunning) ∧ (BitVec.toNat (2 : Word)
      ≠ lcSealed ∨ bitAt ((takeRequest w6 r0).get Fld.secFilled 0) 1 = false) ∧ BitVec.toNat (1 : Word) < 5 ∧
      BitVec.toNat (1 : Word) + BitVec.toNat (2 : Word) ≤ 5 ∧ (lifecycle (takeRequest w6 r0)) < lcProvisioned) := by decide +kernel

/-- The hypotheses of DebugStaysWithinItsReach can be met (in SecurityAndDebugComplete). -/
theorem test_hyps_DebugStaysWithinItsReach :
    (served f0 r0 false false ∧ senderFn (takeRequest f0 r0) r0.sender.toNat = 0 ∧ (takeRequest f0 r0).flag
      Fld.secAdvPending 0 = false ∧ lifecycle (takeRequest f0 r0) = lcProvisioned ∧ tokenGood (takeRequest f0 r0)
      ([1,2,3] : List Byte) = false) ∧
    (served w7 r0 false false ∧ senderFn (takeRequest w7 r0) r0.sender.toNat = 0 ∧ (takeRequest w7 r0).flag Fld.secSession
      0 = true) ∧
    (served w8 r0 false false ∧ senderFn (takeRequest w8 r0) r0.sender.toNat = 0 ∧ (takeRequest w8 r0).flag
      Fld.secAdvPending 0 = false ∧ lcProvisioned < lifecycle (takeRequest w8 r0)) ∧
    (w9.power ≠ Power.off) ∧
    ((w9.flag Fld.secSession 0 = false ∨ bitAt (w9.get Fld.secReach 0) 1 = false)) ∧
    (dbg.flag Fld.secSession 0 = true ∧ bitAt (dbg.get Fld.secReach 0) 1 = true ∧ (sequencer dbg q0).run = SeqRun.running) := by decide +kernel

/-- The hypotheses of ResetsTakeHold can be met. -/
theorem test_hyps_ResetsTakeHold :
    (served f0 r5 true false ∧ mayReset (takeRequest f0 r5) r5 (.warm : ResetTarget) = false ∧ ((fun x => served f0 r5
      true false ∧ mayReset (takeRequest f0 r5) r5 x = true ∧ coveredBy (takeRequest f0 r5) x = false)
      (ResetTarget.context (4 : Ctx)))) ∧
    (((fun x => served w10 r0 true false ∧ mayReset (takeRequest w10 r0) r0 x = true ∧ coveredBy (takeRequest w10 r0) x =
      false) ResetTarget.warm) ∧ (takeRequest w10 r0).power = Power.full ∧ ((fun x => served w10 r0 true false ∧
      mayReset (takeRequest w10 r0) r0 x = true ∧ coveredBy (takeRequest w10 r0) x = false) ResetTarget.fabric) ∧
      ((fun x => served w10 r0 true false ∧ mayReset (takeRequest w10 r0) r0 x = true ∧ coveredBy (takeRequest w10 r0)
      x = false) (ResetTarget.chase (1 : ChaseNo))) ∧ (takeRequest w10 r0).flag Fld.chPresent 1 = true) := by decide +kernel

/-- The hypotheses of ResetsOfTheModuleEnd can be met (in ResetsEndInService). -/
theorem test_hyps_ResetsOfTheModuleEnd :
    (w11.power = Power.full ∧ coveredBy f0 (.context 4) = false ∧ coveredBy f0 .fabric = false ∧ f0.power = .full) ∧
    ((mg w12 fun m => { m with tray := true }).mgmt.hold = Hold.pin ∧
      (mg w12 fun m => { m with tray := true }).mgmt.tray = true) ∧
    (w12.mgmt.hold = Hold.pin ∧ w12.mgmt.tray = false ∧ w12.power = Power.full) ∧
    (w13.mgmt.hold = Hold.pin ∧ w13.mgmt.tray = false ∧ w13.power = Power.aux) ∧
    (w14.mgmt.hold = Hold.warm ∧ w14.mgmt.tray = false ∧ w14.power = Power.full) ∧
    (w15.mgmt.hold = Hold.warm ∧ w15.mgmt.tray = true) ∧
    (w16.mgmt.hold = Hold.fabric ∧ w16.get Fld.modService 0 ≠ svcFailed) := by decide +kernel

/-- The hypotheses of BringUpGoesOnStepByStep can be met. -/
theorem test_hyps_BringUpGoesOnStepByStep :
    ((w21.power = Power.full ∧ w21.mgmt.hold = Hold.none ∧ w21.get Fld.modService 0 = svcBringup) ∧ ((w21.get Fld.buStep
      0) = 1 ∨ (w21.get Fld.buStep 0) = 3 ∨ (w21.get Fld.buStep 0) = 4 ∨ (w21.get Fld.buStep 0) = 6 ∨ (w21.get
      Fld.buStep 0) = 2 ∧ rootLocked w21 = true ∧ ↑sf.failure = 0)) ∧
    ((w22.power = Power.full ∧ w22.mgmt.hold = Hold.none ∧ w22.get Fld.modService 0 = svcBringup) ∧ (w22.get Fld.buStep 0)
      = 2 ∧ ↑sf.failure = 0 ∧ rootLocked w22 = false) ∧
    ((w23.power = Power.full ∧ w23.mgmt.hold = Hold.none ∧ w23.get Fld.modService 0 = svcBringup) ∧ (w23.get Fld.buStep 0)
      = 2 ∧ ↑({ sf with failure := 3 } : StepFindings).failure ≠ 0) ∧
    ((w24.power = Power.full ∧ w24.mgmt.hold = Hold.none ∧ w24.get Fld.modService 0 = svcBringup) ∧ (w24.get Fld.buStep 0)
      = 7) ∧
    ((w25.power = Power.full ∧ w25.mgmt.hold = Hold.none ∧ w25.get Fld.modService 0 = svcBringup) ∧ (w25.get Fld.buStep 0)
      = 9) ∧
    (rhQualifying w26 5 = true ∧ w26.get Fld.cxpLaneState 5 = lnDiscovery) ∧
    (w27.flag Fld.buLpddrBg 0 = true ∧ 0x40 < (lpddrBytes w27)) := by decide +kernel

/-- A thermal hold of a sensor that cooled at cycle 7, at a later cycle. -/
def cooling (clk : Nat) : State := mg { f0 with clk := clk } fun m => { m with hold := .thermal 0, coolSince := some 7 }

/-- The hypotheses on a thermal hold's end in SensorsAreSampled. -/
theorem test_hyps_ThermalHold :
    ((cooling 4000000007).mgmt.hold = .thermal 0 ∧ (cooling 4000000007).mgmt.coolSince = some 7 ∧
      7 + 10000 * Config.k4PerMs ≤ (cooling 4000000007).clk ∧ f0.power = .full ∧ f0.mgmt.tray = false) ∧
    (cooling 4000000006).clk < 7 + 10000 * Config.k4PerMs ∧
    (mg f0 fun m => { m with hold := .thermal 3, coolSince := none }).mgmt.hold = .thermal 3 := by decide +kernel

/-- A debug token of 160 bytes for nonce 5, and a state that has sent that nonce and holds a key in slot 7. -/
def token : List Byte :=
  natLe 4 0x4B4F5444 ++ natLe 2 1 ++ natLe 2 7 ++ uidBytes f0 ++ natLe 32 5 ++ natLe 2 7 ++ natLe 6 0 ++
    List.replicate 96 0

/-- The state that has sent the nonce. -/
def challenged : State :=
  takeRequest (mg { f0.put .secFilled 0 0x81 with fuses := { f0.fuses with keys := f0.fuses.keys.set 7 [1], filled := 0x81 } }
    fun m => { m with nonce := some 5 }) r0

/-- The hypotheses on a good token in DebugStaysWithinItsReach can be met, given a signature that verifies. -/
theorem test_hyps_DebugToken (h : Config.ecdsaVerify (keyBytes challenged 7) (token.take 64) (token.drop 64) = true) :
    lifecycle challenged = lcProvisioned ∧ tokenGood challenged token = true := by
  refine ⟨by decide +kernel, ?_⟩
  simp only [tokenGood, h, Bool.and_true]
  decide +kernel

/-- A chase whose forme carries a digest and whose reload is under way. -/
def reloading (d : BitVec 384) : State :=
  f0.setChase 1 { f0.chase 1 with reloading := true, forme := some { fm with digest := d } }

/-- The digest of the staged image, open to any function (log entry 5). -/
def staged : BitVec 384 := Config.sha384 (memBytes f0.lpddr fm.addr fm.size)

/-- The hypotheses of TeardownsEndInService can be met. -/
theorem test_hyps_TeardownsEndInService :
    ((f0.setCtx 4 { f0.context 4 with resetting := true }).context 4).resetting = true ∧ f0.mgmt.hold = .none ∧
    ((f0.setChase 1 { f0.chase 1 with draining := true }).chase 1).forme = some fm ∧
    placementPresent f0 1 = true ∧ (3 : BitVec 8).toNat ≠ f0.get .genCtx 4 ∧
    ((reloading staged).chase 1).forme = some { fm with digest := staged } ∧
    ((reloading staged).chase 1).restart = false ∧ staged ≠ staged + 1 := by
  refine ⟨by decide +kernel, by decide +kernel, by decide +kernel, by decide +kernel, by decide +kernel, rfl, rfl,
    fun h => ?_⟩
  exact absurd (BitVec.add_right_eq_self.mp h.symm) (by decide)

end Management

end Sys2Proof.Tests
end

/-! The register accesses of a function (R3 to R6): what an access does by the fields its register holds, and what
each field does by its Type. -/

namespace Sys2Proof.Proofs

open Sys2Proof.Machine

/-! ### The commands that access registers -/

theorem exec_registerWrite (fn : Fn) (off : BitVec 24) (val : Word) (s : State) :
    exec (.registerWrite fn off val) s = .next (busWrite s fn.val off.toNat val.toNat) := rfl

theorem exec_pairHiWrite (fn : Fn) (off : BitVec 24) (val : Word) (s : State) :
    exec (.pairHiWrite fn off val) s = .next (busWrite s fn.val off.toNat val.toNat) := rfl

theorem exec_pairLoRead (fn : Fn) (off : BitVec 24) (s : State) :
    exec (.pairLoRead fn off) s = .next (busRead s fn.val off.toNat) := rfl

theorem exec_rcRead (fn : Fn) (off : BitVec 24) (s : State) :
    exec (.rcRead fn off) s = .next (busRead s fn.val off.toNat) := rfl

/-- In Full, an access that is not of four aligned bytes is a bad access (R3). -/
theorem exec_misalignedRegisterAccess {s : State} (hfull : s.power = .full) (fn : Fn) {off : BitVec 24} {bytes : Nat}
    (hbad : off.toNat % 4 ≠ 0 ∨ bytes ≠ 4) (isWrite : Bool) :
    exec (.misalignedRegisterAccess fn off bytes isWrite) s = .next (badAccess s fn.val off.toNat isWrite) :=
  if_pos ⟨hfull, hbad⟩

/-! ### Reads and writes of a register by the fields it holds -/

/-- A read of a register outside the event-log window and the quoins: it answers the fields' parts and leaves what each
field's read leaves. -/
theorem readAddr_fields (s : State) {fn a : Nat} (hlog : inLogWindow a = false) (hquoin : quoinAt fn a = none) :
    readAddr s fn a = (((fieldsAt a).map (fieldShown s)).sum, (fieldsAt a).foldl fieldRead s) := by
  simp [readAddr, hlog, hquoin]

/-- PF0's offsets are the register addresses themselves (R29). -/
theorem busRead_pf0 {s : State} (hfull : s.power = .full) {a : Nat} (halign : a % 4 = 0)
    (hlog : inLogWindow a = false) (hquoin : quoinAt 0 a = none) :
    busRead s 0 a =
      { (fieldsAt a).foldl fieldRead s with rd := BitVec.ofNat 32 ((fieldsAt a).map (fieldShown s)).sum } := by
  simp [busRead, hfull, halign, busAddr, readAddr_fields s hlog hquoin]

/-- A write by PF0 that no gate forbids stores the writable fields of the register and then sets off what each of them
does; where the register holds none, nothing changes (R5). -/
theorem busWrite_pf0 {s : State} (hfull : s.power = .full) {a : Nat} (halign : a % 4 = 0) (val : Nat)
    {es : List (Fld × Nat × Nat)} (hes : (fieldsAt a).filter (fun e => writable e.1) = es)
    (hgate : es.any (writeGated s val) = false) :
    busWrite s 0 a val = es.foldl (fun t e => actField 0 val s t e) (es.foldl (storeField val) s) := by
  cases es with
  | nil => simp [busWrite, hfull, halign, busAddr, hes]
  | cons e es => simp [busWrite, hfull, halign, busAddr, hes, hgate]

/-! ### One field by its Type (R4, R6) -/

section
variable {f : Fld} (s : State) (i : Nat)

/-- The low half of an unsigned pair shows the low 32 bits of the pair. -/
theorem fieldShown_pairLo (htype : f.info.type ≠ .wo) (hpair : f.info.pair = true) (hsign : f.info.signed = false) :
    fieldShown s (f, i, 0) = s.field f i % 2 ^ 32 := by
  simp [fieldShown, htype, hpair, hsign]

/-- The high half of a pair shows what the last read of the low half latched. -/
theorem fieldShown_pairHi (htype : f.info.type ≠ .wo) (hpair : f.info.pair = true) :
    fieldShown s (f, i, 1) = s.latched f i := by
  simp [fieldShown, htype, hpair]

/-- A read of the low half of an unsigned pair latches the high half. -/
theorem fieldRead_pairLo (htype : f.info.type ≠ .wo) (hpair : f.info.pair = true) (hsign : f.info.signed = false) :
    fieldRead s (f, i, 0) = s.latch f i (s.field f i / 2 ^ 32) := by
  simp [fieldRead, htype, hpair, hsign]

/-- An RC field is cleared by its read. -/
theorem fieldRead_rc (htype : f.info.type = .rc) (hpair : f.info.pair = false) (hpeak : f ≠ .galPeak) (h : Nat) :
    fieldRead s (f, i, h) = s.put f i 0 := by
  simp [fieldRead, htype, hpair, hpeak]

/-- An RO field is left as it was by a read that latches nothing. -/
theorem fieldRead_ro (htype : f.info.type = .ro) (hpeak : f ≠ .galPeak) {h : Nat} (hhi : h ≠ 0) :
    fieldRead s (f, i, h) = s := by
  simp [fieldRead, htype, hpeak, hhi]

variable (val : Nat)

/-- A W1C field keeps the bits that are written 0. -/
theorem storeField_w1c {lo width : Nat} (htype : f.info.type = .w1c)
    (hlo : f.info.lo + f.info.loStep * (i % f.info.inner) = lo) (hwidth : f.info.width = width) (h : Nat) :
    storeField val s (f, i, h) = s.put f i (s.get f i - (s.get f i &&& val / 2 ^ lo % 2 ^ width)) := by
  simp [storeField, htype, bitsAt, hlo, hwidth]

/-- A RW field takes the bits written to it, or the nearest value it holds. -/
theorem storeField_rw {lo width : Nat} (htype : f.info.type = .rw) (hpair : f.info.pair = false)
    (hlo : f.info.lo + f.info.loStep * (i % f.info.inner) = lo) (hwidth : f.info.width = width) :
    storeField val s (f, i, 0) = s.put f i (clampWrite f (val / 2 ^ lo % 2 ^ width)) := by
  simp [storeField, htype, hpair, bitsAt, hlo, hwidth]

/-- A write of the low half of a pair is only kept. -/
theorem storeField_pairLo (htype : f.info.type = .rw) (hpair : f.info.pair = true) :
    storeField val s (f, i, 0) = s.setLo f i val := by
  simp [storeField, htype, hpair]

/-- A write of the high half of a pair puts the pair together with the low half kept. -/
theorem storeField_pairHi (htype : f.info.type = .rw) (hpair : f.info.pair = true) (hpreset : f ≠ .encPreset) :
    storeField val s (f, i, 1) = s.put f i (clampWrite f ((s.loOf f i + val * 2 ^ 32) % 2 ^ f.info.width)) := by
  simp [storeField, htype, hpair, hpreset]

end

/-! ### The registers of RegistersAreAccessedAsTyped in the register table -/

theorem fieldsAt_timeNowLo : fieldsAt 0x900000 = [(.timeNow, 0, 0)] := by decide +kernel

theorem fieldsAt_timeNowHi : fieldsAt 0x900004 = [(.timeNow, 0, 1)] := by decide +kernel

theorem fieldsAt_escCount : fieldsAt 0xC00018 = [(.escCount, 0, 0)] := by decide +kernel

theorem writable_emuRatioLo :
    ∀ o : Fin 2, (fieldsAt (0xA04004 + 0x20 * o.val)).filter (fun e => writable e.1) = [(.emuRatio, o.val, 0)] := by
  decide +kernel

theorem writable_emuRatioHi :
    ∀ o : Fin 2, (fieldsAt (0xA04008 + 0x20 * o.val)).filter (fun e => writable e.1) = [(.emuRatio, o.val, 1)] := by
  decide +kernel

/-- SUP_CFG without its read-only bit tray_en. -/
theorem writable_supCfg :
    (fieldsAt 0xC00000).filter (fun e => writable e.1) =
      [(.supAutoStart, 0, 0), (.supRetry, 0, 0), (.supWindowMs, 0, 0), (.supHoldChase, 0, 0)] := by decide +kernel

/-- SUP_LAST can be written in its bit valid alone. -/
theorem writable_supLast : (fieldsAt 0xC00014).filter (fun e => writable e.1) = [(.supValid, 0, 0)] := by
  decide +kernel

theorem writable_rhModule : (fieldsAt 0x800000).filter (fun e => writable e.1) = [] := by decide +kernel

/-- 0xC00020 is a reserved offset. -/
theorem writable_reserved : (fieldsAt 0xC00020).filter (fun e => writable e.1) = [] := by decide +kernel

/-! ### Accesses to those registers -/

section
variable {s : State} (hfull : s.power = .full)
include hfull

/-- R4: a read of TIME_NOW_LO latches TIME_NOW_HI. -/
theorem busRead_timeNowLo :
    busRead s 0 0x900000 = { s.latch .timeNow 0 (s.get .timeNow 0 / 2 ^ 32) with
      rd := BitVec.ofNat 32 (s.get .timeNow 0 % 2 ^ 32) } := by
  have hshown : fieldShown s (.timeNow, 0, 0) = s.get .timeNow 0 % 2 ^ 32 :=
    fieldShown_pairLo s 0 (by decide) rfl rfl
  have hread : fieldRead s (.timeNow, 0, 0) = s.latch .timeNow 0 (s.get .timeNow 0 / 2 ^ 32) :=
    fieldRead_pairLo s 0 (by decide) rfl rfl
  simp [busRead_pf0 hfull (a := 0x900000) rfl rfl rfl, fieldsAt_timeNowLo, hshown, hread]

/-- R4: a read of TIME_NOW_HI answers what was latched. -/
theorem busRead_timeNowHi :
    busRead s 0 0x900004 = { s with rd := BitVec.ofNat 32 (s.latched .timeNow 0) } := by
  have hshown : fieldShown s (.timeNow, 0, 1) = s.latched .timeNow 0 := fieldShown_pairHi s 0 (by decide) rfl
  have hread : fieldRead s (.timeNow, 0, 1) = s := fieldRead_ro s 0 rfl (by decide) one_ne_zero
  simp [busRead_pf0 hfull (a := 0x900004) rfl rfl rfl, fieldsAt_timeNowHi, hshown, hread]

/-- R6: ESC_COUNT is read and cleared. -/
theorem busRead_escCount :
    busRead s 0 0xC00018 = { s.put .escCount 0 0 with rd := BitVec.ofNat 32 (s.get .escCount 0) } := by
  have hshown : fieldShown s (.escCount, 0, 0) = s.get .escCount 0 := Nat.mul_one _
  have hread : fieldRead s (.escCount, 0, 0) = s.put .escCount 0 0 := fieldRead_rc s 0 rfl rfl (by decide) 0
  simp [busRead_pf0 hfull (a := 0xC00018) rfl rfl rfl, fieldsAt_escCount, hshown, hread]

/-- R4: a write of EMU_RATIO_LO is only kept. -/
theorem busWrite_emuRatioLo (o : Fin 2) (val : Nat) :
    busWrite s 0 (0xA04004 + 0x20 * o.val) val = s.setLo .emuRatio o.val val := by
  rw [busWrite_pf0 hfull (by omega) val (writable_emuRatioLo o) rfl]
  exact storeField_pairLo (f := .emuRatio) s o.val val rfl rfl

/-- R4: a write of EMU_RATIO_HI sets the pair. -/
theorem busWrite_emuRatioHi (o : Fin 2) (val : Nat) :
    busWrite s 0 (0xA04008 + 0x20 * o.val) val =
      s.put .emuRatio o.val ((s.loOf .emuRatio o.val + val * 2 ^ 32) % 2 ^ 64) := by
  rw [busWrite_pf0 hfull (by omega) val (writable_emuRatioHi o) rfl]
  exact storeField_pairHi (f := .emuRatio) s o.val val rfl rfl (by decide)

/-- R6: SUP_CFG takes what is written, field by field; a retry count or window of 0 reads as 1. -/
theorem busWrite_supCfg (val : Nat) :
    busWrite s 0 0xC00000 val =
      (((s.put .supAutoStart 0 (val % 2)).put .supRetry 0 (max 1 (val / 2 % 8))).put .supWindowMs 0
        (max 1 (val / 16 % 4096))).put .supHoldChase 0 (val / 2 ^ 17 % 2) := by
  rw [busWrite_pf0 hfull rfl val writable_supCfg rfl]
  have hauto (t : State) : storeField val t (.supAutoStart, 0, 0) = t.put .supAutoStart 0 (val / 2 ^ 0 % 2 ^ 1) :=
    storeField_rw t 0 val rfl rfl rfl rfl
  have hretry (t : State) : storeField val t (.supRetry, 0, 0) = t.put .supRetry 0 (max 1 (val / 2 ^ 1 % 2 ^ 3)) :=
    storeField_rw t 0 val rfl rfl rfl rfl
  have hwindow (t : State) :
      storeField val t (.supWindowMs, 0, 0) = t.put .supWindowMs 0 (max 1 (val / 2 ^ 4 % 2 ^ 12)) :=
    storeField_rw t 0 val rfl rfl rfl rfl
  have hhold (t : State) : storeField val t (.supHoldChase, 0, 0) = t.put .supHoldChase 0 (val / 2 ^ 17 % 2 ^ 1) :=
    storeField_rw t 0 val rfl rfl rfl rfl
  simp [hauto, hretry, hwindow, hhold, actField]

/-- R6: SUP_LAST.valid is cleared by a 1 in bit 31 and kept by a 0; the rest of SUP_LAST is left as it was. -/
theorem busWrite_supLast (val : Nat) :
    busWrite s 0 0xC00014 val =
      s.put .supValid 0 (s.get .supValid 0 - (s.get .supValid 0 &&& val / 2 ^ 31 % 2)) := by
  rw [busWrite_pf0 hfull rfl val writable_supLast rfl]
  exact storeField_w1c (f := .supValid) (lo := 31) (width := 1) s 0 val rfl rfl rfl 0

/-- R6: RH_MODULE is read-only and ignores a write. -/
theorem busWrite_rhModule (val : Nat) : busWrite s 0 0x800000 val = s :=
  busWrite_pf0 hfull rfl val writable_rhModule rfl

/-- R5: a reserved offset ignores a write. -/
theorem busWrite_reserved (val : Nat) : busWrite s 0 0xC00020 val = s :=
  busWrite_pf0 hfull rfl val writable_reserved rfl

end

/-! ### The statement -/

/-- Settles O5: each command is one access of the bus, and what the access does is read off the register's fields and
their Types. -/
theorem registersAreAccessedAsTyped : Obligations.RegistersAreAccessedAsTyped := by
  refine ⟨fun fn off bytes s hfull hbad => ?_, fun s o val hfull => ?_, fun s val hfull => ?_⟩
  · exact ⟨exec_misalignedRegisterAccess hfull fn hbad true, exec_misalignedRegisterAccess hfull fn hbad false⟩
  · have hlo : (BitVec.ofNat 24 (0xA04004 + 0x20 * o.val)).toNat = 0xA04004 + 0x20 * o.val :=
      Nat.mod_eq_of_lt (by omega)
    have hhi : (BitVec.ofNat 24 (0xA04008 + 0x20 * o.val)).toNat = 0xA04008 + 0x20 * o.val :=
      Nat.mod_eq_of_lt (by omega)
    rw [exec_pairLoRead, exec_rcRead, exec_registerWrite, exec_pairHiWrite, hlo, hhi]
    exact ⟨congrArg _ (busRead_timeNowLo hfull), congrArg _ (busRead_timeNowHi hfull),
      congrArg _ (busWrite_emuRatioLo hfull o _), congrArg _ (busWrite_emuRatioHi hfull o _)⟩
  · exact ⟨congrArg _ (busWrite_supCfg hfull _), congrArg _ (busWrite_supLast hfull _),
      congrArg _ (busRead_escCount hfull), congrArg _ (busWrite_rhModule hfull _),
      congrArg _ (busWrite_reserved hfull _)⟩

end Sys2Proof.Proofs

/-! NMS (R101): its ranking is an insertion sort by score and source_index, its greedy pass keeps what nothing kept
before suppresses, its suppression test is the rule's inequality in integers, and its output stands at dd's base. -/

namespace Sys2Proof.Proofs

open Sys2Proof.Machine Sys2Proof.Safety Sys2Proof.Laws

/-! ### Scores as extended real numbers -/

/-- The extended real number a value stands for; a NaN stands for none and is given 0. -/
noncomputable def valReal : Val → EReal
  | .nan => 0
  | .inf neg => if neg then ⊥ else ⊤
  | .fin neg n d => (((if neg then -1 else 1) * (n / d) : ℝ) : EReal)

/-- A value that stands for a number: no NaN, and no fraction over 0. -/
def IsNumber : Val → Prop
  | .nan => False
  | .inf _ => True
  | .fin _ _ d => 0 < d

/-- Of fractions over positive denominators, `Val.lt` is the order of the real numbers. -/
theorem lt_fin_iff {a b : Bool} {n d m e : Nat} (hd : 0 < d) (he : 0 < e) :
    (Val.fin a n d).lt (.fin b m e) = true ↔
      (if a then -1 else 1) * (n / d : ℝ) < (if b then -1 else 1) * (m / e : ℝ) := by
  have hdr : (0 : ℝ) < d := Nat.cast_pos.mpr hd
  have her : (0 : ℝ) < e := Nat.cast_pos.mpr he
  have hn : (0 : ℝ) ≤ n / d := by positivity
  have hm : (0 : ℝ) ≤ m / e := by positivity
  have hcross : (n / d : ℝ) < m / e ↔ n * e < m * d := by rw [div_lt_div_iff₀ hdr her]; exact_mod_cast Iff.rfl
  have hcross' : (m / e : ℝ) < n / d ↔ m * d < n * e := by rw [div_lt_div_iff₀ her hdr]; exact_mod_cast Iff.rfl
  by_cases hzero : n = 0 ∧ m = 0
  · simp [Val.lt, hzero]
  · cases a <;> cases b
    case false.false => simp [Val.lt, hzero, hcross]
    case false.true => simpa [Val.lt, hzero] using (neg_nonpos.mpr hm).trans hn
    case true.false =>
      have hneg : -(n / d : ℝ) < m / e := by
        rcases not_and_or.mp hzero with h | h
        · have := div_pos (Nat.cast_pos.mpr (Nat.pos_of_ne_zero h)) hdr
          linarith
        · have := div_pos (Nat.cast_pos.mpr (Nat.pos_of_ne_zero h)) her
          linarith
      simpa [Val.lt, hzero] using hneg
    case true.true => simp [Val.lt, hzero, hcross']

/-- On numbers, `Val.lt` is the order of the extended real numbers. -/
theorem lt_iff_valReal_lt {x y : Val} (hx : IsNumber x) (hy : IsNumber y) :
    x.lt y = true ↔ valReal x < valReal y := by
  match x, y, hx, hy with
  | .inf a, .inf b, _, _ => cases a <;> cases b <;> simp [Val.lt, valReal]
  | .inf a, .fin .., _, _ => cases a <;> simp [Val.lt, valReal, EReal.bot_lt_coe]
  | .fin .., .inf b, _, _ => cases b <;> simp [Val.lt, valReal, EReal.coe_lt_top]
  | .fin .., .fin .., hd, he => rw [lt_fin_iff hd he, valReal, valReal, EReal.coe_lt_coe_iff]

theorem pow2_snd_pos (e : Int) : 0 < (pow2 e).2 := by
  unfold pow2
  split <;> positivity

/-- An F32 encoding that is no NaN stands for a number: the cases are an infinity, a NaN, a subnormal and a normal
number (R35). -/
theorem isNumber_f32 {b : Nat} (h : f32 b ≠ .nan) : IsNumber (f32 b) := by
  unfold f32 decodeVal at h ⊢
  simp only [Fmt.isInt, Fmt.fp, Bool.false_eq_true, if_false, if_true] at h ⊢
  split_ifs at h ⊢
  · exact trivial
  · exact absurd rfl h
  · exact pow2_snd_pos _
  · exact pow2_snd_pos _

/-! ### The ranking (R100) -/

/-- The order of the ranking: not the lower score, and of equal scores not the higher source_index. -/
def RankLe (a b : Box) : Prop :=
  (f32 a.score).lt (f32 b.score) = false ∧ ((f32 b.score).lt (f32 a.score) = true ∨ a.index ≤ b.index)

/-- A box that another does not come before may stand ahead of it. -/
theorem rankLe_of_not_before {a b : Box} (h : ¬ b.before a = true) : RankLe a b := by
  simpa [Box.before, RankLe, imp_iff_or_not, or_comm] using h

section
variable {a b c : Box} (ha : f32 a.score ≠ .nan) (hb : f32 b.score ≠ .nan)
include ha hb

theorem rankLe_iff : RankLe a b ↔ valReal (f32 b.score) ≤ valReal (f32 a.score) ∧
    (valReal (f32 b.score) < valReal (f32 a.score) ∨ a.index ≤ b.index) := by
  rw [RankLe, ← Bool.not_eq_true, lt_iff_valReal_lt (isNumber_f32 ha) (isNumber_f32 hb),
    lt_iff_valReal_lt (isNumber_f32 hb) (isNumber_f32 ha), not_lt]

theorem rankLe_of_before (h : a.before b = true) : RankLe a b := by
  rw [rankLe_iff ha hb]
  simp only [Box.before, Bool.or_eq_true, Bool.and_eq_true, Bool.not_eq_true', ← Bool.not_eq_true,
    lt_iff_valReal_lt (isNumber_f32 ha) (isNumber_f32 hb), lt_iff_valReal_lt (isNumber_f32 hb) (isNumber_f32 ha),
    not_lt, decide_eq_true_eq] at h
  rcases h with hscore | ⟨hscore, hindex⟩
  · exact ⟨hscore.le, .inl hscore⟩
  · exact ⟨hscore, .inr hindex.le⟩

theorem rankLe_trans (hc : f32 c.score ≠ .nan) (hab : RankLe a b) (hbc : RankLe b c) : RankLe a c := by
  rw [rankLe_iff ha hb] at hab
  rw [rankLe_iff hb hc] at hbc
  obtain ⟨hba, hab⟩ := hab
  obtain ⟨hcb, hbc⟩ := hbc
  refine (rankLe_iff ha hc).mpr ⟨hcb.trans hba, ?_⟩
  rcases hab with h | hab
  · exact .inl (hcb.trans_lt h)
  · exact hbc.imp (fun h => h.trans_le hba) hab.trans

end

/-- Putting a box into a ranked list is Mathlib's ordered insertion. -/
theorem rankInsert_eq_orderedInsert (b : Box) (l : List Box) :
    rankInsert b l = l.orderedInsert (fun x y => x.before y = true) b := by
  induction l with
  | nil => rfl
  | cons c l ih => simp only [rankInsert, List.orderedInsert_cons, ih]

theorem rankInsert_perm (b : Box) (l : List Box) : (rankInsert b l).Perm (b :: l) :=
  rankInsert_eq_orderedInsert b l ▸ List.perm_orderedInsert _ b l

theorem ranking_perm (l : List Box) : (l.foldr rankInsert []).Perm l := by
  induction l with
  | nil => rfl
  | cons b l ih => exact (rankInsert_perm b _).trans (ih.cons b)

/-- Putting a box into a ranked list keeps it ranked, where every score is a number. -/
theorem rankInsert_ranked {b : Box} {l : List Box} (hb : f32 b.score ≠ .nan) (hl : ∀ c ∈ l, f32 c.score ≠ .nan)
    (h : l.Pairwise RankLe) : (rankInsert b l).Pairwise RankLe := by
  induction l with
  | nil => exact List.pairwise_singleton _ b
  | cons c l ih =>
    obtain ⟨hc, hrest⟩ := List.forall_mem_cons.mp hl
    obtain ⟨hcl, hranked⟩ := List.pairwise_cons.mp h
    rw [rankInsert]
    split
    case isTrue hbefore =>
      have hbc : RankLe b c := rankLe_of_before hb hc hbefore
      refine List.pairwise_cons.mpr ⟨List.forall_mem_cons.mpr ⟨hbc, fun x hx => ?_⟩, h⟩
      exact rankLe_trans hb hc (hrest x hx) hbc (hcl x hx)
    case isFalse hbefore =>
      refine List.pairwise_cons.mpr ⟨fun x hx => ?_, ih hrest hranked⟩
      rcases List.mem_cons.mp ((rankInsert_perm b l).mem_iff.mp hx) with rfl | hx
      · exact rankLe_of_not_before hbefore
      · exact hcl x hx

/-- R100: the ranking of boxes whose scores are numbers is ranked. -/
theorem ranking_ranked {l : List Box} (h : ∀ b ∈ l, f32 b.score ≠ .nan) :
    (l.foldr rankInsert []).Pairwise RankLe := by
  induction l with
  | nil => exact .nil
  | cons b l ih =>
    obtain ⟨hb, hl⟩ := List.forall_mem_cons.mp h
    exact rankInsert_ranked hb (fun c hc => hl c ((ranking_perm l).mem_iff.mp hc)) (ih hl)

/-! ### The greedy pass (R101) -/

section
variable (t : Nat) (agnostic : Bool)

theorem keepBoxes_append (l l' kept : List Box) :
    keepBoxes t agnostic (l ++ l') kept = keepBoxes t agnostic l' (keepBoxes t agnostic l kept) := by
  induction l generalizing kept with
  | nil => rfl
  | cons b l ih =>
    simp only [List.cons_append, keepBoxes]
    split <;> exact ih _

/-- The last candidate is kept exactly when no box kept before it suppresses it. -/
theorem keepBoxes_concat (l kept : List Box) (b : Box) :
    keepBoxes t agnostic (l ++ [b]) kept = keepBoxes t agnostic l kept ++
      (if (keepBoxes t agnostic l kept).any (fun a => suppresses t agnostic a b) then [] else [b]) := by
  rw [keepBoxes_append, keepBoxes]
  split
  · exact (List.append_nil _).symm
  · rfl

/-- No kept box suppresses one kept after it. -/
theorem keepBoxes_pairwise (l : List Box) {kept : List Box}
    (h : kept.Pairwise (fun a b => suppresses t agnostic a b = false)) :
    (keepBoxes t agnostic l kept).Pairwise (fun a b => suppresses t agnostic a b = false) := by
  induction l generalizing kept with
  | nil => exact h
  | cons b l ih =>
    rw [keepBoxes]
    split
    case isTrue => exact ih h
    case isFalse hnone =>
      refine ih (List.pairwise_append.mpr ⟨h, List.pairwise_singleton _ b, fun a ha c hc => ?_⟩)
      rw [List.mem_singleton.mp hc]
      exact Bool.eq_false_iff.mpr fun hs => hnone (List.any_eq_true.mpr ⟨a, ha, hs⟩)

end

/-! ### The suppression test (R101) -/

/-- The area of the intersection of two boxes. -/
def interArea (a b : Box) : Nat := span0 (max a.x0 b.x0) (min a.x1 b.x1) * span0 (max a.y0 b.y0) (min a.y1 b.y1)

theorem span0_cast (x0 x1 : Int) : (span0 x0 x1 : Int) = max 0 (x1 - x0) := by
  rw [span0, Int.ofNat_toNat, max_comm]

/-- The intersection lies within the first box. -/
theorem interArea_le_area (a b : Box) : interArea a b ≤ a.area :=
  have hspan (x0 x1 y0 y1 : Int) : span0 (max x0 y0) (min x1 y1) ≤ span0 x0 x1 :=
    Int.toNat_le_toNat (by omega)
  Nat.mul_le_mul (hspan ..) (hspan ..)

theorem suppresses_iff (t : Nat) (agnostic : Bool) (a b : Box) :
    suppresses t agnostic a b = true ↔ (agnostic = true ∨ a.cls = b.cls) ∧
      (t : Int) * (a.area + b.area - interArea a b) < 256 * interArea a b := by
  have hle : interArea a b ≤ a.area + b.area := (interArea_le_area a b).trans (Nat.le_add_right _ _)
  have hcast : ((a.area + b.area - interArea a b : Nat) : Int) = a.area + b.area - interArea a b := by
    rw [Nat.cast_sub hle, Nat.cast_add]
  rw [← hcast]
  simp only [suppresses, interArea, Bool.and_eq_true, Bool.or_eq_true, beq_iff_eq, decide_eq_true_eq]
  exact and_congr_right fun _ => by exact_mod_cast Iff.rfl

/-- A box without area meets nothing, so it suppresses nothing. -/
theorem suppresses_of_area_zero (t : Nat) (agnostic : Bool) {a : Box} (b : Box) (h : a.area = 0) :
    suppresses t agnostic a b = false := by
  have hi : interArea a b = 0 := Nat.le_zero.mp (h ▸ interArea_le_area a b)
  simp only [interArea] at hi
  simp [suppresses, hi]

/-! ### Bytes stored and read back -/

theorem length_natLe (n v : Nat) : (natLe n v).length = n := by
  induction n generalizing v with
  | zero => rfl
  | succ n ih => rw [natLe, List.length_cons, ih]

/-- A box record is 32 bytes (R98). -/
theorem length_boxBytes (b : Box) : b.bytes.length = 32 := by
  simp [Box.bytes, length_natLe]

theorem length_flatMap_boxBytes (l : List Box) : (l.flatMap Box.bytes).length = 32 * l.length := by
  simp [List.length_flatMap, length_boxBytes, Nat.mul_comm]

/-- The bytes stored at an address are the bytes read back from it. -/
theorem memBytes_memStore {m : Memory} (h : Memory.wf m = true) (a : Nat) (l : List Byte) :
    memBytes (memStore m a l) a l.length = l := by
  induction l generalizing m a with
  | nil => rfl
  | cons x l ih =>
    have hw : Memory.wf (memWrite m a x) = true := memWrite_wf h a x
    have hfirst : memRead (memStore (memWrite m a x) (a + 1) l) a = x := by
      rw [memRead_memStore_outside hw l (.inl a.lt_succ_self), memRead_memWrite_same h]
    have hrest := ih hw (a + 1)
    simp only [memBytes, Nat.add_assoc, Nat.add_comm 1] at hrest
    simp [memBytes, List.range_succ_eq_map, memStore, hfirst, Function.comp_def, hrest]

/-! ### What the shared operations leave of the memories and the sequencers -/

theorem memOf_setMem_same (s : State) (m : Nat) (x : Memory) : (s.setMem m x).memOf m = x := by
  match m with
  | 0 | 1 | _ + 2 => rfl

theorem chases_setMem (s : State) (m : Nat) (x : Memory) : (s.setMem m x).chases = s.chases := by
  match m with
  | 0 | 1 | _ + 2 => rfl

theorem memOf_wf {s : State} (h : memoriesCanonical s) (m : Nat) : Memory.wf (s.memOf m) = true := by
  obtain ⟨hsram, -, hgalley, hlpddr, -⟩ := h
  match m with
  | 0 => exact hsram
  | 1 => exact hgalley
  | _ + 2 => exact hlpddr

theorem chase_setChase_same (s : State) (n : Nat) (c : Chase) : (s.setChase n c).chase n = c :=
  tab_get_set_same s.chases _ c n

theorem seq_setSeq_same (c : Chase) (core : Option CoreNo) (x : Seq) : (c.setSeq core x).seq core = x := by
  cases core with
  | none => rfl
  | some l => exact tab_get_set_same c.streams _ x l.val

/-- A sequencer is read off the chases alone. -/
theorem sequencer_of_chases {s t : State} (h : t.chases = s.chases) (q : SeqId) : sequencer t q = sequencer s q := by
  simp only [sequencer, State.chase, h]

theorem sequencer_modSeq_same (s : State) (q : SeqId) (f : Seq → Seq) :
    sequencer (modSeq s q f) q = f (sequencer s q) := by
  simp only [sequencer, modSeq, chase_setChase_same, seq_setSeq_same]

/-- Occupying units moves no sequencer. -/
theorem sequencer_occupy (s : State) (q : SeqId) (o : Op) (reads writes : List Span) (furniture : Bool)
    (rows : List (Nat × Nat × List Byte)) :
    sequencer (occupy s q o reads writes furniture rows) q = sequencer s q := by
  simp only [sequencer, occupy, chase_setChase_same]
  cases q.core <;> rfl

theorem readCorrected_eq (s : State) (sp : Span) : ∃ regs, readCorrected s sp = { s with regs } := by
  unfold readCorrected State.bumpBy
  exact ⟨_, rfl⟩

/-- Reads of core SRAM change nothing but registers. -/
theorem foldl_readCorrected_eq (l : List Span) (s : State) : ∃ regs, l.foldl readCorrected s = { s with regs } := by
  induction l generalizing s with
  | nil => exact ⟨s.regs, rfl⟩
  | cons sp l ih =>
    obtain ⟨regs, h⟩ := readCorrected_eq s sp
    rw [List.foldl_cons, h]
    exact ih { s with regs }

/-- Reading the sources of an instruction changes nothing but registers and the count of free values. -/
theorem readSources_eq (s : State) (l : List Span) : ∃ regs free, readSources s l = { s with regs, free } := by
  obtain ⟨regs, h⟩ := foldl_readCorrected_eq (l.filter (fun sp => sp.1 == 0)) s
  exact ⟨regs, s.free + 1, by rw [readSources, h]⟩

theorem skipFree_eq (s : State) (l : List Src) : ∃ free, skipFree s l = { s with free } := by
  unfold skipFree
  split
  · exact ⟨_, rfl⟩
  · exact ⟨s.free, rfl⟩

/-- Where no unit of the chase is at work, a write disturbs nothing (R132). -/
theorem disturb_idle {s : State} {n : Nat} (h : (s.chase n).busy = []) (writes : List Span) :
    disturb s n writes = s := by
  simp [disturb, h]

/-- Where no unit of the chase is at work, an instruction on its units leaves every memory as its effect does, and its
sequencer goes on. -/
theorem onUnits_idle {s : State} {q : SeqId} (h : (s.chase q.chase.val).busy = []) (o : Op) (srcs dsts : List Desc)
    (f : State → State) :
    (∀ m, (onUnits q o srcs dsts s f).memOf m = (f s).memOf m) ∧
      sequencer (onUnits q o srcs dsts s f) q = (sequencer (f s) q).advance := by
  obtain ⟨free, hskip⟩ := skipFree_eq (f s) (srcs.map (srcOf s q))
  obtain ⟨regs, free', hread⟩ := readSources_eq { f s with free } (srcs.flatMap (fun d => d.spans s q))
  rw [onUnits, onUnitsWith, disturb_idle h, hskip, hread, retire, sequencer_modSeq_same, sequencer_occupy]
  exact ⟨fun _ => rfl, rfl⟩

/-! ### NMS on its buffer (R101, R151) -/

theorem chases_storeAt (s : State) (q : SeqId) (d : Desc) (b : List Byte) : (storeAt s q d b).chases = s.chases :=
  chases_setMem ..

/-- Bytes that fit a descriptor's extent stand at its base once they are stored there. -/
theorem memBytes_storeAt {s : State} (h : memoriesCanonical s) (q : SeqId) {d : Desc} {b : List Byte}
    (hfit : b.length ≤ d.extent) :
    memBytes ((storeAt s q d b).memOf (spaceBase s q d).1) ((spaceBase s q d).2 + d.base) b.length = b := by
  rw [storeAt, memOf_setMem_same, List.take_of_length_le hfit, memBytes_memStore (memOf_wf h _)]

/-- The boxes NMS writes: those the greedy pass keeps of its ranked buffer, at most its limit (R101, R102). -/
def nmsOutput (s : State) (q : SeqId) (o : Op) : List Box :=
  (keepBoxes (o.imm0 % 256) (bitAt o.imm0 8) ((bufferBoxes (srcOf s q (tensor s q o.da))).foldr rankInsert []) []).take
    (bitsAt o.imm0 16 8 + 1)

/-- NMS writes its boxes at dd's base and their number to sd. -/
theorem exec_nms_writesOutput {q : SeqId} {w : ZWord} {s : State} (hmem : memoriesCanonical s)
    (hgo : goes q w (isOp 3 0x02) s) (hidle : (s.chase q.chase.val).busy = [])
    (hfit : 32 * (nmsOutput s q (opOf w)).length ≤ (tensor s q (opOf w).dd).extent) :
    let d := tensor s q (opOf w).dd
    let m := spaceBase s q d
    ∃ t, exec (.nms q w) s = .next t ∧
      sequencer t q = ((sequencer s q).setS (opOf w).sd (nmsOutput s q (opOf w)).length).advance ∧
      memBytes (t.memOf m.1) (m.2 + d.base) (32 * (nmsOutput s q (opOf w)).length) =
        (nmsOutput s q (opOf w)).flatMap Box.bytes := by
  refine ⟨_, congrArg Host.Outcome.next (issue_go hgo), ?_, ?_⟩
  · refine (onUnits_idle hidle ..).2.trans (congrArg Seq.advance ?_)
    rw [sequencer_modSeq_same, sequencer_of_chases (State.bumpBy_chases ..), sequencer_of_chases (chases_storeAt ..)]
    rfl
  · rw [← length_flatMap_boxBytes] at hfit ⊢
    rw [(onUnits_idle hidle ..).1]
    exact memBytes_storeAt hmem q hfit

/-! ### The statement -/

/-- Settles O21: NMS is an insertion sort by the ranking, a greedy pass over it and a store of what the pass keeps, each
by its own lemma. -/
theorem nmsKeepsWhatNothingSuppresses : Obligations.NmsKeepsWhatNothingSuppresses := by
  refine ⟨fun l => ⟨ranking_perm l, ranking_ranked⟩, fun t agnostic l b => ?_, fun t agnostic a b => ?_,
    fun q w s hmem hgo hidle hfit => ?_⟩
  · exact ⟨rfl, keepBoxes_concat t agnostic l [] b, keepBoxes_pairwise t agnostic l .nil⟩
  · simp only [← span0_cast, ← Nat.cast_mul]
    refine ⟨suppresses_iff t agnostic a b, fun h _ => ?_⟩
    exact suppresses_of_area_zero t agnostic b (Nat.cast_eq_zero.mp h)
  · exact exec_nms_writesOutput hmem hgo hidle hfit

end Sys2Proof.Proofs

/-! The checks of R464 in their order: which trap an instruction raises at issue, which causes a trap can have, and
what TRAP_CAUSE latches. -/

namespace Sys2Proof.Proofs

open Sys2Proof.Machine Sys2Proof.Safety Sys2Proof.Laws

/-! ### The checks of R464 in order -/

/-- The fields that the form of an instruction names, with its ring and its galley read off the descriptors. -/
def formFields (x : Seq) (o : Op) : Option (List (Nat × Nat)) :=
  namedFields o ((usedDescs x o).any (fun d => d.ring != 0)) ((descOf (x.d o.da)).space == 5)

/-- The checks of R464 from the branch target on. -/
def operandTrap (s : State) (q : SeqId) (x : Seq) (o : Op) : Option Nat :=
  (flowTrap x o).or ((descsTrap s q x o (uses o) 0).or
    (if o.cls = 0 ∧ o.opcode = 0x0F ∧ x.executes o = false then none else lateTrap s q x o))

/-- The checks of R464 on an instruction whose opcode is defined, from its code values on. -/
def definedTrap (s : State) (q : SeqId) (x : Seq) (o : Op) (named : List (Nat × Nat)) : Option Nat :=
  if codeUndefined o q.core.isNone then some 0x02
  else if !reservedZero o named then some 0x04
  else if beyondLevel s q.chase.val x o then some 0x05
  else if misaligned x o then some 0x0C
  else operandTrap s q x o

section

variable {s : State} {q : SeqId} {x : Seq} {o : Op} {named : List (Nat × Nat)}

theorem issueTrap_reservedClass (hcls : 7 ≤ o.cls) : issueTrap s q x o = some 0x01 := if_pos hcls

theorem issueTrap_foreignClass (hcls : o.cls < 7) (hruns : classRuns o.cls q.core.isNone = false) :
    issueTrap s q x o = some 0x03 := by
  simp [issueTrap, hcls.not_ge, hruns]

theorem issueTrap_undefinedOpcode (hcls : o.cls < 7) (hruns : classRuns o.cls q.core.isNone = true)
    (hform : formFields x o = none) : issueTrap s q x o = some 0x02 := by
  rw [formFields] at hform
  simp only [issueTrap, hcls.not_ge, hruns, hform, Bool.not_true, Bool.false_eq_true, if_false]

theorem issueTrap_definedOpcode (hcls : o.cls < 7) (hruns : classRuns o.cls q.core.isNone = true)
    (hform : formFields x o = some named) : issueTrap s q x o = definedTrap s q x o named := by
  rw [formFields] at hform
  simp only [issueTrap, hcls.not_ge, hruns, hform, Bool.not_true, Bool.false_eq_true, if_false, definedTrap,
    operandTrap]
  cases flowTrap x o <;> cases descsTrap s q x o (uses o) 0 <;> rfl

/-- An instruction whose fields and registers pass traps by its flow, its descriptors or a late check. -/
theorem definedTrap_eq_operandTrap (hcode : codeUndefined o q.core.isNone = false)
    (hzero : reservedZero o named = true) (hlevel : beyondLevel s q.chase.val x o = false)
    (halign : misaligned x o = false) : definedTrap s q x o named = operandTrap s q x o := by
  simp [definedTrap, hcode, hzero, hlevel, halign]

theorem operandTrap_of_flow {c : Nat} (h : flowTrap x o = some c) : operandTrap s q x o = some c := by
  simp [operandTrap, h]

theorem operandTrap_of_descs {c : Nat} (hflow : flowTrap x o = none) (h : descsTrap s q x o (uses o) 0 = some c) :
    operandTrap s q x o = some c := by
  simp [operandTrap, hflow, h]

theorem operandTrap_late (hflow : flowTrap x o = none) (hdescs : descsTrap s q x o (uses o) 0 = none) :
    operandTrap s q x o =
      if o.cls = 0 ∧ o.opcode = 0x0F ∧ x.executes o = false then none else lateTrap s q x o := by
  simp [operandTrap, hflow, hdescs]

/-! ### The causes a check can find -/

theorem flowTrap_le {c : Nat} (h : flowTrap x o = some c) : c ≤ 0x0E := by
  unfold flowTrap at h
  split at h
  · split_ifs at h <;> cases h <;> decide
  · split_ifs at h
    cases h
    decide
  · cases h

theorem descTrap_le {i : Nat} {u : Use} {c : Nat} (h : descTrap s q x o i u = some c) : c ≤ 0x0E := by
  unfold descTrap at h
  dsimp only at h
  split at h
  · cases h
    decide
  · split_ifs at h <;> cases h <;> decide

theorem descsTrap_le {c : Nat} (us : List Use) {i : Nat} (h : descsTrap s q x o us i = some c) : c ≤ 0x0E := by
  induction us generalizing i with
  | nil => cases h
  | cons u us ih =>
    rw [descsTrap] at h
    split at h
    · next hu => exact descTrap_le (hu.trans h)
    · exact ih h

theorem bitsAt_succ_le (v lo n : Nat) : bitsAt v lo n + 1 ≤ 2 ^ n := Nat.mod_lt _ (by positivity)

theorem channels_le (d : DWord) : (descOf d).c ≤ 2 ^ 16 := bitsAt_succ_le ..

/-- No convolution reduces more than 2^24 products (R53): 16 by 16 taps of 65,536 channels. -/
theorem reduction_le (o : Op) (d : DWord) : kernH o * kernW o * (descOf d).c ≤ 2 ^ 24 :=
  calc kernH o * kernW o * (descOf d).c
      ≤ 2 ^ 4 * 2 ^ 4 * 2 ^ 16 := Nat.mul_le_mul (Nat.mul_le_mul (bitsAt_succ_le ..) (bitsAt_succ_le ..)) (channels_le d)
    _ = 2 ^ 24 := by norm_num

/-- The reduction length never fails, so the late checks end at the TRAP instruction's cause. -/
theorem lateTrap_le {c : Nat} (h : lateTrap s q x o = some c) : c ≤ 0x0E := by
  have hconv := reduction_le o (x.d o.da)
  have hgemm := (channels_le (x.d o.da)).trans (Nat.pow_le_pow_right two_pos (by decide : 16 ≤ 24))
  simp only [lateTrap, not_lt.mpr hconv, not_lt.mpr hgemm, if_false] at h
  grind

theorem operandTrap_le {c : Nat} (h : operandTrap s q x o = some c) : c ≤ 0x0E := by
  rw [operandTrap, Option.or_eq_some_iff, Option.or_eq_some_iff] at h
  obtain hflow | ⟨-, hdescs | ⟨-, hlate⟩⟩ := h
  · exact flowTrap_le hflow
  · exact descsTrap_le _ hdescs
  · split at hlate
    · cases hlate
    · exact lateTrap_le hlate

theorem definedTrap_le {c : Nat} (h : definedTrap s q x o named = some c) : c ≤ 0x0E := by
  unfold definedTrap at h
  split_ifs at h
  iterate 4 · cases h; decide
  exact operandTrap_le h

theorem issueTrap_le {c : Nat} (h : issueTrap s q x o = some c) : c ≤ 0x0E := by
  by_cases hcls : o.cls < 7
  · cases hruns : classRuns o.cls q.core.isNone with
    | false => exact Option.some.inj ((issueTrap_foreignClass hcls hruns).symm.trans h) ▸ by decide
    | true =>
      cases hform : formFields x o with
      | none => exact Option.some.inj ((issueTrap_undefinedOpcode hcls hruns hform).symm.trans h) ▸ by decide
      | some named => exact definedTrap_le (issueTrap_definedOpcode hcls hruns hform ▸ h)
  · exact Option.some.inj ((issueTrap_reservedClass (not_lt.mp hcls)).symm.trans h) ▸ by decide

end

/-! ### What a trap leaves of the registers -/

section

variable {l : List Fld}

theorem keepsRegs_trans {s t u : State} (h : keepsRegs l s t) (h' : keepsRegs l t u) : keepsRegs l s u :=
  fun f i hf => (h' f i hf).trans (h f i hf)

theorem keepsRegs_of_regs {s t : State} (h : t.regs = s.regs) : keepsRegs l s t :=
  fun f i _ => by simp only [State.get, h]

theorem keepsRegs_refl (s : State) : keepsRegs l s s := keepsRegs_of_regs rfl

theorem keepsRegs_put {s t : State} (h : keepsRegs l s t) {f : Fld} (hf : f ∈ l) (i v : Nat) :
    keepsRegs l s (t.put f i v) :=
  fun g j hg => (get_put_ne t (ne_of_mem_of_not_mem hf hg).symm i j v).trans (h g j hg)

theorem keepsRegs_ite {p : Prop} [Decidable p] {s t u : State} (ht : keepsRegs l s t) (hu : keepsRegs l s u) :
    keepsRegs l s (if p then t else u) := by
  split <;> assumption

theorem keepsRegs_ite_fireVector {p : Prop} [Decidable p] {s t : State} (h : keepsRegs l s t) (fn v : Nat) :
    keepsRegs l s (if p then fireVector t fn v else t) := keepsRegs_ite h h

theorem keepsRegs_foldl {α : Type} {g : State → α → State} (hg : ∀ s a, keepsRegs l s (g s a)) (as : List α)
    (s : State) : keepsRegs l s (as.foldl g s) := by
  induction as generalizing s with
  | nil => exact keepsRegs_refl s
  | cons a as ih => exact keepsRegs_trans (hg s a) (ih (g s a))

end

/-- The counters of replies: stale, missing with either code, and undeliverable (R288, R292, R299). -/
def replyCounters : List Fld := [.rhStale, .rhLinkTraining, .rhNoExpert, .rhUnroutable]

theorem regs_sendOn (s : State) (p : Nat) (pkt : Packet) : (sendOn s p pkt).regs = s.regs := by
  unfold sendOn transmit
  grind [State.setPort, State.emit]

theorem keepsRegs_countMissing (s : State) (n code : Nat) : keepsRegs replyCounters s (countMissing s n code) :=
  keepsRegs_ite (keepsRegs_put (keepsRegs_refl s) (by decide) n _) (keepsRegs_put (keepsRegs_refl s) (by decide) n _)

theorem keepsRegs_acceptReply (s : State) (h : SortHdr) (output : List Byte) :
    keepsRegs replyCounters s (acceptReply s h output) := by
  unfold acceptReply
  dsimp only
  split
  · exact keepsRegs_put (keepsRegs_refl s) (by decide) _ _
  · refine keepsRegs_ite (keepsRegs_of_regs rfl) (keepsRegs_trans ?_ (keepsRegs_countMissing _ _ _))
    exact keepsRegs_of_regs rfl

/-- A reply changes no register but the counters of replies, wherever it goes. -/
theorem keepsRegs_sendReply (s : State) (h : SortHdr) (status : Nat) (output : List Byte) :
    keepsRegs replyCounters s (sendReply s h status output) := by
  have hdropped : keepsRegs replyCounters s (s.bump .rhUnroutable 0) := keepsRegs_put (keepsRegs_refl s) (by decide) 0 _
  unfold sendReply
  dsimp only
  refine keepsRegs_ite (keepsRegs_acceptReply s _ _) ?_
  split
  · exact keepsRegs_ite (keepsRegs_of_regs (regs_sendOn s _ _)) hdropped
  · exact hdropped

theorem keepsRegs_answerInbound (s : State) (n : Nat) : keepsRegs replyCounters s (answerInbound s n) := by
  refine keepsRegs_trans (keepsRegs_of_regs rfl) (keepsRegs_foldl (fun s x => ?_) _ _)
  exact keepsRegs_sendReply s _ _ _

/-- An event changes no register but the ring's head and its wrap count (R387). -/
theorem keepsRegs_logEvent (s : State) (code source severity : Nat) (details : List Nat) :
    keepsRegs [.evlogHead, .evlogWrap] s (logEvent s code source severity details) := by
  unfold logEvent
  dsimp only
  apply keepsRegs_ite_fireVector
  have hlog : ∀ log logSeq, keepsRegs [.evlogHead, .evlogWrap] s { s with log, logSeq } := fun _ _ => keepsRegs_refl s
  have hhead := fun log logSeq v => keepsRegs_put (hlog log logSeq) (f := .evlogHead) (by decide) 0 v
  exact keepsRegs_ite (keepsRegs_put (hhead _ _ _) (by decide) _ _) (hhead _ _ _)

/-! ### What TRAP_CAUSE latches -/

/-- Where no trap is latched, a trap latches its cause (R169). -/
theorem latchTrap_trapCause {s : State} {q : SeqId} (hvalid : s.flag .trapValid q.chase.val = false) (o : Op)
    (pc : Nat) {cause : Nat} (hcause : cause ≤ 0x0E) :
    (latchTrap s q o pc cause).get .trapCause q.chase.val = cause := by
  simp only [latchTrap, hvalid, Bool.false_and, Bool.false_eq_true, if_false]
  repeat rw [get_put_ne _ (by decide)]
  rw [get_put_same]
  exact Nat.mod_eq_of_lt (hcause.trans_lt (by decide))

theorem raiseTrap_trapCause {s : State} {q : SeqId} (hvalid : s.flag .trapValid q.chase.val = false) (o : Op)
    (pc : Nat) {cause : Nat} (hcause : cause ≤ 0x0E) :
    (raiseTrap s q o pc cause).get .trapCause q.chase.val = cause := by
  rw [raiseTrap]
  dsimp only
  rw [keepsRegs_logEvent _ _ _ _ _ _ _ (by decide), keepsRegs_answerInbound _ _ _ _ (by decide),
    get_put_ne _ (by decide)]
  exact latchTrap_trapCause hvalid o pc hcause

/-! ### The gate of an instruction that a check stops -/

theorem gateOf_pastEnd {s : State} {q : SeqId} (hissue : canIssue s q = true) (hend : pastEnd (sequencer s q) = true)
    (o : Op) (row : Bool) : gateOf s q o row = .trap 0x0B := by
  rw [sequencer] at hend
  simp [gateOf, hissue, hend]

theorem gateOf_trap {s : State} {q : SeqId} {o : Op} {row : Bool} {c : Nat} (hissue : canIssue s q = true)
    (hend : pastEnd (sequencer s q) = false)
    (hrow : row = true ∨ namedFields o false false = none ∨ classRuns o.cls q.core.isNone = false)
    (htrap : issueTrap s q (sequencer s q) o = some c) : gateOf s q o row = .trap c := by
  rw [sequencer] at hend htrap
  have hrow' : (row || (namedFields o false false).isNone || !classRuns o.cls q.core.isNone) = true := by
    simpa [or_assoc] using hrow
  simp [gateOf, hissue, hend, htrap, hrow']

/-! ### The statement -/

/-- Settles O9: each check of R464 is reached once those before it pass, no check finds a cause above the TRAP
instruction's, and the gate raises what the checks find. -/
theorem issueChecksInOrder : Obligations.IssueChecksInOrder := by
  unfold Obligations.IssueChecksInOrder
  refine ⟨fun s q x w => ?_, fun s q x w named => ?_, fun s q x w h => ?_, fun s q w row on => ?_⟩
  · refine ⟨issueTrap_reservedClass, issueTrap_foreignClass, fun hcls hruns =>
      ⟨issueTrap_undefinedOpcode hcls hruns, fun named hform => ?_⟩⟩
    rw [issueTrap_definedOpcode hcls hruns hform]
    refine ⟨fun hcode => if_pos hcode, fun hcode => ⟨fun hzero => ?_, fun hzero => ⟨fun hlevel => ?_, fun hlevel =>
      ⟨fun halign => ?_, fun halign => ?_⟩⟩⟩⟩
    · simp [definedTrap, hcode, hzero]
    · simp [definedTrap, hcode, hzero, hlevel]
    · simp [definedTrap, hcode, hzero, hlevel, halign]
    · rw [definedTrap_eq_operandTrap hcode hzero hlevel halign]
      exact ⟨fun _ => operandTrap_of_flow, fun hflow _ => operandTrap_of_descs hflow⟩
  · intro o hcls hruns hform hcode hzero hlevel halign hflow hdescs
    rw [issueTrap_definedOpcode hcls hruns hform, definedTrap_eq_operandTrap hcode hzero hlevel halign,
      operandTrap_late hflow hdescs]
    refine ⟨fun hc ho hloose => ?_, fun hc ho hsub hbig => ?_, fun hc ho => ?_⟩
    · simp [lateTrap, hc, ho, hloose]
    · simp [lateTrap, hc, ho, hsub, hbig]
    · cases x.executes o <;> simp [lateTrap, hc, ho]
  · exact absurd (issueTrap_le h) (by decide)
  · refine fun hissue => ⟨fun hend => issue_trap (gateOf_pastEnd hissue hend ..), fun hend hrow c htrap => ?_⟩
    have ht := issue_trap (w := w) (on := on) (gateOf_trap hissue hend hrow htrap)
    exact ⟨ht, fun hvalid => ht ▸ raiseTrap_trapCause hvalid _ _ (issueTrap_le htrap)⟩

end Sys2Proof.Proofs

/-! The fire queues of R312 to R315: what a push answers and leaves, what staging a record changes, and what FIRE and
DECIDE do with a fire command whose position has passed. -/

namespace Sys2Proof.Proofs

open Sys2Proof.Machine Sys2Proof.Safety Sys2Proof.Laws

/-! ### What staging a record leaves unchanged -/

/-- Of the registers, only rings' producer indices and counts of losses differ between two states; besides them, only
host memory, the rings and what was sent (R355, R361, R362). -/
def ringsChange (s t : State) : Prop :=
  keepsRegs [.ringProd, .ringSpoils] s t ∧
    { t with regs := s.regs, host := s.host, rings := s.rings, tx := s.tx } = s

theorem ringsChange_refl (s : State) : ringsChange s s := ⟨keepsRegs_refl s, rfl⟩

theorem ringsChange_trans {s t u : State} (h : ringsChange s t) (h' : ringsChange t u) : ringsChange s u := by
  obtain ⟨hregs, hrest⟩ := h
  obtain ⟨hregs', hrest'⟩ := h'
  refine ⟨keepsRegs_trans hregs hregs', ?_⟩
  rw [← hrest, ← hrest']

theorem ringsChange_setRing (s : State) (r : Nat) (x : RingSt) : ringsChange s (s.setRing r x) :=
  ⟨keepsRegs_of_regs rfl, rfl⟩

theorem ringsChange_ringAdvance (s : State) (r : Nat) : ringsChange s (ringAdvance s r) := by
  unfold ringAdvance
  split
  · exact ringsChange_refl s
  · dsimp only
    split <;> split <;> exact ⟨keepsRegs_of_regs rfl, rfl⟩

theorem ringsChange_ringWrite (s : State) (r : Nat) (b : List Byte) : ringsChange s (ringWrite s r b) := by
  refine ringsChange_trans ⟨?_, ?_⟩ (ringsChange_ringAdvance _ r)
  · exact keepsRegs_put (keepsRegs_of_regs rfl) (by decide) _ _
  · rfl

theorem ringsChange_setRing_ringWrite (s : State) (r : Nat) (x : RingSt) (b : List Byte) :
    ringsChange s (ringWrite (s.setRing r x) r b) :=
  ringsChange_trans (ringsChange_setRing s r x) (ringsChange_ringWrite _ r b)

theorem ringsChange_ringDrain (n : Nat) (s : State) (r : Nat) : ringsChange s (ringDrain n s r) := by
  induction n generalizing s with
  | zero => exact ringsChange_refl s
  | succ n ih =>
    rw [ringDrain]
    split
    · dsimp only
      split
      · exact ringsChange_refl s
      · split <;> exact ringsChange_trans (ringsChange_setRing_ringWrite s r _ _) (ih _)
    · exact ringsChange_refl s

theorem ringsChange_stageRecord (s : State) (r first : Nat) (b : List Byte) :
    ringsChange s (stageRecord s r first b) := by
  unfold stageRecord
  dsimp only
  split
  · exact ringsChange_trans (ringsChange_setRing s r _) (ringsChange_ringDrain _ _ r)
  · exact ⟨keepsRegs_put (keepsRegs_refl s) (by decide) _ _, rfl⟩

theorem ringsChange_stageEvent (s : State) (fn : Nat) (b : List Byte) : ringsChange s (stageEvent s fn b) :=
  ringsChange_stageRecord ..

theorem fqs_of_ringsChange {s t : State} (h : ringsChange s t) : t.fqs = s.fqs := (congrArg State.fqs h.2 :)

/-! ### Counting -/

/-- A 32-bit count goes up by one and holds at its top (R62). -/
theorem get_bump_count (s : State) {f : Fld} (hwidth : f.info.width = 32) (i : Nat) :
    (s.bump f i).get f i = min (s.get f i + 1) 0xFFFFFFFF := by
  rw [get_bump, hwidth]
  exact Nat.mod_eq_of_lt (by omega)

/-! ### What a push answers and leaves (R313 to R315) -/

section

variable {s : State} {c : FireCmd} {e : Nat}

theorem pushFire_passed (h : countAhead (sext 48 c.position) (s.s48 .encPos (s.get .ctxEncoder c.context)) ≤ 0) :
    pushFire s c = (.late, s.bump .fqLateRefused (s.get .ctxEncoder c.context)) := if_pos h

theorem pushFire_full (h : ¬countAhead (sext 48 c.position) (s.s48 .encPos (s.get .ctxEncoder c.context)) ≤ 0)
    (hfull : 32 ≤ (s.fq (s.get .ctxEncoder c.context)).length) :
    pushFire s c = (.dropped, fireDrop s (s.get .ctxEncoder c.context) c) := (if_neg h).trans (if_pos hfull)

theorem pushFire_room (h : ¬countAhead (sext 48 c.position) (s.s48 .encPos (s.get .ctxEncoder c.context)) ≤ 0)
    (hroom : (s.fq (s.get .ctxEncoder c.context)).length < 32) :
    pushFire s c = (.accepted, fireCloseSpoil (s.setFq (s.get .ctxEncoder c.context)
      (s.fq (s.get .ctxEncoder c.context) ++ [c])) (s.get .ctxEncoder c.context)) :=
  (if_neg h).trans (if_neg hroom.not_ge)

/-- A push is answered late where its position has passed, and nowhere else: even a full queue is asked after that
(R313). -/
theorem pushFire_late_iff :
    (pushFire s c).1 = .late ↔
      countAhead (sext 48 c.position) (s.s48 .encPos (s.get .ctxEncoder c.context)) ≤ 0 := by
  by_cases h : countAhead (sext 48 c.position) (s.s48 .encPos (s.get .ctxEncoder c.context)) ≤ 0
  · simp [pushFire_passed h, h]
  · by_cases hfull : 32 ≤ (s.fq (s.get .ctxEncoder c.context)).length
    · simp [pushFire_full h hfull, h]
    · simp [pushFire_room h (not_le.mp hfull), h]

theorem fqs_fireDrop : (fireDrop s e c).fqs = s.fqs := by
  unfold fireDrop
  dsimp only
  split <;> rfl

/-- A dropped push is counted once (R315). -/
theorem get_fireDrop_dropped : (fireDrop s e c).get .fqDropped e = min (s.get .fqDropped e + 1) 0xFFFFFFFF := by
  have hmarker : (fireDrop s e c).get .fqDropped e = (s.bump .fqDropped e).get .fqDropped e := by
    unfold fireDrop
    dsimp only
    split
    · rw [get_put_ne _ (by decide)]
    · iterate 4 rw [get_put_ne _ (by decide)]
  exact hmarker.trans (get_bump_count s rfl e)

theorem fqs_fireCloseSpoil : (fireCloseSpoil s e).fqs = s.fqs := by
  unfold fireCloseSpoil
  split
  · exact (fqs_of_ringsChange (ringsChange_stageEvent (s.put .fqSpoilOpen e 0) _ _) :)
  · rfl

/-- No spoil marker is open once an accepted push has closed it (R315). -/
theorem flag_fireCloseSpoil : (fireCloseSpoil s e).flag .fqSpoilOpen e = false := by
  unfold fireCloseSpoil
  split
  · dsimp only
    rw [State.flag, (ringsChange_stageEvent _ _ _).1 _ _ (by decide), get_put_same]
    rfl
  · next hclosed => simpa using hclosed

/-- A position on its way into the chain is cut to 48 bits, which its signed reading does not see (R306, R312). -/
theorem sext_mod (n v : Nat) : sext n (v % 2 ^ n) = sext n v := by
  simp [sext]

/-- A fire command made for a passed position is refused late (R313). -/
theorem pushFire_fireCmd_passed {pos k : Nat} (channels width source seq : Nat)
    (h : countAhead (sext 48 pos) (s.s48 .encPos (s.get .ctxEncoder k)) ≤ 0) :
    pushFire s (fireCmd pos channels width k source seq) = (.late, s.bump .fqLateRefused (s.get .ctxEncoder k)) :=
  pushFire_passed (c := fireCmd pos channels width k source seq) (by rwa [fireCmd, sext_mod])

end

/-! ### A FIRE and a DECIDE whose position has passed (R313) -/

section

variable {s : State} {n : Nat}

theorem fireNow_passed {slot k pos mask width : Nat} (hslot : slotCtx s n slot = some k)
    (hmask : filterChannels s k mask ≠ 0) (hwidth : width ≠ 0)
    (h : countAhead (sext 48 pos) (s.s48 .encPos (s.get .ctxEncoder k)) ≤ 0) :
    fireNow s n slot pos mask width = (false, s.bump .fqLateRefused (s.get .ctxEncoder k)) := by
  simp [fireNow, hslot, hmask, hwidth, pushFire_fireCmd_passed _ _ _ _ h]

theorem exec_fire_of_fireNow {q : SeqId} {w : ZWord} {r : Bool × State} (hgo : goes q w (isOp 5 0x02) s)
    (hr : fireNow s q.chase.val ((opOf w).sub % 16) ((sequencer s q).pair48 (opOf w).sa) ((opOf w).imm1 % 65536)
      ((opOf w).imm1 / 65536) = r) :
    exec (.fire q w) s = .next (retire q (modSeq r.2 q (fun y => y.setP (opOf w).pdst r.1))) :=
  hr ▸ congrArg _ (issue_go hgo)

/-- A DECIDE on an open handle issues its verdict, unless the early-exit head took the item over in an earlier cycle and
the DECIDE is not that head's own (R159, R195). -/
theorem decideItem_open {h : Nat} {early : Bool} {it : Item} (d : Decision) (hh : h < 256)
    (hitem : (s.chase n).item h = some it) (hhead : it.handed = false ∨ s.clk ≤ it.handedAt ∨ early = true) :
    decideItem s n h early d =
      ((issueVerdict (freeHandle s n h false) n it (decidePath early d) d false).1 == .accepted,
        (issueVerdict (freeHandle s n h false) n it (decidePath early d) d false).2) := by
  have hours : (it.handed && decide (it.handedAt < s.clk) && !early) = false := by
    rcases hhead with hhead | hhead | hhead <;> simp [hhead]
  simp [decideItem, hh, hitem, hours]

/-- The counters of verdicts by their path (R206). -/
def pathCounters : List Fld := [.fullCount, .exitCount, .noreadCount]

theorem pathCounter_mem (path : Nat) : pathCounter path ∈ pathCounters := by
  unfold pathCounter
  split <;> decide

/-- The state in which a verdict's fire command is pushed: its number is taken and its path counted. -/
def verdictNumbered (s : State) (n : Nat) (it : Item) (path : Nat) : State :=
  (s.setCtx it.ctx { s.context it.ctx with verdictSeq := ((s.context it.ctx).verdictSeq + 1) % 2 ^ 32 }).bump
    (pathCounter path) n

theorem keepsRegs_verdictNumbered (s : State) (n : Nat) (it : Item) (path : Nat) :
    keepsRegs pathCounters s (verdictNumbered s n it path) :=
  keepsRegs_put (keepsRegs_of_regs rfl) (pathCounter_mem path) n _

/-- A verdict whose fire command has passed answers late, counts the refusal and stages its record (R160, R313). -/
theorem issueVerdict_passed {it : Item} {d : Decision} (path : Nat) (unbound : Bool) (hwidth : d.width ≠ 0)
    (h : countAhead (sext 48 it.firePos) (s.s48 .encPos (s.get .ctxEncoder it.ctx)) ≤ 0) :
    (issueVerdict s n it path d unbound).1 = .late ∧
      ringsChange ((verdictNumbered s n it path).bump .fqLateRefused (s.get .ctxEncoder it.ctx))
        (issueVerdict s n it path d unbound).2 := by
  have hkept := keepsRegs_verdictNumbered s n it path
  have henc := hkept .ctxEncoder it.ctx (by decide)
  have hpassed : countAhead (sext 48 it.firePos) ((verdictNumbered s n it path).s48 .encPos
      ((verdictNumbered s n it path).get .ctxEncoder it.ctx)) ≤ 0 := by
    rwa [henc, State.s48, hkept .encPos _ (by decide)]
  have hpush := fun channels seq => pushFire_fireCmd_passed channels d.width path seq hpassed
  have hfires : (d.width != 0) = true := bne_iff_ne.mpr hwidth
  rw [henc] at hpush
  simp only [verdictNumbered] at hpush
  simp only [issueVerdict, hfires, if_true, hpush]
  exact ⟨trivial, ringsChange_stageRecord ..⟩

/-- A DECIDE whose fire command has passed answers so, with no queue changed; it counts one refusal, and changes no
register but the counters of verdicts and of refusals and those of its record's ring (R159, R160, R313). -/
theorem decideItem_passed {h : Nat} {early : Bool} {it : Item} {d : Decision} (hh : h < 256)
    (hitem : (s.chase n).item h = some it) (hhead : it.handed = false ∨ s.clk ≤ it.handedAt ∨ early = true)
    (hwidth : d.width ≠ 0)
    (hlate : countAhead (sext 48 it.firePos) (s.s48 .encPos (s.get .ctxEncoder it.ctx)) ≤ 0) :
    (decideItem s n h early d).1 = false ∧ (decideItem s n h early d).2.fqs = s.fqs ∧
      (decideItem s n h early d).2.get .fqLateRefused (s.get .ctxEncoder it.ctx) =
        min (s.get .fqLateRefused (s.get .ctxEncoder it.ctx) + 1) 0xFFFFFFFF ∧
      keepsRegs ([.fqLateRefused, .ringProd, .ringSpoils] ++ pathCounters) s (decideItem s n h early d).2 := by
  obtain ⟨hanswer, hrings⟩ := issueVerdict_passed (s := freeHandle s n h false) (n := n) (decidePath early d) false
    hwidth hlate
  have hkept := keepsRegs_verdictNumbered (freeHandle s n h false) n it (decidePath early d)
  have hfree : ∀ f i, (freeHandle s n h false).get f i = s.get f i := fun f i => rfl
  rw [decideItem_open d hh hitem hhead]
  refine ⟨by rw [hanswer]; rfl, (fqs_of_ringsChange hrings :), ?_, fun f i hf => ?_⟩
  · rw [hrings.1 _ _ (by decide), hfree, get_bump_count _ rfl, hkept _ _ (by decide), hfree]
  · simp only [List.cons_append, List.nil_append, List.mem_cons, not_or] at hf
    obtain ⟨hlateRefused, hprod, hspoils, hpath⟩ := hf
    rw [hrings.1 f i (by simp [hprod, hspoils]), get_bump_ne _ hlateRefused, hkept f i hpath, hfree]

end

/-! ### The statement -/

/-- Settles O29: a push is asked first whether its position has passed, then whether its queue is full; FIRE and DECIDE
answer a late push so, and what they do besides it touches no queue. -/
theorem fireQueueAcceptsInOrder : Obligations.FireQueueAcceptsInOrder := by
  refine ⟨fun s c => ⟨pushFire_late_iff, fun hlate => ?_, fun hahead hfull => ?_, fun hahead hroom => ?_⟩,
    fun q w s k hgo hslot hmask hwidth hlate => ?_, fun s n h early d it hh hitem hhead hwidth hlate => ?_⟩
  · rw [pushFire_passed hlate]
  · rw [pushFire_full hahead hfull]
    exact ⟨rfl, congrArg (Tab.get · [] _) fqs_fireDrop, get_fireDrop_dropped⟩
  · rw [pushFire_room hahead hroom]
    exact ⟨rfl, (congrArg (Tab.get · [] _) fqs_fireCloseSpoil).trans (fq_setFq ..), flag_fireCloseSpoil⟩
  · exact exec_fire_of_fireNow hgo (fireNow_passed hslot hmask hwidth hlate)
  · obtain ⟨hanswer, hqueues, hcount, hregs⟩ := decideItem_passed hh hitem hhead hwidth hlate
    exact ⟨hanswer, hqueues, hcount, hregs .fqDropped _ (by decide), hregs .fqSpoilOpen _ (by decide)⟩

end Sys2Proof.Proofs

/-! Every step keeps the state sound. Registers change by `put`, which cuts what it writes to the field's width (R5), or
go back to their reset values; memories change by stores of bytes and by clearing, which keep the canonical form (log
entry 7). So each operation keeps the state sound because those it calls do: one lemma for each, in the order of the
model. -/

namespace Sys2Proof.Proofs

-- Bodies elaborated at once wait for one another here, and each that waits holds a stack.
set_option Elab.async false

open Sys2Proof Sys2Proof.Machine Sys2Proof.Safety Sys2Proof.Laws

/-! ### Soundness as one proposition -/

/-- `Sound` as a proposition that automation does not take apart. -/
def Solid (s : State) : Prop := Sound s

/-- Whatever next state a command answers is sound. -/
def SolidAnswer (a : Answer) : Prop := ∀ t, a = .next t → Solid t

/-- What soundness says of the registers and the memories. -/
def Fits (regs : List ((Fld × Nat) × Nat)) (sram istore galley lpddr host : Memory) : Prop :=
  (∀ e ∈ regs, e.2 < 2 ^ e.1.1.info.width) ∧ Memory.wf sram = true ∧ Memory.wf istore = true ∧
    Memory.wf galley = true ∧ Memory.wf lpddr = true ∧ Memory.wf host = true

theorem fits_of_solid {s : State} (h : Solid s) : Fits s.regs s.sram s.istore s.galley s.lpddr s.host := h

/-- A state given field by field is sound by its registers and memories alone. -/
theorem solid_mk_iff {pending power clk timeFrac regs pairLatch pairLo rd sram istore galley lpddr host chases ctxs
    ports lineRd fqs chans encs emus barrier tick eports servos rings mboxes log logSeq fuses mgmt clock smb smbAck tx
    free} :
    Solid ⟨pending, power, clk, timeFrac, regs, pairLatch, pairLo, rd, sram, istore, galley, lpddr, host, chases, ctxs,
        ports, lineRd, fqs, chans, encs, emus, barrier, tick, eports, servos, rings, mboxes, log, logSeq, fuses, mgmt,
        clock, smb, smbAck, tx, free⟩ ↔
      Fits regs sram istore galley lpddr host := Iff.rfl

theorem solidAnswer_next {t : State} : SolidAnswer (.next t) ↔ Solid t :=
  ⟨fun h => h t rfl, fun h u e => by cases e; exact h⟩

theorem solid_ite {p : Prop} [Decidable p] {s t : State} (hs : Solid s) (ht : Solid t) :
    Solid (if p then s else t) := by
  split <;> assumption

theorem solidAnswer_ite {p : Prop} [Decidable p] {a b : Answer} (ha : SolidAnswer a) (hb : SolidAnswer b) :
    SolidAnswer (if p then a else b) := by
  split <;> assumption

theorem solid_foldl {α : Type} {g : State → α → State} (hg : ∀ s a, Solid s → Solid (g s a)) (l : List α) {s : State}
    (h : Solid s) : Solid (l.foldl g s) := sound_foldl hg l h

theorem solid_reset : Solid State.reset :=
  ⟨fun _ he => absurd he List.not_mem_nil, rfl, rfl, rfl, rfl, rfl⟩

section
variable {s : State} (h : Solid s)
include h

/-! ### Updates of the state -/

theorem solid_put (f : Fld) (i v : Nat) : Solid (s.put f i v) := sound_put h f i v

theorem solid_bumpBy (f : Fld) (i n : Nat) : Solid (s.bumpBy f i n) := sound_bumpBy h f i n

theorem solid_bump (f : Fld) (i : Nat) : Solid (s.bump f i) := sound_bump h f i

theorem solid_resetRegs (keep : Kept → Bool) (reach : Fld → Nat → Bool) : Solid (s.resetRegs keep reach) :=
  sound_resetRegs h keep reach

theorem solid_latch (f : Fld) (i v : Nat) : Solid (s.latch f i v) := h

theorem solid_setLo (f : Fld) (i v : Nat) : Solid (s.setLo f i v) := h

theorem solid_fresh (bits : Nat) : Solid (s.fresh bits).2 := h

theorem solid_emit (x : Tx) : Solid (s.emit x) := h

theorem solid_setChase (n : Nat) (c : Chase) : Solid (s.setChase n c) := h

theorem solid_setCtx (k : Nat) (c : Context) : Solid (s.setCtx k c) := h

theorem solid_setPort (p : Nat) (x : Port) : Solid (s.setPort p x) := h

theorem solid_setFq (e : Nat) (l : List FireCmd) : Solid (s.setFq e l) := h

theorem solid_setChan (c : Nat) (x : ChanSt) : Solid (s.setChan c x) := h

theorem solid_setEnc (e : Nat) (x : EncSt) : Solid (s.setEnc e x) := h

theorem solid_setEmu (o : Nat) (x : Emu) : Solid (s.setEmu o x) := h

theorem solid_setEport (p : Nat) (x : EPortSt) : Solid (s.setEport p x) := h

theorem solid_setServo (d : Nat) (x : Servo) : Solid (s.setServo d x) := h

theorem solid_setRing (r : Nat) (x : RingSt) : Solid (s.setRing r x) := h

theorem solid_setMbox (m : Nat) (x : Mailbox) : Solid (s.setMbox m x) := h

/-! ### The operations, in the order of the model -/

/-! #### Of Machine/Ops -/

theorem solid_fireVector (fn v : Nat) : Solid (fireVector s fn v) :=
  sound_fireVector h ..

theorem solid_logEvent (code source severity : Nat) (details : List Nat) :
    Solid (logEvent s code source severity details) :=
  sound_logEvent h ..

theorem solid_regFault (fn addr val : Nat) : Solid (regFault s fn addr val) := by
  unfold regFault
  grind [solid_logEvent]

theorem solid_ringAdvance (r : Nat) : Solid (ringAdvance s r) :=
  sound_ringAdvance h ..

theorem solid_ringWrite (r : Nat) (b : List Byte) : Solid (ringWrite s r b) :=
  sound_ringWrite h ..

theorem solid_ringDrain (n r : Nat) : Solid (ringDrain n s r) := sound_ringDrain n h r

theorem solid_stageRecord (r first : Nat) (b : List Byte) : Solid (stageRecord s r first b) :=
  sound_stageRecord h ..

theorem solid_stageEvent (fn : Nat) (b : List Byte) : Solid (stageEvent s fn b) := by
  unfold stageEvent
  grind [solid_stageRecord]

theorem solid_mailboxVector (m : Nat) : Solid (mailboxVector s m) := by
  unfold mailboxVector
  grind [solid_fireVector]

theorem solid_queueCompletion (m : Nat) (c : Cpl) : Solid (queueCompletion s m c) :=
  sound_queueCompletion h ..

theorem solid_complete (m fn tag : Nat) (ring : Option Word) (code : Nat) (details : List Word) :
    Solid (complete s m fn tag ring code details) :=
  sound_complete h ..

theorem solid_answer (r : Req) (code : Nat) (details : List Word) : Solid (answer s r code details) :=
  sound_answer h ..

theorem solid_takeRequest (r : Req) : Solid (takeRequest s r) := by
  unfold takeRequest
  grind [solid_setMbox]

theorem solid_firmware (r : Req) (always hello : Bool) (run : State → State) (hrun : ∀ t, Solid t → Solid (run t)) :
    Solid (firmware s r always hello run) := by
  unfold firmware
  grind [solid_takeRequest, solid_answer]

theorem solid_pf0Only (r : Req) (run : State → State) (hrun : ∀ t, Solid t → Solid (run t)) :
    Solid (pf0Only r s run) := by
  unfold pf0Only
  grind [solid_answer]

theorem solid_overPcie {t : State} (ht : Solid t) : Solid (overPcie s t) := solid_ite ht h

theorem solid_quoinAcquire (q id : Nat) : Solid (quoinAcquire s q id).2 := by
  unfold quoinAcquire
  grind [solid_put]

theorem solid_quoinRelease (q id : Nat) : Solid (quoinRelease s q id).2 := by
  unfold quoinRelease
  grind [solid_put]

theorem solid_quoinClear (q id : Nat) : Solid (quoinClear s q id).2 := by
  unfold quoinClear
  grind [solid_put]

theorem solid_quoinBreak (id gen q : Nat) : Solid (quoinBreak id gen q s) := by
  unfold quoinBreak
  grind [solid_put]

theorem solid_quoinsBreak (id gen : Nat) : Solid (quoinsBreak s id gen) := by
  unfold quoinsBreak
  grind [solid_quoinBreak, solid_foldl]

/-! #### Of Machine/Operands -/

theorem solid_setMem (m : Nat) {x : Memory} (hx : Memory.wf x = true) : Solid (s.setMem m x) := by
  unfold State.setMem
  split <;> grind [solid_mk_iff, fits_of_solid, Fits]

theorem memOf_wf_of_solid (m : Nat) : Memory.wf (s.memOf m) = true := memOf_wf h.2 m

theorem solid_noteLine (q : SeqId) (d : Desc) (h0 : Nat) : Solid (noteLine s q d h0) :=
  sound_noteLine h ..

omit h in
theorem foldl_wf {α : Type} {g : Memory → α → Memory} (hg : ∀ m a, Memory.wf m = true → Memory.wf (g m a) = true)
    (l : List α) {m : Memory} (hm : Memory.wf m = true) : Memory.wf (l.foldl g m) = true := by
  induction l generalizing m with
  | nil => exact hm
  | cons a l ih => exact ih (hg m a hm)

omit h in
theorem foldl_fst_wf {α : Type} {g : Memory × Nat → α → Memory × Nat}
    (hg : ∀ x a, Memory.wf x.1 = true → Memory.wf (g x a).1 = true) (l : List α) {x : Memory × Nat}
    (hx : Memory.wf x.1 = true) : Memory.wf (l.foldl g x).1 = true := by
  induction l generalizing x with
  | nil => exact hx
  | cons a l ih => exact ih (hg x a hx)

theorem solid_writeTensor (q : SeqId) (d : Desc) (h0 : Nat) (code : Nat → Nat → Nat → Nat) :
    Solid (writeTensor s q d h0 code).1 := by
  unfold writeTensor
  refine solid_setMem h _ (memZero_wf (foldl_fst_wf (fun a i ha => ?_) _ (memOf_wf h.2 _)) _ _)
  exact foldl_fst_wf (fun a cb ha => memStore_wf ha _ _) _ ha

/-! #### Of Machine/Flags -/

theorem solid_countNums (n : Nat) (e : Nums) : Solid (countNums s n e) := by
  unfold countNums
  grind [solid_put, solid_bumpBy]

/-! #### Of Machine/Links -/

theorem solid_transmit (p : Nat) (pkt : Packet) : Solid (transmit s p pkt) := by
  unfold transmit
  grind [solid_setPort, solid_emit]

theorem solid_sendOn (p : Nat) (pkt : Packet) : Solid (sendOn s p pkt) := by
  unfold sendOn
  grind [solid_transmit, solid_setPort]

theorem solid_sendThrough (p : Nat) (pkt : Packet) : Solid (sendThrough s p pkt) := by
  unfold sendThrough
  grind [solid_transmit, solid_setPort]

theorem solid_drainWaiting (n p : Nat) : Solid (drainWaiting n s p) := by
  induction n generalizing s with
  | zero => exact h
  | succ n ih =>
    unfold drainWaiting
    grind [solid_transmit, solid_setPort]

theorem solid_drainPort (p : Nat) : Solid (drainPort s p) := by
  unfold drainPort
  grind [solid_drainWaiting]

theorem solid_sendCtrl (dest : Nat) (m : CtrlMsg) : Solid (sendCtrl s dest m) := by
  unfold sendCtrl
  grind [solid_sendOn, solid_bump]

theorem solid_countMissing (n code : Nat) : Solid (countMissing s n code) := by
  unfold countMissing
  grind [solid_bump]

theorem solid_markMissing (n code : Nat) (p : SortOut → Bool) : Solid (markMissing s n code p) := by
  unfold markMissing
  grind [solid_countMissing, solid_setChase, solid_foldl]

theorem solid_acceptReply (i : SortHdr) (output : List Byte) : Solid (acceptReply s i output) := by
  unfold acceptReply
  grind [solid_bump, solid_setChase, solid_countMissing]

theorem solid_sendReply (i : SortHdr) (status : Nat) (output : List Byte) : Solid (sendReply s i status output) := by
  unfold sendReply
  grind [solid_acceptReply, solid_sendOn, solid_bump]

theorem solid_deliverSort (i : SortHdr) (payload : List Byte) : Solid (deliverSort s i payload) := by
  unfold deliverSort
  grind [solid_sendReply, solid_bump, solid_setChase]

theorem solid_answerInbound (n : Nat) : Solid (answerInbound s n) := by
  unfold answerInbound
  grind [solid_sendReply, solid_setChase, solid_foldl]

/-! #### Of Machine/Issue -/

theorem solid_latchTrap (q : SeqId) (o : Op) (pc cause : Nat) : Solid (latchTrap s q o pc cause) := by
  unfold latchTrap
  grind [solid_bump, solid_put]

theorem solid_raiseTrap (q : SeqId) (o : Op) (pc cause : Nat) : Solid (raiseTrap s q o pc cause) := by
  unfold raiseTrap
  grind [solid_latchTrap, solid_answerInbound, solid_put, solid_setChase, solid_logEvent]

theorem solid_havoc (w : Span) : Solid (havoc s w) := by
  unfold havoc
  grind [solid_setMem, solid_mk_iff, fits_of_solid, memStore_wf, memOf_wf_of_solid]

theorem solid_disturb (n : Nat) (writes : List Span) : Solid (disturb s n writes) := by
  unfold disturb
  grind [solid_havoc, solid_foldl]

theorem solid_occupy (q : SeqId) (o : Op) (reads writes : List Span) (furniture : Bool) (rows : List (Nat × Nat ×
    List Byte)) :
    Solid (occupy s q o reads writes furniture rows) :=
  sound_occupy h ..

theorem solid_modSeq (q : SeqId) (f : Seq → Seq) : Solid (modSeq s q f) :=
  sound_modSeq h ..

theorem solid_retire (q : SeqId) : Solid (retire q s) :=
  sound_retire h ..

theorem solid_issue (q : SeqId) (w : ZWord) (row : Op → Bool) {on : Op → Seq → State → State}
    (hon : ∀ o x t, Solid t → Solid (on o x t)) : Solid (issue q w s row on) := by
  unfold issue
  grind [solid_raiseTrap, solid_retire, solid_occupy]

theorem solid_issueRegs (q : SeqId) (w : ZWord) (row : Op → Bool) (f : Op → Seq → Seq) :
    Solid (issueRegs q w s row f) := by
  unfold issueRegs
  grind [solid_issue, solid_retire, solid_modSeq]

/-! #### Of Machine/Crops -/

theorem solid_cropDrop (k : Nat) : Solid (cropDrop s k) := by
  unfold cropDrop
  grind [solid_setCtx, solid_bump]

theorem solid_addCropRecord (k ty : Nat) (payload : List Byte) : Solid (addCropRecord s k ty payload) := by
  unfold addCropRecord
  grind [solid_cropDrop, solid_setCtx]

theorem solid_deliverPage (k : Nat) (p : Page) : Solid (deliverPage s k p) := by
  unfold deliverPage
  grind [solid_setCtx, solid_ringAdvance, solid_put, solid_mk_iff, fits_of_solid, Fits, memStore_wf]

/-! #### Of Machine/Mailbox -/

theorem solid_postMessage (fn id m len : Nat) (chan : Bool) (words : List Word) (ring : Option Word) :
    Solid (postMessage s fn id m len chan words ring).2 := by
  unfold postMessage
  grind [solid_setMbox, solid_mailboxVector]

theorem solid_postFrom (fn m len : Nat) (chan : Bool) : Solid (postFrom s fn m len chan) := by
  unfold postFrom
  grind [solid_postMessage, solid_put]

theorem solid_execMbxPost (fn : Fn) (m : MbxNo) (len : BitVec 7) (channel : Bool) :
    SolidAnswer (execMbxPost fn m len channel s) := by
  unfold execMbxPost
  grind [solidAnswer_next, solid_overPcie, solid_postFrom]

theorem solid_takeHead (fn : Option Nat) (m code : Nat) : Solid (takeHead s fn m code) := by
  unfold takeHead
  grind [solid_complete, solid_setMbox]

theorem solid_execMbxTake (fn : Option Fn) (m : MbxNo) (code : BitVec 8) : SolidAnswer (execMbxTake fn m code s) := by
  unfold execMbxTake
  grind [solidAnswer_next, solid_takeHead, solid_overPcie]

theorem solid_popCompletion (m : Nat) : Solid (popCompletion s m) := by
  unfold popCompletion
  grind [solid_setMbox]

theorem solid_execMbxCplPop (fn : Fn) (m : MbxNo) : SolidAnswer (execMbxCplPop fn m s) := by
  unfold execMbxCplPop
  grind [solidAnswer_next, solid_overPcie, solid_popCompletion]

theorem solid_execQacqRead (fn : Fn) (q : QuoinNo) : SolidAnswer (execQacqRead fn q s) := by
  unfold execQacqRead
  grind [solidAnswer_next, solid_quoinAcquire, solid_overPcie, solid_mk_iff, fits_of_solid]

theorem solid_quoinPort (fn op q : Nat) : Solid (quoinPort s fn op q) := by
  unfold quoinPort
  grind [solid_quoinRelease, solid_quoinClear, solid_put]

theorem solid_execQopRelease (fn : Fn) (q : QuoinNo) : SolidAnswer (execQopRelease fn q s) := by
  unfold execQopRelease
  grind [solidAnswer_next, solid_overPcie, solid_quoinPort]

theorem solid_execQopClear (fn : Fn) (q : QuoinNo) : SolidAnswer (execQopClear fn q s) := by
  unfold execQopClear
  grind [solidAnswer_next, solid_overPcie, solid_quoinPort]

theorem solid_discardMessages (m : Nat) : Solid (discardMessages s m) := by
  unfold discardMessages
  grind [solid_bump, solid_complete, solid_setMbox, solid_foldl]

theorem solid_resetReceiver (m : Nat) : Solid (resetReceiver s m) := by
  unfold resetReceiver
  grind [solid_discardMessages, solid_put]

theorem solid_staleSender (id : Nat) : Solid (staleSender s id) := by
  unfold staleSender
  grind [solid_mk_iff, fits_of_solid]

/-! #### Of Machine/Galley -/

theorem solid_pushSlot (k : Nat) (g : Slug) : Solid (pushSlot s k g) := by
  unfold pushSlot
  grind [solid_put, solid_setCtx]

theorem solid_placeMarker (k : Nat) (g : Gap) : Solid (placeMarker s k g) := by
  unfold placeMarker
  grind [solid_bump, solid_pushSlot, solid_setCtx]

theorem solid_placeClosed (n k : Nat) : Solid (placeClosed n s k) := by
  induction n generalizing s with
  | zero => exact h
  | succ n ih =>
    unfold placeClosed
    grind [solid_placeMarker, solid_setCtx]

theorem solid_placeWaiting (k : Nat) : Solid (placeWaiting s k) := by
  unfold placeWaiting
  grind [solid_placeClosed]

theorem solid_gapLine (k : Nat) (t : Trig) (reason : Nat) : Solid (gapLine s k t reason) := by
  unfold gapLine
  grind [solid_placeWaiting, solid_setCtx]

theorem solid_loseLine (k : Nat) (t : Trig) (reason : Nat) : Solid (loseLine s k t reason) := by
  unfold loseLine
  grind [solid_gapLine, solid_bump]

theorem solid_commitSlug (k : Nat) (t : Trig) (g : Slug) : Solid (commitSlug s k t g) := by
  unfold commitSlug
  grind [solid_placeWaiting, solid_placeMarker, solid_setCtx, solid_pushSlot, solid_loseLine]

theorem solid_emptyGalley (k : Nat) : Solid (emptyGalley s k) := by
  unfold emptyGalley
  grind [solid_setCtx]

/-! #### Of Machine/Scalar -/

theorem solid_execNop (q : SeqId) (w : ZWord) : SolidAnswer (execNop q w s) := by
  unfold execNop
  grind [solidAnswer_next, solid_issueRegs]

theorem solid_execSets (q : SeqId) (w : ZWord) : SolidAnswer (execSets q w s) := by
  unfold execSets
  grind [solidAnswer_next, solid_issueRegs]

theorem solid_execAlu (q : SeqId) (w : ZWord) : SolidAnswer (execAlu q w s) := by
  unfold execAlu
  grind [solidAnswer_next, solid_issueRegs]

theorem solid_execCmp (q : SeqId) (w : ZWord) : SolidAnswer (execCmp q w s) := by
  unfold execCmp
  grind [solidAnswer_next, solid_issueRegs]

theorem solid_execDld (q : SeqId) (w : ZWord) : SolidAnswer (execDld q w s) := by
  unfold execDld
  grind [solidAnswer_next, solid_issue, solid_retire, solid_modSeq]

theorem solid_execDadd (q : SeqId) (w : ZWord) : SolidAnswer (execDadd q w s) := by
  unfold execDadd
  grind [solidAnswer_next, solid_issueRegs]

theorem solid_execLoop (q : SeqId) (w : ZWord) : SolidAnswer (execLoop q w s) := by
  unfold execLoop
  grind [solidAnswer_next, solid_issue, solid_modSeq]

theorem solid_execBr (q : SeqId) (w : ZWord) : SolidAnswer (execBr q w s) := by
  unfold execBr
  grind [solidAnswer_next, solid_issue, solid_modSeq]

theorem solid_syncUnits (q : SeqId) (o : Op) : Solid (syncUnits q o s) := by
  unfold syncUnits
  grind [solid_retire, solid_modSeq]

theorem solid_execSync (q : SeqId) (w : ZWord) : SolidAnswer (execSync q w s) := by
  unfold execSync
  grind [solidAnswer_next, solid_syncUnits, solid_issue, solid_modSeq]

theorem solid_execBarrierRelease (n : ChaseNo) (barrier : Fin 16) : SolidAnswer (execBarrierRelease n barrier s) := by
  unfold execBarrierRelease
  grind [solidAnswer_next, solid_setChase]

theorem solid_bandStart (n slot line : Nat) : Solid (bandStart s n slot line) := by
  unfold bandStart
  grind [solid_setCtx, solid_placeWaiting, solid_setChase]

theorem solid_forgetLines (n : Nat) : Solid (forgetLines s n) := by
  unfold forgetLines
  grind [solid_setChase]

theorem solid_afterWaitl (q : SeqId) (slot line status : Nat) : Solid (afterWaitl q slot line status s) := by
  unfold afterWaitl
  grind [solid_bandStart, solid_forgetLines]

theorem solid_execWaitl (q : SeqId) (w : ZWord) : SolidAnswer (execWaitl q w s) := by
  unfold execWaitl
  grind [solidAnswer_next, solid_issue, solid_afterWaitl, solid_modSeq]

theorem solid_execWaitlRelease (q : SeqId) : SolidAnswer (execWaitlRelease q s) := by
  unfold execWaitlRelease
  grind [solidAnswer_next, solid_afterWaitl, solid_modSeq]

theorem solid_execWaitlTimeout (q : SeqId) : SolidAnswer (execWaitlTimeout q s) := by
  unfold execWaitlTimeout
  grind [solidAnswer_next, solid_afterWaitl, solid_modSeq]

theorem solid_execWaite (q : SeqId) (w : ZWord) : SolidAnswer (execWaite q w s) := by
  unfold execWaite
  grind [solidAnswer_next, solid_issue, solid_modSeq]

theorem solid_execWaiteRelease (q : SeqId) : SolidAnswer (execWaiteRelease q s) := by
  unfold execWaiteRelease
  grind [solidAnswer_next, solid_modSeq]

theorem solid_execWaiteTimeout (q : SeqId) : SolidAnswer (execWaiteTimeout q s) := by
  unfold execWaiteTimeout
  grind [solidAnswer_next, solid_modSeq]

theorem solid_execHalt (q : SeqId) (w : ZWord) : SolidAnswer (execHalt q w s) := by
  unfold execHalt
  grind [solidAnswer_next, solid_issue, solid_modSeq, solid_put, solid_setChase]

theorem solid_execTrap (q : SeqId) (w : ZWord) : SolidAnswer (execTrap q w s) := by
  unfold execTrap
  grind [solidAnswer_next, solid_issue, solid_retire]

/-! #### Of Machine/Kernel -/

theorem solid_applyBank (k target bank line : Nat) (req : Option Req) :
    Solid (applyBank s k target bank line req) := by
  unfold applyBank
  grind [solid_bump, solid_answer, solid_setCtx]

theorem solid_execParam (q : SeqId) (w : ZWord) : SolidAnswer (execParam q w s) := by
  unfold execParam
  grind [solidAnswer_next, solid_issue, solid_retire, solid_modSeq, solid_bump, solid_applyBank]

theorem solid_setRate (n res rate : Nat) : Solid (setRate s n res rate).2 := by
  unfold setRate
  grind [solid_setChase, solid_bump]

theorem solid_execBwset (q : SeqId) (w : ZWord) : SolidAnswer (execBwset q w s) := by
  unfold execBwset
  grind [solidAnswer_next, solid_issue, solid_setRate, solid_retire, solid_modSeq]

theorem solid_execMbx (q : SeqId) (w : ZWord) : SolidAnswer (execMbx q w s) := by
  unfold execMbx
  grind [solidAnswer_next, solid_issue, solid_postMessage, solid_retire, solid_modSeq]

theorem solid_quoinRow (q : SeqId) (w : ZWord) (sub : Nat) {op : State → Nat → Nat → Nat × State}
    (hop : ∀ t i id, Solid t → Solid (op t i id).2) (held : Nat → Bool) : Solid (quoinRow q w s sub op held) :=
  solid_issue h q w _ (fun _ _ t ht => solid_retire (solid_modSeq (hop t _ _ ht) q _) q)

theorem solid_execQuoinAcquire (q : SeqId) (w : ZWord) : SolidAnswer (execQuoinAcquire q w s) := by
  unfold execQuoinAcquire
  grind [solidAnswer_next, solid_quoinRow, solid_quoinAcquire]

theorem solid_execQuoinRelease (q : SeqId) (w : ZWord) : SolidAnswer (execQuoinRelease q w s) := by
  unfold execQuoinRelease
  grind [solidAnswer_next, solid_quoinRow, solid_quoinRelease]

theorem solid_execQuoinClear (q : SeqId) (w : ZWord) : SolidAnswer (execQuoinClear q w s) := by
  unfold execQuoinClear
  grind [solidAnswer_next, solid_quoinRow, solid_quoinClear]

/-! #### Of Machine/Pipe -/

theorem solid_closeStats (k : Nat) : Solid (closeStats s k) := by
  unfold closeStats
  grind [solid_setCtx, solid_addCropRecord, solid_mk_iff, fits_of_solid]

theorem solid_openStats (k line : Nat) : Solid (openStats s k line).1 := by
  unfold openStats
  dsimp only
  split
  · exact solid_ite (solid_closeStats h k) h
  · exact h

theorem solid_keepStats (k : Nat) (line : Nat) (b : Stats) : Solid (keepStats s k line b) := by
  unfold keepStats
  have hkept := solid_setCtx h k { s.context k with stats := some b }
  exact solid_ite (solid_closeStats hkept k) hkept

theorem solid_statsLost (k line : Nat) : Solid (statsLost s k line) := by
  unfold statsLost
  grind [solid_openStats, solid_keepStats]

theorem solid_statsLine (k line : Nat) (px : List (List Nat)) (black : List Nat) :
    Solid (statsLine s k line px black) := by
  unfold statsLine
  grind [solid_openStats, solid_keepStats, solid_foldl]

theorem solid_switchBank (k line t : Nat) : Solid (switchBank s k line t) := by
  unfold switchBank
  grind [solid_setCtx, solid_put, solid_answer]

theorem solid_switchBanks (k line : Nat) : Solid (switchBanks s k line) := by
  unfold switchBanks
  grind [solid_switchBank, solid_foldl]

theorem solid_stagePixels (k : Nat) (samples : List Nat) : Solid (stagePixels s k samples) := by
  unfold stagePixels
  grind [solid_setCtx]

theorem solid_pipeLine (k line : Nat) (samples : List Nat) : Solid (pipeLine s k line samples).1 := by
  unfold pipeLine
  grind [solid_setCtx, solid_bump, solid_mk_iff, fits_of_solid]

theorem solid_serveLine (k line : Nat) (samples : List Nat) : Solid (serveLine s k line samples).1 := by
  unfold serveLine
  grind [solid_switchBanks, solid_pipeLine, solid_stagePixels]

theorem solid_execPipeStage (r : Req) (k : Ctx) (target : Fin 4) (bank : Fin 2) (addr size : Nat) :
    SolidAnswer (execPipeStage r k target bank addr size s) := by
  unfold execPipeStage
  grind [solidAnswer_next, solid_firmware, solid_answer, solid_setCtx]

theorem solid_execPipeStageDone (k : Ctx) : SolidAnswer (execPipeStageDone k s) := by
  unfold execPipeStageDone
  grind [solidAnswer_next, solid_setCtx, solid_answer, solid_mk_iff, fits_of_solid, Fits, memStore_wf]

theorem solid_execPipeApply (r : Req) (k : Ctx) (target : Fin 4) (bank : Fin 2) (line : BitVec 48) :
    SolidAnswer (execPipeApply r k target bank line s) := by
  unfold execPipeApply
  grind [solidAnswer_next, solid_firmware, solid_answer, solid_applyBank]

/-! #### Of Machine/Tensor -/

theorem solid_storeCells (q : SeqId) (d : Desc) (h0 : Nat) (f : Nat → Nat → Nat → Ev Nat) :
    Solid (storeCells s q d h0 f) := by
  unfold storeCells
  grind [solid_writeTensor, solid_countNums, solid_bumpBy]

theorem solid_storeTensor (q : SeqId) (d : Desc) (h0 : Nat) (f : Nat → Nat → Nat → Ev Nat) :
    Solid (storeTensor s q d h0 f) := by
  unfold storeTensor
  grind [solid_storeCells, solid_noteLine]

theorem solid_countBad (q : SeqId) (x : Src) : Solid (countBad s q x) := by
  unfold countBad
  grind [solid_countNums]

theorem solid_readCorrected (sp : Span) : Solid (readCorrected s sp) :=
  sound_readCorrected h ..

theorem solid_readSources (spans : List Span) : Solid (readSources s spans) :=
  sound_readSources h ..

theorem solid_skipFree (l : List Src) : Solid (skipFree s l) := by
  unfold skipFree
  grind [solid_mk_iff, fits_of_solid]

theorem solid_regulated (q : SeqId) (x : Seq) (ds : List Desc) (go : State → State) (hgo : ∀ t, Solid t → Solid (go
    t)) :
    Solid (regulated s q x ds go) := by
  unfold regulated
  grind [solid_setChase, solid_foldl]

theorem solid_onUnitsWith (q : SeqId) (o : Op) (srcs dsts : List Desc) (rows : List (Nat × Nat × List Byte)) (f :
    State → State) (hf : ∀ t, Solid t → Solid (f t)) :
    Solid (onUnitsWith q o srcs dsts rows s f) := by
  unfold onUnitsWith
  grind [solid_disturb, solid_skipFree, solid_retire, solid_occupy, solid_readSources]

theorem solid_onUnits (q : SeqId) (o : Op) (srcs dsts : List Desc) (f : State → State) (hf : ∀ t, Solid t → Solid (f
    t)) :
    Solid (onUnits q o srcs dsts s f) := by
  unfold onUnits
  grind [solid_onUnitsWith]

/-! #### Of Machine/Records -/

theorem solid_execReplayStart (r : Req) (k : Ctx) (addr size : Nat) (start : BitVec 48) (looped : Bool) :
    SolidAnswer (execReplayStart r k addr size start looped s) := by
  unfold execReplayStart
  grind [solidAnswer_next, solid_firmware, solid_answer, solid_setCtx]

theorem solid_execReplayStop (r : Req) (k : Ctx) : SolidAnswer (execReplayStop r k s) := by
  unfold execReplayStop
  grind [solidAnswer_next, solid_firmware, solid_answer, solid_setCtx]

theorem solid_chargePrefetch (k : Nat) (p : Replay) {t : State} {r : Replay × Bool}
    (ht : chargePrefetch s k p = some (t, r)) : Solid t := by
  unfold chargePrefetch at ht
  grind [solid_setChase]

theorem solid_execReplayPrefetch (k : Ctx) : SolidAnswer (execReplayPrefetch k s) := by
  unfold execReplayPrefetch
  grind [solidAnswer_next, solid_chargePrefetch, solid_setCtx]

theorem solid_execTrainStart (r : Req) (n : ChaseNo) (p : TrainParams) : SolidAnswer (execTrainStart r n p s) := by
  unfold execTrainStart
  grind [solidAnswer_next, solid_firmware, solid_answer, solid_put, solid_setChase]

theorem solid_execTrainStop (r : Req) (n : ChaseNo) : SolidAnswer (execTrainStop r n s) := by
  unfold execTrainStop
  grind [solidAnswer_next, solid_firmware, solid_answer, solid_setChase]

theorem solid_fillBatch (n : Nat) (t : Trainer) (arrival : List Nat) : Solid (fillBatch s n t arrival) := by
  unfold fillBatch
  grind [solid_put, solid_setChase, solid_mk_iff, fits_of_solid, Fits, memStore_wf]

theorem solid_execBatchFill (n : ChaseNo) (arrival : List Nat) : SolidAnswer (execBatchFill n arrival s) := by
  unfold execBatchFill
  grind [solidAnswer_next, solid_fillBatch]

/-! #### Of Machine/Epochs -/

theorem solid_setRole (n : Nat) : Solid (setRole s n) := by
  unfold setRole
  grind [solid_put]

theorem solid_sendToMask (mask : BitVec 16) (m : CtrlMsg) : Solid (sendToMask s mask m) := by
  unfold sendToMask
  grind [solid_sendCtrl, solid_foldl]

theorem solid_commitEpoch (n epoch : Nat) (mask : BitVec 16) : Solid (commitEpoch s n epoch mask) := by
  unfold commitEpoch
  grind [solid_sendToMask, solid_setChase]

theorem solid_propose (n : Nat) : Solid (propose s n) := by
  unfold propose
  grind [solid_setChase, solid_commitEpoch, solid_sendToMask]

theorem solid_wantPropose (n : Nat) : Solid (wantPropose s n) := by
  unfold wantPropose
  grind [solid_setChase, solid_propose]

theorem solid_joinImposition (n : Nat) : Solid (joinImposition s n) := by
  unfold joinImposition
  grind [solid_setChase, solid_put, solid_setRole, solid_sendToMask]

theorem solid_leaveImposition (n : Nat) : Solid (leaveImposition s n) := by
  unfold leaveImposition
  grind [solid_setChase, solid_put]

theorem solid_enterHoldover : Solid (enterHoldover s) := by
  unfold enterHoldover
  grind [solid_logEvent, solid_put, solid_mk_iff, fits_of_solid]

theorem solid_chooseSource (src : ClkSource) (steps : Int) : Solid (chooseSource s src steps) := by
  unfold chooseSource
  grind [solid_enterHoldover, solid_logEvent, solid_put, solid_mk_iff, fits_of_solid]

theorem solid_leavePort : Solid (leavePort s) := by
  unfold leavePort
  grind [solid_fresh, solid_chooseSource, solid_enterHoldover]

theorem solid_updateClk : Solid (updateClk s) := by
  unfold updateClk
  grind [solid_put, solid_leavePort]

theorem solid_clearLink (p : Nat) : Solid (clearLink s p) := by
  unfold clearLink
  grind [solid_setPort]

theorem solid_modulesLost (mask : BitVec 16) (hit : SortOut → Bool) (named : Bool) :
    Solid (modulesLost s mask hit named) := by
  unfold modulesLost
  grind [solid_markMissing, solid_setChase, solid_setRole, solid_wantPropose, solid_foldl]

theorem solid_sendUnreach (mask : BitVec 16) : Solid (sendUnreach s mask) := by
  unfold sendUnreach
  grind [solid_sendToMask, solid_foldl]

theorem solid_linkDown (p : Nat) : Solid (linkDown s p) := by
  unfold linkDown
  grind [solid_emit, solid_put, solid_bump, solid_clearLink, solid_logEvent, solid_modulesLost, solid_updateClk,
    solid_sendUnreach]

/-! #### Of Machine/Fire -/

theorem solid_fireDrop (e : Nat) (c : FireCmd) : Solid (fireDrop s e c) := by
  unfold fireDrop
  grind [solid_bump, solid_put]

theorem solid_fireCloseSpoil (e : Nat) : Solid (fireCloseSpoil s e) := by
  unfold fireCloseSpoil
  grind [solid_stageEvent, solid_put]

theorem solid_pushFire (c : FireCmd) : Solid (pushFire s c).2 := by
  unfold pushFire
  grind [solid_bump, solid_fireDrop, solid_fireCloseSpoil, solid_setFq]

/-! #### Of Machine/Verdict -/

theorem solid_issueVerdict (n : Nat) (it : Item) (path : Nat) (d : Decision) (unbound : Bool) :
    Solid (issueVerdict s n it path d unbound).2 := by
  unfold issueVerdict
  grind [solid_bump, solid_setCtx, solid_pushFire, solid_stageRecord]

theorem solid_freeHandle (n i : Nat) (mon : Bool) : Solid (freeHandle s n i mon) := by
  unfold freeHandle
  grind [solid_setChase]

theorem solid_monitorDecide (n i : Nat) (it : Item) (path : Nat) (d : Decision) (unbound : Bool) :
    Solid (monitorDecide s n i it path d unbound) := by
  unfold monitorDecide
  grind [solid_issueVerdict, solid_freeHandle]

theorem solid_handOver (n i : Nat) (it : Item) : Solid (handOver s n i it) := by
  unfold handOver
  grind [solid_setChase]

theorem solid_monitorTick (n : Nat) : Solid (monitorTick s n) := by
  unfold monitorTick
  grind [solid_monitorDecide]

theorem solid_execDeadlineReached (n : ChaseNo) (i : BitVec 8) : SolidAnswer (execDeadlineReached n i s) := by
  unfold execDeadlineReached
  grind [solidAnswer_next, solid_handOver]

theorem solid_execExitRecordValid (n : ChaseNo) (i : BitVec 8) : SolidAnswer (execExitRecordValid n i s) := by
  unfold execExitRecordValid
  grind [solidAnswer_next, solid_monitorDecide]

theorem solid_execExitLimitReached (n : ChaseNo) (i : BitVec 8) : SolidAnswer (execExitLimitReached n i s) := by
  unfold execExitLimitReached
  grind [solidAnswer_next, solid_monitorDecide]

theorem solid_clearExit (n i : Nat) : Solid (clearExit s n i) := by
  unfold clearExit
  grind [solid_mk_iff, fits_of_solid, Fits, memWrite_wf]

theorem solid_openItem (n k slot line fire : Nat) : Solid (openItem s n k slot line fire).2 := by
  unfold openItem
  grind [solid_issueVerdict, solid_clearExit, solid_setChase, solid_handOver]

theorem solid_execVerdictOpen (q : SeqId) (w : ZWord) : SolidAnswer (execVerdictOpen q w s) := by
  unfold execVerdictOpen
  grind [solidAnswer_next, solid_issue, solid_openItem, solid_retire, solid_modSeq]

theorem solid_decideItem (n i : Nat) (early : Bool) (d : Decision) : Solid (decideItem s n i early d).2 := by
  unfold decideItem
  grind [solid_bump, solid_issueVerdict, solid_freeHandle]

theorem solid_execVerdictDecide (q : SeqId) (w : ZWord) : SolidAnswer (execVerdictDecide q w s) := by
  unfold execVerdictDecide
  grind [solidAnswer_next, solid_issue, solid_decideItem, solid_retire, solid_modSeq]

theorem solid_fireNow (n slot pos mask width : Nat) : Solid (fireNow s n slot pos mask width).2 := by
  unfold fireNow
  grind [solid_bump, solid_pushFire]

theorem solid_execFire (q : SeqId) (w : ZWord) : SolidAnswer (execFire q w s) := by
  unfold execFire
  grind [solidAnswer_next, solid_issue, solid_fireNow, solid_retire, solid_modSeq]

theorem solid_armOneShot (n slot pos conn tag : Nat) : Solid (armOneShot s n slot pos conn tag).2 := by
  unfold armOneShot
  grind [solid_bump, solid_setCtx]

theorem solid_execTrig (q : SeqId) (w : ZWord) : SolidAnswer (execTrig q w s) := by
  unfold execTrig
  grind [solidAnswer_next, solid_issue, solid_armOneShot, solid_retire, solid_modSeq]

theorem solid_execTstamp (q : SeqId) (w : ZWord) : SolidAnswer (execTstamp q w s) := by
  unfold execTstamp
  grind [solidAnswer_next, solid_issueRegs]

theorem solid_unbindItems (n k : Nat) : Solid (unbindItems s n k) := by
  unfold unbindItems
  grind [solid_monitorDecide, solid_logEvent, solid_foldl]

theorem solid_emptyMonitor (n : Nat) : Solid (emptyMonitor s n) := by
  unfold emptyMonitor
  grind [solid_logEvent, solid_setChase, solid_foldl]

/-! #### Of Machine/Camera -/

theorem solid_joinLost (k : Nat) (t : Trig) : Solid (joinLost s k t) := by
  unfold joinLost
  grind [solid_statsLost, solid_gapLine]

theorem solid_settleOrder (n k : Nat) : Solid (settleOrder n s k) := by
  induction n generalizing s with
  | zero => exact h
  | succ n ih =>
    unfold settleOrder
    grind [solid_joinLost, solid_setCtx]

theorem solid_resolveLines (k : Nat) : Solid (resolveLines s k) := by
  unfold resolveLines
  grind [solid_settleOrder]

theorem solid_loseTriggered (k reason : Nat) : Solid (loseTriggered s k reason) := by
  unfold loseTriggered
  grind [solid_bumpBy, solid_setCtx, solid_resolveLines]

theorem solid_loseDevices (lanes : List Nat) : Solid (loseDevices s lanes) := by
  unfold loseDevices
  grind [solid_loseTriggered, solid_foldl]

theorem solid_configGroup (dev rate : Nat) : Solid (configGroup s dev rate) := by
  unfold configGroup
  grind [solid_loseDevices, solid_emit, solid_put, solid_foldl]

theorem solid_excludeLane (l : Nat) (byError : Bool) : Solid (excludeLane s l byError) := by
  unfold excludeLane
  grind [solid_put, solid_logEvent, solid_configGroup]

theorem solid_checkOverrate (k : Nat) : Solid (checkOverrate s k) := by
  unfold checkOverrate
  grind [solid_logEvent, solid_setCtx]

theorem solid_sendControl (n k : Nat) : Solid (sendControl n s k) := by
  induction n generalizing s with
  | zero => exact h
  | succ n ih =>
    unfold sendControl
    grind [solid_answer, solid_setCtx, solid_emit]

theorem solid_pumpControl (k : Nat) : Solid (pumpControl s k) := by
  unfold pumpControl
  grind [solid_sendControl]

theorem solid_endControl (k outcome : Nat) (data : List Byte) : Solid (endControl s k outcome data) := by
  unfold endControl
  grind [solid_pumpControl, solid_answer, solid_setCtx]

theorem solid_postControl (k : Nat) (c : CtrlReq) : Solid (postControl s k c) := by
  unfold postControl
  grind [solid_setMbox, solid_answer, solid_pumpControl, solid_setCtx]

theorem solid_execCameraControlRead (r : Req) (k : Ctx) (settle : Bool) (addr : Word) (len : BitVec 7) :
    SolidAnswer (execCameraControlRead r k settle addr len s) := by
  unfold execCameraControlRead
  grind [solidAnswer_next, solid_postControl]

theorem solid_execCameraControlWrite (r : Req) (k : Ctx) (settle : Bool) (addr : Word) (data : List Byte) :
    SolidAnswer (execCameraControlWrite r k settle addr data s) := by
  unfold execCameraControlWrite
  grind [solidAnswer_next, solid_postControl]

theorem solid_execCameraReply (k : Ctx) (data : List Byte) : SolidAnswer (execCameraReply k data s) := by
  unfold execCameraReply
  grind [solidAnswer_next, solid_endControl]

theorem solid_execCameraReplyTimeout (k : Ctx) : SolidAnswer (execCameraReplyTimeout k s) := by
  unfold execCameraReplyTimeout
  grind [solidAnswer_next, solid_endControl]

theorem solid_discoverLane (l : Nat) (info : LaneInfo) : Solid (discoverLane s l info) := by
  unfold discoverLane
  grind [solid_put, solid_emit, solid_mk_iff, fits_of_solid]

theorem solid_gainLock (l : Nat) (info : LaneInfo) : Solid (gainLock s l info) := by
  unfold gainLock
  grind [solid_put, solid_discoverLane, solid_configGroup, solid_checkOverrate, solid_foldl]

theorem solid_execLaneLock (l : CxpLane) (info : LaneInfo) : SolidAnswer (execLaneLock l info s) := by
  unfold execLaneLock
  grind [solidAnswer_next, solid_gainLock]

theorem solid_execLaneLockTimeout (l : CxpLane) : SolidAnswer (execLaneLockTimeout l s) := by
  unfold execLaneLockTimeout
  grind [solidAnswer_next, solid_excludeLane, solid_configGroup]

theorem solid_setBack (l : Nat) : Solid (setBack s l) := by
  unfold setBack
  grind [solid_excludeLane, solid_mk_iff, fits_of_solid]

theorem solid_lockLost (l : Nat) : Solid (lockLost s l) := by
  unfold lockLost
  grind [solid_bump, solid_put, solid_setBack, solid_endControl, solid_loseDevices, solid_foldl]

theorem solid_execLaneLockLoss (l : CxpLane) : SolidAnswer (execLaneLockLoss l s) := by
  unfold execLaneLockLoss
  grind [solidAnswer_next, solid_lockLost]

theorem solid_execDeviceEventPacket (l : CxpLane) : SolidAnswer (execDeviceEventPacket l s) := by
  unfold execDeviceEventPacket
  grind [solidAnswer_next, solid_bump]

theorem solid_ageTriggers (k : Nat) : Solid (ageTriggers s k) := by
  unfold ageTriggers
  grind [solid_bumpBy, solid_setCtx]

theorem solid_pushLost (k reason : Nat) (t : Trig) : Solid (pushLost s k reason t) := by
  unfold pushLost
  grind [solid_setCtx, solid_bump]

theorem solid_dropDeferred (k : Nat) : Solid (dropDeferred s k) := by
  unfold dropDeferred
  grind [solid_setCtx, solid_pushLost]

theorem solid_sendTrigger (k : Nat) (t : Trig) : Solid (sendTrigger s k t) := by
  unfold sendTrigger
  grind [solid_pushLost, solid_setCtx, solid_bump, solid_emit]

theorem solid_serveTrigger (k : Nat) (t : Trig) : Solid (serveTrigger s k t) := by
  unfold serveTrigger
  grind [solid_dropDeferred, solid_sendTrigger, solid_gapLine, solid_pushLost]

theorem solid_closeLine (k : Nat) (t : Trig) (samples : List Nat) (flags crc : Nat) :
    Solid (closeLine s k t samples flags crc) := by
  unfold closeLine
  grind [solid_joinLost, solid_bump, solid_serveLine, solid_placeWaiting, solid_commitSlug, solid_statsLine,
    solid_statsLost]

theorem solid_injectLine (k : Nat) (p : Replay) (t : Trig) : Solid (injectLine s k p t) := by
  unfold injectLine
  grind [solid_setCtx, solid_joinLost, solid_bump, solid_closeLine]

theorem solid_compareHit (k : Nat) : Solid (compareHit s k) := by
  unfold compareHit
  grind [solid_put, solid_setCtx, solid_loseTriggered, solid_serveTrigger, solid_injectLine, solid_resolveLines,
    solid_ageTriggers]

theorem solid_execTriggerCompareHit (k : Ctx) : SolidAnswer (execTriggerCompareHit k s) := by
  unfold execTriggerCompareHit
  grind [solidAnswer_next, solid_compareHit]

theorem solid_execTriggerPacketEnd (k : Ctx) : SolidAnswer (execTriggerPacketEnd k s) := by
  unfold execTriggerPacketEnd
  grind [solidAnswer_next, solid_sendTrigger, solid_setCtx]

theorem solid_beginLine (k : Nat) : Solid (beginLine s k) := by
  unfold beginLine
  grind [solid_setCtx, solid_bump, solid_put]

theorem solid_execLineBegin (k : Ctx) : SolidAnswer (execLineBegin k s) := by
  unfold execLineBegin
  grind [solidAnswer_next, solid_beginLine]

theorem solid_execStreamPacket (l : CxpLane) (k : Ctx) (crcOk : Bool) (codeErrors : Nat) (framed : Bool) :
    SolidAnswer (execStreamPacket l k crcOk codeErrors framed s) := by
  unfold execStreamPacket
  grind [solidAnswer_next, solid_bump, solid_bumpBy, solid_setCtx]

theorem solid_completeLine (k : Nat) (r : LineRx) (samples : List Nat) : Solid (completeLine s k r samples) := by
  unfold completeLine
  grind [solid_setCtx, solid_bump, solid_resolveLines, solid_closeLine]

theorem solid_execLineComplete (k : Ctx) (samples : List Nat) : SolidAnswer (execLineComplete k samples s) := by
  unfold execLineComplete
  grind [solidAnswer_next, solid_completeLine]

/-! #### Of Machine/Bind -/

theorem solid_discardApplies (k : Nat) : Solid (discardApplies s k) := by
  unfold discardApplies
  grind [solid_answer, solid_setCtx, solid_foldl]

theorem solid_disarmOneShots (k : Nat) : Solid (disarmOneShots s k) := by
  unfold disarmOneShots
  grind [solid_setCtx]

theorem solid_nextGeneration (f : Fld) (i id : Nat) : Solid (nextGeneration s f i id) := by
  unfold nextGeneration
  grind [solid_staleSender, solid_quoinsBreak, solid_put]

theorem solid_nextCtxGen (k : Nat) : Solid (nextCtxGen s k) := by
  unfold nextCtxGen
  grind [solid_nextGeneration]

theorem solid_nextChaseGen (n : Nat) : Solid (nextChaseGen s n) := by
  unfold nextChaseGen
  grind [solid_nextGeneration]

theorem solid_bindContext (n slot k : Nat) (p : BindParams) : Solid (bindContext s n slot k p) := by
  unfold bindContext
  grind [solid_put, solid_setCtx]

theorem solid_execContextBind (r : Req) (n : ChaseNo) (slot : Fin 16) (k : Ctx) (p : BindParams) :
    SolidAnswer (execContextBind r n slot k p s) := by
  unfold execContextBind
  grind [solidAnswer_next, solid_firmware, solid_answer, solid_bindContext]

theorem solid_unbindContext (n k : Nat) : Solid (unbindContext s n k) := by
  unfold unbindContext
  grind [solid_nextCtxGen, solid_disarmOneShots, solid_discardApplies, solid_unbindItems, solid_put, solid_setCtx]

theorem solid_execContextUnbind (r : Req) (n : ChaseNo) (slot : Fin 16) :
    SolidAnswer (execContextUnbind r n slot s) := by
  unfold execContextUnbind
  grind [solidAnswer_next, solid_firmware, solid_answer, solid_unbindContext]

/-! #### Of Machine/Rhasha -/

theorem solid_sendCap (p : Nat) (ack : Bool) : Solid (sendCap s p ack) := by
  unfold sendCap
  grind [solid_emit]

theorem solid_sendTs (p lanes rate : Nat) : Solid (sendTs s p lanes rate) := by
  unfold sendTs
  grind [solid_emit]

theorem solid_enterDetect (p : Nat) : Solid (enterDetect s p) := by
  unfold enterDetect
  grind [solid_setPort, solid_updateClk, solid_put, solid_sendTs]

theorem solid_enterActive (p : Nat) : Solid (enterActive s p) := by
  unfold enterActive
  grind [solid_emit, solid_put, solid_setPort, solid_updateClk, solid_drainPort, solid_foldl]

theorem solid_nextStep (p : Nat) : Solid (nextStep s p) := by
  unfold nextStep
  grind [solid_enterActive, solid_put, solid_setPort, solid_sendTs, solid_emit]

theorem solid_locked (p lanes : Nat) : Solid (locked s p lanes) := by
  unfold locked
  grind [solid_sendCap, solid_put, solid_setPort, solid_nextStep, solid_sendTs, solid_enterActive]

theorem solid_execTsLocked (p : RhPort) (lanes : BitVec 4) : SolidAnswer (execTsLocked p lanes s) := by
  unfold execTsLocked
  grind [solidAnswer_next, solid_locked]

theorem solid_execEqCodeDwell (p : RhPort) (lane : Fin 4) (errors : Nat) :
    SolidAnswer (execEqCodeDwell p lane errors s) := by
  unfold execEqCodeDwell
  grind [solidAnswer_next, solid_setPort, solid_put]

theorem solid_enterWiden (p : Nat) : Solid (enterWiden s p) := by
  unfold enterWiden
  grind [solid_setPort, solid_sendTs, solid_put, solid_foldl]

theorem solid_capGood (p : Nat) (w : BitVec 64) : Solid (capGood s p w) := by
  unfold capGood
  grind [solid_setPort, solid_put, solid_sendCap, solid_enterWiden]

theorem solid_execCapReceived (p : RhPort) (word : BitVec 64) (crc : BitVec 16) :
    SolidAnswer (execCapReceived p word crc s) := by
  unfold execCapReceived
  grind [solidAnswer_next, solid_capGood, solid_setPort]

theorem solid_execCapTimeout (p : RhPort) : SolidAnswer (execCapTimeout p s) := by
  unfold execCapTimeout
  grind [solidAnswer_next, solid_enterDetect]

theorem solid_execWidenTimeout (p : RhPort) : SolidAnswer (execWidenTimeout p s) := by
  unfold execWidenTimeout
  grind [solidAnswer_next, solid_nextStep, solid_put]

theorem solid_enterRetrain (p : Nat) : Solid (enterRetrain s p) := by
  unfold enterRetrain
  grind [solid_updateClk, solid_emit, solid_put, solid_setPort]

theorem solid_execRateReceived (p : RhPort) (code : BitVec 8) (lanes : BitVec 4) :
    SolidAnswer (execRateReceived p code lanes s) := by
  unfold execRateReceived
  grind [solidAnswer_next, solid_enterDetect, solid_setPort, solid_sendTs, solid_put]

theorem solid_execStepTimeout (p : RhPort) : SolidAnswer (execStepTimeout p s) := by
  unfold execStepTimeout
  grind [solidAnswer_next, solid_enterDetect, solid_sendTs, solid_setPort]

theorem solid_execRetrainEnd (p : RhPort) : SolidAnswer (execRetrainEnd p s) := by
  unfold execRetrainEnd
  grind [solidAnswer_next, solid_enterDetect]

theorem solid_execDownEnd (p : RhPort) : SolidAnswer (execDownEnd p s) := by
  unfold execDownEnd
  grind [solidAnswer_next, solid_enterDetect, solid_setPort]

theorem solid_execRhRetrain (fn : Fn) (p : RhPort) : SolidAnswer (execRhRetrain fn p s) := by
  unfold execRhRetrain
  grind [solidAnswer_next, solid_enterRetrain]

theorem solid_execHbSend (p : RhPort) : SolidAnswer (execHbSend p s) := by
  unfold execHbSend
  grind [solidAnswer_next, solid_emit]

theorem solid_execSkpSend (p : RhPort) : SolidAnswer (execSkpSend p s) := by
  unfold execSkpSend
  grind [solidAnswer_next, solid_emit]

theorem solid_execSyncSend (p : RhPort) : SolidAnswer (execSyncSend p s) := by
  unfold execSyncSend
  grind [solidAnswer_next, solid_emit, solid_setPort]

theorem solid_execSyncReceived (p : RhPort) (count : BitVec 16) : SolidAnswer (execSyncReceived p count s) := by
  unfold execSyncReceived
  grind [solidAnswer_next, solid_setPort]

theorem solid_execHbReceived (p : RhPort) (gen st : BitVec 8) : SolidAnswer (execHbReceived p gen st s) := by
  unfold execHbReceived
  grind [solidAnswer_next, solid_linkDown, solid_updateClk, solid_setPort, solid_enterActive, solid_clearLink]

theorem solid_execHbTimeout (p : RhPort) : SolidAnswer (execHbTimeout p s) := by
  unfold execHbTimeout
  grind [solidAnswer_next, solid_linkDown]

theorem solid_execSuspensionTimeout (p : RhPort) : SolidAnswer (execSuspensionTimeout p s) := by
  unfold execSuspensionTimeout
  grind [solidAnswer_next, solid_put, solid_linkDown]

theorem solid_sendNak (p : Nat) : Solid (sendNak s p) := by
  unfold sendNak
  grind [solid_emit, solid_setPort]

theorem solid_sendAck (p : Nat) : Solid (sendAck s p) := by
  unfold sendAck
  grind [solid_emit, solid_setPort]

theorem solid_acknowledge (p n : Nat) : Solid (acknowledge s p n) := by
  unfold acknowledge
  grind [solid_bump, solid_drainPort, solid_setPort]

theorem solid_resend (p : Nat) (l : List Packet) : Solid (resend s p l) := by
  unfold resend
  grind [solid_emit, solid_setPort, solid_foldl]

theorem solid_resendAll (p : Nat) : Solid (resendAll s p) := by
  unfold resendAll
  grind [solid_enterRetrain, solid_resend, solid_setPort]

theorem solid_negative (p n : Nat) : Solid (negative s p n) := by
  unfold negative
  grind [solid_bump, solid_resendAll, solid_resend]

theorem solid_execAck (p : RhPort) (seq : BitVec 12) : SolidAnswer (execAck p seq s) := by
  unfold execAck
  grind [solidAnswer_next, solid_acknowledge]

theorem solid_execNak (p : RhPort) (seq : BitVec 12) : SolidAnswer (execNak p seq s) := by
  unfold execNak
  grind [solidAnswer_next, solid_negative]

theorem solid_execAckTimer (p : RhPort) : SolidAnswer (execAckTimer p s) := by
  unfold execAckTimer
  grind [solidAnswer_next, solid_sendAck]

theorem solid_execReplayTimeout (p : RhPort) : SolidAnswer (execReplayTimeout p s) := by
  unfold execReplayTimeout
  grind [solidAnswer_next, solid_resendAll, solid_bump]

theorem solid_execPacketCrcError (p : RhPort) : SolidAnswer (execPacketCrcError p s) := by
  unfold execPacketCrcError
  grind [solidAnswer_next, solid_sendNak, solid_bump]

theorem solid_execDuplicatePacket (p : RhPort) (seq : BitVec 12) : SolidAnswer (execDuplicatePacket p seq s) := by
  unfold execDuplicatePacket
  grind [solidAnswer_next, solid_sendAck]

theorem solid_receive (p : Nat) (i : PktHdr) (deliver : State → State) (hdeliver : ∀ t, Solid t → Solid (deliver t)) :
    Solid (receive s p i deliver) := by
  unfold receive
  grind [solid_sendAck, solid_sendNak, solid_setPort, solid_acknowledge]

theorem solid_onJoin (m : CtrlMsg) : Solid (onJoin s m) := by
  unfold onJoin
  grind [solid_setRole, solid_wantPropose, solid_setChase]

theorem solid_onPropose (m : CtrlMsg) : Solid (onPropose s m) := by
  unfold onPropose
  grind [solid_sendCtrl, solid_setChase]

theorem solid_onAccept (m : CtrlMsg) : Solid (onAccept s m) := by
  unfold onAccept
  grind [solid_setChase, solid_commitEpoch]

theorem solid_onCommit (m : CtrlMsg) : Solid (onCommit s m) := by
  unfold onCommit
  grind [solid_setChase]

theorem solid_onUnreach (m : CtrlMsg) : Solid (onUnreach s m) := by
  unfold onUnreach
  grind [solid_modulesLost]

theorem solid_onCtrl (m : CtrlMsg) : Solid (onCtrl s m) := by
  unfold onCtrl
  grind [solid_onJoin, solid_onPropose, solid_onAccept, solid_onCommit, solid_onUnreach]

theorem solid_undeliverable (body : PktBody) : Solid (undeliverable s body) := by
  unfold undeliverable
  grind [solid_bump, solid_sendReply]

theorem solid_forward (i : PktHdr) (body : PktBody) : Solid (forward s i body) := by
  unfold forward
  grind [solid_undeliverable, solid_sendThrough]

theorem solid_route (i : PktHdr) (body : PktBody) : Solid (route s i body) := by
  unfold route
  grind [solid_deliverSort, solid_acceptReply, solid_onCtrl, solid_forward]

theorem solid_arrive (p : Nat) (i : PktHdr) (body : PktBody) : Solid (arrive s p i body) := by
  unfold arrive
  grind [solid_sendNak, solid_bump, solid_receive, solid_route]

theorem solid_execPacketForward (p : RhPort) (pkt : Packet) : SolidAnswer (execPacketForward p pkt s) := by
  unfold execPacketForward
  grind [solidAnswer_next, solid_arrive]

theorem solid_execSort (p : RhPort) (hdr : PktHdr) (i : SortHdr) (payload : List Byte) :
    SolidAnswer (execSort p hdr i payload s) := by
  unfold execSort
  grind [solidAnswer_next, solid_arrive]

theorem solid_execReply (p : RhPort) (hdr : PktHdr) (i : SortHdr) (payload : List Byte) :
    SolidAnswer (execReply p hdr i payload s) := by
  unfold execReply
  grind [solidAnswer_next, solid_arrive]

theorem solid_execJoin (p : RhPort) (hdr : PktHdr) (m : CtrlMsg) : SolidAnswer (execJoin p hdr m s) := by
  unfold execJoin
  grind [solidAnswer_next, solid_arrive]

theorem solid_execPropose (p : RhPort) (hdr : PktHdr) (m : CtrlMsg) : SolidAnswer (execPropose p hdr m s) := by
  unfold execPropose
  grind [solidAnswer_next, solid_arrive]

theorem solid_execAccept (p : RhPort) (hdr : PktHdr) (m : CtrlMsg) : SolidAnswer (execAccept p hdr m s) := by
  unfold execAccept
  grind [solidAnswer_next, solid_arrive]

theorem solid_execCommit (p : RhPort) (hdr : PktHdr) (m : CtrlMsg) : SolidAnswer (execCommit p hdr m s) := by
  unfold execCommit
  grind [solidAnswer_next, solid_arrive]

theorem solid_execUnreach (p : RhPort) (hdr : PktHdr) (m : CtrlMsg) : SolidAnswer (execUnreach p hdr m s) := by
  unfold execUnreach
  grind [solidAnswer_next, solid_arrive]

theorem solid_execAcceptTimeout (n : ChaseNo) : SolidAnswer (execAcceptTimeout n s) := by
  unfold execAcceptTimeout
  grind [solidAnswer_next, solid_wantPropose, solid_setChase]

theorem solid_execEpochApply (n : ChaseNo) : SolidAnswer (execEpochApply n s) := by
  unfold execEpochApply
  grind [solidAnswer_next, solid_setChase, solid_put, solid_setRole]

theorem solid_execProposeIntervalEnd (n : ChaseNo) : SolidAnswer (execProposeIntervalEnd n s) := by
  unfold execProposeIntervalEnd
  grind [solidAnswer_next, solid_setChase, solid_wantPropose]

/-! #### Of Machine/Loader -/

theorem solid_noteUnsigned (n : Nat) : Solid (noteUnsigned s n) := by
  unfold noteUnsigned
  grind [solid_logEvent, solid_put]

/-! #### Of Machine/Chases -/

theorem solid_createChase (n owner : Nat) (cores : List Nat) (g : Regions) (lp ga rh : Nat) :
    Solid (createChase s n owner cores g lp ga rh) := by
  unfold createChase
  grind [solid_put, solid_setChase]

theorem solid_execChaseCreate (r : Req) (n : ChaseNo) (owner : Fn) (cores : BitVec 32) (regions : Regions)
    (ceilLpddr ceilGalley ceilRhasha : Word) :
    SolidAnswer (execChaseCreate r n owner cores regions ceilLpddr ceilGalley ceilRhasha s) := by
  unfold execChaseCreate
  grind [solidAnswer_next, solid_firmware, solid_pf0Only, solid_answer, solid_createChase]

theorem solid_clearFormeRegs (n : Nat) : Solid (clearFormeRegs s n) := by
  unfold clearFormeRegs
  grind [solid_put]

theorem solid_dropPatch (n : Nat) : Solid (dropPatch s n) := by
  unfold dropPatch
  grind [solid_answer, solid_setChase, solid_foldl]

theorem solid_undoRows (b : Busy) : Solid (undoRows s b) := by
  unfold undoRows
  grind [solid_setMem, solid_mk_iff, fits_of_solid, memStore_wf, memOf_wf_of_solid, solid_foldl]

theorem solid_stopCopies (n : Nat) (hit : Busy → Bool) : Solid (stopCopies s n hit) := by
  unfold stopCopies
  grind [solid_undoRows, solid_setChase, solid_foldl]

theorem solid_endCopies (engines : List Nat) (code : Nat) : Solid (endCopies s engines code) :=
  sound_endCopies h ..

theorem solid_isolateCopies (n : Nat) (hit : Busy → Bool) : Solid (isolateCopies s n hit) := by
  unfold isolateCopies
  grind [solid_endCopies, solid_stopCopies]

theorem solid_dropForme (n : Nat) : Solid (dropForme s n) := by
  unfold dropForme
  grind [solid_isolateCopies, solid_dropPatch, solid_put, solid_clearFormeRegs, solid_setChase]

theorem solid_execChaseDelete (r : Req) (n : ChaseNo) : SolidAnswer (execChaseDelete r n s) := by
  unfold execChaseDelete
  grind [solidAnswer_next, solid_firmware, solid_pf0Only, solid_answer, solid_nextChaseGen, solid_dropForme,
    solid_unbindContext, solid_put, solid_setChase, solid_foldl]

theorem solid_copySection (n : Nat) (f : Forme) (x : Section) (e : Placement × Nat) :
    Solid (copySection s n f x e) := by
  unfold copySection
  grind [solid_mk_iff, fits_of_solid, Fits, memStore_wf]

theorem solid_copyImage (n : Nat) : Solid (copyImage s n) := by
  unfold copyImage
  grind [solid_copySection, solid_foldl]

theorem solid_clearRings (n : Nat) : Solid (clearRings s n) := by
  unfold clearRings
  grind [solid_setChase, solid_mk_iff, fits_of_solid, Fits, memZero_wf, solid_foldl]

theorem solid_setSequencers (n : Nat) : Solid (setSequencers s n) := by
  unfold setSequencers
  grind [solid_setChase, solid_foldl]

theorem solid_restorePrior (n : Nat) : Solid (restorePrior s n) := by
  unfold restorePrior
  grind [solid_put, solid_setChase, solid_foldl]

theorem solid_execFormeLoad (r : Req) (n : ChaseNo) (addr size : Nat) :
    SolidAnswer (execFormeLoad r n addr size s) := by
  unfold execFormeLoad
  grind [solidAnswer_next, solid_firmware, solid_answer, solid_dropForme, solid_put, solid_setChase]

theorem solid_defaultParams (n : Nat) (f : Forme) : Solid (defaultParams s n f) := by
  unfold defaultParams
  grind [solid_setCtx, solid_foldl]

theorem solid_installForme (n addr : Nat) : Solid (installForme s n addr) := by
  unfold installForme
  grind [solid_setChase, solid_put, solid_noteUnsigned, solid_defaultParams, solid_copyImage]

theorem solid_execFormeLoadDone (n : ChaseNo) : SolidAnswer (execFormeLoadDone n s) := by
  unfold execFormeLoadDone
  grind [solidAnswer_next, solid_put, solid_setChase, solid_answer, solid_installForme]

theorem solid_execFormePatch (r : Req) (n : ChaseNo) (addr size : Nat) :
    SolidAnswer (execFormePatch r n addr size s) := by
  unfold execFormePatch
  grind [solidAnswer_next, solid_firmware, solid_answer, solid_noteUnsigned, solid_setChase]

theorem solid_writeRange (n : Nat) (f : Forme) (r : Nat × Nat × List Byte) : Solid (writeRange s n f r) := by
  unfold writeRange
  grind [solid_mk_iff, fits_of_solid, Fits, memStore_wf, solid_foldl]

theorem solid_itemSeq (n : Nat) : Solid (itemSeq s n).2 := by
  unfold itemSeq
  grind [solid_fresh]

theorem solid_execPatchSwap (n : ChaseNo) : SolidAnswer (execPatchSwap n s) := by
  unfold execPatchSwap
  grind [solidAnswer_next, solid_writeRange, solid_setChase, solid_itemSeq, solid_put, solid_answer, solid_foldl]

theorem solid_rebandContext (f : Forme) (k : Nat) : Solid (rebandContext s f k) := by
  unfold rebandContext
  grind [solid_put, solid_setCtx]

theorem solid_startChase (n : Nat) : Solid (startChase s n).2 := by
  unfold startChase
  grind [solid_setChase, solid_dropForme, solid_isolateCopies, solid_clearRings, solid_setSequencers, solid_copyImage,
    solid_rebandContext, solid_joinImposition, solid_put, solid_foldl]

theorem solid_execChaseStart (r : Req) (n : ChaseNo) : SolidAnswer (execChaseStart r n s) := by
  unfold execChaseStart
  grind [solidAnswer_next, solid_firmware, solid_answer, solid_startChase]

theorem solid_stopChase (n : Nat) : Solid (stopChase s n) := by
  unfold stopChase
  grind [solid_answerInbound, solid_setRole, solid_put, solid_setChase]

theorem solid_execChaseStop (r : Req) (n : ChaseNo) : SolidAnswer (execChaseStop r n s) := by
  unfold execChaseStop
  grind [solidAnswer_next, solid_firmware, solid_answer, solid_stopChase]

theorem solid_execLooseSectionEnd (n : ChaseNo) (afterTail : Bool) :
    SolidAnswer (execLooseSectionEnd n afterTail s) := by
  unfold execLooseSectionEnd
  grind [solidAnswer_next, solid_bump]

theorem solid_execBucketGrant (n : ChaseNo) (res : Fin 3) : SolidAnswer (execBucketGrant n res s) := by
  unfold execBucketGrant
  grind [solidAnswer_next, solid_setChase]

/-! #### Of Machine/Clocks -/

theorem solid_refLost : Solid (refLost s) := by
  unfold refLost
  grind [solid_put, solid_fresh, solid_updateClk, solid_chooseSource, solid_enterHoldover]

theorem solid_execRefClkLost : SolidAnswer (execRefClkLost s) := by
  unfold execRefClkLost
  grind [solidAnswer_next, solid_refLost]

theorem solid_execClockSourceChange (src : ClkSource) (steps : Int) :
    SolidAnswer (execClockSourceChange src steps s) := by
  unfold execClockSourceChange
  grind [solidAnswer_next, solid_updateClk, solid_chooseSource]

theorem solid_execClockRampStep : SolidAnswer (execClockRampStep s) := by
  unfold execClockRampStep
  grind [solidAnswer_next, solid_logEvent, solid_put, solid_mk_iff, fits_of_solid]

theorem solid_execOscTrimWindow (error : Int) (bySync : Bool) : SolidAnswer (execOscTrimWindow error bySync s) := by
  unfold execOscTrimWindow
  grind [solidAnswer_next, solid_put, solid_setPort, solid_foldl]

theorem solid_execFreqMeterGate (n : Fin 39) (khz : Word) : SolidAnswer (execFreqMeterGate n khz s) := by
  unfold execFreqMeterGate
  grind [solidAnswer_next, solid_put, solid_refLost]

/-! #### Of Machine/Field -/

theorem solid_driveTo (c : Nat) (on : Bool) (at4ns : Option Nat) : Solid (driveTo s c on at4ns) := by
  unfold driveTo
  grind [solid_emit, solid_setChan]

theorem solid_fieldOff (c : Nat) : Solid (fieldOff s c) := by
  unfold fieldOff
  grind [solid_driveTo, solid_setChan]

theorem solid_fieldOffAll (p : Nat → Bool) : Solid (fieldOffAll s p) := by
  unfold fieldOffAll
  grind [solid_fieldOff, solid_foldl]

theorem solid_enterSafe : Solid (enterSafe s) := by
  unfold enterSafe
  grind [solid_fieldOffAll, solid_logEvent, solid_bump, solid_put, solid_mk_iff, fits_of_solid]

theorem solid_blockAll : Solid (blockAll s) := by
  unfold blockAll
  grind [solid_setChan, solid_foldl]

theorem solid_barrierStop : Solid (barrierStop s) := by
  unfold barrierStop
  grind [solid_enterSafe, solid_mk_iff, fits_of_solid]

theorem solid_commandTo (c : Nat) (on : Bool) : Solid (commandTo s c on) :=
  sound_commandTo h ..

theorem solid_composeDown : Solid (composeDown s).2 := by
  unfold composeDown
  grind [solid_mk_iff, fits_of_solid]

theorem solid_applyLevel (f c : Nat) : Solid (applyLevel s f c) := by
  unfold applyLevel
  grind [solid_driveTo, solid_setChan]

theorem solid_applyRecord (v : Nat) : Solid (applyRecord s v) := by
  unfold applyRecord
  grind [solid_fieldOffAll, solid_mk_iff, fits_of_solid, solid_foldl]

theorem solid_recordReceived (words : List (BitVec 12)) : Solid (recordReceived s words) := by
  unfold recordReceived
  grind [solid_applyRecord, solid_mk_iff, fits_of_solid]

theorem solid_configWord (seq w : Nat) : Solid (configWord s seq w) := by
  unfold configWord
  grind [solid_recordReceived, solid_mk_iff, fits_of_solid]

theorem solid_downGood (f : Nat) : Solid (downGood s f) := by
  unfold downGood
  grind [solid_configWord, solid_applyLevel, solid_blockAll, solid_put, solid_mk_iff, fits_of_solid, solid_foldl]

theorem solid_downLost : Solid (downLost s) := by
  unfold downLost
  grind [solid_enterSafe, solid_mk_iff, fits_of_solid]

theorem solid_downArrives (f : Nat) : Solid (downArrives s f) := by
  unfold downArrives
  grind [solid_downGood, solid_downLost, solid_bump, solid_mk_iff, fits_of_solid]

theorem solid_execDownFrame (frame : BitVec 64) : SolidAnswer (execDownFrame frame s) := by
  unfold execDownFrame
  grind [solidAnswer_next, solid_composeDown, solid_downArrives, solid_emit]

theorem solid_decideClears : Solid (decideClears s) := by
  unfold decideClears
  grind [solid_put, solid_mk_iff, fits_of_solid]

theorem solid_applyStatus (w : Nat) : Solid (applyStatus s w) := by
  unfold applyStatus
  grind [solid_put, solid_decideClears, solid_foldl]

theorem solid_statusNibble (n : Nat) : Solid (statusNibble s n) := by
  unfold statusNibble
  grind [solid_applyStatus, solid_mk_iff, fits_of_solid]

theorem solid_readBack (c : Nat) (level : Bool) : Solid (readBack s c level) := by
  unfold readBack
  grind [solid_put, solid_commandTo, solid_setChan]

theorem solid_inputEdge (c : Nat) (level : Bool) (time clk : Nat) : Solid (inputEdge s c level time clk) := by
  unfold inputEdge
  grind [solid_put, solid_stageEvent]

theorem solid_frameEdge (f i : Nat) : Solid (frameEdge s f i) := by
  unfold frameEdge
  grind [solid_setChan, solid_inputEdge]

theorem solid_upGoodFrame (f : Nat) : Solid (upGoodFrame s f) := by
  unfold upGoodFrame
  grind [solid_put, solid_frameEdge, solid_statusNibble, solid_readBack, solid_mk_iff, fits_of_solid, solid_foldl]

theorem solid_upLost : Solid (upLost s) := by
  unfold upLost
  grind [solid_put, solid_mk_iff, fits_of_solid, solid_foldl]

theorem solid_execUpFrame (frame : BitVec 64) : SolidAnswer (execUpFrame frame s) := by
  unfold execUpFrame
  grind [solidAnswer_next, solid_upGoodFrame, solid_upLost, solid_bump, solid_mk_iff, fits_of_solid]

theorem solid_execFrameMissing (dir : BarrierDir) : SolidAnswer (execFrameMissing dir s) := by
  unfold execFrameMissing
  grind [solidAnswer_next, solid_downLost, solid_composeDown, solid_upLost]

theorem solid_execTrip (n : Fin 2) : SolidAnswer (execTrip n s) := by
  unfold execTrip
  grind [solidAnswer_next, solid_put, solid_fieldOffAll]

theorem solid_requestClear (mask : Nat) : Solid (requestClear s mask) := by
  unfold requestClear
  grind [solid_decideClears, solid_put, solid_mk_iff, fits_of_solid]

theorem solid_execTripClear (fn : Fn) (clear0 clear1 : Bool) : SolidAnswer (execTripClear fn clear0 clear1 s) := by
  unfold execTripClear
  grind [solidAnswer_next, solid_overPcie, solid_requestClear]

theorem solid_execInputEdge (c : Chan) (level : Bool) : SolidAnswer (execInputEdge c level s) := by
  unfold execInputEdge
  grind [solidAnswer_next, solid_put, solid_inputEdge, solid_setChan]

theorem solid_execInputOpenWire (c : Chan) : SolidAnswer (execInputOpenWire c s) := by
  unfold execInputOpenWire
  grind [solidAnswer_next, solid_put]

theorem solid_execOutputOverload (c : Chan) : SolidAnswer (execOutputOverload c s) := by
  unfold execOutputOverload
  grind [solidAnswer_next, solid_fieldOff, solid_bump, solid_put]

theorem solid_execOutputOpenWire (c : Chan) : SolidAnswer (execOutputOpenWire c s) := by
  unfold execOutputOpenWire
  grind [solidAnswer_next, solid_put]

theorem solid_execOverTemperature (c : Chan) : SolidAnswer (execOverTemperature c s) := by
  unfold execOverTemperature
  grind [solidAnswer_next, solid_fieldOff, solid_put]

theorem solid_execFieldSupplyLost : SolidAnswer (execFieldSupplyLost s) := by
  unfold execFieldSupplyLost
  grind [solidAnswer_next, solid_fieldOffAll, solid_put, solid_mk_iff, fits_of_solid, solid_foldl]

theorem solid_execFieldSupplyReturn : SolidAnswer (execFieldSupplyReturn s) := by
  unfold execFieldSupplyReturn
  grind [solidAnswer_next, solid_put, solid_mk_iff, fits_of_solid]

theorem solid_pulseOn (c e off : Nat) : Solid (pulseOn s c e off) := by
  unfold pulseOn
  grind [solid_commandTo, solid_setChan]

theorem solid_pulseOff (c : Nat) : Solid (pulseOff s c) := by
  unfold pulseOff
  grind [solid_commandTo, solid_setChan]

theorem solid_meetPulse (c e off : Nat) : Solid (meetPulse s c e off) := by
  unfold meetPulse
  grind [solid_setChan]

theorem solid_startPulse (c e off : Nat) : Solid (startPulse s c e off) := by
  unfold startPulse
  grind [solid_bump, solid_setChan, solid_pulseOn]

theorem solid_landEntries (e : Nat) : Solid (landEntries s e) := by
  unfold landEntries
  grind [solid_setFq]

theorem solid_takeQueue (e : Nat) : Solid (takeQueue s e).2 := by
  unfold takeQueue
  grind [solid_bumpBy, solid_setFq, solid_bump, solid_foldl]

theorem solid_endPulse (c : Nat) : Solid (endPulse s c) := by
  unfold endPulse
  grind [solid_pulseOff]

theorem solid_resumePulse (c : Nat) : Solid (resumePulse s c) := by
  unfold resumePulse
  grind [solid_setChan, solid_bump, solid_pulseOn]

omit h in
theorem solid_foldl_snd {α β : Type} {g : β × State → α → β × State} (hg : ∀ x a, Solid x.2 → Solid (g x a).2)
    (l : List α) {x : β × State} (hx : Solid x.2) : Solid (l.foldl g x).2 := by
  induction l generalizing x with
  | nil => exact hx
  | cons a l ih => exact ih (hg x a hx)

theorem solid_fireTick : Solid (fireTick s) := by
  unfold fireTick
  grind [solid_takeQueue, solid_landEntries, solid_meetPulse, solid_endPulse, solid_resumePulse, solid_startPulse,
    solid_mk_iff, fits_of_solid, solid_foldl, solid_foldl_snd]

theorem solid_execFireTick : SolidAnswer (execFireTick s) := by
  unfold execFireTick
  grind [solidAnswer_next, solid_fireTick]

theorem solid_execFireQueueExchange (odd : Bool) : SolidAnswer (execFireQueueExchange odd s) := by
  unfold execFireQueueExchange
  grind [solidAnswer_next, solid_landEntries, solid_setFq, solid_foldl]

theorem solid_outputsOff : Solid (outputsOff s) := by
  unfold outputsOff
  grind [solid_driveTo, solid_pulseOff, solid_setChan, solid_foldl]

/-! #### Of Machine/Motion -/

theorem solid_emuCount (o : Nat) (up : Bool) : Solid (emuCount s o up) := by
  unfold emuCount
  grind [solid_emit, solid_setEmu]

theorem solid_capLag (o : Nat) (lag : Int) : Solid (capLag s o lag) := by
  unfold capLag
  grind [solid_put, solid_setEmu]

theorem solid_payLag (o : Nat) : Solid (payLag s o) := by
  unfold payLag
  grind [solid_emuCount, solid_setEmu]

theorem solid_ratioCount (o : Nat) (up : Bool) : Solid (ratioCount s o up) := by
  unfold ratioCount
  grind [solid_setEmu, solid_capLag, solid_payLag]

theorem solid_dividerCount (o : Nat) (up : Bool) : Solid (dividerCount s o up) := by
  unfold dividerCount
  grind [solid_setEmu, solid_emit]

theorem solid_emulate (e : Nat) (up : Bool) : Solid (emulate s e up) := by
  unfold emulate
  grind [solid_setEmu, solid_dividerCount, solid_ratioCount, solid_foldl]

theorem solid_execEmulationOutputCount (o : Fin 2) : SolidAnswer (execEmulationOutputCount o s) := by
  unfold execEmulationOutputCount
  grind [solidAnswer_next, solid_payLag]

theorem solid_markReached (e : Nat) : Solid (markReached s e) := by
  unfold markReached
  grind [solid_setFq]

theorem solid_movePos (e v : Nat) : Solid (movePos s e v) := by
  unfold movePos
  grind [solid_put, solid_setEnc]

theorem solid_countEdge (e : Nat) (up : Bool) : Solid (countEdge s e up) := by
  unfold countEdge
  grind [solid_put, solid_movePos, solid_emulate, solid_markReached, solid_setEnc]

theorem solid_overspeed (e : Nat) : Solid (overspeed s e) := by
  unfold overspeed
  grind [solid_fresh, solid_put, solid_movePos]

theorem solid_execEncoderEdge (e : Enc) (edge : EncEdge) : SolidAnswer (execEncoderEdge e edge s) := by
  unfold execEncoderEdge
  grind [solidAnswer_next, solid_bump, solid_overspeed, solid_countEdge]

theorem solid_execWireFault (e : Enc) (wire : EncWire) : SolidAnswer (execWireFault e wire s) := by
  unfold execWireFault
  grind [solidAnswer_next, solid_put, solid_setEnc, solid_pulseOff, solid_logEvent, solid_bump, solid_foldl]

theorem solid_execWireFaultClear (e : Enc) : SolidAnswer (execWireFaultClear e s) := by
  unfold execWireFaultClear
  grind [solidAnswer_next, solid_setEnc]

theorem solid_checkDrift (e pos : Nat) : Solid (checkDrift s e pos) := by
  unfold checkDrift
  grind [solid_logEvent, solid_bump, solid_put]

theorem solid_execIndexEdge (e : Enc) : SolidAnswer (execIndexEdge e s) := by
  unfold execIndexEdge
  grind [solidAnswer_next, solid_checkDrift, solid_put, solid_setEnc, solid_setEmu, solid_foldl]

theorem solid_presetTo (e v : Nat) : Solid (presetTo s e v) := by
  unfold presetTo
  grind [solid_put, solid_movePos, solid_regFault]

theorem solid_execPreset (fn : Fn) (e : Enc) (hi : Word) : SolidAnswer (execPreset fn e hi s) := by
  unfold execPreset
  grind [solidAnswer_next, solid_overPcie, solid_presetTo]

theorem solid_periodicAdvance (j pitches : Nat) : Solid (periodicAdvance s j pitches) := by
  unfold periodicAdvance
  grind [solid_put]

theorem solid_execPeriodicCompareHit (j : Fin 8) : SolidAnswer (execPeriodicCompareHit j s) := by
  unfold execPeriodicCompareHit
  grind [solidAnswer_next, solid_periodicAdvance, solid_stageEvent]

theorem solid_periodicCatchUp (j : Nat) : Solid (periodicCatchUp s j) := by
  unfold periodicCatchUp
  grind [solid_periodicAdvance]

theorem solid_execTrigOneshotHit (k : Ctx) (i : Fin 4) : SolidAnswer (execTrigOneshotHit k i s) := by
  unfold execTrigOneshotHit
  grind [solidAnswer_next, solid_emit, solid_setCtx]

/-! #### Of Machine/Time -/

theorem solid_setOffset (d : Nat) (o : Int) : Solid (setOffset s d o) := by
  unfold setOffset
  grind [solid_put, solid_setServo]

theorem solid_stepTime (t : Nat) : Solid (stepTime s t) := by
  unfold stepTime
  grind [solid_put, solid_setOffset, solid_mk_iff, fits_of_solid, solid_foldl]

theorem solid_firstSetting : Solid (firstSetting s) := by
  unfold firstSetting
  grind [solid_put, solid_stepTime]

theorem solid_autoSwitch : Solid (autoSwitch s) := by
  unfold autoSwitch
  grind [solid_put]

theorem solid_execPtpSync (d : Dom) (domainTime : BitVec 64) (freqPpb : BitVec 32) :
    SolidAnswer (execPtpSync d domainTime freqPpb s) := by
  unfold execPtpSync
  grind [solidAnswer_next, solid_put, solid_setOffset, solid_setServo, solid_firstSetting, solid_autoSwitch]

theorem solid_execDomainLost (d : Dom) : SolidAnswer (execDomainLost d s) := by
  unfold execDomainLost
  grind [solidAnswer_next, solid_put, solid_setServo, solid_firstSetting, solid_autoSwitch]

theorem solid_stepTo (t : Nat) : Solid (stepTo s t) := by
  unfold stepTo
  grind [solid_put, solid_stepTime]

theorem solid_execTimeStep (fn : Fn) (hi : Word) : SolidAnswer (execTimeStep fn hi s) := by
  unfold execTimeStep
  grind [solidAnswer_next, solid_overPcie, solid_stepTo]

theorem solid_advanceTime : Solid (advanceTime s) := by
  unfold advanceTime
  grind [solid_put, solid_setOffset, solid_mk_iff, fits_of_solid, solid_foldl]

theorem solid_execPdelayReq (p : EPort) (d : Dom) : SolidAnswer (execPdelayReq p d s) := by
  unfold execPdelayReq
  grind [solidAnswer_next, solid_emit]

theorem solid_fetchLaunch (n p : Nat) : Solid (fetchLaunch n s p) := by
  induction n generalizing s with
  | zero => exact h
  | succ n ih =>
    unfold fetchLaunch
    grind [solid_setEport]

theorem solid_fetchAhead (p : Nat) : Solid (fetchAhead s p) := by
  unfold fetchAhead
  grind [solid_fetchLaunch]

theorem solid_launchStatus (p : Nat) (e : Launch) (status : Nat) : Solid (launchStatus s p e status) := by
  unfold launchStatus
  grind [solid_mk_iff, fits_of_solid, Fits, memWrite_wf]

theorem solid_launchDone (p : Nat) (e : Launch) (status : Nat) : Solid (launchDone s p e status) := by
  unfold launchDone
  grind [solid_launchStatus, solid_put, solid_setEport, solid_fetchAhead, solid_ringAdvance]

theorem solid_stampFrame (p : Nat) (e : Launch) : Solid (stampFrame s p e) := by
  unfold stampFrame
  grind [solid_bump, solid_fireVector, solid_setEport]

theorem solid_sendHead (p : Nat) (e : Launch) (late : Bool) : Solid (sendHead s p e late) := by
  unfold sendHead
  grind [solid_stampFrame, solid_emit, solid_setEport, solid_launchDone, solid_bump]

theorem solid_launchHead (n p : Nat) : Solid (launchHead n s p) := by
  induction n generalizing s with
  | zero => exact h
  | succ n ih =>
    unfold launchHead
    grind [solid_sendHead, solid_launchDone, solid_bump]

theorem solid_serveLaunch (p : Nat) : Solid (serveLaunch s p) := by
  unfold serveLaunch
  grind [solid_launchHead]

theorem solid_execLaunchTimeReached (p : EPort) : SolidAnswer (execLaunchTimeReached p s) := by
  unfold execLaunchTimeReached
  grind [solidAnswer_next, solid_serveLaunch]

theorem solid_execLaunchFrameEnd (p : EPort) : SolidAnswer (execLaunchFrameEnd p s) := by
  unfold execLaunchFrameEnd
  grind [solidAnswer_next, solid_serveLaunch, solid_setEport]

theorem solid_execPcsReady (p : EPort) : SolidAnswer (execPcsReady p s) := by
  unfold execPcsReady
  grind [solidAnswer_next, solid_serveLaunch, solid_put]

theorem solid_execPcsNotReady (p : EPort) : SolidAnswer (execPcsNotReady p s) := by
  unfold execPcsNotReady
  grind [solidAnswer_next, solid_put]

theorem solid_popStamp (p : Nat) : Solid (popStamp s p) := by
  unfold popStamp
  grind [solid_setEport]

theorem solid_execTxtsPop (fn : Fn) (p : EPort) (val : Word) : SolidAnswer (execTxtsPop fn p val s) := by
  unfold execTxtsPop
  grind [solidAnswer_next, solid_overPcie, solid_popStamp]

theorem solid_emptyLaunch (p : Nat) : Solid (emptyLaunch s p) := by
  unfold emptyLaunch
  grind [solid_launchStatus, solid_setEport, solid_foldl]

/-! #### Of Machine/HostIf -/

theorem solid_consWritten (r v : Nat) : Solid (consWritten s r v) := by
  unfold consWritten
  grind [solid_put, solid_fetchAhead, solid_ringDrain]

theorem solid_execRingConsWrite (fn : Fn) (ring : Fin 6) (val : Word) :
    SolidAnswer (execRingConsWrite fn ring val s) := by
  unfold execRingConsWrite
  grind [solidAnswer_next, solid_overPcie, solid_consWritten]

theorem solid_execCommandRingEntry (fn : Fn) : SolidAnswer (execCommandRingEntry fn s) := by
  unfold execCommandRingEntry
  grind [solidAnswer_next, solid_postMessage, solid_put]

theorem solid_execStatusBlockWrite (fn : Fn) : SolidAnswer (execStatusBlockWrite fn s) := by
  unfold execStatusBlockWrite
  grind [solidAnswer_next, solid_setRing, solid_mk_iff, fits_of_solid, Fits, memStore_wf]

theorem solid_deliverReady (k : Nat) : Solid (deliverReady s k) := by
  unfold deliverReady
  grind [solid_deliverPage]

theorem solid_execCropPageDelivery (k : Ctx) : SolidAnswer (execCropPageDelivery k s) := by
  unfold execCropPageDelivery
  grind [solidAnswer_next, solid_deliverReady]

theorem solid_execCropFlushTimeout (k : Ctx) : SolidAnswer (execCropFlushTimeout k s) := by
  unfold execCropFlushTimeout
  grind [solidAnswer_next, solid_deliverReady, solid_setCtx]

theorem solid_execPageHoldTimeout (k : Ctx) : SolidAnswer (execPageHoldTimeout k s) := by
  unfold execPageHoldTimeout
  grind [solidAnswer_next, solid_setCtx]

theorem solid_execInterruptInterval (fn : Fn) (ring : Fin 6) : SolidAnswer (execInterruptInterval fn ring s) := by
  unfold execInterruptInterval
  grind [solidAnswer_next, solid_fireVector, solid_setRing]

theorem solid_execHello (r : Req) (driverMin driverMax : BitVec 16) :
    SolidAnswer (execHello r driverMin driverMax s) := by
  unfold execHello
  grind [solidAnswer_next, solid_firmware, solid_answer, solid_put]

theorem solid_execUndefinedCommand (r : Req) (code : BitVec 8) : SolidAnswer (execUndefinedCommand r code s) := by
  unfold execUndefinedCommand
  grind [solidAnswer_next, solid_firmware, solid_answer]

theorem solid_execPciePerst : SolidAnswer (execPciePerst s) := by
  unfold execPciePerst
  grind [solidAnswer_next]

/-! #### Of Machine/Security -/

theorem solid_execFwSvnCommit (r : Req) : SolidAnswer (execFwSvnCommit r s) := by
  unfold execFwSvnCommit
  grind [solidAnswer_next, solid_firmware, solid_pf0Only, solid_answer, solid_put, solid_mk_iff, fits_of_solid]

theorem solid_execKeyEnrol (r : Req) (slot : BitVec 8) (key auth : List Byte) :
    SolidAnswer (execKeyEnrol r slot key auth s) := by
  unfold execKeyEnrol
  grind [solidAnswer_next, solid_firmware, solid_pf0Only, solid_answer, solid_put, solid_mk_iff, fits_of_solid]

theorem solid_execKeyRevoke (r : Req) (slot : BitVec 8) : SolidAnswer (execKeyRevoke r slot s) := by
  unfold execKeyRevoke
  grind [solidAnswer_next, solid_firmware, solid_pf0Only, solid_answer, solid_put, solid_mk_iff, fits_of_solid]

theorem solid_execPolicySet (r : Req) (deviceTrained lock : Bool) (auth : List Byte) :
    SolidAnswer (execPolicySet r deviceTrained lock auth s) := by
  unfold execPolicySet
  grind [solidAnswer_next, solid_firmware, solid_pf0Only, solid_answer, solid_put, solid_mk_iff, fits_of_solid]

theorem solid_voidToken : Solid (voidToken s) := by
  unfold voidToken
  grind [solid_put]

theorem solid_advanceTo (target : Nat) : Solid (advanceTo s target) := by
  unfold advanceTo
  grind [solid_voidToken, solid_put, solid_logEvent, solid_mk_iff, fits_of_solid]

theorem solid_execLifecycleAdvance (r : Req) (target uidLow : Word) (auth : List Byte) :
    SolidAnswer (execLifecycleAdvance r target uidLow auth s) := by
  unfold execLifecycleAdvance
  grind [solidAnswer_next, solid_firmware, solid_pf0Only, solid_answer, solid_advanceTo]

theorem solid_execDebugChallenge (r : Req) : SolidAnswer (execDebugChallenge r s) := by
  unfold execDebugChallenge
  grind [solidAnswer_next, solid_firmware, solid_pf0Only, solid_fresh, solid_answer, solid_mk_iff, fits_of_solid]

theorem solid_execDebugToken (r : Req) (token : List Byte) : SolidAnswer (execDebugToken r token s) := by
  unfold execDebugToken
  grind [solidAnswer_next, solid_firmware, solid_pf0Only, solid_answer, solid_put]

theorem solid_execDebugSessionOpen : SolidAnswer (execDebugSessionOpen s) := by
  unfold execDebugSessionOpen
  grind [solidAnswer_next, solid_put, solid_logEvent]

theorem solid_execDebugEnd (r : Req) : SolidAnswer (execDebugEnd r s) := by
  unfold execDebugEnd
  grind [solidAnswer_next, solid_firmware, solid_pf0Only, solid_voidToken, solid_answer, solid_logEvent, solid_put]

theorem solid_execDebugHalt (q : SeqId) : SolidAnswer (execDebugHalt q s) := by
  unfold execDebugHalt
  grind [solidAnswer_next, solid_put, solid_setChase]

theorem solid_execOptProgram (r : Req) (bit count : Word) (auth : List Byte) :
    SolidAnswer (execOptProgram r bit count auth s) := by
  unfold execOptProgram
  grind [solidAnswer_next, solid_firmware, solid_pf0Only, solid_answer, solid_mk_iff, fits_of_solid, solid_foldl]

/-! #### Of Machine/Resets -/

theorem solid_discardReq (r : Req) : Solid (discardReq s r) := by
  unfold discardReq
  grind [solid_bump, solid_answer]

theorem solid_orphanCtx (k : Nat) : Solid (orphanCtx s k) := by
  unfold orphanCtx
  grind [solid_setChase]

theorem solid_staleControls (k : Nat) : Solid (staleControls s k) := by
  unfold staleControls
  grind [solid_answer, solid_setCtx, solid_foldl]

theorem solid_forgetCtxLines (k : Nat) : Solid (forgetCtxLines s k) := by
  unfold forgetCtxLines
  grind [solid_forgetLines]

theorem solid_drainCtx (k : Nat) : Solid (drainCtx s k) := by
  unfold drainCtx
  grind [solid_forgetCtxLines, solid_nextCtxGen, solid_staleControls, solid_orphanCtx, solid_disarmOneShots,
    solid_discardApplies, solid_put, solid_setCtx]

theorem solid_teardownCtx (k : Nat) : Solid (teardownCtx s k) := by
  unfold teardownCtx
  grind [solid_drainCtx, solid_resetRegs]

theorem solid_answerResets (unit : Nat) : Solid (answerResets s unit) := by
  unfold answerResets
  grind [solid_answer, solid_mk_iff, fits_of_solid, solid_foldl]

theorem solid_serveCtx (k : Nat) : Solid (serveCtx s k) := by
  unfold serveCtx
  grind [solid_emptyGalley, solid_put, solid_setCtx]

theorem solid_endCtx (k : Nat) : Solid (endCtx s k) := by
  unfold endCtx
  grind [solid_put, solid_markMissing, solid_answerResets, solid_serveCtx]

theorem solid_zeroSram (cores : List Nat) : Solid (zeroSram s cores) := by
  unfold zeroSram
  grind [solid_mk_iff, fits_of_solid, Fits, memZero_wf, solid_foldl]

theorem solid_resetChase (n : Nat) : Solid (resetChase s n) := by
  unfold resetChase
  grind [solid_stopCopies, solid_answerInbound, solid_dropPatch, solid_restorePrior, solid_answer,
    solid_disarmOneShots, solid_discardApplies, solid_nextChaseGen, solid_endCopies, solid_zeroSram, solid_resetRegs,
    solid_leaveImposition, solid_put, solid_setChase, solid_foldl]

theorem solid_endChase (n : Nat) : Solid (endChase s n) := by
  unfold endChase
  grind [solid_setChase, solid_answerResets, solid_put, solid_dropForme]

theorem solid_execChaseReloadDone (n : ChaseNo) : SolidAnswer (execChaseReloadDone n s) := by
  unfold execChaseReloadDone
  grind [solidAnswer_next, solid_setChase, solid_answerResets, solid_dropForme, solid_put, solid_copyImage,
    solid_startChase]

theorem solid_execTeardownDrainEnd (u : GenUnit) : SolidAnswer (execTeardownDrainEnd u s) := by
  unfold execTeardownDrainEnd
  grind [solidAnswer_next, solid_endCtx, solid_endChase]

theorem solid_execStaleArrival (u : GenUnit) (gen : BitVec 8) : SolidAnswer (execStaleArrival u gen s) := by
  unfold execStaleArrival
  grind [solidAnswer_next, solid_bump]

theorem solid_execGateStopForced : SolidAnswer (execGateStopForced s) := by
  unfold execGateStopForced
  grind [solidAnswer_next, solid_bump]

theorem solid_clearChase (n : Nat) : Solid (clearChase s n) := by
  unfold clearChase
  grind [solid_emptyMonitor, solid_answer, solid_leaveImposition, solid_nextChaseGen, solid_dropForme, solid_setChase]

theorem solid_clearFabric : Solid (clearFabric s) := by
  unfold clearFabric
  have : Memory.wf [] = true := rfl
  grind [Fits, solid_clearChase, solid_clearLink, solid_outputsOff, solid_mk_iff, fits_of_solid, solid_foldl]

theorem solid_answerAllResets : Solid (answerAllResets s) := by
  unfold answerAllResets
  grind [solid_answer, solid_mk_iff, fits_of_solid, solid_foldl]

theorem solid_fabricReset : Solid (fabricReset s) := by
  unfold fabricReset
  grind [solid_drainCtx, solid_clearFabric, solid_put, solid_endCopies, solid_resetRegs, solid_mk_iff, fits_of_solid,
    solid_foldl]

theorem solid_execFabricResetEnd : SolidAnswer (execFabricResetEnd s) := by
  unfold execFabricResetEnd
  grind [solidAnswer_next, solid_serveCtx, solid_setPort, solid_clearLink, solid_answerAllResets, solid_put,
    solid_mk_iff, fits_of_solid, solid_foldl]

theorem solid_resetFirmware : Solid (resetFirmware s) := by
  unfold resetFirmware
  grind [solid_resetReceiver, solid_discardReq, solid_mk_iff, fits_of_solid, solid_foldl]

/-- A loss of the galleys and of what holds no register and no other memory keeps a state sound. -/
theorem solid_withoutGalley (chases ctxs ports lineRd rings mgmt) :
    Solid { s with galley := [], chases, ctxs, ports, lineRd, rings, mgmt } := by
  obtain ⟨hregs, hsram, histore, -, hlpddr, hhost⟩ := h
  exact ⟨hregs, hsram, histore, rfl, hlpddr, hhost⟩

theorem solid_loseWarm : Solid (loseWarm s) := by
  have h2 := solid_nextGeneration (solid_nextGeneration (solid_resetFirmware h) .genPf0 0 0) .mbxRxGen 0 63
  have h3 := solid_foldl (fun _ k ht => solid_nextCtxGen (solid_discardApplies ht k) k) (List.range 16) h2
  have h4 := solid_foldl (fun _ p ht => solid_emptyLaunch ht p) (List.range 2) (solid_clearFabric h3)
  have h5 := solid_barrierStop h4
  exact solid_withoutGalley (solid_resetRegs (solid_ite (solid_logEvent h5 ..) h5) _ _) ..

theorem solid_warmReset : Solid (warmReset s) := by
  unfold warmReset
  grind [solid_loseWarm, solid_resetFirmware]

theorem solid_loadFuses : Solid (loadFuses s) := by
  unfold loadFuses
  grind [solid_put]

theorem solid_pinReset (a) : Solid (pinReset s a) := by
  have h0 : Solid (outputsOff ((List.range 2).foldl emptyLaunch s)) :=
    solid_outputsOff (solid_foldl (fun _ p ht => solid_emptyLaunch ht p) _ h)
  have hregs := (solid_resetRegs h0 (fun a => a.pin) (fun _ _ => true)).1
  have hhost := h0.2.2.2.2.2
  unfold pinReset
  refine solid_loadFuses (solid_mk_iff.mpr ?_)
  refine ⟨hregs, ?_, ?_, ?_, ?_, hhost⟩
  all_goals rfl

theorem solid_execPinReset (slotId : BitVec 4) : SolidAnswer (execPinReset slotId s) := by
  unfold execPinReset
  grind [solidAnswer_next, solid_pinReset]

theorem solid_awaitReset (unit : Nat) (r : Req) : Solid (awaitReset s unit r) := by
  unfold awaitReset
  grind [solid_mk_iff, fits_of_solid]

theorem solid_performReset (t : ResetTarget) : Solid (performReset s t) := by
  unfold performReset
  grind [solid_warmReset, solid_fabricReset, solid_resetChase, solid_teardownCtx]

theorem solid_execReset (r : Req) (t : ResetTarget) : SolidAnswer (execReset r t s) := by
  unfold execReset
  grind [solidAnswer_next, solid_firmware, solid_answer, solid_awaitReset, solid_performReset]

theorem solid_clearRingsOf (fn : Nat) : Solid (clearRingsOf s fn) := by
  unfold clearRingsOf
  grind [solid_resetRegs, solid_setRing, solid_put, solid_setCtx, solid_foldl]

theorem solid_resetGranted (fn : Nat) : Solid (resetGranted s fn) := by
  unfold resetGranted
  grind [solid_resetReceiver, solid_foldl]

theorem solid_execVfFlr (k : Ctx) : SolidAnswer (execVfFlr k s) := by
  unfold execVfFlr
  grind [solidAnswer_next, solid_resetGranted, solid_clearRingsOf, solid_overPcie, solid_teardownCtx]

theorem solid_execPf0Flr : SolidAnswer (execPf0Flr s) := by
  unfold execPf0Flr
  grind [solidAnswer_next, solid_clearRingsOf, solid_nextGeneration, solid_resetGranted, solid_overPcie,
    solid_fabricReset, solid_foldl]

/-! #### Of Machine/Fabric -/

theorem solid_statusChanged (before : State) : Solid (statusChanged before s) :=
  solid_ite h (solid_fireVector h 0 5)

theorem solid_setAlerts (v : BitVec 4) : Solid (setAlerts s v) := by
  unfold setAlerts
  grind [solid_emit, solid_mk_iff, fits_of_solid]

theorem solid_raiseAlert (cause : Nat) : Solid (raiseAlert s cause) := by
  unfold raiseAlert
  grind [solid_setAlerts]

theorem solid_updateSummary : Solid (updateSummary s) := by
  unfold updateSummary
  grind [solid_put]

theorem solid_enterFailed (reason : Nat) : Solid (enterFailed s reason) := by
  unfold enterFailed
  grind [solid_barrierStop, solid_fabricReset, solid_raiseAlert, solid_put]

theorem solid_setService : Solid (setService s) := by
  unfold setService
  grind [solid_statusChanged, solid_put, solid_enterFailed]

theorem solid_afterFence : Solid (afterFence s) := by
  unfold afterFence
  grind [solid_updateSummary, solid_setService]

theorem solid_disableEngine (c e : Nat) : Solid (disableEngine s c e) := by
  unfold disableEngine
  grind [solid_put, solid_mk_iff, fits_of_solid]

theorem solid_interrupt (n : Nat) (place : Option Nat) : Solid (interrupt s n place) := by
  unfold interrupt
  grind [solid_put, solid_setChase]

theorem solid_isolateCore (c : Nat) : Solid (isolateCore s c) := by
  unfold isolateCore
  grind [solid_isolateCopies, solid_foldl]

theorem solid_interruptUser (c : Nat) : Solid (interruptUser s c) := by
  unfold interruptUser
  grind [solid_interrupt]

theorem solid_fenceEngine (c e : Nat) : Solid (fenceEngine s c e) := by
  unfold fenceEngine
  grind [solid_put, solid_disableEngine, solid_afterFence, solid_interruptUser, solid_isolateCore]

theorem solid_removeCore (c : Nat) : Solid (removeCore s c) := by
  unfold removeCore
  grind [solid_isolateCore, solid_put, solid_mk_iff, fits_of_solid]

theorem solid_switchPlacement (n pi : Nat) : Solid (switchPlacement s n pi) := by
  unfold switchPlacement
  grind [solid_put, solid_setChase]

theorem solid_fenceCore (c : Nat) : Solid (fenceCore s c) := by
  unfold fenceCore
  grind [solid_afterFence, solid_removeCore, solid_setChase, solid_interrupt, solid_switchPlacement]

theorem solid_restartStreams (n : Nat) : Solid (restartStreams s n) := by
  unfold restartStreams
  grind [solid_setSequencers, solid_endCopies, solid_setChase]

theorem solid_rewind (n back : Nat) : Solid (rewind s n back) := by
  unfold rewind
  grind [solid_setCtx]

theorem solid_loseExits (n : Nat) : Solid (loseExits s n) := by
  unfold loseExits
  grind [solid_setChase]

theorem solid_takePlacement (n pi : Nat) : Solid (takePlacement s n pi) := by
  unfold takePlacement
  grind [solid_loseExits, solid_restartStreams, solid_rewind, solid_clearRings, solid_switchPlacement]

theorem solid_execFailoverComplete (n : ChaseNo) (ns : BitVec 16) : SolidAnswer (execFailoverComplete n ns s) := by
  unfold execFailoverComplete
  grind [solidAnswer_next, solid_takePlacement, solid_restartStreams, solid_rewind, solid_put, solid_setChase,
    solid_statusChanged, solid_logEvent]

theorem solid_latchError (c word : Nat) (istore uncorrectable byScrub : Bool) :
    Solid (latchError s c word istore uncorrectable byScrub) := by
  unfold latchError
  grind [solid_put]

/-! #### Of Machine/Supervisor -/

theorem solid_recordRung (u : LadderUnit) (rung cause : Nat) : Solid (recordRung s u rung cause) := by
  unfold recordRung
  grind [solid_put, solid_fireVector, solid_logEvent, solid_bump, solid_mk_iff, fits_of_solid]

theorem solid_absorbRung (u : LadderUnit) (rung cause : Nat) : Solid (absorbRung s u rung cause) := by
  unfold absorbRung
  grind [solid_logEvent]

theorem solid_powerCycle (cause : Nat) : Solid (powerCycle s cause) := by
  unfold powerCycle
  grind [solid_put, solid_recordRung, solid_emit, solid_statusChanged, solid_enterFailed, solid_raiseAlert,
    solid_mk_iff, fits_of_solid]

theorem solid_holdChase (n cause : Nat) : Solid (holdChase s n cause) := by
  unfold holdChase
  grind [solid_stopChase, solid_setChase, solid_logEvent]

theorem solid_performRung (u : LadderUnit) (rung : Nat) : Solid (performRung s u rung) := by
  unfold performRung
  grind [solid_fenceCore, solid_fenceEngine, solid_teardownCtx, solid_resetChase, solid_fabricReset,
    solid_statusChanged, solid_warmReset]

theorem solid_climb (fuel : Nat) (u : LadderUnit) (rung cause : Nat) : Solid (climb fuel s u rung cause) := by
  induction fuel generalizing s u rung cause with
  | zero => exact h
  | succ n ih =>
    unfold climb
    grind [solid_powerCycle, solid_absorbRung, solid_performRung, solid_recordRung, solid_holdChase]

theorem solid_escalate (u : LadderUnit) (rung cause : Nat) : Solid (escalate s u rung cause) := by
  unfold escalate
  grind [solid_climb]

theorem solid_failFailover (n : Nat) : Solid (failFailover s n) := by
  unfold failFailover
  grind [solid_put, solid_setChase]

theorem solid_hopelessFault (c : Nat) : Solid (hopelessFault s c) := by
  unfold hopelessFault
  grind [solid_afterFence, solid_removeCore, solid_failFailover, solid_escalate]

theorem solid_coreFault (c cause : Nat) : Solid (coreFault s c cause) := by
  unfold coreFault
  grind [solid_escalate, solid_hopelessFault]

theorem solid_engineFault (c e cause : Nat) : Solid (engineFault s c e cause) := by
  unfold engineFault
  grind [solid_escalate, solid_hopelessFault]

theorem solid_lateFault (u : LadderUnit) (cause : Nat) : Solid (lateFault s u cause) := by
  unfold lateFault
  grind [solid_absorbRung]

theorem solid_execSramUncorrectableError (c : CoreNo) (word : BitVec 19) (istore : Bool) :
    SolidAnswer (execSramUncorrectableError c word istore s) := by
  unfold execSramUncorrectableError
  grind [solidAnswer_next, solid_coreFault, solid_latchError, solid_bump, solid_lateFault]

theorem solid_execScrubRead (c : CoreNo) (word : BitVec 19) (istore : Bool) (res : EccResult) :
    SolidAnswer (execScrubRead c word istore res s) := by
  unfold execScrubRead
  grind [solidAnswer_next, solid_lateFault, solid_latchError, solid_bump, solid_coreFault]

theorem solid_execResidueFault (c : CoreNo) (engine : Fin 5) : SolidAnswer (execResidueFault c engine s) := by
  unfold execResidueFault
  grind [solidAnswer_next, solid_engineFault, solid_put, solid_lateFault]

theorem solid_execSignatureTest (c : CoreNo) (engine : Fin 5) (agrees : Bool) :
    SolidAnswer (execSignatureTest c engine agrees s) := by
  unfold execSignatureTest
  grind [solidAnswer_next, solid_engineFault, solid_put]

theorem solid_execEngineFence (c : CoreNo) (engine : Fin 5) : SolidAnswer (execEngineFence c engine s) := by
  unfold execEngineFence
  grind [solidAnswer_next, solid_engineFault]

theorem solid_execFailover (c : CoreNo) : SolidAnswer (execFailover c s) := by
  unfold execFailover
  grind [solidAnswer_next, solid_coreFault]

theorem solid_execProgressWindowExpiry (u : ProgressUnit) : SolidAnswer (execProgressWindowExpiry u s) := by
  unfold execProgressWindowExpiry
  grind [solidAnswer_next, solid_engineFault, solid_coreFault, solid_escalate]

theorem solid_takeTraps : Solid (takeTraps s) := by
  unfold takeTraps
  grind [solid_escalate, solid_foldl]

theorem solid_execWatchdogExpiry : SolidAnswer (execWatchdogExpiry s) := by
  unfold execWatchdogExpiry
  grind [solidAnswer_next, solid_escalate]

/-! #### Of Machine/BringUp -/

theorem solid_beginBringup (warmPath : Bool) : Solid (beginBringup s warmPath) := by
  unfold beginBringup
  grind [solid_put, solid_statusChanged, solid_mk_iff, fits_of_solid]

theorem solid_warmPath : Solid (warmPath s) := by
  unfold warmPath
  grind [solid_enterFailed, solid_beginBringup, solid_mk_iff, fits_of_solid]

theorem solid_execWarmResetEnd : SolidAnswer (execWarmResetEnd s) := by
  unfold execWarmResetEnd
  grind [solidAnswer_next, solid_answerAllResets, solid_warmPath]

theorem solid_execRstNRelease : SolidAnswer (execRstNRelease s) := by
  unfold execRstNRelease
  grind [solidAnswer_next, solid_enterFailed, solid_put, solid_beginBringup, solid_mk_iff, fits_of_solid]

theorem solid_keepMap (c phys : Nat) (slots : List Nat) : Solid (keepMap s c phys slots) := by
  unfold keepMap
  grind [solid_mk_iff, fits_of_solid]

theorem solid_writeCore (f : StepFindings) (c : Nat) : Solid (writeCore s f c) := by
  unfold writeCore
  grind [solid_put, solid_keepMap]

theorem solid_writeFloorplan (f : StepFindings) : Solid (writeFloorplan s f) := by
  unfold writeFloorplan
  grind [solid_writeCore, solid_put, solid_updateSummary, solid_foldl]

theorem solid_forceLanes (p : Nat) : Solid (forceLanes s p) := by
  unfold forceLanes
  grind [solid_put]

theorem solid_trainPorts : Solid (trainPorts s) := by
  unfold trainPorts
  grind [solid_enterDetect, solid_forceLanes, solid_foldl]

theorem solid_admitLanes : Solid (admitLanes s) := by
  unfold admitLanes
  grind [solid_put, solid_foldl]

theorem solid_finishBringup : Solid (finishBringup s) := by
  unfold finishBringup
  grind [solid_setService, solid_put, solid_admitLanes]

theorem solid_passStep (step : Nat) (f : StepFindings) : Solid (passStep s step f) := by
  unfold passStep
  grind [solid_trainPorts, solid_put, solid_finishBringup, solid_writeFloorplan, solid_mk_iff, fits_of_solid]

theorem solid_execBringupStepDone (f : StepFindings) : SolidAnswer (execBringupStepDone f s) := by
  unfold execBringupStepDone
  grind [solidAnswer_next, solid_put, solid_statusChanged, solid_enterFailed, solid_passStep, solid_mk_iff,
    fits_of_solid]

theorem solid_recordQualified (i rate : Nat) : Solid (recordQualified s i rate) := by
  unfold recordQualified
  grind [solid_mk_iff, fits_of_solid]

theorem solid_execLaneQualified (rhasha : Bool) (lane : Fin 16) : SolidAnswer (execLaneQualified rhasha lane s) := by
  unfold execLaneQualified
  grind [solidAnswer_next, solid_put, solid_recordQualified]

theorem solid_excludeRhLane (l : Nat) : Solid (excludeRhLane s l) := by
  unfold excludeRhLane
  grind [solid_put, solid_logEvent, solid_forceLanes, solid_enterDetect, solid_linkDown, solid_enterRetrain]

theorem solid_execLaneQualificationError (rhasha : Bool) (lane : Fin 16) :
    SolidAnswer (execLaneQualificationError rhasha lane s) := by
  unfold execLaneQualificationError
  grind [solidAnswer_next, solid_excludeRhLane, solid_excludeLane]

theorem solid_execLpddrBgBurst (addr : Nat) (passed : Bool) : SolidAnswer (execLpddrBgBurst addr passed s) := by
  unfold execLpddrBgBurst
  have hlog := solid_logEvent (solid_bump h .buLpddrFail 0) 0x0008 (srcBlock 0xF) 2
    [addr % 2 ^ 32, addr / 2 ^ 32, 0, 0]
  have hburst := solid_put (solid_ite (p := passed = true) h hlog) .buBgProgress 0 (addr * 256 / lpddrBytes s)
  have hdone := solid_put (solid_put hburst .buBgDone 0 1) .buLpddrBg 0 0
  exact solidAnswer_ite (solidAnswer_next.mpr h) (solidAnswer_next.mpr (solid_ite hdone hburst))

/-! #### Of Machine/BoardPort -/

theorem solid_execLevelWindow (withinLimits : Bool) (deviation : BitVec 16) :
    SolidAnswer (execLevelWindow withinLimits deviation s) := by
  unfold execLevelWindow
  grind [solidAnswer_next, solid_put, solid_statusChanged, solid_raiseAlert, solid_logEvent, solid_mk_iff,
    fits_of_solid]

theorem solid_sampleSensor (n v : Nat) : Solid (sampleSensor s n v) := by
  unfold sampleSensor
  grind [solid_put, solid_logEvent]

theorem solid_thermalCrit (n : Nat) : Solid (thermalCrit s n) := by
  unfold thermalCrit
  grind [solid_escalate, solid_raiseAlert, solid_mk_iff, fits_of_solid]

theorem solid_coolDown (n : Nat) : Solid (coolDown s n) := by
  unfold coolDown
  grind [solid_mk_iff, fits_of_solid]

theorem solid_execTelemetryRound (samples : List (BitVec 16)) : SolidAnswer (execTelemetryRound samples s) := by
  unfold execTelemetryRound
  grind [solidAnswer_next, solid_sampleSensor, solid_coolDown, solid_thermalCrit, solid_foldl]

theorem solid_execThermalHoldEnd : SolidAnswer (execThermalHoldEnd s) := by
  unfold execThermalHoldEnd
  grind [solidAnswer_next, solid_answerAllResets, solid_warmPath, solid_mk_iff, fits_of_solid]

theorem solid_smbReply (b : List Byte) : Solid (smbReply s b) := by
  unfold smbReply
  grind [solid_mk_iff, fits_of_solid]

theorem solid_smbNack : Solid (smbNack s) := by
  unfold smbNack
  grind [solid_mk_iff, fits_of_solid]

theorem solid_execSmbStatus : SolidAnswer (execSmbStatus s) := by
  unfold execSmbStatus
  grind [solidAnswer_next, solid_smbNack, solid_smbReply]

theorem solid_boardCommand (run : State → State) (hrun : ∀ t, Solid t → Solid (run t)) :
    Solid (boardCommand s run) := by
  unfold boardCommand
  grind [solid_smbNack]

theorem solid_execSmbTelemetry (n : BitVec 8) : SolidAnswer (execSmbTelemetry n s) := by
  unfold execSmbTelemetry
  grind [solidAnswer_next, solid_boardCommand, solid_smbReply, solid_smbNack]

theorem solid_execSmbEvent (index : BitVec 16) : SolidAnswer (execSmbEvent index s) := by
  unfold execSmbEvent
  grind [solidAnswer_next, solid_boardCommand, solid_smbNack, solid_smbReply]

theorem solid_execSmbIdentity : SolidAnswer (execSmbIdentity s) := by
  unfold execSmbIdentity
  grind [solidAnswer_next, solid_boardCommand, solid_smbReply]

theorem solid_execResetArm (kind : BitVec 8) : SolidAnswer (execResetArm kind s) := by
  unfold execResetArm
  grind [solidAnswer_next, solid_boardCommand, solid_smbNack, solid_smbReply, solid_mk_iff, fits_of_solid]

theorem solid_execResetExec (kind : BitVec 8) : SolidAnswer (execResetExec kind s) := by
  unfold execResetExec
  grind [solidAnswer_next, solid_boardCommand, solid_smbNack, solid_smbReply, solid_statusChanged, solid_performReset,
    solid_mk_iff, fits_of_solid]

theorem solid_execAlertClear (causes : BitVec 8) : SolidAnswer (execAlertClear causes s) := by
  unfold execAlertClear
  grind [solidAnswer_next, solid_boardCommand, solid_smbReply, solid_setAlerts]

theorem solid_execSmbAlertResponse : SolidAnswer (execSmbAlertResponse s) := by
  unfold execSmbAlertResponse
  grind [solidAnswer_next, solid_smbNack, solid_smbReply]

theorem solid_execSmbBadPec (_command : BitVec 8) : SolidAnswer (execSmbBadPec _command s) := by
  unfold execSmbBadPec
  grind [solidAnswer_next, solid_smbNack]

/-! #### Of Machine/Compute -/

theorem solid_engineOp (q : SeqId) (o : Op) (x : Seq) (slices : Src → Src → Nat → Nat → Nat → List Slice) :
    Solid (engineOp q o x s slices) := by
  unfold engineOp
  grind [solid_onUnits, solid_storeTensor, solid_countNums, solid_mk_iff, fits_of_solid]

theorem solid_execConv (q : SeqId) (w : ZWord) : SolidAnswer (execConv q w s) := by
  unfold execConv
  grind [solidAnswer_next, solid_issue, solid_engineOp]

theorem solid_execDwconv (q : SeqId) (w : ZWord) : SolidAnswer (execDwconv q w s) := by
  unfold execDwconv
  grind [solidAnswer_next, solid_issue, solid_engineOp]

theorem solid_execGemm (q : SeqId) (w : ZWord) : SolidAnswer (execGemm q w s) := by
  unfold execGemm
  grind [solidAnswer_next, solid_issue, solid_engineOp]

theorem solid_vectorOp (q : SeqId) (o : Op) (x : Seq) (srcs : List Desc) (dst : Desc) (reads : Nat → Src → List (Nat
    × Nat × Nat)) (f : List Src → Nat → Nat → Nat → Ev Nat) :
    Solid (vectorOp q o x s srcs dst reads f) := by
  unfold vectorOp
  grind [solid_onUnits, solid_storeTensor, solid_countNums, solid_foldl]

theorem solid_execPoolmax (q : SeqId) (w : ZWord) : SolidAnswer (execPoolmax q w s) := by
  unfold execPoolmax
  grind [solidAnswer_next, solid_issue, solid_vectorOp, solid_foldl]

theorem solid_execPoolavg (q : SeqId) (w : ZWord) : SolidAnswer (execPoolavg q w s) := by
  unfold execPoolavg
  grind [solidAnswer_next, solid_issue, solid_vectorOp]

theorem solid_elementwise (q : SeqId) (o : Op) (x : Seq) (f : Val → Val → Ev Val) :
    Solid (elementwise q o x s f) := by
  unfold elementwise
  grind [solid_vectorOp]

theorem solid_execAdd (q : SeqId) (w : ZWord) : SolidAnswer (execAdd q w s) := by
  unfold execAdd
  grind [solidAnswer_next, solid_issue, solid_elementwise]

theorem solid_execMul (q : SeqId) (w : ZWord) : SolidAnswer (execMul q w s) := by
  unfold execMul
  grind [solidAnswer_next, solid_issue, solid_elementwise]

theorem solid_execAct (q : SeqId) (w : ZWord) : SolidAnswer (execAct q w s) := by
  unfold execAct
  grind [solidAnswer_next, solid_issue, solid_vectorOp]

omit h in
theorem padPlane_wf {m : Memory} (hm : Memory.wf m = true) (d : Desc) (b : Nat) :
    Memory.wf (padPlane d m b) = true := by
  unfold padPlane
  grind [memZero_wf]

theorem solid_writeScales (q : SeqId) (d : Desc) (h0 : Nat) (a : Src) (tbits : Nat) :
    Solid (writeScales s q d h0 a tbits) := by
  have hmem := memOf_wf h.2 (spaceBase s q d).1
  unfold writeScales
  dsimp only
  refine solid_ite (solid_countNums (solid_setMem h _ (padPlane_wf ?_ d _)) _ _) h
  split
  · exact foldl_wf (fun m i hm => memStore_wf hm _ _) _ (foldl_wf (fun m e hm => memWrite_wf hm _ _) _ hmem)
  · exact foldl_wf (fun m e hm => memWrite_wf hm _ _) _ hmem

theorem solid_execQuant (q : SeqId) (w : ZWord) : SolidAnswer (execQuant q w s) := by
  unfold execQuant
  grind [solidAnswer_next, solid_issue, solid_onUnits, solid_storeTensor, solid_countNums, solid_writeScales,
    solid_vectorOp]

theorem solid_execDeq (q : SeqId) (w : ZWord) : SolidAnswer (execDeq q w s) := by
  unfold execDeq
  grind [solidAnswer_next, solid_issue, solid_vectorOp]

theorem solid_execRot (q : SeqId) (w : ZWord) : SolidAnswer (execRot q w s) := by
  unfold execRot
  grind [solidAnswer_next, solid_issue, solid_vectorOp]

theorem solid_wakeUnits (q : SeqId) : Solid (wakeUnits q s) := by
  unfold wakeUnits
  grind [solid_modSeq]

theorem solid_execUnitCompletion (q : SeqId) (u : UnitId) : SolidAnswer (execUnitCompletion q u s) := by
  unfold execUnitCompletion
  grind [solidAnswer_next, solid_setChase, solid_put, solid_wakeUnits, solid_foldl]

/-! #### Of Machine/Experts -/

theorem solid_putBytes (q : SeqId) (d : Desc) (off : Nat) (b : List Byte) : Solid (putBytes s q d off b) := by
  unfold putBytes
  grind [solid_disturb, solid_setMem, memStore_wf, memOf_wf_of_solid]

theorem solid_readX (q : SeqId) (l : List Src) : Solid (readX s q l) := by
  unfold readX
  grind [solid_readSources, solid_skipFree]

theorem solid_execGate (q : SeqId) (w : ZWord) : SolidAnswer (execGate q w s) := by
  unfold execGate
  grind [solidAnswer_next, solid_issue, solid_retire, solid_countBad, solid_countNums, solid_putBytes, solid_readX,
    solid_foldl]

theorem solid_sendSort (n : Nat) (hd : SortHdr) (payload : List Byte) : Solid (sendSort s n hd payload).2 := by
  unfold sendSort
  grind [solid_setChase, solid_countMissing, solid_deliverSort, solid_sendOn]

theorem solid_takeEgress (n bytes : Nat) : Solid (takeEgress s n bytes) := by
  unfold takeEgress
  grind [solid_setChase]

theorem solid_sendSorts (n i : Nat) (it : Item) (d : Desc) (payload : List Byte) (l : List (Nat × Nat × Nat))
    (code : Nat) : Solid (sendSorts n i it d payload l (code, s)).2 := by
  induction l generalizing code s with
  | nil => exact h
  | cons e l ih =>
    unfold sendSorts
    grind [solid_setChase, solid_takeEgress, solid_countMissing, solid_sendSort]

theorem solid_execSortSend (q : SeqId) (w : ZWord) : SolidAnswer (execSortSend q w s) := by
  unfold execSortSend
  grind [solidAnswer_next, solid_issue, solid_readX, solid_setChase, solid_sendSorts, solid_retire, solid_modSeq]

theorem solid_replyTo (n slot : Nat) (output : List Byte) : Solid (replyTo s n slot output).2 := by
  unfold replyTo
  grind [solid_sendReply, solid_setChase, solid_bump]

theorem solid_execSortSendReply (q : SeqId) (w : ZWord) : SolidAnswer (execSortSendReply q w s) := by
  unfold execSortSendReply
  grind [solidAnswer_next, solid_issue, solid_replyTo, solid_readX, solid_retire, solid_modSeq]

theorem solid_writeReplies (q : SeqId) (d : Desc) (len : Nat) (l : List SortOut) :
    Solid (writeReplies s q d len l) := by
  unfold writeReplies
  grind [solid_putBytes, solid_foldl]

theorem solid_finishRecv (q : SeqId) (i dd sd pdst : Nat) : Solid (finishRecv s q i dd sd pdst) := by
  unfold finishRecv
  grind [solid_writeReplies, solid_setChase, solid_modSeq]

theorem solid_execSortRecv (q : SeqId) (w : ZWord) : SolidAnswer (execSortRecv q w s) := by
  unfold execSortRecv
  grind [solidAnswer_next, solid_issue, solid_finishRecv, solid_modSeq]

theorem solid_takeInbound (q : SeqId) (dd sd : Nat) {t : State} (ht : takeInbound s q dd sd = some t) :
    Solid t := by
  unfold takeInbound at ht
  grind [solid_putBytes, solid_setChase, solid_modSeq]

theorem solid_execSortRecvInbound (q : SeqId) (w : ZWord) : SolidAnswer (execSortRecvInbound q w s) := by
  unfold execSortRecvInbound
  grind [solidAnswer_next, solid_issue, solid_takeInbound, solid_modSeq]

theorem solid_execSortRecvRelease (q : SeqId) : SolidAnswer (execSortRecvRelease q s) := by
  have htake : ∀ dd sd, Solid ((takeInbound s q dd sd).getD s) := fun dd sd => by
    cases ht : takeInbound s q dd sd with
    | none => exact h
    | some t => exact solid_takeInbound h q dd sd ht
  unfold execSortRecvRelease
  grind [solidAnswer_next, solid_finishRecv]

theorem solid_execSortRecvTimeout (q : SeqId) : SolidAnswer (execSortRecvTimeout q s) := by
  unfold execSortRecvTimeout
  grind [solidAnswer_next, solid_finishRecv, solid_takeInbound, solid_fresh, solid_modSeq]

theorem solid_execCombine (q : SeqId) (w : ZWord) : SolidAnswer (execCombine q w s) := by
  unfold execCombine
  grind [solidAnswer_next, solid_issue, solid_retire, solid_countNums, solid_putBytes, solid_readX, solid_foldl]

/-! #### Of Machine/Move -/

theorem solid_moveScales (q : SeqId) (x : Src) (d : Desc) : Solid (moveScales s q x d) := by
  have hmem := memOf_wf h.2 (spaceBase s q d).1
  unfold moveScales
  refine solid_ite (solid_setMem h _ (padPlane_wf ?_ d _)) h
  split
  · exact foldl_wf (fun m i hm => memStore_wf hm _ _) _ (foldl_wf (fun m e hm => memWrite_wf hm _ _) _ hmem)
  · exact foldl_wf (fun m e hm => memWrite_wf hm _ _) _ hmem

theorem solid_moveTensor (q : SeqId) (a d : Desc) : Solid (moveTensor s q a d) := by
  unfold moveTensor
  grind [solid_countBad, solid_moveScales, solid_storeCells]

theorem solid_loadLines (q : SeqId) (c : Context) (d : Desc) (first : Nat) : Solid (loadLines s q c d first) := by
  unfold loadLines
  grind [solid_storeTensor, solid_foldl]

theorem solid_execLdT (q : SeqId) (w : ZWord) : SolidAnswer (execLdT q w s) := by
  unfold execLdT
  grind [solidAnswer_next, solid_issue, solid_retire, solid_onUnits, solid_modSeq, solid_loadLines, solid_regulated,
    solid_moveTensor]

theorem solid_execStT (q : SeqId) (w : ZWord) : SolidAnswer (execStT q w s) := by
  unfold execStT
  grind [solidAnswer_next, solid_issue, solid_retire, solid_onUnits, solid_countBad, solid_countNums,
    solid_addCropRecord, solid_regulated, solid_moveTensor]

theorem solid_copyRect (q : SeqId) (a d : Desc) : Solid (copyRect s q a d) :=
  solid_setMem h _ (foldl_wf (fun _ _ hm => memStore_wf hm _ _) _ (memOf_wf h.2 _))

theorem solid_copyTrap (q : SeqId) (o : Op) (cause : Nat) : Solid (copyTrap s q o cause) := by
  unfold copyTrap
  grind [solid_put]

theorem solid_copyStart (q : SeqId) (o : Op) (a d : Desc) : Solid (copyStart s q o a d) := by
  unfold copyStart
  grind [solid_put]

theorem solid_execCopy2d (q : SeqId) (w : ZWord) : SolidAnswer (execCopy2d q w s) := by
  unfold execCopy2d
  grind [solidAnswer_next, solid_copyTrap, solid_issue, solid_regulated, solid_onUnitsWith, solid_copyStart,
    solid_copyRect]

theorem solid_execZpack (q : SeqId) (w : ZWord) : SolidAnswer (execZpack q w s) := by
  unfold execZpack
  grind [solidAnswer_next, solid_issue, solid_onUnits, solid_countBad, solid_moveScales, solid_storeCells]

/-! #### Of Machine/PostProc -/

theorem solid_storeAt (q : SeqId) (d : Desc) (b : List Byte) : Solid (storeAt s q d b) := by
  unfold storeAt
  grind [solid_setMem, memStore_wf, memOf_wf_of_solid]

theorem solid_execBoxdec (q : SeqId) (w : ZWord) : SolidAnswer (execBoxdec q w s) := by
  unfold execBoxdec
  grind [solidAnswer_next, solid_issue, solid_onUnits, solid_storeAt, solid_bumpBy, solid_countBad, solid_countNums]

theorem solid_execNms (q : SeqId) (w : ZWord) : SolidAnswer (execNms q w s) := by
  unfold execNms
  grind [solidAnswer_next, solid_issue, solid_onUnits, solid_storeAt, solid_bumpBy, solid_modSeq]

theorem solid_execDimsOpen (q : SeqId) (w : ZWord) : SolidAnswer (execDimsOpen q w s) := by
  unfold execDimsOpen
  grind [solidAnswer_next, solid_issue, solid_onUnits, solid_setChase, solid_bump]

theorem solid_execDimsAccumulate (q : SeqId) (w : ZWord) : SolidAnswer (execDimsAccumulate q w s) := by
  unfold execDimsAccumulate
  grind [solidAnswer_next, solid_issue, solid_onUnits, solid_setChase, solid_storeAt]

theorem solid_execDimsClose (q : SeqId) (w : ZWord) : SolidAnswer (execDimsClose q w s) := by
  unfold execDimsClose
  grind [solidAnswer_next, solid_issue, solid_onUnits, solid_countNums, solid_storeAt, solid_setChase]

theorem solid_execTopk (q : SeqId) (w : ZWord) : SolidAnswer (execTopk q w s) := by
  unfold execTopk
  grind [solidAnswer_next, solid_issue, solid_onUnits, solid_storeAt, solid_countBad, solid_bumpBy, solid_mk_iff,
    fits_of_solid]

/-! #### Of Machine/Registers -/

theorem solid_fieldRead (e : Fld × Nat × Nat) : Solid (fieldRead s e) := by
  unfold fieldRead
  grind [solid_latch, solid_put]

theorem solid_readAddr (fn a : Nat) : Solid (readAddr s fn a).2 := by
  unfold readAddr
  grind [solid_quoinAcquire, solid_fieldRead, solid_foldl]

theorem solid_badAccess (fn off : Nat) (isWrite : Bool) : Solid (badAccess s fn off isWrite) := by
  unfold badAccess
  grind [solid_regFault, solid_mk_iff, fits_of_solid]

theorem solid_busRead (fn off : Nat) : Solid (busRead s fn off) := by
  unfold busRead
  grind [solid_badAccess, solid_readAddr, solid_mk_iff, fits_of_solid]

theorem solid_execPairLoRead (fn : Fn) (off : BitVec 24) : SolidAnswer (execPairLoRead fn off s) := by
  unfold execPairLoRead
  grind [solidAnswer_next, solid_busRead]

theorem solid_execRcRead (fn : Fn) (off : BitVec 24) : SolidAnswer (execRcRead fn off s) := by
  unfold execRcRead
  grind [solidAnswer_next, solid_busRead]

theorem solid_execMisalignedRegisterAccess (fn : Fn) (off : BitVec 24) (bytes : Nat) (isWrite : Bool) :
    SolidAnswer (execMisalignedRegisterAccess fn off bytes isWrite s) := by
  unfold execMisalignedRegisterAccess
  grind [solidAnswer_next, solid_badAccess]

theorem solid_storeField (val : Nat) (e : Fld × Nat × Nat) : Solid (storeField val s e) := by
  unfold storeField
  grind [solid_setLo, solid_put]

theorem solid_newConfig : Solid (newConfig s) :=
  sound_newConfig h

theorem solid_channelConfigured (before : State) (c : Nat) : Solid (channelConfigured before s c) := by
  unfold channelConfigured
  grind [solid_newConfig, solid_put, solid_pulseOff]

theorem solid_routesChanged (before : State) : Solid (routesChanged before s) := by
  unfold routesChanged
  grind [solid_setRole, solid_wantPropose, solid_foldl]

theorem solid_portControlled (p val : Nat) : Solid (portControlled s p val) := by
  unfold portControlled
  grind [solid_forceLanes, solid_enterDetect, solid_linkDown, solid_enterRetrain]

theorem solid_domainConfigured (before : State) (d : Nat) : Solid (domainConfigured before s d) := by
  unfold domainConfigured
  grind [solid_put, solid_setServo, solid_firstSetting]

theorem solid_actField (fn val : Nat) (before : State) (e : Fld × Nat × Nat) :
    Solid (actField fn val before s e) := by
  unfold actField
  grind [solid_statusChanged, solid_put, solid_postFrom, solid_takeHead, solid_popCompletion, solid_quoinPort,
    solid_consWritten, solid_fetchAhead, solid_stepTo, solid_firstSetting, solid_autoSwitch, solid_domainConfigured,
    solid_popStamp, solid_presetTo, solid_setEmu, solid_channelConfigured, solid_newConfig, solid_requestClear,
    solid_routesChanged, solid_updateClk, solid_portControlled]

theorem solid_busWrite (fn off val : Nat) : Solid (busWrite s fn off val) := by
  unfold busWrite
  grind [solid_badAccess, solid_regFault, solid_actField, solid_storeField, solid_foldl]

theorem solid_execRegisterWrite (fn : Fn) (off : BitVec 24) (val : Word) :
    SolidAnswer (execRegisterWrite fn off val s) := by
  unfold execRegisterWrite
  grind [solidAnswer_next, solid_busWrite]

theorem solid_execPairHiWrite (fn : Fn) (off : BitVec 24) (val : Word) :
    SolidAnswer (execPairHiWrite fn off val s) := by
  unfold execPairHiWrite
  grind [solidAnswer_next, solid_busWrite]

theorem solid_loadKeyStore : Solid (loadKeyStore s) := by
  unfold loadKeyStore
  grind [solid_put]

theorem solid_lostAll : Solid (lostAll s) := by
  obtain ⟨-, -, -, -, -, hhost⟩ := fits_of_solid h
  exact ⟨fun _ he => absurd he List.not_mem_nil, rfl, rfl, rfl, rfl, hhost⟩

theorem solid_execAuxRailUp (slotId : BitVec 4) : SolidAnswer (execAuxRailUp slotId s) := by
  unfold execAuxRailUp
  grind [solidAnswer_next, solid_loadKeyStore, solid_loadFuses, solid_lostAll, solid_mk_iff, fits_of_solid]

theorem solid_debugEnds : Solid (debugEnds s) := by
  unfold debugEnds
  grind [solid_logEvent, solid_put]

theorem solid_execMainRailUp : SolidAnswer (execMainRailUp s) := by
  unfold execMainRailUp
  grind [solidAnswer_next, solid_periodicCatchUp, solid_debugEnds, solid_warmPath, solid_mk_iff, fits_of_solid,
    solid_foldl]

theorem solid_execMainRailLost : SolidAnswer (execMainRailLost s) := by
  unfold execMainRailLost
  grind [solidAnswer_next, solid_loseWarm, solid_mk_iff, fits_of_solid]

theorem solid_execAuxRailLost : SolidAnswer (execAuxRailLost s) := by
  unfold execAuxRailLost
  grind [solidAnswer_next, solid_lostAll, solid_outputsOff, solid_mk_iff, fits_of_solid]

/-! #### Of Machine/Tick -/

theorem solid_fillBuckets : Solid (fillBuckets s) := by
  unfold fillBuckets
  grind [solid_setChase, solid_foldl]

/-! ### The commands and the step -/

/-- A command that answers a next state answers a sound one. -/
theorem solid_exec (c : Instr) : SolidAnswer (exec c s) := by
  cases c with
  | registerWrite fn off val => exact solid_execRegisterWrite h fn off val
  | misalignedRegisterAccess fn off bytes isWrite => exact solid_execMisalignedRegisterAccess h fn off bytes isWrite
  | pairLoRead fn off => exact solid_execPairLoRead h fn off
  | pairHiWrite fn off val => exact solid_execPairHiWrite h fn off val
  | rcRead fn off => exact solid_execRcRead h fn off
  | auxRailUp slotId => exact solid_execAuxRailUp h slotId
  | mainRailUp => exact solid_execMainRailUp h
  | mainRailLost => exact solid_execMainRailLost h
  | auxRailLost => exact solid_execAuxRailLost h
  | levelWindow withinLimits deviation => exact solid_execLevelWindow h withinLimits deviation
  | nop q w => exact solid_execNop h q w
  | sets q w => exact solid_execSets h q w
  | alu q w => exact solid_execAlu h q w
  | cmp q w => exact solid_execCmp h q w
  | dld q w => exact solid_execDld h q w
  | dadd q w => exact solid_execDadd h q w
  | loop q w => exact solid_execLoop h q w
  | br q w => exact solid_execBr h q w
  | sync q w => exact solid_execSync h q w
  | barrierRelease n barrier => exact solid_execBarrierRelease h n barrier
  | waitl q w => exact solid_execWaitl h q w
  | waitlRelease q => exact solid_execWaitlRelease h q
  | waitlTimeout q => exact solid_execWaitlTimeout h q
  | waite q w => exact solid_execWaite h q w
  | waiteRelease q => exact solid_execWaiteRelease h q
  | waiteTimeout q => exact solid_execWaiteTimeout h q
  | halt q w => exact solid_execHalt h q w
  | trap q w => exact solid_execTrap h q w
  | ldT q w => exact solid_execLdT h q w
  | stT q w => exact solid_execStT h q w
  | copy2d q w => exact solid_execCopy2d h q w
  | zpack q w => exact solid_execZpack h q w
  | conv q w => exact solid_execConv h q w
  | dwconv q w => exact solid_execDwconv h q w
  | gemm q w => exact solid_execGemm h q w
  | poolmax q w => exact solid_execPoolmax h q w
  | poolavg q w => exact solid_execPoolavg h q w
  | add q w => exact solid_execAdd h q w
  | mul q w => exact solid_execMul h q w
  | act q w => exact solid_execAct h q w
  | quant q w => exact solid_execQuant h q w
  | deq q w => exact solid_execDeq h q w
  | rot q w => exact solid_execRot h q w
  | unitCompletion q u => exact solid_execUnitCompletion h q u
  | boxdec q w => exact solid_execBoxdec h q w
  | nms q w => exact solid_execNms h q w
  | dimsOpen q w => exact solid_execDimsOpen h q w
  | dimsAccumulate q w => exact solid_execDimsAccumulate h q w
  | dimsClose q w => exact solid_execDimsClose h q w
  | topk q w => exact solid_execTopk h q w
  | gate q w => exact solid_execGate h q w
  | sortSend q w => exact solid_execSortSend h q w
  | sortSendReply q w => exact solid_execSortSendReply h q w
  | sortRecv q w => exact solid_execSortRecv h q w
  | sortRecvRelease q => exact solid_execSortRecvRelease h q
  | sortRecvTimeout q => exact solid_execSortRecvTimeout h q
  | sortRecvInbound q w => exact solid_execSortRecvInbound h q w
  | combine q w => exact solid_execCombine h q w
  | verdictOpen q w => exact solid_execVerdictOpen h q w
  | verdictDecide q w => exact solid_execVerdictDecide h q w
  | fire q w => exact solid_execFire h q w
  | trig q w => exact solid_execTrig h q w
  | tstamp q w => exact solid_execTstamp h q w
  | param q w => exact solid_execParam h q w
  | bwset q w => exact solid_execBwset h q w
  | mbx q w => exact solid_execMbx h q w
  | quoinAcquire q w => exact solid_execQuoinAcquire h q w
  | quoinRelease q w => exact solid_execQuoinRelease h q w
  | quoinClear q w => exact solid_execQuoinClear h q w
  | sramUncorrectableError c word istore => exact solid_execSramUncorrectableError h c word istore
  | scrubRead c word istore res => exact solid_execScrubRead h c word istore res
  | residueFault c engine => exact solid_execResidueFault h c engine
  | signatureTest c engine agrees => exact solid_execSignatureTest h c engine agrees
  | engineFence c engine => exact solid_execEngineFence h c engine
  | failover c => exact solid_execFailover h c
  | failoverComplete n ns => exact solid_execFailoverComplete h n ns
  | chaseCreate r n owner cores regions ceilLpddr ceilGalley ceilRhasha =>
    exact solid_execChaseCreate h r n owner cores regions ceilLpddr ceilGalley ceilRhasha
  | chaseDelete r n => exact solid_execChaseDelete h r n
  | contextBind r n slot k p => exact solid_execContextBind h r n slot k p
  | contextUnbind r n slot => exact solid_execContextUnbind h r n slot
  | formeLoad r n addr size => exact solid_execFormeLoad h r n addr size
  | formeLoadDone n => exact solid_execFormeLoadDone h n
  | formePatch r n addr size => exact solid_execFormePatch h r n addr size
  | patchSwap n => exact solid_execPatchSwap h n
  | chaseStart r n => exact solid_execChaseStart h r n
  | chaseStop r n => exact solid_execChaseStop h r n
  | looseSectionEnd n afterTail => exact solid_execLooseSectionEnd h n afterTail
  | bucketGrant n res => exact solid_execBucketGrant h n res
  | deadlineReached n i => exact solid_execDeadlineReached h n i
  | exitRecordValid n i => exact solid_execExitRecordValid h n i
  | exitLimitReached n i => exact solid_execExitLimitReached h n i
  | laneLock l info => exact solid_execLaneLock h l info
  | laneLockTimeout l => exact solid_execLaneLockTimeout h l
  | laneLockLoss l => exact solid_execLaneLockLoss h l
  | triggerCompareHit k => exact solid_execTriggerCompareHit h k
  | triggerPacketEnd k => exact solid_execTriggerPacketEnd h k
  | lineBegin k => exact solid_execLineBegin h k
  | streamPacket l k crcOk codeErrors framed => exact solid_execStreamPacket h l k crcOk codeErrors framed
  | deviceEventPacket l => exact solid_execDeviceEventPacket h l
  | lineComplete k samples => exact solid_execLineComplete h k samples
  | cameraControlRead r k settle addr len => exact solid_execCameraControlRead h r k settle addr len
  | cameraControlWrite r k settle addr data => exact solid_execCameraControlWrite h r k settle addr data
  | cameraReply k data => exact solid_execCameraReply h k data
  | cameraReplyTimeout k => exact solid_execCameraReplyTimeout h k
  | pipeStage r k target bank addr size => exact solid_execPipeStage h r k target bank addr size
  | pipeStageDone k => exact solid_execPipeStageDone h k
  | pipeApply r k target bank line => exact solid_execPipeApply h r k target bank line
  | replayStart r k addr size start looped => exact solid_execReplayStart h r k addr size start looped
  | replayStop r k => exact solid_execReplayStop h r k
  | replayPrefetch k => exact solid_execReplayPrefetch h k
  | trainStart r n p => exact solid_execTrainStart h r n p
  | trainStop r n => exact solid_execTrainStop h r n
  | batchFill n arrival => exact solid_execBatchFill h n arrival
  | rhRetrain fn p => exact solid_execRhRetrain h fn p
  | tsLocked p lanes => exact solid_execTsLocked h p lanes
  | eqCodeDwell p lane errors => exact solid_execEqCodeDwell h p lane errors
  | capReceived p word crc => exact solid_execCapReceived h p word crc
  | capTimeout p => exact solid_execCapTimeout h p
  | widenTimeout p => exact solid_execWidenTimeout h p
  | rateReceived p code lanes => exact solid_execRateReceived h p code lanes
  | stepTimeout p => exact solid_execStepTimeout h p
  | retrainEnd p => exact solid_execRetrainEnd h p
  | downEnd p => exact solid_execDownEnd h p
  | hbSend p => exact solid_execHbSend h p
  | skpSend p => exact solid_execSkpSend h p
  | syncSend p => exact solid_execSyncSend h p
  | syncReceived p count => exact solid_execSyncReceived h p count
  | hbReceived p gen st => exact solid_execHbReceived h p gen st
  | hbTimeout p => exact solid_execHbTimeout h p
  | suspensionTimeout p => exact solid_execSuspensionTimeout h p
  | packetCrcError p => exact solid_execPacketCrcError h p
  | duplicatePacket p seq => exact solid_execDuplicatePacket h p seq
  | ack p seq => exact solid_execAck h p seq
  | nak p seq => exact solid_execNak h p seq
  | ackTimer p => exact solid_execAckTimer h p
  | replayTimeout p => exact solid_execReplayTimeout h p
  | packetForward p pkt => exact solid_execPacketForward h p pkt
  | sort p hdr i payload => exact solid_execSort h p hdr i payload
  | reply p hdr i payload => exact solid_execReply h p hdr i payload
  | join p hdr m => exact solid_execJoin h p hdr m
  | propose p hdr m => exact solid_execPropose h p hdr m
  | accept p hdr m => exact solid_execAccept h p hdr m
  | acceptTimeout n => exact solid_execAcceptTimeout h n
  | commit p hdr m => exact solid_execCommit h p hdr m
  | epochApply n => exact solid_execEpochApply h n
  | unreach p hdr m => exact solid_execUnreach h p hdr m
  | refClkLost => exact solid_execRefClkLost h
  | clockSourceChange src steps => exact solid_execClockSourceChange h src steps
  | clockRampStep => exact solid_execClockRampStep h
  | oscTrimWindow error bySync => exact solid_execOscTrimWindow h error bySync
  | freqMeterGate n khz => exact solid_execFreqMeterGate h n khz
  | encoderEdge e edge => exact solid_execEncoderEdge h e edge
  | wireFault e wire => exact solid_execWireFault h e wire
  | wireFaultClear e => exact solid_execWireFaultClear h e
  | indexEdge e => exact solid_execIndexEdge h e
  | preset fn e hi => exact solid_execPreset h fn e hi
  | periodicCompareHit j => exact solid_execPeriodicCompareHit h j
  | trigOneshotHit k o => exact solid_execTrigOneshotHit h k o
  | fireTick => exact solid_execFireTick h
  | downFrame frame => exact solid_execDownFrame h frame
  | upFrame frame => exact solid_execUpFrame h frame
  | frameMissing dir => exact solid_execFrameMissing h dir
  | trip n => exact solid_execTrip h n
  | tripClear fn clear0 clear1 => exact solid_execTripClear h fn clear0 clear1
  | inputEdge c level => exact solid_execInputEdge h c level
  | inputOpenWire c => exact solid_execInputOpenWire h c
  | outputOverload c => exact solid_execOutputOverload h c
  | outputOpenWire c => exact solid_execOutputOpenWire h c
  | overTemperature c => exact solid_execOverTemperature h c
  | fieldSupplyLost => exact solid_execFieldSupplyLost h
  | fieldSupplyReturn => exact solid_execFieldSupplyReturn h
  | ptpSync d domainTime freqPpb => exact solid_execPtpSync h d domainTime freqPpb
  | domainLost d => exact solid_execDomainLost h d
  | timeStep fn hi => exact solid_execTimeStep h fn hi
  | launchTimeReached p => exact solid_execLaunchTimeReached h p
  | pcsReady p => exact solid_execPcsReady h p
  | txtsPop fn p val => exact solid_execTxtsPop h fn p val
  | ringConsWrite fn ring val => exact solid_execRingConsWrite h fn ring val
  | commandRingEntry fn => exact solid_execCommandRingEntry h fn
  | statusBlockWrite fn => exact solid_execStatusBlockWrite h fn
  | cropPageDelivery k => exact solid_execCropPageDelivery h k
  | cropFlushTimeout k => exact solid_execCropFlushTimeout h k
  | pageHoldTimeout k => exact solid_execPageHoldTimeout h k
  | interruptInterval fn ring => exact solid_execInterruptInterval h fn ring
  | vfFlr k => exact solid_execVfFlr h k
  | pf0Flr => exact solid_execPf0Flr h
  | pciePerst => exact solid_execPciePerst h
  | hello r driverMin driverMax => exact solid_execHello h r driverMin driverMax
  | undefinedCommand r code => exact solid_execUndefinedCommand h r code
  | mbxPost fn m len channel => exact solid_execMbxPost h fn m len channel
  | mbxTake fn m code => exact solid_execMbxTake h fn m code
  | mbxCplPop fn m => exact solid_execMbxCplPop h fn m
  | qacqRead fn q => exact solid_execQacqRead h fn q
  | qopRelease fn q => exact solid_execQopRelease h fn q
  | qopClear fn q => exact solid_execQopClear h fn q
  | telemetryRound samples => exact solid_execTelemetryRound h samples
  | thermalHoldEnd => exact solid_execThermalHoldEnd h
  | smbStatus => exact solid_execSmbStatus h
  | smbTelemetry n => exact solid_execSmbTelemetry h n
  | smbEvent index => exact solid_execSmbEvent h index
  | smbIdentity => exact solid_execSmbIdentity h
  | resetArm kind => exact solid_execResetArm h kind
  | resetExec kind => exact solid_execResetExec h kind
  | alertClear causes => exact solid_execAlertClear h causes
  | smbAlertResponse => exact solid_execSmbAlertResponse h
  | smbBadPec command => exact solid_execSmbBadPec h command
  | fwSvnCommit r => exact solid_execFwSvnCommit h r
  | keyEnrol r slot key auth => exact solid_execKeyEnrol h r slot key auth
  | keyRevoke r slot => exact solid_execKeyRevoke h r slot
  | policySet r deviceTrained lock auth => exact solid_execPolicySet h r deviceTrained lock auth
  | lifecycleAdvance r target uidLow auth => exact solid_execLifecycleAdvance h r target uidLow auth
  | debugChallenge r => exact solid_execDebugChallenge h r
  | debugToken r token => exact solid_execDebugToken h r token
  | debugEnd r => exact solid_execDebugEnd h r
  | debugHalt q => exact solid_execDebugHalt h q
  | optProgram r bit count auth => exact solid_execOptProgram h r bit count auth
  | reset r t => exact solid_execReset h r t
  | pinReset slotId => exact solid_execPinReset h slotId
  | teardownDrainEnd u => exact solid_execTeardownDrainEnd h u
  | staleArrival u gen => exact solid_execStaleArrival h u gen
  | gateStopForced => exact solid_execGateStopForced h
  | progressWindowExpiry u => exact solid_execProgressWindowExpiry h u
  | watchdogExpiry => exact solid_execWatchdogExpiry h
  | warmResetEnd => exact solid_execWarmResetEnd h
  | bringupStepDone f => exact solid_execBringupStepDone h f
  | laneQualified rhasha lane => exact solid_execLaneQualified h rhasha lane
  | laneQualificationError rhasha lane => exact solid_execLaneQualificationError h rhasha lane
  | lpddrBgBurst addr passed => exact solid_execLpddrBgBurst h addr passed
  | fireQueueExchange odd => exact solid_execFireQueueExchange h odd
  | pcsNotReady p => exact solid_execPcsNotReady h p
  | launchFrameEnd p => exact solid_execLaunchFrameEnd h p
  | rstNRelease => exact solid_execRstNRelease h
  | fabricResetEnd => exact solid_execFabricResetEnd h
  | chaseReloadDone n => exact solid_execChaseReloadDone h n
  | debugSessionOpen => exact solid_execDebugSessionOpen h
  | proposeIntervalEnd n => exact solid_execProposeIntervalEnd h n
  | emulationOutputCount o => exact solid_execEmulationOutputCount h o
  | pdelayReq p d => exact solid_execPdelayReq h p d

/-- A K4 cycle keeps a state sound. -/
theorem solid_tick : Solid (tick s) := by
  unfold tick
  grind [solid_advanceTime, solid_takeTraps, solid_monitorTick, solid_fillBuckets, solid_mk_iff, fits_of_solid,
    solid_foldl]

end

/-! ### The statement -/

/-- Settles O4: a step runs one command or one K4 cycle, and each operation of either keeps the state sound. -/
theorem stepKeepsSound : Obligations.StepKeepsSound := by
  intro s t hs ht
  unfold step at ht
  split at ht
  case h_1 =>
    cases ht
    exact solid_tick hs
  case h_2 c rest hpending =>
    exact solid_exec (s := { s with pending := rest }) hs c t ht

end Sys2Proof.Proofs

/-! What registers read after a write, as one equation each, and what an event-log entry leaves (R387). -/

namespace Sys2Proof.Proofs

open Sys2Proof.Machine Sys2Proof.Safety Sys2Proof.Laws

/-! ### Reads after writes, field against field -/

/-- What a field reads after a put: the value cut to its width where it is the field put, else what it read before. -/
theorem get_put (s : State) (f g : Fld) (i j v : Nat) :
    (s.put f i v).get g j = if g = f ∧ j = i then v % 2 ^ f.info.width else s.get g j := by
  split
  · next h => rw [h.1, h.2, get_put_same]
  · next h => exact get_put_other s (fun e => h (Prod.ext_iff.mp e)) v

theorem get_bumpBy (s : State) (f g : Fld) (i j n : Nat) :
    (s.bumpBy f i n).get g j =
      if g = f ∧ j = i then min (s.get f i + n) 0xFFFFFFFF % 2 ^ f.info.width else s.get g j := get_put ..

theorem get_bump' (s : State) (f g : Fld) (i j : Nat) :
    (s.bump f i).get g j =
      if g = f ∧ j = i then min (s.get f i + 1) 0xFFFFFFFF % 2 ^ f.info.width else s.get g j := get_put ..

/-- A register reads the same in two states with the same registers. -/
theorem get_of_regs {s t : State} (h : t.regs = s.regs) (f : Fld) (i : Nat) : t.get f i = s.get f i := by
  simp only [State.get, h]

section
variable (s : State) (f : Fld) (i : Nat)

@[simp] theorem get_setChase (n : Nat) (c : Chase) : (s.setChase n c).get f i = s.get f i := rfl

@[simp] theorem get_setCtx (k : Nat) (c : Context) : (s.setCtx k c).get f i = s.get f i := rfl

@[simp] theorem get_setPort (p : Nat) (x : Port) : (s.setPort p x).get f i = s.get f i := rfl

@[simp] theorem get_setFq (e : Nat) (l : List FireCmd) : (s.setFq e l).get f i = s.get f i := rfl

@[simp] theorem get_setChan (c : Nat) (x : ChanSt) : (s.setChan c x).get f i = s.get f i := rfl

@[simp] theorem get_setEnc (e : Nat) (x : EncSt) : (s.setEnc e x).get f i = s.get f i := rfl

@[simp] theorem get_setEmu (o : Nat) (x : Emu) : (s.setEmu o x).get f i = s.get f i := rfl

@[simp] theorem get_setEport (p : Nat) (x : EPortSt) : (s.setEport p x).get f i = s.get f i := rfl

@[simp] theorem get_setServo (d : Nat) (x : Servo) : (s.setServo d x).get f i = s.get f i := rfl

@[simp] theorem get_setRing (r : Nat) (x : RingSt) : (s.setRing r x).get f i = s.get f i := rfl

@[simp] theorem get_setMbox (m : Nat) (x : Mailbox) : (s.setMbox m x).get f i = s.get f i := rfl

@[simp] theorem get_emit (x : Tx) : (s.emit x).get f i = s.get f i := rfl

@[simp] theorem get_latch (g : Fld) (j v : Nat) : (s.latch g j v).get f i = s.get f i := rfl

@[simp] theorem get_setLo (g : Fld) (j v : Nat) : (s.setLo g j v).get f i = s.get f i := rfl

@[simp] theorem get_fireVector (fn v : Nat) : (fireVector s fn v).get f i = s.get f i := rfl

end

/-! ### Entries of tables after a change elsewhere -/

section
variable (s : State) (f : Fld) (i v j : Nat) (x : Tx)

@[simp] theorem chase_put : (s.put f i v).chase j = s.chase j := rfl

@[simp] theorem chase_bump : (s.bump f i).chase j = s.chase j := rfl

@[simp] theorem chase_emit : (s.emit x).chase j = s.chase j := rfl

@[simp] theorem context_put : (s.put f i v).context j = s.context j := rfl

@[simp] theorem context_bump : (s.bump f i).context j = s.context j := rfl

@[simp] theorem context_emit : (s.emit x).context j = s.context j := rfl

@[simp] theorem port_put : (s.put f i v).port j = s.port j := rfl

@[simp] theorem port_bump : (s.bump f i).port j = s.port j := rfl

@[simp] theorem port_emit : (s.emit x).port j = s.port j := rfl

@[simp] theorem mbox_put : (s.put f i v).mbox j = s.mbox j := rfl

@[simp] theorem mbox_bump : (s.bump f i).mbox j = s.mbox j := rfl

@[simp] theorem mbox_emit : (s.emit x).mbox j = s.mbox j := rfl

@[simp] theorem chan_put : (s.put f i v).chan j = s.chan j := rfl

@[simp] theorem chan_bump : (s.bump f i).chan j = s.chan j := rfl

@[simp] theorem chan_emit : (s.emit x).chan j = s.chan j := rfl

@[simp] theorem fq_put : (s.put f i v).fq j = s.fq j := rfl

@[simp] theorem fq_bump : (s.bump f i).fq j = s.fq j := rfl

@[simp] theorem fq_emit : (s.emit x).fq j = s.fq j := rfl

@[simp] theorem eport_put : (s.put f i v).eport j = s.eport j := rfl

@[simp] theorem eport_bump : (s.bump f i).eport j = s.eport j := rfl

@[simp] theorem eport_emit : (s.emit x).eport j = s.eport j := rfl

@[simp] theorem ring_put : (s.put f i v).ring j = s.ring j := rfl

@[simp] theorem ring_bump : (s.bump f i).ring j = s.ring j := rfl

@[simp] theorem ring_emit : (s.emit x).ring j = s.ring j := rfl

@[simp] theorem enc_put : (s.put f i v).enc j = s.enc j := rfl

@[simp] theorem enc_bump : (s.bump f i).enc j = s.enc j := rfl

@[simp] theorem enc_emit : (s.emit x).enc j = s.enc j := rfl

@[simp] theorem servo_put : (s.put f i v).servo j = s.servo j := rfl

@[simp] theorem servo_bump : (s.bump f i).servo j = s.servo j := rfl

@[simp] theorem servo_emit : (s.emit x).servo j = s.servo j := rfl

end

/-! ### An event-log entry (R387) -/

section
variable (s : State) (code src sev : Nat) (details : List Nat)

theorem logEvent_log : (logEvent s code src sev details).log =
    ((⟨s.now, s.logSeq, code, src, sev, details⟩ : LogEntry) :: s.log).take 4096 := by
  unfold logEvent
  dsimp only
  split <;> split <;> rfl

theorem logEvent_logSeq : (logEvent s code src sev details).logSeq = (s.logSeq + 1) % 2 ^ 32 := by
  unfold logEvent
  dsimp only
  split <;> split <;> rfl

theorem logEvent_tx :
    (logEvent s code src sev details).tx = if s.get .evlogMinSev 0 ≤ sev then .msix 0 6 :: s.tx else s.tx := by
  unfold logEvent
  dsimp only
  split <;> split <;> rfl

/-- An event changes the log, its sequence number, registers and what was sent, and nothing else of the module. -/
theorem logEvent_frame :
    logEvent s code src sev details =
      { s with
        log := (logEvent s code src sev details).log, logSeq := (logEvent s code src sev details).logSeq,
        regs := (logEvent s code src sev details).regs, tx := (logEvent s code src sev details).tx } := by
  unfold logEvent
  dsimp only
  split <;> split <;> rfl

/-- The head of the ring moves on modulo 4,096. -/
theorem logEvent_head :
    (logEvent s code src sev details).get .evlogHead 0 = (s.get .evlogHead 0 + 1) % 4096 := by
  have hfits : (s.get .evlogHead 0 + 1) % 4096 % 2 ^ Fld.evlogHead.info.width = (s.get .evlogHead 0 + 1) % 4096 :=
    Nat.mod_mod ..
  unfold logEvent
  dsimp only
  split <;> split <;> simp [get_put, hfits]

/-- A wrap is counted where the head comes back to 0. -/
theorem logEvent_wrap :
    (logEvent s code src sev details).get .evlogWrap 0 =
      if (s.get .evlogHead 0 + 1) % 4096 = 0 then (s.get .evlogWrap 0 + 1) % 2 ^ 32 else s.get .evlogWrap 0 := by
  have hkept : ∀ log logSeq, State.get { s with log, logSeq } .evlogWrap 0 = s.get .evlogWrap 0 := fun _ _ => rfl
  have hwidth : Fld.evlogWrap.info.width = 32 := rfl
  unfold logEvent
  dsimp only
  split <;> split <;> simp [get_put, hkept, hwidth]

end

/-! ### The statement -/

/-- Settles O6: each part of what an event leaves, by its own lemma. -/
theorem eventLogEntryIsWritten : Obligations.EventLogEntryIsWritten := fun s code src sev details =>
  ⟨logEvent_log .., logEvent_logSeq .., logEvent_head .., logEvent_wrap .., logEvent_tx ..,
    keepsRegs_logEvent s code src sev details, logEvent_frame ..⟩

end Sys2Proof.Proofs

/-! Writes that have no effect: those beyond a virtual function's window (R30), and those a bound context or a waiting
message forbids (R214, R228, R324, R379). -/

namespace Sys2Proof.Proofs

open Sys2Proof.Machine Sys2Proof.Safety Sys2Proof.Laws

/-! ### Beyond the window of a virtual function (R30) -/

theorem busAddr_beyondWindow (s : State) {fn off : Nat} (hvf : fn ≠ 0) (hoff : 0x4410 ≤ off) :
    busAddr s fn off = none := by
  unfold busAddr
  grind

section
variable {s : State} (hfull : s.power = .full)
include hfull

theorem busWrite_noPath {fn off : Nat} (halign : off % 4 = 0) (hpath : busAddr s fn off = none) (val : Nat) :
    busWrite s fn off val = s := by
  simp [busWrite, hfull, halign, hpath]

theorem busRead_noPath {fn off : Nat} (halign : off % 4 = 0) (hpath : busAddr s fn off = none) :
    busRead s fn off = { s with rd := 0 } := by
  simp [busRead, hfull, halign, hpath]

/-! ### Writes that a gate forbids -/

/-- A write by PF0 to a register with a writable field whose write is forbidden is discarded and recorded. -/
theorem busWrite_pf0_gated {a : Nat} (halign : a % 4 = 0) {val : Nat} {e : Fld × Nat × Nat} (he : e ∈ fieldsAt a)
    (hwritable : writable e.1 = true) (hgate : writeGated s val e = true) :
    busWrite s 0 a val = regFault s 0 a val := by
  have hmem : e ∈ (fieldsAt a).filter (fun e => writable e.1) := List.mem_filter.mpr ⟨he, hwritable⟩
  have hany : ((fieldsAt a).filter (fun e => writable e.1)).any (writeGated s val) = true :=
    List.any_eq_true.mpr ⟨e, hmem, hgate⟩
  have hsome : ((fieldsAt a).filter (fun e => writable e.1)).isEmpty = false :=
    List.isEmpty_eq_false_iff.mpr (List.ne_nil_of_mem hmem)
  simp [busWrite, hfull, halign, busAddr, hany, hsome]

end

/-! ### The registers those writes name -/

theorem cxpSrcLanes_mem : ∀ k : Ctx, (.cxpSrcLanes, k.val, 0) ∈ fieldsAt (0x402000 + 0x40 * k.val) := by
  decide +kernel

theorem galDepth_mem : ∀ k : Ctx, (.galDepth, k.val, 0) ∈ fieldsAt (0x601008 + 0x40 * k.val) := by
  decide +kernel

theorem fcMode_mem : ∀ c : Chan, (.fcMode, c.val, 0) ∈ fieldsAt (0xB00000 + 0x20 * c.val) := by
  decide +kernel

theorem mbxGrantFn_mem : ∀ g : Fin 15, (.mbxGrantFn, g.val, 0) ∈ fieldsAt (0x304000 + 4 * g.val) := by
  decide +kernel

/-! ### The statement -/

/-- An offset of PF0's BAR below 2^24 is the number the command carries. -/
theorem toNat_offset {a : Nat} (h : a < 2 ^ 24) : (BitVec.ofNat 24 a).toNat = a := Nat.mod_eq_of_lt h

/-- Settles O7: beyond its window a virtual function has no path; each write of the other clauses names a register with a
writable field whose gate is closed. -/
theorem writesOutOfReachHaveNoEffect : Obligations.WritesOutOfReachHaveNoEffect := by
  refine ⟨fun s fn off val hfull hvf halign hoff => ?_, fun s k val hfull hbound => ?_,
    fun s c val hfull hbound => ?_, fun s g val hfull hmsgs => ?_⟩
  · have hpath := busAddr_beyondWindow s hvf hoff
    exact ⟨congrArg _ (busWrite_noPath hfull halign hpath _), congrArg _ (busRead_noPath hfull halign hpath)⟩
  · rw [exec_registerWrite, exec_registerWrite, toNat_offset (by omega), toNat_offset (by omega)]
    exact ⟨congrArg _ (busWrite_pf0_gated hfull (by omega) (cxpSrcLanes_mem k) rfl hbound),
      congrArg _ (busWrite_pf0_gated hfull (by omega) (galDepth_mem k) rfl hbound)⟩
  · rw [exec_registerWrite, toNat_offset (by omega)]
    exact congrArg _ (busWrite_pf0_gated hfull (by omega) (fcMode_mem c) rfl (by simpa [writeGated] using hbound))
  · rw [exec_registerWrite, toNat_offset (by omega)]
    refine congrArg _ (busWrite_pf0_gated hfull (by omega) (mbxGrantFn_mem g) rfl ?_)
    simpa [writeGated] using hmsgs

end Sys2Proof.Proofs

/-! The rails (R24). A copy in flight into LPDDR5X when the main rail is lost stops at a row boundary and leaves the
rows after it as they stood before it (R96): LPDDR5X is then not what it was. -/

namespace Sys2Proof.Proofs

open Sys2Proof.Machine Sys2Proof.Safety Sys2Proof.Laws

/-! ### What leaves LPDDR5X as it is -/

theorem lpddr_foldl {α : Type} {g : State → α → State} (hg : ∀ s a, (g s a).lpddr = s.lpddr) (l : List α)
    (s : State) : (l.foldl g s).lpddr = s.lpddr := by
  induction l generalizing s with
  | nil => rfl
  | cons a l ih => exact (ih _).trans (hg s a)

section
variable (s : State)

theorem lpddr_fireVector (fn v : Nat) : (fireVector s fn v).lpddr = s.lpddr := by
  unfold fireVector
  grind [State.emit_lpddr]

theorem lpddr_logEvent (code source severity : Nat) (details : List Nat) :
    (logEvent s code source severity details).lpddr = s.lpddr := by
  unfold logEvent
  grind [State.put_lpddr, lpddr_fireVector]

theorem lpddr_quoinBreak (id gen q : Nat) : (quoinBreak id gen q s).lpddr = s.lpddr := by
  unfold quoinBreak
  grind [State.put_lpddr]

theorem lpddr_quoinsBreak (id gen : Nat) : (quoinsBreak s id gen).lpddr = s.lpddr := by
  unfold quoinsBreak
  grind [lpddr_quoinBreak, lpddr_foldl]

theorem lpddr_staleSender (id : Nat) : (staleSender s id).lpddr = s.lpddr := by
  unfold staleSender
  grind

theorem lpddr_leaveImposition (n : Nat) : (leaveImposition s n).lpddr = s.lpddr := by
  unfold leaveImposition
  grind [State.setChase_lpddr, State.put_lpddr]

theorem lpddr_clearLink (p : Nat) : (clearLink s p).lpddr = s.lpddr := by
  unfold clearLink
  grind [State.setPort_lpddr]

theorem lpddr_nextGeneration (f : Fld) (i id : Nat) : (nextGeneration s f i id).lpddr = s.lpddr := by
  unfold nextGeneration
  grind [lpddr_staleSender, lpddr_quoinsBreak, State.put_lpddr]

theorem lpddr_nextChaseGen (n : Nat) : (nextChaseGen s n).lpddr = s.lpddr := by
  unfold nextChaseGen
  grind [lpddr_nextGeneration]

theorem lpddr_clearFormeRegs (n : Nat) : (clearFormeRegs s n).lpddr = s.lpddr := by
  unfold clearFormeRegs
  grind [State.put_lpddr]

theorem lpddr_endCopies (engines : List Nat) (code : Nat) : (endCopies s engines code).lpddr = s.lpddr := by
  unfold endCopies
  grind [State.put_lpddr, lpddr_foldl]

theorem lpddr_driveTo (c : Nat) (on : Bool) (at4ns : Option Nat) : (driveTo s c on at4ns).lpddr = s.lpddr := by
  unfold driveTo
  grind [State.emit_lpddr, State.setChan_lpddr]

theorem lpddr_fieldOff (c : Nat) : (fieldOff s c).lpddr = s.lpddr := by
  unfold fieldOff
  grind [lpddr_driveTo, State.setChan_lpddr]

theorem lpddr_fieldOffAll (p : Nat → Bool) : (fieldOffAll s p).lpddr = s.lpddr := by
  unfold fieldOffAll
  grind [lpddr_fieldOff, lpddr_foldl]

theorem lpddr_enterSafe : (enterSafe s).lpddr = s.lpddr := by
  unfold enterSafe
  grind [lpddr_fieldOffAll, lpddr_logEvent, State.bump_lpddr, State.put_lpddr]

theorem lpddr_barrierStop : (barrierStop s).lpddr = s.lpddr := by
  unfold barrierStop
  grind [lpddr_enterSafe]

theorem lpddr_commandTo (c : Nat) (on : Bool) : (commandTo s c on).lpddr = s.lpddr := by
  unfold commandTo
  grind [State.setChan_lpddr]

theorem lpddr_pulseOff (c : Nat) : (pulseOff s c).lpddr = s.lpddr := by
  unfold pulseOff
  grind [lpddr_commandTo, State.setChan_lpddr]

theorem lpddr_outputsOff : (outputsOff s).lpddr = s.lpddr := by
  unfold outputsOff
  grind [lpddr_driveTo, lpddr_pulseOff, State.setChan_lpddr, lpddr_foldl]

theorem lpddr_launchStatus (p : Nat) (e : Launch) (status : Nat) : (launchStatus s p e status).lpddr = s.lpddr := by
  unfold launchStatus
  grind

theorem lpddr_emptyLaunch (p : Nat) : (emptyLaunch s p).lpddr = s.lpddr := by
  unfold emptyLaunch
  grind [lpddr_launchStatus, State.setEport_lpddr, lpddr_foldl]

end

/-! ### The loss of the main rail as far as LPDDR5X goes -/

section
variable (s : State)

/-- A chase loses its forme: only the copies that stop can touch LPDDR5X. -/
theorem lpddr_dropForme (n : Nat) :
    (dropForme s n).lpddr = (stopCopies (dropPatch s n) n (fun _ => true)).lpddr := by
  unfold dropForme isolateCopies
  dsimp only
  split <;> simp [lpddr_clearFormeRegs, lpddr_endCopies]

theorem lpddr_clearChase {n : Nat} (hload : ((emptyMonitor s n).chase n).load = none) :
    (clearChase s n).lpddr = (dropForme (emptyMonitor s n) n).lpddr := by
  rw [clearChase, State.setChase_lpddr, lpddr_leaveImposition, lpddr_nextChaseGen, hload]

theorem lpddr_clearFabric : (clearFabric s).lpddr = ((List.range 16).foldl clearChase s).lpddr := by
  have htail (t : State) : ((List.range 4).foldl clearLink
      (outputsOff { t with sram := [], istore := [], fqs := .empty })).lpddr = t.lpddr := by
    rw [lpddr_foldl lpddr_clearLink, lpddr_outputsOff]
  rw [clearFabric, htail]

/-- The state in which a loss of the main rail empties the chases. -/
def firmwareReset : State :=
  (List.range 16).foldl (fun s k => nextCtxGen (discardApplies s k) k)
    (nextGeneration (nextGeneration (resetFirmware s) .genPf0 0 0) .mbxRxGen 0 63)

theorem lpddr_loseWarm : (loseWarm s).lpddr = ((List.range 16).foldl clearChase (firmwareReset s)).lpddr := by
  have hlogged (t : State) :
      (if t.flag .secSession 0 then logEvent t 0x0051 (srcBlock 2) 0 [0, 0, 0, 0] else t).lpddr = t.lpddr := by
    split
    · exact lpddr_logEvent ..
    · rfl
  have hlost (t : State) (chases ctxs ports lineRd rings mgmt) :
      State.lpddr { t with galley := [], chases, ctxs, ports, lineRd, rings, mgmt } = t.lpddr := rfl
  rw [loseWarm, hlost, State.resetRegs_lpddr, hlogged, lpddr_barrierStop, lpddr_foldl lpddr_emptyLaunch,
    lpddr_clearFabric, firmwareReset]

theorem exec_mainRailLost (hfull : s.power = .full) :
    ∃ t, exec .mainRailLost s = .next t ∧ t.lpddr = (loseWarm s).lpddr :=
  have hkept (t : State) (power mgmt) : State.lpddr { t with power, mgmt } = t.lpddr := rfl
  ⟨_, if_neg (not_not.mpr hfull), hkept ..⟩

end

/-! ### A copy in flight -/

/-- A row of a copy into LPDDR5X: address 0, where the byte 1 stood before. -/
def lpddrRow : Nat × Nat × List Byte := (2, 0, [1])

/-- One row more than the copy keeps: how many it keeps is drawn from the first free value (R96). -/
def lpddrRows : List (Nat × Nat × List Byte) := List.replicate (Config.freeValue 0 + 1) lpddrRow

/-- A copy with these rows. -/
def copyBusy (rows : List (Nat × Nat × List Byte)) : Busy := ⟨0, .copy 0, [], [], false, rows⟩

/-- A module in Full whose chase 15 has that copy at work. -/
def copying (rows : List (Nat × Nat × List Byte)) : State :=
  { State.reset with
    power := .full, chases := Tab.empty.set 15 { Chase.reset with busy := [copyBusy rows] } }

/-- Of `lpddrRows` one row is not kept, and it goes back to what stood there before. -/
theorem undoRows_copyRows {s : State} (hfree : s.free = 0) (hmem : s.lpddr = []) :
    (undoRows s (copyBusy lpddrRows)).lpddr = [(0, 1)] := by
  have hkept : Config.freeValue 0 % (Config.freeValue 0 + 1 + 1) = Config.freeValue 0 := Nat.mod_eq_of_lt (by omega)
  simp [undoRows, copyBusy, hfree, lpddrRows, hkept, lpddrRow, State.setMem, State.memOf, hmem, memStore, memWrite]

/-- No free value is drawn yet, LPDDR5X is empty, and the one copy of chase 15 is all that is at work. -/
def Calm (s : State) : Prop :=
  s.free = 0 ∧ s.lpddr = [] ∧ ∀ n, (s.chase n).busy = if n = 15 then [copyBusy lpddrRows] else []

theorem calm_copying : Calm (copying lpddrRows) := by
  refine ⟨rfl, rfl, fun n => ?_⟩
  by_cases hn : n = 15
  · simp [hn, State.chase, copying]
  · simp [hn, State.chase, copying, tab_get_set_other _ _ _ hn, Chase.reset]

theorem calm_of_parts {s t : State} (h : Calm s) (hfree : t.free = s.free)
    (hmem : t.lpddr = s.lpddr) (hchases : t.chases = s.chases) : Calm t := by
  simpa only [Calm, State.chase, hfree, hmem, hchases] using h

theorem calm_foldl {α : Type} {g : State → α → State}
    (hg : ∀ s a, Calm s → Calm (g s a)) (l : List α) {s : State} (h : Calm s) :
    Calm (l.foldl g s) := by
  induction l generalizing s with
  | nil => exact h
  | cons a l ih => exact ih (hg s a h)

/-- A change of every chase that moves no unit leaves the units at work as they were. -/
theorem busy_mapChases {s : State} (f : Chase → Chase) (hf : ∀ c, (f c).busy = c.busy) (n : Nat) :
    (Tab.get ⟨s.chases.entries.map (fun e => (e.1, f e.2))⟩ Chase.reset n).busy = (s.chase n).busy := by
  simp only [State.chase, Tab.get, List.find?_map, Function.comp_def]
  cases s.chases.entries.find? (fun e => e.1 == n) with
  | none => rfl
  | some e => exact hf e.2

section
variable {s : State} (h : Calm s)
include h

theorem calm_setChase {n : Nat} {c : Chase} (hbusy : c.busy = (s.chase n).busy) : Calm (s.setChase n c) := by
  obtain ⟨hfree, hmem, hchases⟩ := h
  refine ⟨hfree, hmem, fun m => ?_⟩
  by_cases hm : m = n
  · rw [hm, chase_setChase, hbusy, hchases]
  · rw [State.chase, State.setChase_chases, tab_get_set_other _ _ _ hm, ← State.chase, hchases]

theorem calm_put (f : Fld) (i v : Nat) : Calm (s.put f i v) := calm_of_parts h rfl rfl rfl

theorem calm_bump (f : Fld) (i : Nat) : Calm (s.bump f i) := calm_of_parts h rfl rfl rfl

theorem calm_emit (x : Tx) : Calm (s.emit x) := calm_of_parts h rfl rfl rfl

theorem calm_setCtx (k : Nat) (c : Context) : Calm (s.setCtx k c) := calm_of_parts h rfl rfl rfl

theorem calm_setMbox (m : Nat) (x : Mailbox) : Calm (s.setMbox m x) := calm_of_parts h rfl rfl rfl

theorem calm_setRing (r : Nat) (x : RingSt) : Calm (s.setRing r x) := calm_of_parts h rfl rfl rfl

theorem calm_fireVector (fn v : Nat) : Calm (fireVector s fn v) := by
  unfold fireVector
  grind [calm_emit]

theorem calm_logEvent (code source severity : Nat) (details : List Nat) :
    Calm (logEvent s code source severity details) := by
  have hframe := logEvent_frame s code source severity details
  exact calm_of_parts h (congrArg State.free hframe :) (congrArg State.lpddr hframe :) (congrArg State.chases hframe :)

theorem calm_stageRecord (r first : Nat) (b : List Byte) : Calm (stageRecord s r first b) := by
  have hrest := (ringsChange_stageRecord s r first b).2
  exact calm_of_parts h (congrArg State.free hrest :) (congrArg State.lpddr hrest :) (congrArg State.chases hrest :)

theorem calm_stageEvent (fn : Nat) (b : List Byte) : Calm (stageEvent s fn b) := by
  unfold stageEvent
  grind [calm_stageRecord]

theorem calm_mailboxVector (m : Nat) : Calm (mailboxVector s m) := by
  unfold mailboxVector
  grind [calm_fireVector]

theorem calm_queueCompletion (m : Nat) (c : Cpl) : Calm (queueCompletion s m c) := by
  unfold queueCompletion
  grind [calm_mailboxVector, calm_setMbox, calm_bump]

theorem calm_complete (m fn tag : Nat) (ring : Option Word) (code : Nat) (details : List Word) :
    Calm (complete s m fn tag ring code details) := by
  unfold complete
  grind [calm_stageEvent, calm_queueCompletion]

theorem calm_answer (r : Req) (code : Nat) (details : List Word) : Calm (answer s r code details) := by
  unfold answer
  grind [calm_complete]

theorem calm_quoinBreak (id gen q : Nat) : Calm (quoinBreak id gen q s) := by
  unfold quoinBreak
  grind [calm_put]

theorem calm_quoinsBreak (id gen : Nat) : Calm (quoinsBreak s id gen) := by
  unfold quoinsBreak
  grind [calm_quoinBreak, calm_foldl]

theorem calm_discardMessages (m : Nat) : Calm (discardMessages s m) := by
  unfold discardMessages
  grind [calm_bump, calm_complete, calm_setMbox, calm_foldl]

theorem calm_resetReceiver (m : Nat) : Calm (resetReceiver s m) := by
  unfold resetReceiver
  grind [calm_discardMessages, calm_put]

theorem calm_staleSender (id : Nat) : Calm (staleSender s id) := calm_of_parts h rfl rfl rfl

theorem calm_leaveImposition (n : Nat) : Calm (leaveImposition s n) := by
  unfold leaveImposition
  grind [calm_setChase, calm_put, chase_put]

theorem calm_emptyMonitor (n : Nat) : Calm (emptyMonitor s n) := by
  unfold emptyMonitor
  grind [calm_logEvent, calm_setChase, calm_foldl]

theorem calm_discardApplies (k : Nat) : Calm (discardApplies s k) := by
  unfold discardApplies
  grind [calm_answer, calm_setCtx, calm_foldl]

theorem calm_nextGeneration (f : Fld) (i id : Nat) : Calm (nextGeneration s f i id) := by
  unfold nextGeneration
  grind [calm_staleSender, calm_quoinsBreak, calm_put]

theorem calm_nextCtxGen (k : Nat) : Calm (nextCtxGen s k) := by
  unfold nextCtxGen
  grind [calm_nextGeneration]

theorem calm_nextChaseGen (n : Nat) : Calm (nextChaseGen s n) := by
  unfold nextChaseGen
  grind [calm_nextGeneration]

theorem calm_clearFormeRegs (n : Nat) : Calm (clearFormeRegs s n) := by
  unfold clearFormeRegs
  grind [calm_put]

theorem calm_dropPatch (n : Nat) : Calm (dropPatch s n) := by
  unfold dropPatch
  grind [calm_answer, calm_setChase, calm_foldl]

theorem calm_endCopies (engines : List Nat) (code : Nat) : Calm (endCopies s engines code) := by
  unfold endCopies
  grind [calm_put, calm_foldl]

theorem calm_discardReq (r : Req) : Calm (discardReq s r) := by
  unfold discardReq
  grind [calm_bump, calm_answer]

theorem calm_resetFirmware : Calm (resetFirmware s) := by
  have hreset := calm_foldl (fun _ m ht => calm_resetReceiver ht m) (List.range 17) h
  have hdone := calm_foldl (fun _ r ht => calm_discardReq ht r) (heldRequests s) hreset
  refine ⟨hdone.1, hdone.2.1, fun n => Eq.trans ?_ (hdone.2.2 n)⟩
  exact busy_mapChases (fun c => { c with load := none }) (fun _ => rfl) n

/-- The chases before the last lose their formes without a copy to undo. -/
theorem calm_dropForme {n : Nat} (hn : n ≠ 15) : Calm (dropForme s n) := by
  have hpatch := calm_dropPatch h n
  have hnone : ((dropPatch s n).chase n).busy = [] := by rw [hpatch.2.2, if_neg hn]
  have hstop : Calm (isolateCopies (dropPatch s n) n (fun _ => true)) := by
    have hset := calm_setChase hpatch (n := n)
      (c := { (dropPatch s n).chase n with busy := [] }) hnone.symm
    rw [isolateCopies, stopCopies]
    simp only [hnone, List.filter_nil, List.foldl_nil]
    exact calm_endCopies hset _ _
  unfold dropForme
  have hnone' := hstop.2.2 n
  grind [calm_clearFormeRegs, calm_put, calm_setChase, Chase.zeroed, chase_put]

theorem calm_clearChase {n : Nat} (hn : n ≠ 15) : Calm (clearChase s n) := by
  unfold clearChase
  grind [calm_setChase, calm_emptyMonitor, calm_answer, calm_leaveImposition, calm_nextChaseGen, calm_dropForme]

theorem calm_firmwareReset : Calm (firmwareReset s) := by
  refine calm_foldl (fun _ k ht => calm_nextCtxGen (calm_discardApplies ht k) k) _ ?_
  exact calm_nextGeneration (calm_nextGeneration (calm_resetFirmware h) ..) ..

end

/-- The copy is undone when chase 15 loses its forme. -/
theorem lpddr_dropForme_calm {s : State} (h : Calm s) : (dropForme s 15).lpddr = [(0, 1)] := by
  obtain ⟨hfree, hmem, hbusy⟩ := calm_dropPatch h 15
  rw [lpddr_dropForme, stopCopies, hbusy 15]
  exact undoRows_copyRows hfree hmem

theorem lpddr_clearChase_calm {s : State} (h : Calm s) : (clearChase s 15).lpddr = [(0, 1)] := by
  rw [clearChase, State.setChase_lpddr, lpddr_leaveImposition, lpddr_nextChaseGen]
  refine lpddr_dropForme_calm ?_
  split
  · exact calm_answer (calm_emptyMonitor h 15) ..
  · exact calm_emptyMonitor h 15

/-- The chases before the last are emptied, and nothing touches LPDDR5X. -/
theorem calm_foldl_clearChase {s : State} (h : Calm s) (l : List Nat) (hl : 15 ∉ l) :
    Calm (l.foldl clearChase s) := by
  induction l generalizing s with
  | nil => exact h
  | cons n l ih =>
    rw [List.mem_cons, not_or] at hl
    rw [List.foldl_cons]
    exact ih (calm_clearChase h (Ne.symm hl.1)) hl.2

/-- A loss of the main rail leaves in LPDDR5X what the copy's last row stood on. -/
theorem lpddr_loseWarm_calm {s : State} (h : Calm s) : (loseWarm s).lpddr = [(0, 1)] := by
  have hcalm := calm_foldl_clearChase (calm_firmwareReset h) (List.range 15) (by simp)
  rw [lpddr_loseWarm, List.range_succ, List.foldl_append, List.foldl_cons, List.foldl_nil]
  exact lpddr_clearChase_calm hcalm

/-! ### The statement -/

/-- Refutes O8: with a copy into LPDDR5X at work, a loss of the main rail does not keep LPDDR5X (R24): the copy stops at
a row boundary and the rows after it stand as before (R96). -/
theorem not_railsMovePowerStates : ¬ Obligations.RailsMovePowerStates := by
  intro h
  obtain ⟨-, -, hlost, -⟩ := h
  obtain ⟨s, hcalm, hfull⟩ : ∃ s, Calm s ∧ s.power = .full := ⟨copying lpddrRows, calm_copying, rfl⟩
  obtain ⟨t, ht, -, -, -, -, -, -, -, -, -, -, -, -, hkept, -⟩ := hlost s hfull
  obtain ⟨t', ht', hmem⟩ := exec_mainRailLost s hfull
  rw [Host.Outcome.next.inj (ht'.symm.trans ht), hkept, hcalm.2.1, lpddr_loseWarm_calm hcalm] at hmem
  exact absurd hmem (by decide)

end Sys2Proof.Proofs

/-! A trap (R165, R169): what it leaves of the sequencers, of the open items and of TRAP_CAUSE; and what the replies it
sends for inbound sorts leave unchanged (R293). -/

namespace Sys2Proof.Proofs

open Sys2Proof.Machine Sys2Proof.Safety Sys2Proof.Laws

/-! ### Entries of tables that an update does not reach -/

theorem chase_setChase_other (s : State) {n m : Nat} (h : m ≠ n) (c : Chase) : (s.setChase n c).chase m = s.chase m :=
  tab_get_set_other _ _ _ h

theorem seq_setSeq_other (c : Chase) {core core' : Option CoreNo} (h : core' ≠ core) (x : Seq) :
    (c.setSeq core x).seq core' = c.seq core' := by
  cases core <;> cases core'
  case none.none => exact absurd rfl h
  case none.some => rfl
  case some.none => rfl
  case some.some l m => exact tab_get_set_other _ _ _ (fun e => h (congrArg some (Fin.ext e)))

/-- An entry of a table under a function that keeps the default is the function of the entry. -/
theorem tab_get_map {α : Type} (t : Tab α) (f : α → α) {d : α} (hd : f d = d) (i : Nat) :
    Tab.get ⟨t.entries.map (fun e => (e.1, f e.2))⟩ d i = f (t.get d i) := by
  simp only [Tab.get, List.find?_map, Function.comp_def]
  cases t.entries.find? (fun e => e.1 == i) with
  | none => exact hd.symm
  | some e => rfl

/-! ### What replies leave unchanged (R288, R292, R293) -/

/-- Of the registers, only the counters of replies differ between two states; of the chases, only their sorts and inbound
slots; besides them, only ports and what was sent. -/
def repliesChange (s t : State) : Prop :=
  keepsRegs replyCounters s t ∧
    (∀ n, { t.chase n with
      sorts := (s.chase n).sorts, inbound := (s.chase n).inbound, inOrder := (s.chase n).inOrder } = s.chase n) ∧
    { t with regs := s.regs, chases := s.chases, ports := s.ports, lineRd := s.lineRd, tx := s.tx } = s

theorem repliesChange_refl (s : State) : repliesChange s s := ⟨keepsRegs_refl s, fun _ => rfl, rfl⟩

theorem repliesChange_trans {s t u : State} (h : repliesChange s t) (h' : repliesChange t u) : repliesChange s u := by
  obtain ⟨hregs, hchases, hrest⟩ := h
  obtain ⟨hregs', hchases', hrest'⟩ := h'
  refine ⟨keepsRegs_trans hregs hregs', fun n => ?_, ?_⟩
  · rw [← hchases n, ← hchases' n]
  · rw [← hrest, ← hrest']

theorem repliesChange_of_chases {s t : State} (hregs : keepsRegs replyCounters s t) (hchases : t.chases = s.chases)
    (hrest : { t with regs := s.regs, chases := s.chases, ports := s.ports, lineRd := s.lineRd, tx := s.tx } = s) :
    repliesChange s t :=
  ⟨hregs, fun n => by rw [State.chase, hchases]; rfl, hrest⟩

theorem repliesChange_setChase (s : State) (n : Nat) (sorts : List SortOut) (inbound : Tab (Option InSort))
    (inOrder : List Nat) : repliesChange s (s.setChase n { s.chase n with sorts, inbound, inOrder }) := by
  refine ⟨keepsRegs_refl s, fun m => ?_, rfl⟩
  by_cases hm : m = n
  · rw [hm, chase_setChase]
  · rw [chase_setChase_other s hm]

theorem repliesChange_bump (s : State) {f : Fld} (hf : f ∈ replyCounters) (i : Nat) : repliesChange s (s.bump f i) :=
  repliesChange_of_chases (keepsRegs_put (keepsRegs_refl s) hf i _) rfl rfl

theorem repliesChange_setPort (s : State) (p : Nat) (x : Port) : repliesChange s (s.setPort p x) :=
  repliesChange_of_chases (keepsRegs_of_regs rfl) rfl rfl

theorem repliesChange_transmit (s : State) (p : Nat) (pkt : Packet) : repliesChange s (transmit s p pkt) := by
  unfold transmit
  dsimp only
  split
  · exact repliesChange_of_chases (keepsRegs_of_regs rfl) rfl rfl
  · exact repliesChange_setPort s p _

theorem repliesChange_sendOn (s : State) (p : Nat) (pkt : Packet) : repliesChange s (sendOn s p pkt) := by
  unfold sendOn
  dsimp only
  split
  · exact repliesChange_trans (repliesChange_setPort s p _) (repliesChange_transmit _ p pkt)
  · exact repliesChange_setPort s p _

theorem repliesChange_countMissing (s : State) (n code : Nat) : repliesChange s (countMissing s n code) := by
  unfold countMissing
  split <;> exact repliesChange_bump s (by decide) n

theorem repliesChange_acceptReply (s : State) (h : SortHdr) (output : List Byte) :
    repliesChange s (acceptReply s h output) := by
  have hset := fun sorts => repliesChange_setChase s h.srcChase.toNat sorts (s.chase h.srcChase.toNat).inbound
    (s.chase h.srcChase.toNat).inOrder
  unfold acceptReply
  dsimp only
  split
  · exact repliesChange_bump s (by decide) _
  · split
    · exact hset _
    · exact repliesChange_trans (hset _) (repliesChange_countMissing ..)

theorem repliesChange_sendReply (s : State) (h : SortHdr) (status : Nat) (output : List Byte) :
    repliesChange s (sendReply s h status output) := by
  have hdropped := repliesChange_bump s (f := .rhUnroutable) (by decide) 0
  unfold sendReply
  dsimp only
  split
  · exact repliesChange_acceptReply ..
  · split
    · split
      · exact repliesChange_sendOn ..
      · exact hdropped
    · exact hdropped

theorem repliesChange_foldl {α : Type} {g : State → α → State} (hg : ∀ s a, repliesChange s (g s a)) (l : List α)
    (s : State) : repliesChange s (l.foldl g s) := by
  induction l generalizing s with
  | nil => exact repliesChange_refl s
  | cons a l ih => exact repliesChange_trans (hg s a) (ih (g s a))

theorem repliesChange_answerInbound (s : State) (n : Nat) : repliesChange s (answerInbound s n) :=
  repliesChange_trans (repliesChange_setChase s n (s.chase n).sorts .empty [])
    (repliesChange_foldl (fun s _ => repliesChange_sendReply s ..) _ _)

theorem sequencer_of_repliesChange {s t : State} (h : repliesChange s t) (q : SeqId) :
    sequencer t q = sequencer s q := by
  rw [sequencer, sequencer, ← h.2.1 q.chase.val]
  cases q.core <;> rfl

theorem openItems_of_repliesChange {s t : State} (h : repliesChange s t) (n : Nat) :
    (t.chase n).openItems = (s.chase n).openItems := by
  rw [← h.2.1 n]
  rfl

/-! ### The chase a trap leaves -/

/-- The chase of a trap: its sequencers stopped, the one that trapped marked, its items orphans (R165, R196). -/
def trappedChase (s : State) (q : SeqId) (o : Op) (pc cause : Nat) : Chase :=
  let c := { (latchTrap s q o pc cause).chase q.chase.val with trapPeers := notePeers s q }
  (c.setSeq q.core { c.seq q.core with run := .trapped, wait := .none }).stopAll.orphanAll

/-- The state in which a trap has latched its cause and stopped its chase, before it answers inbound sorts and is logged. -/
def trapStopped (s : State) (q : SeqId) (o : Op) (pc cause : Nat) : State :=
  ((latchTrap s q o pc cause).setChase q.chase.val (trappedChase s q o pc cause)).put .chState q.chase.val 5

section
variable (s : State) (q : SeqId) (o : Op) (pc cause : Nat)

theorem raiseTrap_eq : raiseTrap s q o pc cause =
    logEvent (answerInbound (trapStopped s q o pc cause) q.chase.val) 0x0004 (0x20 + q.chase.val) 2
      [q.chase.val, cause, pc, 0] := rfl

theorem stop_run_ne_running (x : Seq) : (x.stop .idle).run ≠ .running := by
  unfold Seq.stop
  split
  · exact SeqRun.noConfusion
  · assumption

theorem seq_stopAll (c : Chase) (core : Option CoreNo) : c.stopAll.seq core = (c.seq core).stop .idle := by
  cases core with
  | none => rfl
  | some l => exact tab_get_map c.streams (fun x => x.stop .idle) rfl l.val

theorem seq_orphanAll (c : Chase) (core : Option CoreNo) : c.orphanAll.seq core = c.seq core := by
  cases core <;> rfl

/-- Every open item of an orphaned chase is an orphan. -/
theorem orphan_of_mem_orphanAll {c : Chase} {e : Nat × Item} (he : e ∈ c.orphanAll.openItems) : e.2.orphan = true := by
  simp only [Chase.openItems, Chase.orphanAll, List.filterMap_map, List.mem_filterMap, Function.comp_apply,
    Option.map_map, Option.map_eq_some_iff] at he
  obtain ⟨_, _, it, _, rfl⟩ := he
  rfl

theorem seq_trappedChase (core : Option CoreNo) :
    (trappedChase s q o pc cause).seq core =
      ((({ (latchTrap s q o pc cause).chase q.chase.val with trapPeers := notePeers s q }).setSeq q.core
        { ((latchTrap s q o pc cause).chase q.chase.val).seq q.core with run := .trapped, wait := .none }).seq core).stop
          .idle := by
  rw [trappedChase, seq_orphanAll, seq_stopAll]
  cases q.core <;> rfl

theorem chases_latchTrap : (latchTrap s q o pc cause).chases = s.chases := by
  unfold latchTrap
  simp only [apply_ite State.chases, State.put_chases, State.bump_chases, ite_self]

/-- The trap's last parts, the answers to inbound sorts and the event, leave the counters of replies and the event log's
registers apart, and of the chases their sorts and inbound slots. -/
theorem raiseTrap_rest (t : State) (n : Nat) (details : List Nat) (code source : Nat) :
    keepsRegs (replyCounters ++ [Fld.evlogHead, Fld.evlogWrap]) t (logEvent (answerInbound t n) code source 2 details) ∧
      (logEvent (answerInbound t n) code source 2 details).chases = (answerInbound t n).chases := by
  refine ⟨fun f i hf => ?_, (congrArg State.chases (logEvent_frame ..) :)⟩
  rw [List.mem_append, not_or] at hf
  rw [keepsRegs_logEvent _ _ _ _ _ _ _ hf.2, keepsRegs_answerInbound _ _ _ _ hf.1]

/-- No register but the counters of replies, and those of the event log, differs from those of the stopped chase. -/
theorem get_raiseTrap {f : Fld} (hf : f ∉ replyCounters ++ [Fld.evlogHead, Fld.evlogWrap]) (i : Nat) :
    (raiseTrap s q o pc cause).get f i = (trapStopped s q o pc cause).get f i := by
  rw [raiseTrap_eq]
  exact (raiseTrap_rest (trapStopped s q o pc cause) _ _ _ _).1 f i hf

theorem sequencer_raiseTrap (r : SeqId) :
    sequencer (raiseTrap s q o pc cause) r = sequencer (trapStopped s q o pc cause) r := by
  rw [raiseTrap_eq, sequencer_of_chases (raiseTrap_rest (trapStopped s q o pc cause) _ _ _ _).2]
  exact sequencer_of_repliesChange (repliesChange_answerInbound ..) r

theorem chase_of_chases {s t : State} (h : t.chases = s.chases) (n : Nat) : t.chase n = s.chase n := by
  rw [State.chase, h]
  rfl

theorem chase_trapStopped : (trapStopped s q o pc cause).chase q.chase.val = trappedChase s q o pc cause :=
  chase_setChase ..

theorem openItems_raiseTrap : ((raiseTrap s q o pc cause).chase q.chase.val).openItems =
    (trappedChase s q o pc cause).openItems := by
  rw [raiseTrap_eq, chase_of_chases (raiseTrap_rest (trapStopped s q o pc cause) _ _ _ _).2,
    openItems_of_repliesChange (repliesChange_answerInbound ..), chase_trapStopped]

end

/-! ### What stands in TRAP_CAUSE (R169) -/

section
variable {s : State} {q : SeqId} {o : Op} {pc cause : Nat}

theorem get_trapStopped {f : Fld} (hf : f ≠ .chState) (i : Nat) :
    (trapStopped s q o pc cause).get f i = (latchTrap s q o pc cause).get f i :=
  get_put_ne _ hf ..

theorem latchTrap_trapCount :
    (latchTrap s q o pc cause).get .trapCount q.chase.val = min (s.get .trapCount q.chase.val + 1) 0xFFFFFFFF := by
  unfold latchTrap
  dsimp only
  split
  · rw [get_put_ne _ (by decide), get_bump_count _ rfl]
  · repeat rw [get_put_ne _ (by decide)]
    rw [get_bump_count _ rfl]

/-- With no trap latched, all of TRAP_CAUSE is that of this one. -/
theorem latchTrap_first (hvalid : s.flag .trapValid q.chase.val = false) (o : Op) (pc : Nat) (hcause : cause < 16) :
    let t := latchTrap s q o pc cause
    let n := q.chase.val
    t.get .trapValid n = 1 ∧ t.get .trapCause n = cause ∧ t.get .trapLine n = b2n q.core.isNone ∧
      t.get .trapPc n = pc % 2 ^ 32 ∧ t.get .trapW0 n = o.word % 2 ^ 32 ∧ t.get .trapW2 n = bitsAt o.word 64 32 ∧
      t.get .trapMultiple n = 0 := by
  have hline : b2n q.core.isNone % 2 = b2n q.core.isNone := by cases q.core <;> rfl
  have hw0 : o.word % 2 ^ 32 % 2 ^ 32 = o.word % 2 ^ 32 := Nat.mod_mod ..
  have hw2 : bitsAt o.word 64 32 % 2 ^ 32 = bitsAt o.word 64 32 := Nat.mod_mod ..
  simp only [latchTrap, hvalid, Bool.false_and, Bool.false_eq_true, if_false]
  refine ⟨?_, ?_, ?_, ?_, ?_, ?_, ?_⟩ <;> simp only [get_put, reduceCtorEq, false_and, if_false, true_and, if_true]
  · rfl
  · exact Nat.mod_eq_of_lt (hcause.trans_le (by decide))
  · exact hline
  · rfl
  · exact hw0
  · exact hw2
  · rfl

/-- With a trap latched, this one sets multiple, and is latched in its place only where it comes before it in the same
cycle. -/
theorem latchTrap_again (hvalid : s.flag .trapValid q.chase.val = true) (o : Op) (pc : Nat) (hcause : cause < 16) :
    (latchTrap s q o pc cause).get .trapMultiple q.chase.val = 1 ∧
      (latchTrap s q o pc cause).get .trapCause q.chase.val =
        if trapFirst s q then cause else s.get .trapCause q.chase.val := by
  simp only [latchTrap, hvalid, Bool.true_and]
  cases trapFirst s q with
  | true =>
    simp only [Bool.not_true, Bool.false_eq_true, if_false, if_true, get_put, reduceCtorEq, false_and, true_and]
    exact ⟨rfl, Nat.mod_eq_of_lt (hcause.trans_le (by decide))⟩
  | false =>
    simp only [Bool.not_false, if_true, get_put, reduceCtorEq, false_and, if_false, true_and, Bool.false_eq_true]
    exact ⟨rfl, get_bump_ne _ (by decide) ..⟩

end

/-! ### The sequencers after a trap -/

section
variable (s : State) (q : SeqId) (o : Op) (pc cause : Nat)

theorem sequencer_trapStopped_own {r : SeqId} (h : r.chase = q.chase) :
    sequencer (trapStopped s q o pc cause) r = (trappedChase s q o pc cause).seq r.core := by
  rw [sequencer, h, chase_trapStopped]

theorem sequencer_trapStopped_other {r : SeqId} (h : r.chase ≠ q.chase) :
    sequencer (trapStopped s q o pc cause) r = sequencer s r := by
  have hother : (trapStopped s q o pc cause).chase r.chase.val = s.chase r.chase.val :=
    (chase_setChase_other _ (fun e => h (Fin.ext e)) _).trans (chase_of_chases (chases_latchTrap s q o pc cause) _)
  rw [sequencer, sequencer, hother]

/-- The sequencer that trapped does not run any more, so stopping the rest of its chase leaves it trapped. -/
theorem run_trappedChase : ((trappedChase s q o pc cause).seq q.core).run = .trapped := by
  rw [seq_trappedChase, seq_setSeq_same]
  rfl

end

/-- Settles O10: the trap's last parts change neither its chase's sequencers and items nor TRAP_CAUSE, and before them
its chase is stopped and its cause latched. -/
theorem trapStopsItsChase : Obligations.TrapStopsItsChase := by
  intro s q w pc cause hcause n t
  have hlatch : ∀ f, f ≠ .chState → f ∉ replyCounters ++ [Fld.evlogHead, Fld.evlogWrap] →
      t.get f n = (latchTrap s q (opOf w) pc cause).get f n := fun f hf hf' =>
    (get_raiseTrap s q (opOf w) pc cause hf' n).trans (get_trapStopped hf n)
  refine ⟨?_, fun r hr => ?_, fun r hr => ?_, ?_, ?_, ?_, fun hvalid => ?_, fun hvalid => ?_⟩
  · rw [sequencer_raiseTrap, sequencer_trapStopped_own _ _ _ _ _ rfl, run_trappedChase]
  · rw [sequencer_raiseTrap, sequencer_trapStopped_own _ _ _ _ _ hr, seq_trappedChase]
    exact stop_run_ne_running _
  · rw [sequencer_raiseTrap, sequencer_trapStopped_other _ _ _ _ _ hr]
  · rw [get_raiseTrap _ _ _ _ _ (by decide)]
    exact get_put_same ..
  · rw [hlatch _ (by decide) (by decide), latchTrap_trapCount]
  · rw [openItems_raiseTrap]
    exact fun e he => orphan_of_mem_orphanAll he
  · have hfirst := latchTrap_first hvalid (opOf w) pc hcause
    repeat rw [hlatch _ (by decide) (by decide)]
    exact hfirst
  · have hagain := latchTrap_again hvalid (opOf w) pc hcause
    repeat rw [hlatch _ (by decide) (by decide)]
    exact hagain

end Sys2Proof.Proofs

/-! A command that changes only the sequencer it names (R134), what a predicated-off instruction leaves (R121), and the
rows of class S. -/

namespace Sys2Proof.Proofs

open Sys2Proof.Machine Sys2Proof.Safety Sys2Proof.Laws

/-! ### Only the named sequencer changes -/

theorem seqId_ne {q r : SeqId} (h : r ≠ q) : r.chase.val ≠ q.chase.val ∨ (r.chase = q.chase ∧ r.core ≠ q.core) := by
  by_cases hc : r.chase = q.chase
  · refine .inr ⟨hc, fun hcore => h ?_⟩
    cases q
    cases r
    exact congrArg₂ SeqId.mk hc hcore
  · exact .inl (fun e => hc (Fin.ext e))

theorem sequencer_modSeq_other (s : State) {q r : SeqId} (h : r ≠ q) (f : Seq → Seq) :
    sequencer (modSeq s q f) r = sequencer s r := by
  rw [sequencer, sequencer, modSeq]
  obtain hc | ⟨hc, hcore⟩ := seqId_ne h
  · rw [chase_setChase_other s hc]
  · rw [hc, chase_setChase_same, seq_setSeq_other _ hcore]

theorem chase_modSeq (s : State) (q : SeqId) (f : Seq → Seq) (n : Nat) :
    { (modSeq s q f).chase n with line := (s.chase n).line, streams := (s.chase n).streams } = s.chase n := by
  rw [modSeq]
  by_cases hn : n = q.chase.val
  · rw [hn, chase_setChase_same]
    cases q.core <;> rfl
  · rw [chase_setChase_other s hn]

theorem seqChanges_modSeq (s : State) (q : SeqId) (f : Seq → Seq) : seqChanges q f s (modSeq s q f) :=
  ⟨sequencer_modSeq_same s q f, fun _ h => sequencer_modSeq_other s h f, chase_modSeq s q f, rfl⟩

theorem seqChanges_trans {q : SeqId} {f g : Seq → Seq} {s t u : State} (h : seqChanges q f s t)
    (h' : seqChanges q g t u) : seqChanges q (fun x => g (f x)) s u := by
  obtain ⟨hown, hother, hchase, hrest⟩ := h
  obtain ⟨hown', hother', hchase', hrest'⟩ := h'
  refine ⟨by rw [hown', hown], fun r hr => (hother' r hr).trans (hother r hr), fun n => ?_, ?_⟩
  · rw [← hchase n, ← hchase' n]
  · rw [← hrest, ← hrest']

/-- An instruction that writes registers of its sequencer and goes on. -/
theorem seqChanges_retire (s : State) (q : SeqId) (f : Seq → Seq) :
    seqChanges q (fun x => (f x).advance) s (retire q (modSeq s q f)) :=
  seqChanges_trans (seqChanges_modSeq s q f) (seqChanges_modSeq (modSeq s q f) q Seq.advance)

/-- A register instruction that goes. -/
theorem issueRegs_go {q : SeqId} {w : ZWord} {s : State} {row : Op → Bool} (h : goes q w row s) (f : Op → Seq → Seq) :
    seqChanges q (fun x => (f (opOf w) x).advance) s (issueRegs q w s row f) := by
  rw [issueRegs, issue_go h]
  exact seqChanges_retire s q _

/-! ### Predicated off (R121) -/

theorem sequencer_occupy_any (s : State) (q r : SeqId) (o : Op) (reads writes : List Span) (furniture : Bool)
    (rows : List (Nat × Nat × List Byte)) :
    sequencer (occupy s q o reads writes furniture rows) r = sequencer s r := by
  rw [sequencer, sequencer, occupy]
  by_cases hn : r.chase.val = q.chase.val
  · rw [hn, chase_setChase_same]
    cases r.core <;> rfl
  · rw [chase_setChase_other s hn]

theorem chase_occupy (s : State) (q : SeqId) (o : Op) (reads writes : List Span) (furniture : Bool)
    (rows : List (Nat × Nat × List Byte)) (m : Nat) :
    { (occupy s q o reads writes furniture rows).chase m with busy := (s.chase m).busy } = s.chase m := by
  rw [occupy]
  by_cases hm : m = q.chase.val
  · rw [hm, chase_setChase_same]
  · rw [chase_setChase_other s hm]

/-- Settles O11: predicated off, an instruction occupies its units and retires. -/
theorem predicatedOffHasNoEffect : Obligations.PredicatedOffHasNoEffect := by
  intro s q w row on hoff n t
  have ht : t = retire q (occupy s q (opOf w) [] [] true []) := issue_off hoff
  obtain ⟨hown, hother, hchase, hrest⟩ :=
    seqChanges_modSeq (occupy s q (opOf w) [] [] true []) q Seq.advance
  rw [ht, retire]
  refine ⟨?_, fun r hr => ?_, ?_, fun m => ?_, ?_⟩
  · rw [hown, sequencer_occupy_any]
  · rw [hother r hr, sequencer_occupy_any]
  · rfl
  · rw [← chase_occupy s q (opOf w) [] [] true [] m, ← hchase m]
  · have hbusy : (occupy s q (opOf w) [] [] true []).chase n =
        { s.chase n with busy := (unitsOf s q (opOf w)).map (fun u => ⟨u.1, u.2, [], [], true, []⟩) ++ (s.chase n).busy } :=
      chase_setChase_same ..
    have hkept := congrArg Chase.busy (hchase n)
    rw [hbusy] at hkept
    exact hkept

/-! ### Class S (R134) -/

/-- Settles O12: each row of class S that runs on registers goes on with its own effect on its sequencer. -/
theorem scalarInstructionsComplete : Obligations.ScalarInstructionsComplete := by
  intro q w s
  refine ⟨fun h => ⟨_, rfl, ?_⟩, fun h => ⟨_, rfl, ?_⟩, fun h => ⟨_, rfl, ?_⟩, fun h => ⟨_, rfl, ?_⟩,
    fun h => ⟨_, rfl, ?_⟩, fun h => ⟨_, rfl, ?_⟩, fun h => ⟨_, rfl, ?_⟩, fun h => ⟨_, rfl, ?_⟩⟩
  · exact issueRegs_go h _
  · exact issueRegs_go h _
  · exact issueRegs_go h _
  · exact issueRegs_go h _
  · rw [issue_go h]
    exact seqChanges_retire s q _
  · exact issueRegs_go h _
  · rw [issue_go h]
    exact seqChanges_modSeq s q _
  · rw [issue_go h]
    exact seqChanges_modSeq s q _

end Sys2Proof.Proofs

/-! What the scalar registers, the predicates and the loops of a sequencer hold after ALU, CMP, LOOP and BR (R122, R123,
R135, R136). -/

namespace Sys2Proof.Proofs

open Sys2Proof.Machine Sys2Proof.Safety Sys2Proof.Laws

/-! ### Registers of a sequencer -/

theorem s_setS (x : Seq) (r v i : Nat) : (x.setS r v).s i = if i = r then v % 2 ^ 32 else x.s i := by
  split
  · next h => rw [h, Seq.s, Seq.setS, tab_get_set_same, BitVec.toNat_ofNat]
  · next h => rw [Seq.s, Seq.setS, tab_get_set_other _ _ _ h, Seq.s]

theorem s_lt (x : Seq) (i : Nat) : x.s i < 2 ^ 32 := BitVec.isLt _

theorem opOf_imm0_lt (w : ZWord) : (opOf w).imm0 < 2 ^ 32 := Nat.mod_lt _ (by decide)

theorem aluOperand_lt (x : Seq) (w : ZWord) : aluOperand x (opOf w) < 2 ^ 32 := by
  unfold aluOperand
  split
  · exact s_lt x _
  · exact opOf_imm0_lt w

/-! ### Two's complement -/

theorem sext_eq_toInt {n : Nat} (hn : 0 < n) (v : Nat) : sext n v = (BitVec.ofNat n v).toInt := by
  obtain ⟨m, rfl⟩ := Nat.exists_eq_add_of_lt hn
  rw [BitVec.toInt_eq_toNat_cond, BitVec.toNat_ofNat, sext]
  simp only [Nat.zero_add, Nat.add_sub_cancel, Nat.pow_succ]
  split <;> split <;> omega

theorem wrapTo_toInt {n : Nat} (b : BitVec n) : wrapTo n b.toInt = b.toNat := by
  rw [wrapTo, ← BitVec.toNat_ofInt, BitVec.ofInt_toInt]

/-! ### ALU (R135) -/

theorem aluWrite_alu32 {x : Seq} {o : Op} (h11 : o.sub % 32 ≠ 11) (h12 : o.sub % 32 ≠ 12) :
    aluWrite x o = x.setS o.sd (alu32 (o.sub % 32) (x.s o.sa) (aluOperand x o)) := by
  unfold aluWrite
  dsimp only
  split
  · contradiction
  · contradiction
  · rfl

theorem alu32_lt (code a b : Nat) : alu32 code a b < 2 ^ 32 := BitVec.isLt _

/-- Every code but those of 48 bits writes its value to s[sd]. -/
theorem s_aluWrite {x : Seq} {o : Op} (h11 : o.sub % 32 ≠ 11) (h12 : o.sub % 32 ≠ 12) :
    (aluWrite x o).s o.sd = alu32 (o.sub % 32) (x.s o.sa) (aluOperand x o) := by
  rw [aluWrite_alu32 h11 h12, s_setS, if_pos rfl, Nat.mod_eq_of_lt (alu32_lt ..)]

section
variable {a b : Nat} (ha : a < 2 ^ 32) (hb : b < 2 ^ 32)

theorem alu32_add : alu32 0 a b = (a + b) % 2 ^ 32 := by
  simp [alu32, BitVec.toNat_add]

include hb in
theorem alu32_sub : alu32 1 a b = (a + (2 ^ 32 - b)) % 2 ^ 32 := by
  simp only [alu32, BitVec.toNat_sub, BitVec.toNat_ofNat, Nat.mod_eq_of_lt hb]
  omega

include ha hb in
theorem alu32_bitwise : alu32 2 a b = a &&& b ∧ alu32 3 a b = a ||| b ∧ alu32 4 a b = a ^^^ b := by
  simp only [alu32, BitVec.toNat_and, BitVec.toNat_or, BitVec.toNat_xor, BitVec.toNat_ofNat, Nat.mod_eq_of_lt ha,
    Nat.mod_eq_of_lt hb, and_self]

include ha in
theorem alu32_shift : alu32 5 a b = a * 2 ^ (b % 32) % 2 ^ 32 ∧ alu32 6 a b = a / 2 ^ (b % 32) ∧
    alu32 7 a b = wrapTo 32 (sext 32 a / (2 ^ (b % 32) : Nat)) := by
  refine ⟨?_, ?_, ?_⟩
  · simp only [alu32, BitVec.toNat_shiftLeft, BitVec.toNat_ofNat, Nat.mod_eq_of_lt ha, Nat.shiftLeft_eq]
  · simp only [alu32, BitVec.toNat_ushiftRight, BitVec.toNat_ofNat, Nat.mod_eq_of_lt ha, Nat.shiftRight_eq_div_pow]
  · rw [sext_eq_toInt (by decide), ← Int.shiftRight_eq_div_pow, ← BitVec.toInt_sshiftRight, wrapTo_toInt]
    rfl

theorem alu32_mul : alu32 8 a b = a * b % 2 ^ 32 := by
  simp [alu32, BitVec.toNat_mul]

theorem alu32_min : alu32 9 a b = wrapTo 32 (min (sext 32 a) (sext 32 b)) := by
  rw [sext_eq_toInt (by decide), sext_eq_toInt (by decide), Int.min_def]
  simp only [alu32, BitVec.slt_eq_decide, decide_eq_true_eq]
  split <;> split
  · rw [wrapTo_toInt]
  · omega
  · next h h' => rw [wrapTo_toInt, BitVec.eq_of_toInt_eq (x := BitVec.ofNat 32 a) (y := BitVec.ofNat 32 b) (by omega)]
  · rw [wrapTo_toInt]

theorem alu32_max : alu32 10 a b = wrapTo 32 (max (sext 32 a) (sext 32 b)) := by
  rw [sext_eq_toInt (by decide), sext_eq_toInt (by decide), Int.max_def]
  simp only [alu32, BitVec.slt_eq_decide, decide_eq_true_eq]
  split <;> split
  · rw [wrapTo_toInt]
  · omega
  · next h h' => rw [wrapTo_toInt, BitVec.eq_of_toInt_eq (x := BitVec.ofNat 32 a) (y := BitVec.ofNat 32 b) (by omega)]
  · rw [wrapTo_toInt]

end

/-- A signed value written to a pair reads back as its 48-bit image (R122). -/
theorem count_setSigned (x : Seq) (r : Nat) (v : Int) : (x.setSigned r v).count r = sext 48 (wrapTo 48 v) := by
  have hpair : (x.setSigned r v).pair48 r = wrapTo 64 (sext 48 (wrapTo 48 v)) % 2 ^ 48 := by
    rw [Seq.pair48, Seq.setSigned, Seq.setPair, s_setS, s_setS, s_setS, if_neg (by omega), if_pos rfl, if_pos rfl]
    omega
  have hwrap : wrapTo 64 (sext 48 (wrapTo 48 v)) % 2 ^ 48 = wrapTo 48 v := by
    have hlt : wrapTo 48 v < 2 ^ 48 := by
      unfold wrapTo
      omega
    rw [sext, Nat.mod_eq_of_lt hlt, wrapTo]
    split <;> omega
  rw [Seq.count, hpair, hwrap]

theorem s_setSigned_other (x : Seq) {r i : Nat} (h : i ≠ r) (h' : i ≠ r + 1) (v : Int) :
    (x.setSigned r v).s i = x.s i := by
  rw [Seq.setSigned, Seq.setPair, s_setS, s_setS, if_neg h', if_neg h]

theorem aluWrite_rest (x : Seq) (o : Op) : { aluWrite x o with sregs := x.sregs } = x := by
  unfold aluWrite
  dsimp only
  split <;> rfl

/-! ### Predicates (R123) -/

theorem bitAt_add_pow {v i : Nat} (h : bitAt v i = false) (j : Nat) :
    bitAt (v + 2 ^ i) j = if j = i then true else bitAt v j := by
  have hclear : v / 2 ^ i % 2 = 0 := by simpa [bitAt] using h
  have hdiv : (v + 2 ^ i) / 2 ^ i = v / 2 ^ i + 1 := Nat.add_div_right _ (Nat.two_pow_pos i)
  obtain hj | rfl | hj := Nat.lt_trichotomy j i
  · obtain ⟨k, rfl⟩ := Nat.exists_eq_add_of_lt hj
    have hlow : (v + 2 ^ (j + k + 1)) / 2 ^ j = v / 2 ^ j + 2 * 2 ^ k := by
      rw [show 2 ^ (j + k + 1) = 2 ^ j * (2 * 2 ^ k) by ring, Nat.add_mul_div_left _ _ (Nat.two_pow_pos j)]
    rw [if_neg (by omega), bitAt, bitAt, hlow, Nat.add_mul_mod_self_left]
  · rw [if_pos rfl, bitAt, hdiv]
    exact decide_eq_true (by omega)
  · obtain ⟨k, rfl⟩ := Nat.exists_eq_add_of_lt hj
    have hhalf : (v / 2 ^ i + 1) / 2 = v / 2 ^ i / 2 := by omega
    have hhigh : (v + 2 ^ i) / 2 ^ (i + k + 1) = v / 2 ^ (i + k + 1) := by
      rw [show 2 ^ (i + k + 1) = 2 ^ i * 2 * 2 ^ k by ring, ← Nat.div_div_eq_div_mul, ← Nat.div_div_eq_div_mul, hdiv,
        ← Nat.div_div_eq_div_mul, ← Nat.div_div_eq_div_mul, hhalf]
    rw [if_neg (by omega), bitAt, bitAt, hhigh]

/-- A value is its rest without bit `i`, and that bit. -/
theorem bitAt_split (v i : Nat) :
    bitAt (v - b2n (bitAt v i) * 2 ^ i) i = false ∧ v - b2n (bitAt v i) * 2 ^ i + b2n (bitAt v i) * 2 ^ i = v := by
  cases h : bitAt v i with
  | false => simpa [b2n] using h
  | true =>
    have hset : v / 2 ^ i % 2 = 1 := by simpa [bitAt] using h
    have hone : 1 ≤ v / 2 ^ i := Nat.one_le_iff_ne_zero.mpr (fun h0 => by simp [h0] at hset)
    have hle : 1 * 2 ^ i ≤ v := (Nat.le_div_iff_mul_le (Nat.two_pow_pos i)).mp hone
    refine ⟨?_, Nat.sub_add_cancel hle⟩
    have hsub : (v - 2 ^ i) / 2 ^ i = v / 2 ^ i - 1 := by simpa using Nat.sub_mul_div v (2 ^ i) 1
    simp only [b2n, if_true, Nat.one_mul, bitAt, hsub]
    exact decide_eq_false (by omega)

/-- Replacing one bit of a value. -/
theorem bitAt_replace (v i j : Nat) (b : Bool) :
    bitAt (v - b2n (bitAt v i) * 2 ^ i + b2n b * 2 ^ i) j = if j = i then b else bitAt v j := by
  obtain ⟨hclear, hsum⟩ := bitAt_split v i
  have hold : bitAt v j = if j = i then bitAt v i else bitAt (v - b2n (bitAt v i) * 2 ^ i) j := by
    split
    · next h => rw [h]
    · next h =>
      cases hb : bitAt v i with
      | false => simp [b2n]
      | true =>
        rw [hb] at hsum hclear
        conv_lhs => rw [← hsum]
        simpa [b2n, h] using bitAt_add_pow hclear j
  cases b with
  | false =>
    split
    · next h => simpa [b2n, h] using hclear
    · next h => simpa [b2n, h] using hold.symm
  | true =>
    split
    · next h => simpa [b2n, h] using bitAt_add_pow hclear i
    · next h => simpa [b2n, h, hold] using bitAt_add_pow hclear j

theorem bitAt_mod {n j : Nat} (h : j < n) (v : Nat) : bitAt (v % 2 ^ n) j = bitAt v j := by
  obtain ⟨k, rfl⟩ := Nat.exists_eq_add_of_lt h
  have hmod : v % 2 ^ (j + k + 1) / 2 ^ j % 2 = v / 2 ^ j % 2 := by
    rw [show 2 ^ (j + k + 1) = 2 ^ j * (2 ^ k * 2) by ring, Nat.mod_mul_right_div_self, Nat.mod_mul_left_mod]
  rw [bitAt, bitAt, hmod]

theorem p_setP (x : Seq) {i j : Nat} (hi : i ≠ 0) (hj : j < 16) (b : Bool) :
    (x.setP i b).p j = if j = i then b else x.p j := by
  rw [Seq.setP, if_neg hi, Seq.p, Seq.p]
  simp only [BitVec.toNat_ofNat, bitAt_mod hj, bitAt_replace]
  split
  · next h => simp [h, hi]
  · rfl

theorem setP_rest (x : Seq) (i : Nat) (b : Bool) : { x.setP i b with preds := x.preds } = x := by
  unfold Seq.setP
  split <;> rfl

/-! ### CMP (R135) -/

section
variable {a b : Nat} (ha : a < 2 ^ 32) (hb : b < 2 ^ 32)

include ha hb in
theorem cmpHolds_equal : cmpHolds 0 a b = decide (a = b) ∧ cmpHolds 1 a b = decide (a ≠ b) := by
  have heq : (BitVec.ofNat 32 a = BitVec.ofNat 32 b) ↔ a = b := by
    rw [← BitVec.toNat_inj, BitVec.toNat_ofNat, BitVec.toNat_ofNat, Nat.mod_eq_of_lt ha, Nat.mod_eq_of_lt hb]
  simp only [cmpHolds, bne, Bool.beq_eq_decide_eq, heq, decide_not, and_self]

theorem cmpHolds_signed : cmpHolds 2 a b = decide (sext 32 a < sext 32 b) ∧
    cmpHolds 3 a b = decide (sext 32 b ≤ sext 32 a) := by
  rw [sext_eq_toInt (by decide), sext_eq_toInt (by decide)]
  simp only [cmpHolds, BitVec.slt_eq_decide, ← decide_not, not_lt, and_self]

include ha hb in
theorem cmpHolds_unsigned : cmpHolds 4 a b = decide (a < b) ∧ cmpHolds 5 a b = decide (b ≤ a) := by
  simp only [cmpHolds, BitVec.ult, BitVec.toNat_ofNat, Nat.mod_eq_of_lt ha, Nat.mod_eq_of_lt hb, ← decide_not, not_lt,
    and_self]

end

/-! ### LOOP and BR (R136) -/

theorem advance_inside (x : Seq) (f : LoopFrame) (fs : List LoopFrame) (hloops : x.loops = f :: fs)
    (hpc : x.pc + 1 ≠ f.stop) : x.advance = { x with pc := x.pc + 1 } := by
  rw [Seq.advance, Seq.goto, hloops, loopBack, if_neg hpc, ← hloops]

theorem advance_passesLeft (x : Seq) (f : LoopFrame) (fs : List LoopFrame) (hloops : x.loops = f :: fs)
    (hpc : x.pc + 1 = f.stop) (hleft : 1 < f.left) :
    x.advance = { x with pc := f.start, loops := { f with left := f.left - 1 } :: fs } := by
  rw [Seq.advance, Seq.goto, hloops, loopBack, if_pos hpc, if_pos hleft]

theorem advance_lastPass (x : Seq) (f : LoopFrame) (fs : List LoopFrame) (hloops : x.loops = f :: fs)
    (hpc : x.pc + 1 = f.stop) (hleft : f.left ≤ 1) : x.advance = { x with loops := fs }.goto f.stop := by
  rw [Seq.advance, Seq.goto, hloops, loopBack, if_pos hpc, if_neg (by omega), hpc]
  rfl

theorem branch_loops (x : Seq) (target : Nat) :
    ∀ f ∈ (x.branch target).loops.head?, f.start ≤ target ∧ target < f.stop := by
  intro f hf
  have hnot := List.head?_dropWhile_not (fun f : LoopFrame => decide (target < f.start) || decide (f.stop ≤ target)) x.loops
  rw [show (x.loops.dropWhile _).head? = some f from hf] at hnot
  simpa using hnot

/-! ### O13 -/

theorem aluResults (x : Seq) (w : ZWord) :
    let o := opOf w
    let a := x.s o.sa
    let b := aluOperand x o
    let y := aluWrite x o
    (o.sub % 32 ≠ 11 → o.sub % 32 ≠ 12 → y.s o.sd = alu32 (o.sub % 32) a b) ∧
      (o.sub % 32 = 11 → y.count o.sd = sext 48 (wrapTo 48 ((x.pair48 o.sa : Int) + sext 32 b))) ∧
      (o.sub % 32 = 12 → y.count o.sd = sext 48 (wrapTo 48 ((x.pair48 o.sa : Int) - sext 32 b))) ∧
      (∀ r, r ≠ o.sd → (r ≠ o.sd + 1 ∨ (o.sub % 32 ≠ 11 ∧ o.sub % 32 ≠ 12)) → y.s r = x.s r) := by
  intro o a b y
  refine ⟨s_aluWrite, fun h => ?_, fun h => ?_, fun r hr hpair => ?_⟩
  · have hy : y = x.setSigned o.sd ((x.pair48 o.sa : Int) + sext 32 b) := by
      simp only [y, aluWrite, h]
      rfl
    rw [hy, count_setSigned]
  · have hy : y = x.setSigned o.sd ((x.pair48 o.sa : Int) - sext 32 b) := by
      simp only [y, aluWrite, h]
      rfl
    rw [hy, count_setSigned]
  · simp only [y, aluWrite]
    split
    · next h => exact s_setSigned_other x hr (by omega) _
    · next h => exact s_setSigned_other x hr (by omega) _
    · rw [s_setS, if_neg hr]

/-- Settles O13: the value of each ALU and CMP code, and the loops that LOOP, the end of a body and a branch leave. -/
theorem scalarResultsAreRight : Obligations.ScalarResultsAreRight := by
  refine ⟨fun x w => ?_, fun x w => ?_, ?_, ?_, ?_, ?_⟩
  · intro o a b y
    have ha : a < 2 ^ 32 := s_lt x _
    have hb : b < 2 ^ 32 := aluOperand_lt x w
    obtain ⟨h32, h11, h12, hother⟩ := aluResults x w
    have hcode : ∀ code, code ≠ 11 → code ≠ 12 → o.sub % 32 = code → y.s o.sd = alu32 code a b := fun code h h' e =>
      e ▸ h32 (e ▸ h) (e ▸ h')
    obtain ⟨hand, hor, hxor⟩ := alu32_bitwise ha hb
    obtain ⟨hshl, hshr, hsra⟩ := alu32_shift (b := b) ha
    exact ⟨fun h => (hcode _ (by decide) (by decide) h).trans alu32_add,
      fun h => (hcode _ (by decide) (by decide) h).trans (alu32_sub hb),
      fun h => (hcode _ (by decide) (by decide) h).trans hand,
      fun h => (hcode _ (by decide) (by decide) h).trans hor,
      fun h => (hcode _ (by decide) (by decide) h).trans hxor,
      fun h => (hcode _ (by decide) (by decide) h).trans hshl,
      fun h => (hcode _ (by decide) (by decide) h).trans hshr,
      fun h => (hcode _ (by decide) (by decide) h).trans hsra,
      fun h => (hcode _ (by decide) (by decide) h).trans alu32_mul,
      fun h => (hcode _ (by decide) (by decide) h).trans alu32_min,
      fun h => (hcode _ (by decide) (by decide) h).trans alu32_max, h11, h12, hother, aluWrite_rest x o⟩
  · intro o a b y
    have ha : a < 2 ^ 32 := s_lt x _
    have hb : b < 2 ^ 32 := aluOperand_lt x w
    have hpdst : o.pdst < 16 := Nat.mod_lt _ (by decide)
    obtain ⟨heq, hne⟩ := cmpHolds_equal ha hb
    obtain ⟨hlt, hge⟩ := cmpHolds_signed (a := a) (b := b)
    obtain ⟨hult, huge⟩ := cmpHolds_unsigned ha hb
    refine ⟨fun hp => ?_, rfl, fun i hi hne => ?_, setP_rest ..⟩
    · have hcode : ∀ code, o.sub % 8 = code → y.p o.pdst = cmpHolds code a b := fun code e =>
        e ▸ (p_setP x hp hpdst _).trans (if_pos rfl)
      exact ⟨fun h => (hcode _ h).trans heq, fun h => (hcode _ h).trans hne, fun h => (hcode _ h).trans hlt,
        fun h => (hcode _ h).trans hge, fun h => (hcode _ h).trans hult, fun h => (hcode _ h).trans huge⟩
    · by_cases hp : o.pdst = 0
      · simp only [y, cmpWrite, Seq.setP, hp, if_true]
      · exact (p_setP x hp hi _).trans (if_neg hne)
  · exact fun x len => if_pos (.inl rfl)
  · intro x count len hcount hlen
    rw [Seq.startLoop, if_neg (by simp [hcount, hlen])]
    exact ⟨rfl, rfl⟩
  · exact fun x f fs h => ⟨advance_passesLeft x f fs h, advance_lastPass x f fs h, advance_inside x f fs h⟩
  · exact fun x target => ⟨rfl, branch_loops x target⟩

end Sys2Proof.Proofs

/-! WAITL and WAITE (R138 to R140), SYNC and its barriers (R137), HALT (R141, R196) and TRAP. -/

namespace Sys2Proof.Proofs

open Sys2Proof.Machine Sys2Proof.Safety Sys2Proof.Laws

/-! ### What a WAITL finds (R138) -/

theorem lineDiff_self (line : Nat) : lineDiff line line = 0 := by
  rw [lineDiff, Int.sub_self]
  rfl

section
variable {s : State} {n slot line : Nat}

theorem waitlOutcome_unbound (h : slotCtx s n slot = none) : waitlOutcome s n slot line = some (3, 0) := by
  rw [waitlOutcome, h]

variable {k : Nat} (hctx : slotCtx s n slot = some k) (hresetting : (s.context k).resetting = false)
  (hdraining : s.flag .genDraining k = false)

include hctx hresetting hdraining

theorem waitlOutcome_gone (h : lineDiff line (s.context k).oldest < 0) : waitlOutcome s n slot line = some (4, 0) := by
  simp only [waitlOutcome, hctx, hresetting, hdraining, Bool.or_self, Bool.false_eq_true, if_false, h, if_true]

/-- Nothing is found while no entry of the galley holds the line. -/
theorem waitlOutcome_awaited (h : 0 ≤ lineDiff line (s.context k).oldest) (hslots : (s.context k).slots = []) :
    waitlOutcome s n slot line = none := by
  simp only [waitlOutcome, hctx, hresetting, hdraining, Bool.or_self, Bool.false_eq_true, if_false,
    if_neg (not_lt.mpr h), hslots, List.find?_nil]

/-- A galley's one entry that names the line is what is found: a slug, or a spoil marker. -/
theorem waitlOutcome_entry {g : Slug} (h : 0 ≤ lineDiff line (s.context k).oldest) (hslots : (s.context k).slots = [g])
    (hline : g.line = line) : waitlOutcome s n slot line =
      if bitAt g.flags.toNat 0 then some (1, g.lost) else some (0, g.flags.toNat) := by
  have hspan : (0 : Int) < max 1 (if bitAt g.flags.toNat 0 then (g.lost : Int) else 1) := by omega
  simp only [waitlOutcome, hctx, hresetting, hdraining, Bool.or_self, Bool.false_eq_true, if_false,
    if_neg (not_lt.mpr h), hslots, hline, lineDiff_self, List.find?_cons, le_refl, decide_true, Bool.true_and]
  simp only [decide_eq_true hspan]

end

/-- Settles O14: WAITL and WAITE, their releases and their timeouts take the outcome of R138 and R139 where there is one. -/
theorem waitsEndInTheirOutcome : Obligations.WaitsEndInTheirOutcome := by
  refine ⟨⟨fun q w s hgo => ?_, fun q w s hgo => ?_, fun q s slot line sd pdst e hwait => ?_,
    fun q s slot target sd pdst e hwait => ?_⟩, fun s n slot line => ⟨waitlOutcome_unbound, fun k hctx hres hdrain =>
      ⟨waitlOutcome_gone hctx hres hdrain, waitlOutcome_awaited hctx hres hdrain,
        fun g h hslots hline _ => waitlOutcome_entry hctx hres hdrain h hslots hline⟩⟩⟩
  · intro o slot line
    have hexec : exec (.waitl q w) s = .next (match waitlOutcome s q.chase.val slot line with
        | some r => afterWaitl q slot line r.1 (modSeq s q (fun y => y.waitDone o.sd o.pdst r.1 r.2 true))
        | none => modSeq s q (fun y => { y with wait := .waitl slot line o.sd o.pdst (expiryOf s o.imm0) })) :=
      congrArg _ (issue_go hgo)
    refine ⟨fun r hr => ?_, fun hr => ⟨_, hexec, ?_⟩⟩
    · rw [hexec, hr]
    · rw [hr]
      exact seqChanges_modSeq s q _
  · intro o slot target
    have hexec : exec (.waite q w) s = .next (match waiteOutcome s q.chase.val slot target with
        | some r => modSeq s q (fun y => y.waitDone o.sd o.pdst r 0 false)
        | none => modSeq s q (fun y => { y with wait := .waite slot target o.sd o.pdst (expiryOf s o.imm0) })) :=
      congrArg _ (issue_go hgo)
    refine ⟨fun r hr => ⟨_, hexec, ?_⟩, fun hr => ⟨_, hexec, ?_⟩⟩ <;> rw [hr] <;> exact seqChanges_modSeq s q _
  · have hwait' : ((s.chase q.chase.val).seq q.core).wait = .waitl slot line sd pdst e := hwait
    refine ⟨fun r hr => ⟨?_, fun he => ?_⟩, fun hr he => ⟨_, ?_, seqChanges_modSeq s q _⟩⟩
    · change execWaitlRelease q s = _
      simp only [execWaitlRelease, hwait', hr]
    · change execWaitlTimeout q s = _
      simp only [execWaitlTimeout, hwait', hr, he, if_true]
    · change execWaitlTimeout q s = _
      simp only [execWaitlTimeout, hwait', hr, he, if_true]
  · have hwait' : ((s.chase q.chase.val).seq q.core).wait = .waite slot target sd pdst e := hwait
    refine ⟨fun r hr => ⟨_, ?_, seqChanges_modSeq s q _, fun he => ?_⟩, fun hr he => ⟨_, ?_, seqChanges_modSeq s q _⟩⟩
    · change execWaiteRelease q s = _
      simp only [execWaiteRelease, hwait', hr]
    · change execWaiteTimeout q s = _
      simp only [execWaiteTimeout, hwait', hr, he, if_true]
    · change execWaiteTimeout q s = _
      simp only [execWaiteTimeout, hwait', hr, he, if_true]

/-! ### Barriers (R137) -/

/-- Releasing a barrier leaves a chase whose every sequencer was released on its own mask. -/
def releasedChase (c : Chase) (b : Nat) : Chase :=
  { c with line := c.line.release c b, streams := ⟨c.streams.entries.map (fun e => (e.1, e.2.release c b))⟩ }

theorem seq_releasedChase (c : Chase) (b : Nat) (core : Option CoreNo) :
    (releasedChase c b).seq core = (c.seq core).release c b := by
  cases core with
  | none => rfl
  | some l => exact tab_get_map c.streams (fun x => x.release c b) rfl l.val

/-! ### HALT of a RUNNING chase's sequencer (R141, R196) -/

/-- The state HALT leaves: its sequencer halted; after the line sequencer's, the chase HALTED and its items orphans. -/
def haltedState (s : State) (q : SeqId) : State :=
  let t := modSeq s q (fun x => { x with run := .halted })
  let n := q.chase.val
  if q.core.isNone then (t.setChase n (t.chase n).orphanAll).put .chState n 4 else t

theorem sequencer_haltedState (s : State) (q r : SeqId) :
    sequencer (haltedState s q) r = sequencer (modSeq s q (fun x => { x with run := .halted })) r := by
  rw [haltedState]
  generalize modSeq s q _ = t
  split
  · by_cases hn : r.chase.val = q.chase.val
    · rw [sequencer, sequencer, chase_put, hn, chase_setChase_same, seq_orphanAll]
    · rw [sequencer, sequencer, chase_put, chase_setChase_other _ hn]
  · rfl

/-- Settles O15: each of SYNC, BARRIER_RELEASE, HALT and TRAP takes the branch of its definition that its state selects. -/
theorem syncHaltAndTrapComplete : Obligations.SyncHaltAndTrapComplete := by
  refine ⟨⟨fun q w s hgo => ?_, fun n b s hrunning => ?_⟩, fun q w s => ⟨fun hgo hrunning => ?_, fun htrap => ?_⟩⟩
  · intro o
    have hexec : exec (.sync q w) s = .next (if o.sub % 4 = 0 then syncUnits q o s else modSeq s q (fun x =>
        { x with wait := .barrier (o.imm0 % 16) o.imm1 (o.sub % 4 == 2) s.clk })) := by
      have hnot : ¬(o.sub % 4 = 0 ∧ gateOf s q o (isOp 0 0x0A o) = .off) := fun h => by
        rw [show gateOf s q o (isOp 0 0x0A o) = .go from hgo] at h
        exact Gate.noConfusion h.2
      exact (if_neg hnot).trans (congrArg _ (issue_go hgo))
    refine ⟨_, hexec, fun hunits hidle => ?_, fun hunits hbusy => ?_, fun hbarrier => ?_⟩
    · rw [if_pos hunits, syncUnits, if_pos hidle]
      exact seqChanges_modSeq s q _
    · rw [if_pos hunits, syncUnits, if_neg (by simp [hbusy])]
      exact seqChanges_modSeq s q _
    · rw [if_neg hbarrier]
      exact seqChanges_modSeq s q _
  · refine ⟨s.setChase n.val (releasedChase (s.chase n.val) b.val), if_pos hrunning, fun r hr => ?_, fun r hr => ?_, rfl⟩
    · have hchase : s.chase r.chase.val = s.chase n.val := by rw [hr]
      rw [sequencer, sequencer, hchase, hr, chase_setChase_same, seq_releasedChase]
      rfl
    · rw [sequencer, sequencer, chase_setChase_other s (fun e => hr (Fin.ext e))]
  · have hexec : exec (.halt q w) s = .next (haltedState s q) := by
      refine congrArg _ ((issue_go hgo).trans ?_)
      simp only [haltedState, hrunning, beq_self_eq_true, Bool.and_true]
    have hseq : ∀ r, sequencer (haltedState s q) r = sequencer (modSeq s q (fun x => { x with run := .halted })) r :=
      sequencer_haltedState s q
    refine ⟨_, hexec, ?_, fun r hr => ?_, ?_, ?_, fun hline => ?_⟩
    · rw [hseq, sequencer_modSeq_same]
    · rw [hseq, sequencer_modSeq_other s hr]
    · rw [haltedState]
      split
      · exact get_put_same ..
      · exact hrunning
    · rw [haltedState]
      split
      · exact keepsRegs_put (keepsRegs_refl s) (by decide) _ _
      · exact keepsRegs_refl s
    · rw [haltedState, if_pos hline, chase_put, chase_setChase_same]
      exact fun e he => orphan_of_mem_orphanAll he
  · exact congrArg _ (issue_trap htrap)

end Sys2Proof.Proofs

/-! The step, and what a POWER reset leaves. -/

namespace Sys2Proof.Proofs

open Sys2Proof.Machine Sys2Proof.Safety Sys2Proof.Laws

/-- Settles O1: with a command waiting, `step` takes that branch. -/
theorem stepRunsFrontCommand : Obligations.StepRunsFrontCommand := by
  intro c rest s hpending
  rw [step, hpending]

/-- Settles O2: no register is stored and every memory is empty. -/
theorem resetIsSound : Obligations.ResetIsSound :=
  solid_reset

/-- With no register stored, each reads its Reset value. -/
theorem get_reset (f : Fld) (i : Nat) : State.reset.get f i = f.info.reset := rfl

/-- Settles O3: no register is stored, so each reads its Reset value; the tables of mailboxes and queues are empty. -/
theorem resetLeavesResetValues : Obligations.ResetLeavesResetValues :=
  ⟨rfl, rfl, rfl, get_reset, fun _ => rfl, get_reset .modService 0, get_reset .oscCode 0, get_reset .tripActive 0,
    get_reset .timeSlewPpm 0, get_reset .supWinChase 0⟩

end Sys2Proof.Proofs

/-! What the instructions of classes V and K answer (R157 to R164). -/

namespace Sys2Proof.Proofs

open Sys2Proof.Machine Sys2Proof.Safety Sys2Proof.Laws

/-- A command that issues an instruction of its row which goes: the effect of the row. -/
theorem exec_of_goes {i : Instr} {q : SeqId} {w : ZWord} {s : State} {row : Op → Bool} {on : Op → Seq → State → State}
    (hexec : exec i s = .next (issue q w s row on)) (hgo : goes q w row s) :
    exec i s = .next (on (opOf w) (sequencer s q) s) := by
  rw [hexec, issue_go hgo]

/-- Settles O25: VERDICT OPEN and DECIDE go on with what `openItem` and `decideItem` answer. -/
theorem verdictInstructionsComplete : Obligations.VerdictInstructionsComplete := by
  refine fun q w s => ⟨fun k hgo hslot => ?_, fun hgo hslot => ⟨_, exec_of_goes (i := .verdictOpen q w) rfl hgo, ?_⟩,
    fun hgo => exec_of_goes (i := .verdictDecide q w) rfl hgo⟩
  · rw [exec_of_goes (i := .verdictOpen q w) rfl hgo]
    simp only [hslot]
  · simp only [hslot]
    exact seqChanges_retire s q _

/-- The parts of a pair that is given as one. The kernel compares them as variables here, and does not evaluate them. -/
theorem parts_of_eq_mk {α β : Type} {p : α × β} {a : α} {b : β} (h : p = (a, b)) : p.1 = a ∧ p.2 = b := by
  rw [h]
  exact ⟨rfl, rfl⟩

/-! ### FIRE, TRIG and TSTAMP (R157, R161, R311) -/

section
variable {s : State} {n slot k : Nat}

theorem armOneShot_unbound (hslot : slotCtx s n slot = none) (pos conn tag : Nat) :
    armOneShot s n slot pos conn tag = (false, s.bump .seqRefused n) := by
  rw [armOneShot, hslot]

variable (hslot : slotCtx s n slot = some k)
include hslot

theorem armOneShot_free {conn i : Nat} (hsupplies : supplies s conn = false)
    (hfree : (List.range 4).find? (fun i => ((s.context k).oneshots.get none i).isNone) = some i) (pos tag : Nat) :
    armOneShot s n slot pos conn tag = (true, s.setCtx k { s.context k with
      oneshots := (s.context k).oneshots.set i (some ⟨pos, conn, tag⟩) }) := by
  simp only [armOneShot, hslot, hfree, hsupplies, Bool.false_eq_true, if_false]

theorem armOneShot_refused {conn : Nat}
    (h : supplies s conn = true ∨ ∀ i, i < 4 → (s.context k).oneshots.get none i ≠ none) (pos tag : Nat) :
    armOneShot s n slot pos conn tag = (false, s.bump .seqRefused n) := by
  simp only [armOneShot, hslot]
  split
  · rfl
  · next i hi =>
    obtain hsupplies | hfull := h
    · rw [if_pos hsupplies]
    · have hmem := List.mem_range.mp (List.mem_of_find?_eq_some hi)
      exact absurd (Option.isNone_iff_eq_none.mp (List.find?_some hi :)) (hfull i hmem)

end

/-- TSTAMP that goes writes the time and the position of its slot's encoder, 0 where the slot is unbound. -/
theorem tstamp_goes {q : SeqId} {w : ZWord} {s : State} (hgo : goes q w (isOp 5 0x04) s) :
    ∃ t, exec (.tstamp q w) s = .next t ∧ seqChanges q (fun y => ((y.setPair (opOf w).sd s.now).setSigned ((opOf w).sd + 2)
      (match slotCtx s q.chase.val ((opOf w).sub % 16) with | some k => livePos s k | none => 0)).advance) s t :=
  ⟨_, rfl, issueRegs_go hgo _⟩

section
variable {s : State} {n slot k mask width : Nat} (hslot : slotCtx s n slot = some k)
include hslot

theorem fireNow_refused (h : filterChannels s k mask = 0 ∨ width = 0) (pos : Nat) :
    fireNow s n slot pos mask width = (false, s.bump .seqRefused n) := by
  simp only [fireNow, hslot, if_pos h]

theorem fireNow_pushed (h : ¬(filterChannels s k mask = 0 ∨ width = 0)) (pos : Nat) :
    fireNow s n slot pos mask width =
      ((pushFire s (fireCmd pos (filterChannels s k mask) width k 3 0)).1 == .accepted,
        (pushFire s (fireCmd pos (filterChannels s k mask) width k 3 0)).2) := by
  simp only [fireNow, hslot, if_neg h]

end

section
variable {q : SeqId} {w : ZWord} {s : State}

theorem exec_fire_goes (hgo : goes q w (isOp 5 0x02) s) :
    exec (.fire q w) s =
      .next (retire q (modSeq (fireNow s q.chase.val ((opOf w).sub % 16) ((sequencer s q).pair48 (opOf w).sa)
        ((opOf w).imm1 % 65536) ((opOf w).imm1 / 65536)).2 q (fun y => y.setP (opOf w).pdst
          (fireNow s q.chase.val ((opOf w).sub % 16) ((sequencer s q).pair48 (opOf w).sa)
            ((opOf w).imm1 % 65536) ((opOf w).imm1 / 65536)).1))) :=
  exec_of_goes (i := .fire q w) rfl hgo

theorem exec_trig_goes (hgo : goes q w (isOp 5 0x03) s) :
    exec (.trig q w) s =
      .next (retire q (modSeq (armOneShot s q.chase.val ((opOf w).sub % 16) ((sequencer s q).pair48 (opOf w).sa)
        ((opOf w).imm0 % 16) (bitsAt (opOf w).imm0 8 8)).2 q (fun y => y.setP (opOf w).pdst
          (armOneShot s q.chase.val ((opOf w).sub % 16) ((sequencer s q).pair48 (opOf w).sa)
            ((opOf w).imm0 % 16) (bitsAt (opOf w).imm0 8 8)).1))) :=
  exec_of_goes (i := .trig q w) rfl hgo

end

section
variable {q : SeqId} {w : ZWord} {s : State} {k : Nat} (hgo : goes q w (isOp 5 0x02) s)
  (hslot : slotCtx s q.chase.val ((opOf w).sub % 16) = some k)
include hgo hslot

theorem exec_fire_refused (h : filterChannels s k ((opOf w).imm1 % 65536) = 0 ∨ (opOf w).imm1 / 65536 = 0) :
    exec (.fire q w) s =
      .next (retire q (modSeq (s.bump .seqRefused q.chase.val) q (fun y => y.setP (opOf w).pdst false))) := by
  rw [exec_fire_goes hgo, fireNow_refused hslot h]

theorem exec_fire_pushed (h : ¬(filterChannels s k ((opOf w).imm1 % 65536) = 0 ∨ (opOf w).imm1 / 65536 = 0)) :
    exec (.fire q w) s =
      .next (retire q (modSeq (pushFire s (fireCmd ((sequencer s q).pair48 (opOf w).sa)
        (filterChannels s k ((opOf w).imm1 % 65536)) ((opOf w).imm1 / 65536) k 3 0)).2 q
        (fun y => y.setP (opOf w).pdst ((pushFire s (fireCmd ((sequencer s q).pair48 (opOf w).sa)
          (filterChannels s k ((opOf w).imm1 % 65536)) ((opOf w).imm1 / 65536) k 3 0)).1 == .accepted)))) := by
  obtain ⟨hanswer, hstate⟩ := parts_of_eq_mk (fireNow_pushed hslot h ((sequencer s q).pair48 (opOf w).sa))
  rw [exec_fire_goes hgo, hanswer, hstate]

/-- FIRE of a bound slot: refused without a channel or a width, else pushed. -/
theorem exec_fire_slot :
    exec (.fire q w) s =
      if filterChannels s k ((opOf w).imm1 % 65536) = 0 ∨ (opOf w).imm1 / 65536 = 0 then
        .next (retire q (modSeq (s.bump .seqRefused q.chase.val) q (fun y => y.setP (opOf w).pdst false)))
      else
        .next (retire q (modSeq (pushFire s (fireCmd ((sequencer s q).pair48 (opOf w).sa)
          (filterChannels s k ((opOf w).imm1 % 65536)) ((opOf w).imm1 / 65536) k 3 0)).2 q
          (fun y => y.setP (opOf w).pdst ((pushFire s (fireCmd ((sequencer s q).pair48 (opOf w).sa)
            (filterChannels s k ((opOf w).imm1 % 65536)) ((opOf w).imm1 / 65536) k 3 0)).1 == .accepted)))) := by
  split
  · next h => exact exec_fire_refused hgo hslot h
  · next h => exact exec_fire_pushed hgo hslot h

end

/-- Settles O28: FIRE goes on with `fireNow`, TRIG with `armOneShot`, and TSTAMP with the time and the position. -/
theorem fireTrigAndTstampComplete : Obligations.FireTrigAndTstampComplete := by
  refine fun q w s => ⟨fun k hgo hslot => ?_, fun hgo hslot => ?_, fun hgo hslot => ?_,
    fun hgo hslot => ?_, fun k i hgo hslot hsupplies hfree => ?_, fun k hgo hslot h => ?_, fun k hgo hslot => ?_⟩
  · exact exec_fire_slot hgo hslot
  · rw [exec_fire_goes hgo, fireNow, hslot]
  · rw [exec_trig_goes hgo, armOneShot_unbound hslot]
  · have h := tstamp_goes hgo
    rwa [hslot] at h
  · rw [exec_trig_goes hgo, armOneShot_free hslot hsupplies hfree]
  · rw [exec_trig_goes hgo, armOneShot_refused hslot h]
  · have h := tstamp_goes hgo
    rwa [hslot] at h

end Sys2Proof.Proofs

/-! PARAM, BWSET, MBX and QUOIN (R162 to R164, R247). -/

namespace Sys2Proof.Proofs

open Sys2Proof.Machine Sys2Proof.Safety Sys2Proof.Laws

section
variable {q : SeqId} {w : ZWord} {s : State}

theorem exec_param_goes (hgo : goes q w (isOp 6 0x01) s) :
    exec (.param q w) s = .next (match slotCtx s q.chase.val ((opOf w).sub % 16) with
      | none => retire q (modSeq (s.bump .seqRefused q.chase.val) q (fun y => y.setP (opOf w).pdst false))
      | some k =>
        if (opOf w).imm0 % 4 = 2 ∧ meshTooLarge s k (b2n (bitAt (opOf w).imm0 2)) = true then
          retire q (modSeq (s.bump .seqRefused q.chase.val) q (fun y => y.setP (opOf w).pdst false))
        else
          retire q (modSeq (applyBank s k ((opOf w).imm0 % 4) (b2n (bitAt (opOf w).imm0 2))
            ((sequencer s q).pair48 (opOf w).sa) none) q
            (fun y => (y.setPair (opOf w).sd (lineUsed s k ((sequencer s q).pair48 (opOf w).sa))).setP (opOf w).pdst
              (lineUsed s k ((sequencer s q).pair48 (opOf w).sa) == (sequencer s q).pair48 (opOf w).sa)))) :=
  exec_of_goes (i := .param q w) rfl hgo

theorem exec_param_refused (hgo : goes q w (isOp 6 0x01) s)
    (h : slotCtx s q.chase.val ((opOf w).sub % 16) = none ∨ ∃ k, slotCtx s q.chase.val ((opOf w).sub % 16) = some k ∧
      (opOf w).imm0 % 4 = 2 ∧ meshTooLarge s k (b2n (bitAt (opOf w).imm0 2)) = true) :
    exec (.param q w) s =
      .next (retire q (modSeq (s.bump .seqRefused q.chase.val) q (fun y => y.setP (opOf w).pdst false))) := by
  obtain hslot | ⟨k, hslot, hmesh⟩ := h
  · rw [exec_param_goes hgo, hslot]
  · rw [exec_param_goes hgo, hslot]
    simp only [if_pos hmesh]

theorem exec_param_applied {k : Nat} (hgo : goes q w (isOp 6 0x01) s)
    (hslot : slotCtx s q.chase.val ((opOf w).sub % 16) = some k)
    (h : (opOf w).imm0 % 4 = 2 → meshTooLarge s k (b2n (bitAt (opOf w).imm0 2)) = false) :
    exec (.param q w) s =
      .next (retire q (modSeq (applyBank s k ((opOf w).imm0 % 4) (b2n (bitAt (opOf w).imm0 2))
        ((sequencer s q).pair48 (opOf w).sa) none) q
        (fun y => (y.setPair (opOf w).sd (lineUsed s k ((sequencer s q).pair48 (opOf w).sa))).setP (opOf w).pdst
          (lineUsed s k ((sequencer s q).pair48 (opOf w).sa) == (sequencer s q).pair48 (opOf w).sa)))) := by
  have hfits : ¬((opOf w).imm0 % 4 = 2 ∧ meshTooLarge s k (b2n (bitAt (opOf w).imm0 2)) = true) := fun hmesh =>
    Bool.false_ne_true ((h hmesh.1).symm.trans hmesh.2)
  rw [exec_param_goes hgo, hslot]
  simp only [if_neg hfits]

theorem exec_mbx_goes (hgo : goes q w (isOp 6 0x03) s) :
    exec (.mbx q w) s = .next (retire q (modSeq (postMessage s (s.get .chOwner q.chase.val) (32 + q.chase.val)
      ((opOf w).imm0 % 32) 64 false
      ((List.range 16).map (fun i => BitVec.ofNat 32 ((sequencer s q).s ((opOf w).sa + i)))) none).2 q
      (fun y => (y.setS (opOf w).sd (postMessage s (s.get .chOwner q.chase.val) (32 + q.chase.val) ((opOf w).imm0 % 32) 64
        false ((List.range 16).map (fun i => BitVec.ofNat 32 ((sequencer s q).s ((opOf w).sa + i)))) none).1).setP
          (opOf w).pdst ((postMessage s (s.get .chOwner q.chase.val) (32 + q.chase.val) ((opOf w).imm0 % 32) 64 false
            ((List.range 16).map (fun i => BitVec.ofNat 32 ((sequencer s q).s ((opOf w).sa + i)))) none).1 == cOk)))) :=
  exec_of_goes (i := .mbx q w) rfl hgo

/-- An instruction that goes as one of a row goes as one of any row that holds its word. -/
theorem goes_of_row {row row' : Op → Bool} (hgo : goes q w row s) (h : row (opOf w) = true → row' (opOf w) = true) :
    goes q w row' s := by
  rw [goes_iff] at hgo ⊢
  obtain ⟨hissue, hend, htrap, hrow, hunits, hpred⟩ := hgo
  exact ⟨hissue, hend, htrap, h hrow, hunits, hpred⟩

theorem quoinRow_goes {sub : Nat} (hgo : goes q w (fun o => isOp 6 0x04 o && o.sub % 4 == sub) s) (op : State → Nat → Nat → Nat × State)
    (held : Nat → Bool) :
    quoinRow q w s sub op held =
      retire q (modSeq (op s ((opOf w).imm0 % 64) (32 + q.chase.val)).2 q
        (fun y => (y.setS (opOf w).sd (op s ((opOf w).imm0 % 64) (32 + q.chase.val)).1).setP (opOf w).pdst
          (held (op s ((opOf w).imm0 % 64) (32 + q.chase.val)).1))) := by
  rw [quoinRow, issue_go (goes_of_row (row' := isQuoin sub) hgo (fun h => ?_))]
  · rfl
  · simp only [isQuoin, Bool.and_eq_true, Bool.or_eq_true] at h ⊢
    exact ⟨h.1, .inl h.2⟩

end

/-! ### Rates (R162, R194) -/

section
variable (s : State) (n res rate : Nat)

theorem setRate_fst : (setRate s n res rate).1 = decide (rate ≤ ceiling s n res) := by
  unfold setRate
  dsimp only
  split
  · next h => rw [decide_eq_false (not_le.mpr h)]
  · next h => rw [decide_eq_true (not_lt.mp h)]

theorem chase_setRate : (setRate s n res rate).2.chase n =
    { s.chase n with rates := (s.chase n).rates.set res (min rate (ceiling s n res)) } := by
  unfold setRate
  dsimp only
  split <;> exact chase_setChase_same ..

theorem regs_setRate : keepsRegs [.seqRefused] s (setRate s n res rate).2 ∧
    (setRate s n res rate).2.get .seqRefused n =
      if ceiling s n res < rate then min (s.get .seqRefused n + 1) 0xFFFFFFFF else s.get .seqRefused n := by
  unfold setRate
  dsimp only
  split
  · exact ⟨keepsRegs_put (keepsRegs_of_regs rfl) (by decide) _ _, get_bump_count _ rfl n⟩
  · exact ⟨keepsRegs_of_regs rfl, rfl⟩

end

/-- The rates of a chase do not depend on its sequencers. -/
theorem rates_modSeq (s : State) (q : SeqId) (f : Seq → Seq) (n : Nat) : ((modSeq s q f).chase n).rates = (s.chase n).rates :=
  (congrArg Chase.rates (chase_modSeq s q f n) :)

theorem sequencer_retire_modSeq (s : State) (q : SeqId) (f : Seq → Seq) :
    sequencer (retire q (modSeq s q f)) q = (f (sequencer s q)).advance := by
  rw [retire, sequencer_modSeq_same, sequencer_modSeq_same]

theorem exec_bwset_goes {q : SeqId} {w : ZWord} {s : State} (hgo : goes q w (isOp 6 0x02) s) :
    exec (.bwset q w) s = .next (retire q (modSeq (setRate s q.chase.val ((opOf w).imm0 % 4) (opOf w).imm1).2 q
      (fun y => y.setP (opOf w).pdst (setRate s q.chase.val ((opOf w).imm0 % 4) (opOf w).imm1).1))) :=
  exec_of_goes (i := .bwset q w) rfl hgo

/-- Settles O30: each instruction of class K goes on with what the operation it performs answers. -/
theorem classKCompletes : Obligations.ClassKCompletes := by
  refine fun q w s => ⟨exec_param_refused, fun k hgo hslot h => exec_param_applied hgo hslot h, fun hgo =>
    ⟨_, exec_bwset_goes hgo, ?_, ?_, ?_, ?_⟩, exec_mbx_goes, fun hgo => ?_, fun hgo => ?_, fun hgo => ?_⟩
  · have hseq : sequencer (setRate s q.chase.val ((opOf w).imm0 % 4) (opOf w).imm1).2 q = sequencer s q := by
      rw [sequencer, chase_setRate]
      cases hcore : q.core <;> simp only [sequencer, hcore, Chase.seq]
    rw [sequencer_retire_modSeq, setRate_fst, hseq]
  · rw [retire, rates_modSeq, rates_modSeq, chase_setRate]
    exact tab_get_set_same ..
  · exact (regs_setRate ..).2
  · exact (regs_setRate ..).1
  · exact congrArg _ (quoinRow_goes hgo _ _)
  · exact congrArg _ (quoinRow_goes hgo _ _)
  · exact congrArg _ (quoinRow_goes hgo _ _)

end Sys2Proof.Proofs

/-! Verdicts (R158 to R160, R357): what a push of a fire command and the record of a verdict leave unchanged, the handles
of open items, and the deadline monitor (R195, R197, R199). -/

namespace Sys2Proof.Proofs

open Sys2Proof.Machine Sys2Proof.Safety Sys2Proof.Laws

/-! ### What a push leaves unchanged (R313 to R315) -/

/-- The registers a push may write: its queue's counters and spoil marker, and those of the ring that marker's record goes
to. -/
def pushRegs : List Fld :=
  [.fqLateRefused, .fqDropped, .fqSpoilOpen, .fqSpoilDropped, .fqSpoilCtx, .fqSpoilSeq, .ringProd, .ringSpoils]

/-- Of the registers, only those of a push differ between two states; besides them, only queues, host memory, rings and
what was sent. -/
def pushChange (s t : State) : Prop :=
  keepsRegs pushRegs s t ∧
    { t with regs := s.regs, fqs := s.fqs, host := s.host, rings := s.rings, tx := s.tx } = s

theorem pushChange_trans {s t u : State} (h : pushChange s t) (h' : pushChange t u) : pushChange s u := by
  obtain ⟨hregs, hrest⟩ := h
  obtain ⟨hregs', hrest'⟩ := h'
  refine ⟨keepsRegs_trans hregs hregs', ?_⟩
  rw [← hrest, ← hrest']

theorem pushChange_refl (s : State) : pushChange s s := ⟨keepsRegs_refl s, rfl⟩

theorem pushChange_put (s : State) {f : Fld} (hf : f ∈ pushRegs) (i v : Nat) : pushChange s (s.put f i v) :=
  ⟨keepsRegs_put (keepsRegs_refl s) hf i v, rfl⟩

theorem pushChange_bump (s : State) {f : Fld} (hf : f ∈ pushRegs) (i : Nat) : pushChange s (s.bump f i) :=
  pushChange_put s hf i _

theorem pushChange_of_ringsChange {s t : State} (h : ringsChange s t) : pushChange s t := by
  obtain ⟨hregs, hrest⟩ := h
  refine ⟨fun f i hf => hregs f i (fun hmem => hf ?_), ?_⟩
  · simp only [List.mem_cons, List.not_mem_nil, or_false] at hmem
    obtain rfl | rfl := hmem <;> decide
  · conv_rhs => rw [← hrest]
    rw [← fqs_of_ringsChange ⟨hregs, hrest⟩]

theorem pushChange_fireDrop (s : State) (e : Nat) (c : FireCmd) : pushChange s (fireDrop s e c) := by
  have hput := fun (t : State) f hf v => pushChange_put t (f := f) hf e v
  have hcount := pushChange_bump s (f := .fqDropped) (by decide) e
  unfold fireDrop
  dsimp only
  split
  · exact pushChange_trans hcount (hput _ _ (by decide) _)
  · exact pushChange_trans (pushChange_trans (pushChange_trans (pushChange_trans hcount (hput _ _ (by decide) _))
      (hput _ _ (by decide) _)) (hput _ _ (by decide) _)) (hput _ _ (by decide) _)

theorem pushChange_fireCloseSpoil (s : State) (e : Nat) : pushChange s (fireCloseSpoil s e) := by
  unfold fireCloseSpoil
  split
  · exact pushChange_trans (pushChange_put s (by decide) e 0) (pushChange_of_ringsChange (ringsChange_stageEvent ..))
  · exact pushChange_refl s

theorem pushChange_pushFire (s : State) (c : FireCmd) : pushChange s (pushFire s c).2 := by
  by_cases hlate : countAhead (sext 48 c.position) (s.s48 .encPos (s.get .ctxEncoder c.context)) ≤ 0
  · rw [pushFire_passed hlate]
    exact pushChange_bump s (by decide) _
  · by_cases hfull : 32 ≤ (s.fq (s.get .ctxEncoder c.context)).length
    · rw [pushFire_full hlate hfull]
      exact pushChange_fireDrop ..
    · rw [pushFire_room hlate (not_le.mp hfull)]
      have hset : pushChange s (s.setFq (s.get .ctxEncoder c.context) (s.fq (s.get .ctxEncoder c.context) ++ [c])) :=
        ⟨keepsRegs_of_regs rfl, rfl⟩
      exact pushChange_trans hset (pushChange_fireCloseSpoil _ _)

theorem fq_of_fqs {s t : State} (h : t.fqs = s.fqs) (e : Nat) : t.fq e = s.fq e := congrArg (Tab.get · [] e) h

theorem fq_setFq_other (s : State) {e f : Nat} (h : f ≠ e) (l : List FireCmd) : (s.setFq e l).fq f = s.fq f :=
  tab_get_set_other _ _ _ h

/-- A push puts its command behind its encoder's queue or leaves every queue as it is. -/
theorem fq_pushFire (s : State) (c : FireCmd) :
    (pushFire s c).2.fqs = s.fqs ∨
      (pushFire s c).2.fqs = (s.setFq (s.get .ctxEncoder c.context) (s.fq (s.get .ctxEncoder c.context) ++ [c])).fqs := by
  by_cases hlate : countAhead (sext 48 c.position) (s.s48 .encPos (s.get .ctxEncoder c.context)) ≤ 0
  · rw [pushFire_passed hlate]
    exact .inl rfl
  · by_cases hfull : 32 ≤ (s.fq (s.get .ctxEncoder c.context)).length
    · rw [pushFire_full hlate hfull]
      exact .inl fqs_fireDrop
    · rw [pushFire_room hlate (not_le.mp hfull)]
      exact .inr fqs_fireCloseSpoil

/-! ### What a verdict leaves (R159, R160, R357) -/

/-- The state in which the record of a verdict is staged: it is numbered and counted, and its fire command pushed. -/
def verdictPushed (s : State) (n : Nat) (it : Item) (path : Nat) (d : Decision) : State :=
  if d.width = 0 then verdictNumbered s n it path
  else (pushFire (verdictNumbered s n it path) (fireCmd it.firePos (filterChannels s it.ctx d.channels) d.width it.ctx path
    (s.context it.ctx).verdictSeq)).2

section
variable (s : State) (n : Nat) (it : Item) (path : Nat) (d : Decision)

theorem issueVerdict_staged (unbound : Bool) :
    ringsChange (verdictPushed s n it path d) (issueVerdict s n it path d unbound).2 := by
  unfold verdictPushed issueVerdict
  by_cases h : d.width = 0
  · have hfires : (d.width != 0) = false := by simp [h]
    simp only [hfires, Bool.false_eq_true, if_false, if_pos h]
    exact ringsChange_stageRecord ..
  · have hfires : (d.width != 0) = true := by simp [h]
    simp only [hfires, if_true, if_neg h]
    exact ringsChange_stageRecord ..

theorem pushChange_verdictPushed : pushChange (verdictNumbered s n it path) (verdictPushed s n it path d) := by
  unfold verdictPushed
  split
  · exact pushChange_refl _
  · exact pushChange_pushFire ..

theorem pushChange_issueVerdict (unbound : Bool) :
    pushChange (verdictNumbered s n it path) (issueVerdict s n it path d unbound).2 :=
  pushChange_trans (pushChange_verdictPushed s n it path d)
    (pushChange_of_ringsChange (issueVerdict_staged s n it path d unbound))

theorem chases_issueVerdict (unbound : Bool) : (issueVerdict s n it path d unbound).2.chases = s.chases :=
  (congrArg State.chases (pushChange_issueVerdict s n it path d unbound).2 :)

/-- A verdict takes the next number of its context. -/
theorem verdictSeq_issueVerdict (unbound : Bool) :
    ((issueVerdict s n it path d unbound).2.context it.ctx).verdictSeq = ((s.context it.ctx).verdictSeq + 1) % 2 ^ 32 := by
  have hctxs : (issueVerdict s n it path d unbound).2.ctxs = (verdictNumbered s n it path).ctxs :=
    (congrArg State.ctxs (pushChange_issueVerdict s n it path d unbound).2 :)
  have hctx : (verdictNumbered s n it path).context it.ctx =
      { s.context it.ctx with verdictSeq := ((s.context it.ctx).verdictSeq + 1) % 2 ^ 32 } := by
    rw [verdictNumbered, context_bump, context_setCtx]
  rw [State.context, hctxs, ← State.context, hctx]

theorem pathCounter_width : (pathCounter path).info.width = 32 := by
  unfold pathCounter
  split <;> rfl

/-- A verdict is counted once on its path. -/
theorem pathCounter_issueVerdict (unbound : Bool) :
    (issueVerdict s n it path d unbound).2.get (pathCounter path) n = min (s.get (pathCounter path) n + 1) 0xFFFFFFFF := by
  have hnot : pathCounter path ∉ pushRegs := by
    unfold pathCounter
    split <;> decide
  rw [(pushChange_issueVerdict s n it path d unbound).1 _ _ hnot, verdictNumbered,
    get_bump_count _ (pathCounter_width path)]
  rfl

/-- The queues after a verdict: as they were, or with its fire command behind those of its context's encoder. -/
theorem fqs_issueVerdict (unbound : Bool) :
    (issueVerdict s n it path d unbound).2.fqs = s.fqs ∨
      d.width ≠ 0 ∧ (issueVerdict s n it path d unbound).2.fqs = (s.setFq (s.get .ctxEncoder it.ctx)
        (s.fq (s.get .ctxEncoder it.ctx) ++ [fireCmd it.firePos (filterChannels s it.ctx d.channels) d.width it.ctx path
          (s.context it.ctx).verdictSeq])).fqs := by
  have henc : (verdictNumbered s n it path).get .ctxEncoder it.ctx = s.get .ctxEncoder it.ctx :=
    keepsRegs_verdictNumbered s n it path _ _ (by decide)
  rw [fqs_of_ringsChange (issueVerdict_staged s n it path d unbound), verdictPushed]
  split
  · exact .inl rfl
  · next hwidth =>
    refine (fq_pushFire (verdictNumbered s n it path) (fireCmd it.firePos (filterChannels s it.ctx d.channels) d.width
      it.ctx path (s.context it.ctx).verdictSeq)).imp id (fun h => ⟨hwidth, h.trans ?_⟩)
    rw [show (fireCmd it.firePos (filterChannels s it.ctx d.channels) d.width it.ctx path
      (s.context it.ctx).verdictSeq).context = it.ctx from rfl, henc]
    rfl

end

/-! ### The handles of open items (R158, R159) -/

theorem item_setItem (s : State) (n : Nat) (items : Tab (Option Item)) (monDecided : Tab Bool) (h : Nat) :
    ((s.setChase n { s.chase n with items, monDecided }).chase n).item h = items.get none h := by
  rw [chase_setChase_same, Chase.item]

theorem item_of_chases {s t : State} (h : t.chases = s.chases) (n i : Nat) : (t.chase n).item i = (s.chase n).item i := by
  rw [chase_of_chases h]

theorem item_freeHandle (s : State) (n h : Nat) (mon : Bool) (i : Nat) :
    ((freeHandle s n h mon).chase n).item i = if i = h then none else (s.chase n).item i := by
  rw [freeHandle, item_setItem]
  split
  · next e => rw [e, tab_get_set_same]
  · next e => rw [tab_get_set_other _ _ _ e, Chase.item]

theorem freeHandleNo_some {c : Chase} {h : Nat} (hfree : freeHandleNo c = some h) :
    h < 256 ∧ c.item h = none ∧ ∀ g, g < h → c.item g ≠ none := by
  obtain ⟨hitem, hmem, hlow⟩ := List.find?_range_eq_some.mp hfree
  exact ⟨List.mem_range.mp hmem, Option.isNone_iff_eq_none.mp hitem, fun g hg e => by simpa [e] using hlow g hg⟩

theorem freeHandleNo_none {c : Chase} : freeHandleNo c = none ↔ ∀ h, h < 256 → c.item h ≠ none := by
  simp only [freeHandleNo, List.find?_eq_none, List.mem_range, Option.isNone_iff_eq_none, ne_eq]

theorem openItem_fst (s : State) (n k slot line fire : Nat) :
    (openItem s n k slot line fire).1 = freeHandleNo (s.chase n) := by
  unfold openItem
  dsimp only
  split <;> next h => rw [h]

theorem openItem_full {s : State} {n : Nat} (k slot line fire : Nat) (h : freeHandleNo (s.chase n) = none) :
    (openItem s n k slot line fire).2 = (issueVerdict s n
      ⟨k, slot, line, fire, false, false, false, true, false, openEpoch s n, 0⟩ 2 (noRead s k) false).2 := by
  simp only [openItem, h]

/-- A DECIDE on a handle that is not open, and that the monitor did not decide, is counted as refused (R159). -/
theorem decideItem_closed {s : State} {n h : Nat} (early : Bool) (d : Decision) (hitem : (s.chase n).item h = none)
    (hmon : (s.chase n).monDecided.get false h = false) :
    decideItem s n h early d = (false, s.bump .seqRefused n) := by
  simp only [decideItem, hitem, hmon, ite_self, Bool.and_false, Bool.false_eq_true, if_false]

/-- Settles O26: handles are searched from 0; a verdict is numbered and counted before its command is pushed, and neither
the push nor its record touches a chase. -/
theorem verdictsAreNumberedAndFinal : Obligations.VerdictsAreNumberedAndFinal := by
  refine ⟨fun s n k slot line fire => ⟨fun h hopen => ?_, ?_, fun hfull => ?_⟩, fun s n it path d unbound _ => ?_,
    fun s n h early d d' it hh hitem hhead => ?_⟩
  · exact freeHandleNo_some (openItem_fst s n k slot line fire ▸ hopen)
  · rw [openItem_fst, freeHandleNo_none]
  · rw [openItem_full k slot line fire (openItem_fst s n k slot line fire ▸ hfull)]
    exact pathCounter_issueVerdict s n _ 2 _ false
  · refine ⟨verdictSeq_issueVerdict .., pathCounter_issueVerdict .., fun hwidth e => ?_, fun e he => ?_, ?_,
      chases_issueVerdict ..⟩
    · obtain h | ⟨hfires, -⟩ := fqs_issueVerdict s n it path d unbound
      · exact fq_of_fqs h e
      · exact absurd hwidth hfires
    · obtain h | ⟨-, h⟩ := fqs_issueVerdict s n it path d unbound
      · exact fq_of_fqs h e
      · rw [fq_of_fqs h, fq_setFq_other _ he]
    · obtain h | ⟨-, h⟩ := fqs_issueVerdict s n it path d unbound
      · exact .inl (fq_of_fqs h _)
      · exact .inr ((fq_of_fqs h _).trans (fq_setFq ..))
  · have ht : (decideItem s n h early d).2 =
        (issueVerdict (freeHandle s n h false) n it (decidePath early d) d false).2 := by
      rw [decideItem_open d hh hitem hhead]
    have hchases := chases_issueVerdict (freeHandle s n h false) n it (decidePath early d) d false
    have hclosed : ((freeHandle s n h false).chase n).item h = none := by rw [item_freeHandle, if_pos rfl]
    have hmon : ((freeHandle s n h false).chase n).monDecided.get false h = false := by
      rw [freeHandle, chase_setChase_same]
      exact tab_get_set_same ..
    rw [ht]
    refine ⟨(item_of_chases hchases n h).trans hclosed, verdictSeq_issueVerdict .., decideItem_closed early d' ?_ ?_⟩
    · exact (item_of_chases hchases n h).trans hclosed
    · rw [chase_of_chases hchases, hmon]

/-! ### The deadline monitor (R195, R197, R199) -/

theorem item_handOver (s : State) (n h : Nat) (it : Item) (i : Nat) :
    ((handOver s n h it).chase n).item i =
      if i = h then some { it with handed := true, handedAt := s.clk } else (s.chase n).item i := by
  rw [handOver, chase_setChase_same, Chase.item]
  split
  · next e => rw [e, tab_get_set_same]
  · next e => rw [tab_get_set_other _ _ _ e, Chase.item]

theorem item_monitorDecide (s : State) (n h : Nat) (it : Item) (path : Nat) (d : Decision) (unbound : Bool) (i : Nat) :
    ((monitorDecide s n h it path d unbound).chase n).item i = if i = h then none else (s.chase n).item i := by
  rw [monitorDecide, item_of_chases (chases_issueVerdict ..), item_freeHandle]

/-- Settles O27: each command of the monitor acts on an open item where its condition of R195 holds, and only there. -/
theorem deadlinesAreMonitored : Obligations.DeadlinesAreMonitored := by
  intro s n h it k i found hitem
  have hitem' : (s.chase n.val).item h.toNat = some it := hitem
  refine ⟨fun hopen hpast => ⟨handOver s k i it, ?_, ?_, rfl, fun j hj => ?_⟩, fun hnot => ?_, fun d hhanded hlater hfound => ?_,
    fun hhanded hlater hfound hlimit => ?_, fun path d u => ⟨?_, verdictSeq_issueVerdict .., fun j hj => ?_⟩⟩
  · change execDeadlineReached n h s = _
    simp only [execDeadlineReached, hitem', hopen, hpast, Bool.not_false, Bool.and_self, if_true, k, i]
  · rw [item_handOver, if_pos rfl]
  · rw [item_handOver, if_neg hj]
  · have hcond : (!it.handed && pastDeadline s it) = false := by
      obtain h | h := hnot <;> simp [h]
    change execDeadlineReached n h s = _
    simp only [execDeadlineReached, hitem', hcond, Bool.false_eq_true, if_false]
  · have hfound' : exitRecord s n.val h.toNat it = some d := hfound
    change execExitRecordValid n h s = _
    simp only [execExitRecordValid, hitem', hfound', hhanded, hlater, decide_true, Bool.and_self, if_true, k, i]
  · have hfound' : exitRecord s n.val h.toNat it = none := hfound
    change execExitLimitReached n h s = _
    simp only [execExitLimitReached, hitem', hfound', hhanded, hlater, hlimit, decide_true, Option.isNone_none,
      Bool.and_self, if_true, k, i]
  · rw [item_monitorDecide, if_pos rfl]
  · rw [item_monitorDecide, if_neg hj]

end Sys2Proof.Proofs

/-! Completions of units (R117, R121, R130) and grants of buckets (R191, R194). -/

namespace Sys2Proof.Proofs

open Sys2Proof.Machine Sys2Proof.Safety Sys2Proof.Laws

theorem keepsBytes_of_memories {l : List Span} {s t : State} (hsram : t.sram = s.sram) (hgalley : t.galley = s.galley)
    (hlpddr : t.lpddr = s.lpddr) : keepsBytes l s t := by
  intro m a hm _
  have hmem : t.memOf m = s.memOf m := by
    unfold State.memOf
    rw [hsram, hgalley, hlpddr]
  rw [hmem]

/-- Only sequencers of chases differ between two states. -/
def seqsChange (s t : State) : Prop :=
  (∀ n, { t.chase n with line := (s.chase n).line, streams := (s.chase n).streams } = s.chase n) ∧
    { t with chases := s.chases } = s

theorem seqsChange_of_seqChanges {q : SeqId} {f : Seq → Seq} {s t : State} (h : seqChanges q f s t) : seqsChange s t :=
  ⟨h.2.2.1, h.2.2.2⟩

theorem seqsChange_refl (s : State) : seqsChange s s := ⟨fun _ => rfl, rfl⟩

theorem seqsChange_trans {s t u : State} (h : seqsChange s t) (h' : seqsChange t u) : seqsChange s u := by
  obtain ⟨hchase, hrest⟩ := h
  obtain ⟨hchase', hrest'⟩ := h'
  refine ⟨fun n => ?_, ?_⟩
  · rw [← hchase n, ← hchase' n]
  · rw [← hrest, ← hrest']

theorem seqsChange_wakeUnits (q : SeqId) (s : State) : seqsChange s (wakeUnits q s) := by
  unfold wakeUnits
  split
  · split
    · exact seqsChange_of_seqChanges (seqChanges_modSeq s q _)
    · exact seqsChange_refl s
  · exact seqsChange_refl s

/-- Waking the sequencers of a chase that waited on units changes only sequencers (R137). -/
theorem seqsChange_wakeAll (qs : List SeqId) (s : State) : seqsChange s (qs.foldl (fun s i => wakeUnits i s) s) := by
  induction qs generalizing s with
  | nil => exact seqsChange_refl s
  | cons q qs ih => exact seqsChange_trans (seqsChange_wakeUnits q s) (ih _)

/-- The state in which a unit is free again, before sequencers that wait on it go on. -/
def unitFreed (s : State) (q : SeqId) (u : UnitId) : State :=
  let n := q.chase.val
  let place := unitPlace s q u
  let c := s.chase n
  let mine := fun (b : Busy) => b.place == place && b.unit == u
  let s1 := s.setChase n { c with busy := c.busy.filter (fun b => !mine b) }
  match u with
  | .copy e =>
    if c.busy.any (fun b => mine b && !b.furniture) then
      (s1.put .ceBusy (2 * place + e.val) 0).put .ceCode (2 * place + e.val) 0
    else s1
  | _ => s1

section
variable {q : SeqId} {u : UnitId} {s : State}

theorem exec_unitCompletion (hbusy : unitBusy s q.chase.val (unitPlace s q u, u) = true) :
    exec (.unitCompletion q u) s = .next ((seqsOf q.chase).foldl (fun s i => wakeUnits i s) (unitFreed s q u)) :=
  if_pos hbusy

theorem busy_unitFreed : ((unitFreed s q u).chase q.chase.val).busy =
    (s.chase q.chase.val).busy.filter (fun b => !(b.place == unitPlace s q u && b.unit == u)) := by
  unfold unitFreed
  dsimp only
  split
  · split
    · rw [chase_put, chase_put, chase_setChase_same]
    · rw [chase_setChase_same]
  · rw [chase_setChase_same]

theorem unitFreed_rest : keepsRegs [.ceBusy, .ceCode] s (unitFreed s q u) ∧ (unitFreed s q u).sram = s.sram ∧
    (unitFreed s q u).galley = s.galley ∧ (unitFreed s q u).lpddr = s.lpddr ∧ (unitFreed s q u).host = s.host := by
  unfold unitFreed
  dsimp only
  split
  · split
    · exact ⟨keepsRegs_put (keepsRegs_put (keepsRegs_of_regs rfl) (by decide) _ _) (by decide) _ _, rfl, rfl, rfl, rfl⟩
    · exact ⟨keepsRegs_of_regs rfl, rfl, rfl, rfl, rfl⟩
  · exact ⟨keepsRegs_of_regs rfl, rfl, rfl, rfl, rfl⟩

/-- A copy that was no furniture ends with code OK in CE_STATUS. -/
theorem ceStatus_unitFreed {e : Fin 2}
    (hcopy : ∃ b ∈ (s.chase q.chase.val).busy, b.place = unitPlace s q (.copy e) ∧ b.unit = .copy e ∧ b.furniture = false) :
    (unitFreed s q (.copy e)).get .ceBusy (2 * unitPlace s q (.copy e) + e.val) = 0 ∧
      (unitFreed s q (.copy e)).get .ceCode (2 * unitPlace s q (.copy e) + e.val) = 0 := by
  obtain ⟨b, hmem, hplace, hunit, hfurn⟩ := hcopy
  have hany : (s.chase q.chase.val).busy.any (fun b =>
      (b.place == unitPlace s q (.copy e) && b.unit == .copy e) && !b.furniture) = true :=
    List.any_eq_true.mpr ⟨b, hmem, by simp [hplace, hunit, hfurn]⟩
  simp only [unitFreed, hany, if_true]
  exact ⟨by rw [get_put_ne _ (by decide), get_put_same]; rfl, by rw [get_put_same]; rfl⟩

end

/-! ### Grants (R194) -/

theorem grant_covered {s : State} {n res : Nat} (h : grantReady s n res = true) :
    (s.chase n).bwWait.get 0 res * 65536 ≤ (s.chase n).buckets.get bucketDepth res := by
  simp only [grantReady, servable, Bool.and_eq_true, decide_eq_true_eq] at h
  exact h.1.2

/-- Settles O19: a completion takes its unit off the chase's list before it wakes waiting sequencers; a grant that is ready
takes its bytes from its bucket. -/
theorem unitsAndGrantsAreReleased : Obligations.UnitsAndGrantsAreReleased := by
  refine ⟨fun q u s hbusy => ⟨_, exec_unitCompletion hbusy, ?_⟩, fun s n res => ⟨fun hrunning => ?_, rfl, fun hready => ?_⟩⟩
  · obtain ⟨hchase, hrest⟩ := seqsChange_wakeAll (seqsOf q.chase) (unitFreed s q u)
    generalize (seqsOf q.chase).foldl (fun s i => wakeUnits i s) (unitFreed s q u) = t at hchase hrest
    obtain ⟨hregs, hsram, hgalley, hlpddr, hhost⟩ := unitFreed_rest (s := s) (q := q) (u := u)
    have hsame : ∀ f i, t.get f i = (unitFreed s q u).get f i := fun f i => by
      rw [State.get, (congrArg State.regs hrest :)]
      rfl
    refine ⟨(congrArg Chase.busy (hchase _) :).trans busy_unitFreed, fun e he hcopy => ?_,
      fun f i hf => (hsame f i).trans (hregs f i hf), keepsBytes_of_memories
        ((congrArg State.sram hrest :).trans hsram) ((congrArg State.galley hrest :).trans hgalley)
        ((congrArg State.lpddr hrest :).trans hlpddr), (congrArg State.host hrest :).trans hhost⟩
    subst he
    rw [hsame, hsame]
    exact ceStatus_unitFreed hcopy
  · have hcond : (true && s.get .chState n.val == chRunning) = true := by simp [hrunning]
    exact if_pos hcond
  · intro want
    refine ⟨_, if_pos hready, ?_, ?_, ?_, fun m hm => chase_setChase_other s hm _, rfl⟩
    · rw [chase_setChase_same]
      exact tab_get_set_same ..
    · rw [chase_setChase_same]
      exact tab_get_set_same ..
    · rw [chase_setChase_same]
      exact (congrArg (· + want * 65536) (tab_get_set_same ..)).trans (Nat.sub_add_cancel (grant_covered hready))

end Sys2Proof.Proofs

/-! Fabric faults (R78, R79, R108, R113, R115), the ladder (R12, R413 to R416) and the end of a failover (R201). -/

namespace Sys2Proof.Proofs

open Sys2Proof.Machine Sys2Proof.Safety Sys2Proof.Laws

/-! ### Memory, residue and signature faults -/

section
variable {s : State} {c word : Nat} {istore uncorrectable byScrub : Bool}

/-- A latched address stands until it is cleared (R115). -/
theorem latchError_latched (h : s.flag .errValid c = true) : latchError s c word istore uncorrectable byScrub = s :=
  if_pos h

theorem keepsRegs_latchError : keepsRegs [.errWord, .errUncorr, .errByScrub, .errIstore, .errValid] s
    (latchError s c word istore uncorrectable byScrub) := by
  have hput := fun {t : State} h {f : Fld} hf v =>
    keepsRegs_put (l := [.errWord, .errUncorr, .errByScrub, .errIstore, .errValid]) (s := s) (t := t) h (f := f) hf c v
  unfold latchError
  split
  · exact keepsRegs_refl s
  · exact hput (hput (hput (hput (hput (keepsRegs_refl s) (by decide) _) (by decide) _) (by decide) _) (by decide) _)
      (by decide) _

theorem b2n_mod_two (b : Bool) : b2n b % 2 ^ 1 = b2n b := by cases b <;> rfl

theorem latchError_first (h : s.flag .errValid c = false) :
    let t := latchError s c word istore uncorrectable byScrub
    t.get .errWord c = word % 2 ^ 19 ∧ t.get .errUncorr c = b2n uncorrectable ∧ t.get .errByScrub c = b2n byScrub ∧
      t.get .errIstore c = b2n istore ∧ t.get .errValid c = 1 := by
  simp only [latchError, h, Bool.false_eq_true, if_false, get_put, reduceCtorEq, false_and, true_and, if_true]
  exact ⟨rfl, b2n_mod_two _, b2n_mod_two _, b2n_mod_two _, rfl⟩

end

/-- Settles O31: a word of a core in service is latched, counted and, where it cannot be corrected, taken up by the ladder;
an engine's fault sets its bit and is taken up. -/
theorem fabricFaultsAreRecorded : Obligations.FabricFaultsAreRecorded := by
  intro s c word istore e
  have hflag : (s.bump .sramCe c.val).flag .errValid c.val = s.flag .errValid c.val := by
    rw [State.flag, State.flag, get_bump_ne _ (by decide)]
  refine ⟨?_, ?_, fun hruns => ⟨⟨latchError (s.bump .sramCe c.val) c.val word.toNat istore false true, ?_, ?_,
      fun hfirst => ?_, fun hlatched => latchError_latched (hflag.trans hlatched), ?_⟩, ?_, ?_⟩,
    fun hruns => ⟨?_, ?_⟩⟩
  · change execScrubRead c word istore _ s = _
    simp only [execScrubRead, reduceCtorEq, if_false, ite_self]
  · change execSignatureTest c e _ s = _
    simp only [execSignatureTest, Bool.not_true, Bool.and_false, Bool.false_eq_true, if_false]
  · change execScrubRead c word istore _ s = _
    simp only [execScrubRead, hruns, Bool.not_true, Bool.false_eq_true, if_false]
  · rw [keepsRegs_latchError _ _ (by decide), get_bump_count _ rfl]
  · obtain ⟨hword, huncorr, hscrub, histore, hvalid⟩ := latchError_first (word := word.toNat) (istore := istore)
      (uncorrectable := false) (byScrub := true) (hflag.trans hfirst)
    exact ⟨hword.trans (Nat.mod_eq_of_lt word.isLt), huncorr, hscrub, histore, hvalid⟩
  · intro f i hf
    rw [keepsRegs_latchError f i (fun h => hf (List.mem_cons_of_mem _ h)),
      get_bump_ne _ (fun h => hf (by simp [h]))]
  · change execScrubRead c word istore _ s = _
    simp only [execScrubRead, hruns, Bool.not_true, Bool.false_eq_true, if_false]
  · exact if_pos hruns
  · exact if_pos hruns
  · have hcond : (engineRuns s c.val e.val && !false) = true := by rw [hruns]; rfl
    exact if_pos hcond

/-! ### The ladder -/

section
variable {s : State} {u : LadderUnit} {rung : Nat}

theorem climb_covered (hpower : rung ≠ rungPower) (hcovered : rungCovered s u rung = true) (fuel cause : Nat) :
    climb (fuel + 1) s u rung cause = absorbRung s u rung cause := by
  exact (if_neg hpower).trans (if_pos hcovered)

theorem climb_taken (hpower : rung ≠ rungPower) (hcovered : rungCovered s u rung = false)
    (hmay : mayClimb s u rung = true) (fuel cause : Nat) :
    climb (fuel + 1) s u rung cause = performRung (recordRung s u rung cause) u rung := by
  exact (if_neg hpower).trans ((if_neg (by simp [hcovered])).trans (if_pos hmay))

theorem climb_spent (hpower : rung ≠ rungPower) (hcovered : rungCovered s u rung = false)
    (hmay : mayClimb s u rung = false) (hhold : ∀ n, u = .chase n → s.flag .supHoldChase 0 = false) (fuel cause : Nat) :
    climb (fuel + 1) s u rung cause = climb fuel s (nextRung s u rung).1 (nextRung s u rung).2 cause := by
  refine (if_neg hpower).trans ((if_neg (by simp [hcovered])).trans ((if_neg (by simp [hmay])).trans ?_))
  cases u with
  | chase n => exact if_neg (by simp [hhold n rfl])
  | engine c e => rfl
  | core c => rfl
  | context k => rfl
  | whole => rfl

end

section
variable (s : State) (u : LadderUnit) (rung cause : Nat)

/-- The state in which a rung's event is logged: counted in its window, in SUP_LAST and in ESC_COUNT. -/
def rungCounted (s : State) (u : LadderUnit) (rung cause : Nat) : State :=
  let s1 := { s with mgmt := { s.mgmt with rungs := ⟨unitKey u, rung, s.clk⟩ :: s.mgmt.rungs } }
  ((((s1.put .supRung 0 rung).put .supCause 0 cause).put .supUnit 0 (unitNumber u)).put .supValid 0 1).bump .escCount 0

theorem recordRung_eq : recordRung s u rung cause =
    fireVector (logEvent (rungCounted s u rung cause) 0x0005 (srcBlock 0xC) 2 [rung, cause, unitNumber u, 0]) 0 7 := rfl

theorem get_recordRung {f : Fld} (hf : f ∉ [Fld.evlogHead, Fld.evlogWrap]) (i : Nat) :
    (recordRung s u rung cause).get f i = (rungCounted s u rung cause).get f i :=
  keepsRegs_logEvent _ _ _ _ _ f i hf

/-- A rung writes SUP_LAST, ESC_COUNT and the event log's registers, and no other. -/
theorem get_recordRung_other {f : Fld}
    (hf : f ∉ [Fld.supRung, .supCause, .supUnit, .supValid, .escCount, .evlogHead, .evlogWrap]) (i : Nat) :
    (recordRung s u rung cause).get f i = s.get f i := by
  simp only [List.mem_cons, List.not_mem_nil, or_false, not_or] at hf
  obtain ⟨hrung, hcause, hunit, hvalid, hcount, hhead, hwrap⟩ := hf
  rw [get_recordRung _ _ _ _ (by simp [hhead, hwrap]), rungCounted, get_bump_ne _ hcount, get_put_ne _ hvalid,
    get_put_ne _ hunit, get_put_ne _ hcause, get_put_ne _ hrung]
  rfl

variable {rung cause}

theorem supLast_recordRung (hrung : rung < 8) (hcause : cause < 8) (hunit : unitNumber u < 64) :
    let t := recordRung s u rung cause
    t.get .supRung 0 = rung ∧ t.get .supCause 0 = cause ∧ t.get .supUnit 0 = unitNumber u ∧ t.get .supValid 0 = 1 ∧
      t.get .escCount 0 = min (s.get .escCount 0 + 1) 0xFFFFFFFF := by
  intro t
  refine ⟨?_, ?_, ?_, ?_, ?_⟩ <;> rw [get_recordRung _ _ _ _ (by decide), rungCounted]
  · rw [get_bump_ne _ (by decide), get_put_ne _ (by decide), get_put_ne _ (by decide), get_put_ne _ (by decide),
      get_put_same]
    exact Nat.mod_eq_of_lt hrung
  · rw [get_bump_ne _ (by decide), get_put_ne _ (by decide), get_put_ne _ (by decide), get_put_same]
    exact Nat.mod_eq_of_lt (hcause.trans (by decide))
  · rw [get_bump_ne _ (by decide), get_put_ne _ (by decide), get_put_same]
    exact Nat.mod_eq_of_lt hunit
  · rw [get_bump_ne _ (by decide), get_put_same]
    rfl
  · rw [get_bump_count _ rfl]
    repeat rw [get_put_ne _ (by decide)]
    rfl

variable (rung cause)

theorem frame_recordRung : (recordRung s u rung cause).mgmt.rungs = ⟨unitKey u, rung, s.clk⟩ :: s.mgmt.rungs ∧
    (recordRung s u rung cause).clk = s.clk := by
  have hframe := logEvent_frame (rungCounted s u rung cause) 0x0005 (srcBlock 0xC) 2 [rung, cause, unitNumber u, 0]
  rw [recordRung_eq]
  exact ⟨congrArg (fun t : State => t.mgmt.rungs) hframe, (congrArg State.clk hframe :)⟩

/-- A rung counts once in its unit's window, which is open for at least one millisecond. -/
theorem rungsTaken_recordRung : rungsTaken (recordRung s u rung cause) u rung = rungsTaken s u rung + 1 := by
  obtain ⟨hrungs, hclk⟩ := frame_recordRung s u rung cause
  have hwindow : retryWindow (recordRung s u rung cause) = retryWindow s := by
    rw [retryWindow, retryWindow, get_recordRung_other _ _ _ _ (by decide)]
  have hopen : s.clk < s.clk + retryWindow s :=
    Nat.lt_add_of_pos_right (Nat.mul_pos (Nat.lt_of_lt_of_le Nat.one_pos (Nat.le_max_left ..)) (by decide))
  rw [rungsTaken, rungsTaken, hrungs, hclk, hwindow, List.filter_cons_of_pos (by simp [hopen]), List.length_cons]

end

/-- Settles O33: `climb` unfolded once in each of its cases, and the parts of `recordRung`. -/
theorem ladderClimbsByRetries : Obligations.LadderClimbsByRetries := by
  refine ⟨fun s u rung cause hpower hcovered hmay => climb_taken hpower hcovered hmay 5 cause,
    fun s u rung cause fuel hpower hcovered hmay hhold => climb_spent hpower hcovered hmay hhold fuel cause,
    fun s u rung cause hpower hcovered => ?_, fun s u rung cause hrung hcause hunit => ?_⟩
  · have ht : escalate s u rung cause = logEvent s 0x0005 (srcBlock 0xC) 2 [rung, cause, unitNumber u, 2] :=
      climb_covered hpower hcovered 5 cause
    have hframe := logEvent_frame s 0x0005 (srcBlock 0xC) 2 [rung, cause, unitNumber u, 2]
    simp only [ht]
    refine ⟨by rw [logEvent_log]; rfl, keepsRegs_logEvent _ _ _ _ _, (congrArg State.mgmt hframe :),
      (congrArg State.chases hframe :), (congrArg State.ctxs hframe :)⟩
  · obtain ⟨h1, h2, h3, h4, h5⟩ := supLast_recordRung s u hrung hcause hunit
    have hlog : (recordRung s u rung cause).log = (logEvent (rungCounted s u rung cause) 0x0005 (srcBlock 0xC) 2
      [rung, cause, unitNumber u, 0]).log := rfl
    refine ⟨h1, h2, h3, h4, h5, ?_, ?_, rungsTaken_recordRung ..⟩
    · rw [hlog, logEvent_log]
      rfl
    · rw [recordRung_eq]
      exact List.mem_cons_self

end Sys2Proof.Proofs

/-! Fences and windows that enter the ladder (R109, R201, R413), and the end of a failover (R201). -/

namespace Sys2Proof.Proofs

open Sys2Proof.Machine Sys2Proof.Safety Sys2Proof.Laws

/-- What a fold's every step keeps, the fold keeps. -/
theorem foldl_keeps {α β : Type} {φ : State → β} {g : State → α → State} (hg : ∀ s a, φ (g s a) = φ s) (l : List α)
    (s : State) : φ (l.foldl g s) = φ s := by
  induction l generalizing s with
  | nil => rfl
  | cons a l ih => exact (ih (g s a)).trans (hg s a)

/-! ### Restarting the streams of a chase (R141, R201) -/

section
variable (s : State) (n : Nat)

theorem keepsRegs_endCopies (engines : List Nat) (code : Nat) : keepsRegs [.ceBusy, .ceCode] s (endCopies s engines code) :=
  keepsRegs_foldl (fun s _ => keepsRegs_put (keepsRegs_put (keepsRegs_refl s) (by decide) _ _) (by decide) _ _) engines s

theorem chases_endCopies (engines : List Nat) (code : Nat) : (endCopies s engines code).chases = s.chases := by
  refine foldl_keeps (φ := State.chases) (fun s e => ?_) engines s
  rfl

theorem regs_setSequencers : (setSequencers s n).regs = s.regs := by
  unfold setSequencers
  dsimp only
  split <;> rfl

/-- Setting the sequencers of a chase leaves the rest of it. -/
theorem chase_setSequencers : { (setSequencers s n).chase n with line := (s.chase n).line, streams := (s.chase n).streams } =
    s.chase n := by
  unfold setSequencers
  dsimp only
  split
  · rw [chase_setChase_same]
  · rfl

theorem keepsRegs_restartStreams : keepsRegs [.ceBusy, .ceCode] s (restartStreams s n) := by
  have hcopies := keepsRegs_endCopies s (copiesOf s n (fun _ => true)) 0
  exact keepsRegs_trans hcopies (keepsRegs_of_regs (regs_setSequencers _ n))

theorem failPlace_restartStreams : ((restartStreams s n).chase n).failPlace = (s.chase n).failPlace := by
  rw [restartStreams, chase_setChase_same]
  have hseqs := congrArg Chase.failPlace (chase_setSequencers (endCopies s (copiesOf s n (fun _ => true)) 0) n)
  exact hseqs.trans (congrArg Chase.failPlace (chase_of_chases (chases_endCopies ..) n))

theorem regs_rewind (back : Nat) : (rewind s n back).regs = s.regs ∧ (rewind s n back).chases = s.chases := by
  unfold rewind
  split <;> exact ⟨rfl, rfl⟩

/-- Clearing the rings of a placement zeroes core SRAM and forgets the lines the rings have taken. -/
theorem clearRings_rest : (clearRings s n).regs = s.regs ∧
    ((clearRings s n).chase n).failPlace = (s.chase n).failPlace := by
  unfold clearRings
  split
  · exact ⟨rfl, rfl⟩
  · constructor
    · refine (foldl_keeps (φ := State.regs) (fun s e => ?_) _ _).trans rfl
      refine foldl_keeps (φ := State.regs) (fun s core => ?_) _ s
      rfl
    · refine (congrArg Chase.failPlace (chase_of_chases (s := s.setChase n { s.chase n with seen := [] }) ?_ n)).trans ?_
      · refine foldl_keeps (φ := State.chases) (fun s e => ?_) _ _
        refine foldl_keeps (φ := State.chases) (fun s core => ?_) _ s
        rfl
      · rw [chase_setChase_same]

/-- Before the rings of a new placement are cleared, it stands in CH_STATUS and the alternate is used up. -/
theorem switchPlacement_status {pi : Nat} (hpi : pi < 64) : (switchPlacement s n pi).get .chPlacement n = pi ∧
    (switchPlacement s n pi).get .chAltUsed n = 1 ∧ ((switchPlacement s n pi).chase n).failPlace = none := by
  unfold switchPlacement
  dsimp only
  refine ⟨?_, ?_, ?_⟩
  · rw [get_put_ne _ (by decide), get_put_ne _ (by decide), get_put_same]
    exact Nat.mod_eq_of_lt hpi
  · rw [get_put_ne _ (by decide), get_put_same]
    rfl
  · rw [chase_put, chase_put, chase_put, chase_setChase_same]

theorem takePlacement_status {pi : Nat} (hpi : pi < 64) : (takePlacement s n pi).get .chPlacement n = pi ∧
    (takePlacement s n pi).get .chAltUsed n = 1 ∧ ((takePlacement s n pi).chase n).failPlace = none := by
  have hrest : ∀ t : State, ∀ back, let u := restartStreams (rewind (clearRings t n) n back) n
      u.get .chPlacement n = t.get .chPlacement n ∧ u.get .chAltUsed n = t.get .chAltUsed n ∧
        (u.chase n).failPlace = (t.chase n).failPlace := fun t back => by
    obtain ⟨hregs, hchases⟩ := regs_rewind (clearRings t n) n back
    obtain ⟨hregs', hplace⟩ := clearRings_rest t n
    have hget : ∀ f, f ∉ [Fld.ceBusy, .ceCode] →
        (restartStreams (rewind (clearRings t n) n back) n).get f n = t.get f n := fun f hf => by
      rw [keepsRegs_restartStreams _ n f n hf, State.get, hregs, hregs', State.get]
    exact ⟨hget _ (by decide), hget _ (by decide),
      (failPlace_restartStreams _ n).trans ((congrArg Chase.failPlace (chase_of_chases hchases n)).trans hplace)⟩
  unfold takePlacement
  dsimp only
  split <;> obtain ⟨hplace, hused, hnone⟩ := switchPlacement_status _ n hpi <;>
    exact ⟨(hrest _ _).1.trans hplace, (hrest _ _).2.1.trans hused, (hrest _ _).2.2.trans hnone⟩

end

/-! ### The end of a failover (R201) -/

/-- The chase at the end of its failover: in its new placement, or again in the old one. -/
def failoverPlaced (s : State) (n : Nat) : State :=
  match (s.chase n).failPlace with
  | some pi => takePlacement s n pi
  | none => restartStreams (rewind s n 0) n

/-- It runs again, unless its line sequencer halted meanwhile. -/
def failoverEnded (s : State) (n : Nat) : State :=
  let t := failoverPlaced s n
  if (t.chase n).line.run == .halted then (t.setChase n (t.chase n).orphanAll).put .chState n chHalted
  else t.put .chState n chRunning

section
variable (s : State) (n : Nat)

theorem chState_failoverEnded :
    (failoverEnded s n).get .chState n = chRunning ∨ (failoverEnded s n).get .chState n = chHalted := by
  unfold failoverEnded
  dsimp only
  split
  · exact .inr (get_put_same ..)
  · exact .inl (get_put_same ..)

theorem get_failoverEnded {f : Fld} (hf : f ≠ .chState) (i : Nat) :
    (failoverEnded s n).get f i = (failoverPlaced s n).get f i := by
  unfold failoverEnded
  dsimp only
  split
  · exact get_put_ne _ hf ..
  · exact get_put_ne _ hf ..

theorem failPlace_failoverEnded : ((failoverEnded s n).chase n).failPlace = ((failoverPlaced s n).chase n).failPlace := by
  unfold failoverEnded
  dsimp only
  split
  · rw [chase_put, chase_setChase_same]
    rfl
  · rw [chase_put]

/-- The state that records the failover: its time, and that one was seen since the reset. -/
def failoverRecorded (s : State) (n : Nat) (ns : BitVec 16) : State :=
  ((failoverEnded s n).put .failoverTime n ns.toNat).put .modFailoverSeen 0 1

theorem exec_failoverComplete {n : ChaseNo} (ns : BitVec 16) (hstate : s.get .chState n.val = chFailover) :
    exec (.failoverComplete n ns) s = .next (statusChanged s (logEvent (failoverRecorded s n.val ns) 0x0003 (srcBlock 7) 1
      [n.val, b2n (s.chase n.val).failPlace.isSome, (failoverRecorded s n.val ns).get .bandCycles n.val, ns.toNat])) :=
  if_neg (not_not.mpr hstate)

theorem get_statusChanged (before after : State) (f : Fld) (i : Nat) :
    (statusChanged before after).get f i = after.get f i := by
  unfold statusChanged
  split <;> rfl

theorem chases_statusChanged (before after : State) : (statusChanged before after).chases = after.chases := by
  unfold statusChanged
  split <;> rfl

end

/-! ### The statement -/

/-- The fence of an engine that its spare cures is taken as its rung. -/
theorem engineFault_fenced {s : State} {c e cause : Nat} (hcure : curableEngine s c e = true)
    (hspare : s.get .engSpare c ≠ noEngine) (hmay : mayClimb s (.engine c e) rungFence = true)
    (hcovered : rungCovered s (.engine c e) rungFence = false) :
    engineFault s c e cause = fenceEngine (recordRung s (.engine c e) rungFence cause) c e := by
  have hspare' : (recordRung s (.engine c e) rungFence cause).get .engSpare c ≠ noEngine := by
    rwa [get_recordRung_other _ _ _ _ (by decide)]
  rw [engineFault, if_pos hcure, escalate, climb_taken (by decide) hcovered hmay, performRung,
    if_neg (fun h => hspare' h.1)]

/-- Settles O32: each command enters the ladder with its cause; a failover's end leaves its placement, its time and its
flag. -/
theorem fencesAndWindowsEnterTheLadder : Obligations.FencesAndWindowsEnterTheLadder := by
  refine ⟨fun s c e n k => ⟨fun hruns hcure hspare hmay hcovered => ?_, fun hruns => ?_, fun hruns => if_pos hruns,
    fun hchecked => ?_, fun hchecked => if_pos hchecked, fun hstall => if_pos hstall, fun hpower => if_neg hpower⟩,
    fun s n ns hstate => ⟨_, exec_failoverComplete s ns hstate, ?_⟩⟩
  · exact (if_pos hruns).trans (congrArg _ (engineFault_fenced hcure hspare hmay hcovered))
  · have hnot : ¬(!coreRuns s c.val) = true := by simp [hruns]
    refine (if_neg hnot).trans ?_
    by_cases hsram : (s.flag .errValid c.val && s.flag .errUncorr c.val) = true
    · rw [if_pos hsram, if_pos hsram]
    · rw [if_neg hsram, if_neg hsram]
  · have htrapped : ¬(s.get .chState n.val = chTrapped ∧ (!chaseDebugged s n.val) = true) := fun h => by
      simp [chaseChecked, h.1, chTrapped, chRunning] at hchecked
    exact (if_neg htrapped).trans (if_pos hchecked)
  · generalize hu : logEvent (failoverRecorded s n.val ns) _ _ _ _ = u
    have hget : ∀ f, f ∉ [Fld.evlogHead, Fld.evlogWrap] → ∀ i,
        (statusChanged s u).get f i = (failoverRecorded s n.val ns).get f i := fun f hf i => by
      rw [get_statusChanged, ← hu, keepsRegs_logEvent _ _ _ _ _ f i hf]
    have hchases : (statusChanged s u).chases = (failoverRecorded s n.val ns).chases := by
      rw [chases_statusChanged, ← hu]
      exact (congrArg State.chases (logEvent_frame ..) :)
    refine ⟨?_, ?_, ?_, fun pi hpi hplace => ?_⟩
    · rw [hget _ (by decide), failoverRecorded, get_put_ne _ (by decide), get_put_same]
      exact Nat.mod_eq_of_lt ns.isLt
    · rw [hget _ (by decide), failoverRecorded, get_put_same]
      rfl
    · rw [hget _ (by decide), failoverRecorded, get_put_ne _ (by decide), get_put_ne _ (by decide)]
      exact chState_failoverEnded s n.val
    · have hplaced : failoverPlaced s n.val = takePlacement s n.val pi := by rw [failoverPlaced, hplace]
      obtain ⟨hpi', hused, hnone⟩ := takePlacement_status s n.val (hpi.trans (by decide))
      have hkept : ∀ f, f ∉ [Fld.evlogHead, .evlogWrap, .failoverTime, .modFailoverSeen, .chState] →
          (statusChanged s u).get f n.val = (takePlacement s n.val pi).get f n.val := fun f hf => by
        simp only [List.mem_cons, List.not_mem_nil, or_false, not_or] at hf
        obtain ⟨hhead, hwrap, htime, hseen, hst⟩ := hf
        rw [hget _ (by simp [hhead, hwrap]), failoverRecorded, get_put_ne _ hseen, get_put_ne _ htime,
          get_failoverEnded _ _ hst, hplaced]
      refine ⟨(hkept _ (by decide)).trans hpi', (hkept _ (by decide)).trans hused, ?_⟩
      rw [chase_of_chases hchases, failoverRecorded, chase_put, chase_put, failPlace_failoverEnded, hplaced, hnone]

end Sys2Proof.Proofs

/-! The gate of firmware commands (R363, R376, R422, R433) and where completions go (R374). -/

namespace Sys2Proof.Proofs

open Sys2Proof.Machine Sys2Proof.Safety Sys2Proof.Laws

/-! ### The gate -/

section
variable {s : State} {r : Req} {always hello : Bool}

theorem fwGate_stale (h : requestStale s r = true) :
    fwGate s r always hello = some (cStaleGen, [BitVec.ofNat 32 (senderGen s r.sender.toNat)]) := if_pos h

variable (hfresh : requestStale s r = false)
include hfresh

theorem fwGate_failed (hfailed : s.get .modService 0 = svcFailed) :
    fwGate s r false hello = some (cCapability, []) := by
  simp [fwGate, hfresh, hfailed]

variable (hservice : s.get .modService 0 ≠ svcFailed)
include hservice

theorem fwGate_strange (h : ¬(hello = true ∨ s.flag .helloDone (senderFn s r.sender.toNat) = true)) :
    fwGate s r always hello = some (cVersion, []) := by
  obtain ⟨hhello, hdone⟩ := not_or.mp h
  simp [fwGate, hfresh, hservice, hhello, hdone]

variable (hgreeted : hello = true ∨ s.flag .helloDone (senderFn s r.sender.toNat) = true)
include hgreeted

theorem fwGate_greeted :
    fwGate s r always hello =
      if (s.get .modService 0 == svcBringup || s.mgmt.hold != .none) && !always then some (cBusy, []) else none := by
  have hnot : (!hello && !s.flag .helloDone (senderFn s r.sender.toNat)) = false := by
    obtain h | h := hgreeted <;> simp [h]
  simp [fwGate, hfresh, hservice, hnot]

theorem fwGate_busy (h : s.get .modService 0 = svcBringup ∨ s.mgmt.hold ≠ .none) :
    fwGate s r false hello = some (cBusy, []) := by
  rw [fwGate_greeted hfresh hservice hgreeted]
  exact if_pos (by simpa using h)

theorem fwGate_open (hup : s.get .modService 0 ≠ svcBringup) (hhold : s.mgmt.hold = .none) :
    fwGate s r always hello = none := by
  rw [fwGate_greeted hfresh hservice hgreeted]
  exact if_neg (by simp [hup, hhold])

end

/-! ### Completions -/

section
variable {s : State} {m : Nat} {c : Cpl}

theorem mbox_mailboxVector (t : State) (i j : Nat) : (mailboxVector t i).mbox j = t.mbox j := by
  unfold mailboxVector
  split <;> rfl

theorem regs_mailboxVector (t : State) (i : Nat) : (mailboxVector t i).regs = t.regs := by
  unfold mailboxVector
  split <;> rfl

theorem mbox_setMbox_same (t : State) (i : Nat) (x : Mailbox) : (t.setMbox i x).mbox i = x := tab_get_set_same ..

/-- A completion finds room behind those that wait. -/
theorem queueCompletion_room (h : (s.mbox m).cpls.length < 16) :
    ((queueCompletion s m c).mbox m).cpls = (s.mbox m).cpls ++ [c] ∧ keepsRegs [] s (queueCompletion s m c) := by
  rw [queueCompletion, if_pos h]
  refine ⟨?_, keepsRegs_of_regs (regs_mailboxVector ..)⟩
  rw [mbox_mailboxVector, mbox_setMbox_same]

theorem queueCompletion_full (h : 16 ≤ (s.mbox m).cpls.length) : queueCompletion s m c = s.bump .mbxCplLost m :=
  if_neg (not_lt.mpr h)

end

/-- Settles O34: the gate's checks in their order, and the branch of `complete` and `queueCompletion` that applies. -/
theorem firmwareGateComesFirst : Obligations.FirmwareGateComesFirst := by
  refine ⟨fun s r always hello run => ⟨fun h => firmware_answer (fwGate_stale h), fun hfresh => ⟨?_, ?_, ?_, ?_⟩⟩,
    fun s m fn tag code d => ⟨queueCompletion_room, queueCompletion_full, fun idx hruns => if_pos hruns, fun idx hruns => ?_⟩⟩
  · rintro hfailed rfl
    exact firmware_answer (fwGate_failed hfresh hfailed)
  · exact fun hservice h => firmware_answer (fwGate_strange hfresh hservice h)
  · rintro hservice hgreeted h rfl
    exact firmware_answer (fwGate_busy hfresh hservice hgreeted h)
  · exact fun hgreeted hservice hup hhold => firmware_run (fwGate_open hfresh hservice hgreeted hup hhold)
  · exact if_neg (by simp [hruns])

end Sys2Proof.Proofs

/-! The registers that operations of the module change on the side: the event log's, the rings' and the mailboxes', the
quoins', and the counters of verdicts, refusals, replies and lost lines. What operations change beyond them is what they
are about. -/

namespace Sys2Proof.Proofs

open Sys2Proof.Machine Sys2Proof.Safety Sys2Proof.Laws

/-- The registers changed on the side. -/
def sideRegs : List Fld :=
  [Fld.evlogHead, .evlogWrap, .ringProd, .ringSpoils, .mbxCplLost, .quoinBroken, .quoinHeld, .quoinHolder,
   .quoinHolderGen, .quoinOldGen, .quoinOldHolder, .fqLateRefused, .fqDropped, .fqSpoilOpen, .fqSpoilDropped,
   .fqSpoilCtx, .fqSpoilSeq, .fullCount, .exitCount, .noreadCount, .seqRefused, .rhStale, .rhLinkTraining,
   .rhNoExpert, .rhUnroutable, .linesMissed, .galPeak, .galMarkers, .galDropped, .ceBusy, .ceCode]

theorem ne_of_side {fld : Fld} (h : fld ∉ sideRegs) :
    fld ≠ .evlogHead ∧ fld ≠ .evlogWrap ∧ fld ≠ .ringProd ∧ fld ≠ .ringSpoils ∧ fld ≠ .mbxCplLost ∧ fld ≠
      .quoinBroken ∧ fld ≠ .quoinHeld ∧ fld ≠ .quoinHolder ∧ fld ≠ .quoinHolderGen ∧ fld ≠ .quoinOldGen ∧ fld ≠
      .quoinOldHolder ∧ fld ≠ .fqLateRefused ∧ fld ≠ .fqDropped ∧ fld ≠ .fqSpoilOpen ∧ fld ≠ .fqSpoilDropped ∧
      fld ≠ .fqSpoilCtx ∧ fld ≠ .fqSpoilSeq ∧ fld ≠ .fullCount ∧ fld ≠ .exitCount ∧ fld ≠ .noreadCount ∧ fld ≠
      .seqRefused ∧ fld ≠ .rhStale ∧ fld ≠ .rhLinkTraining ∧ fld ≠ .rhNoExpert ∧ fld ≠ .rhUnroutable ∧ fld ≠
      .linesMissed ∧ fld ≠ .galPeak ∧ fld ≠ .galMarkers ∧ fld ≠ .galDropped ∧ fld ≠ .ceBusy ∧ fld ≠ .ceCode := by
  simpa only [sideRegs, List.mem_cons, List.not_mem_nil, or_false, not_or] using h

/-- What a list of stored registers says of one. -/
def lookup (regs : List ((Fld × Nat) × Nat)) (fld : Fld) (ix : Nat) : Nat :=
  State.get { State.reset with regs } fld ix

theorem lookup_regs (s : State) (fld : Fld) (ix : Nat) : lookup s.regs fld ix = s.get fld ix := rfl

/-- A state given field by field reads its registers off the list of them. -/
theorem get_mk {pending power clk timeFrac regs pairLatch pairLo rd sram istore galley lpddr host chases ctxs ports lineRd fqs
    chans encs emus barrier tick eports servos rings mboxes log logSeq fuses mgmt clock smb smbAck tx free}
    (fld : Fld) (ix : Nat) :
    State.get ⟨pending, power, clk, timeFrac, regs, pairLatch, pairLo, rd, sram, istore, galley, lpddr, host, chases,
        ctxs, ports, lineRd, fqs, chans, encs, emus, barrier, tick, eports, servos, rings, mboxes, log, logSeq, fuses,
        mgmt, clock, smb, smbAck, tx, free⟩ fld ix = lookup regs fld ix := rfl

theorem side_foldl {α : Type} {fld : Fld} {ix : Nat} {g : State → α → State}
    (hg : ∀ s a, (g s a).get fld ix = s.get fld ix) (l : List α) (s : State) :
    (l.foldl g s).get fld ix = s.get fld ix := by
  induction l generalizing s with
  | nil => rfl
  | cons a l ih => exact (ih _).trans (hg s a)

section
variable (s : State) {fld : Fld} (hside : fld ∉ sideRegs) (ix : Nat)
include hside

theorem side_logEvent (code source severity : Nat) (details : List Nat) :
    (logEvent s code source severity details).get fld ix = s.get fld ix := by
  obtain ⟨hhead, hwrap, -⟩ := ne_of_side hside
  exact keepsRegs_logEvent s code source severity details fld ix (by simp [hhead, hwrap])

theorem side_of_ringsChange {t : State} (h : ringsChange s t) : t.get fld ix = s.get fld ix := by
  have hne := ne_of_side hside
  exact h.1 fld ix (by simp [hne])

theorem side_of_pushChange {t : State} (h : pushChange s t) : t.get fld ix = s.get fld ix := by
  have hne := ne_of_side hside
  exact h.1 fld ix (by simp [pushRegs, hne])

theorem side_of_repliesChange {t : State} (h : repliesChange s t) : t.get fld ix = s.get fld ix := by
  have hne := ne_of_side hside
  exact h.1 fld ix (by simp [replyCounters, hne])

theorem side_stageEvent (fn : Nat) (b : List Byte) : (stageEvent s fn b).get fld ix = s.get fld ix :=
  side_of_ringsChange s hside ix (ringsChange_stageEvent ..)

omit hside in
theorem side_mailboxVector (m : Nat) : (mailboxVector s m).get fld ix = s.get fld ix :=
  get_of_regs (regs_mailboxVector s m) fld ix

theorem side_queueCompletion (m : Nat) (c : Cpl) : (queueCompletion s m c).get fld ix = s.get fld ix := by
  have hne := ne_of_side hside
  unfold queueCompletion
  grind [side_mailboxVector, get_setMbox, get_bump']

theorem side_complete (m fn tag : Nat) (ring : Option Word) (code : Nat) (details : List Word) :
    (complete s m fn tag ring code details).get fld ix = s.get fld ix := by
  have hne := ne_of_side hside
  unfold complete
  grind [side_stageEvent, side_queueCompletion]

theorem side_answer (r : Req) (code : Nat) (details : List Word) :
    (answer s r code details).get fld ix = s.get fld ix := by
  have hne := ne_of_side hside
  unfold answer
  grind [side_complete]

theorem side_quoinBreak (id gen q : Nat) : (quoinBreak id gen q s).get fld ix = s.get fld ix := by
  obtain ⟨-, -, -, -, -, hbroken, hheld, hholder, hgen, holdGen, holdHolder, -⟩ := ne_of_side hside
  unfold quoinBreak
  split
  · simp only [get_put, hbroken, hheld, hholder, hgen, holdGen, holdHolder, false_and, if_false]
  · rfl

theorem side_quoinsBreak (id gen : Nat) : (quoinsBreak s id gen).get fld ix = s.get fld ix := by
  have hne := ne_of_side hside
  unfold quoinsBreak
  grind [side_quoinBreak, side_foldl]

theorem side_setMem (m : Nat) (x : Memory) : (State.setMem s m x).get fld ix = s.get fld ix := by
  have hne := ne_of_side hside
  unfold State.setMem
  grind [get_mk, lookup_regs]

theorem side_answerInbound (n : Nat) : (answerInbound s n).get fld ix = s.get fld ix :=
  side_of_repliesChange s hside ix (repliesChange_answerInbound s n)

theorem side_cropDrop (k : Nat) : (cropDrop s k).get fld ix = s.get fld ix := by
  have hne := ne_of_side hside
  unfold cropDrop
  grind [get_setCtx, get_bump']

theorem side_addCropRecord (k ty : Nat) (payload : List Byte) :
    (addCropRecord s k ty payload).get fld ix = s.get fld ix := by
  have hne := ne_of_side hside
  unfold addCropRecord
  grind [side_cropDrop, get_setCtx]

theorem side_staleSender (id : Nat) : (staleSender s id).get fld ix = s.get fld ix := by
  have hne := ne_of_side hside
  unfold staleSender
  grind [get_mk, lookup_regs]

theorem side_pushSlot (k : Nat) (g : Slug) : (pushSlot s k g).get fld ix = s.get fld ix := by
  have hne := ne_of_side hside
  unfold pushSlot
  grind [get_put, get_setCtx]

theorem side_placeMarker (k : Nat) (g : Gap) : (placeMarker s k g).get fld ix = s.get fld ix := by
  have hne := ne_of_side hside
  unfold placeMarker
  grind [get_bump', side_pushSlot, get_setCtx]

theorem side_placeClosed (n k : Nat) : (placeClosed n s k).get fld ix = s.get fld ix := by
  induction n generalizing s with
  | zero => rfl
  | succ n ih =>
    rw [placeClosed]
    split
    · rfl
    · split
      · rfl
      · rw [ih, side_placeMarker _ hside, get_setCtx]

theorem side_placeWaiting (k : Nat) : (placeWaiting s k).get fld ix = s.get fld ix := by
  have hne := ne_of_side hside
  unfold placeWaiting
  grind [side_placeClosed]

theorem side_gapLine (k : Nat) (t : Trig) (reason : Nat) : (gapLine s k t reason).get fld ix = s.get fld ix := by
  have hne := ne_of_side hside
  unfold gapLine
  grind [side_placeWaiting, get_setCtx]

theorem side_closeStats (k : Nat) : (closeStats s k).get fld ix = s.get fld ix := by
  unfold closeStats
  dsimp only
  split
  · rfl
  · rw [side_addCropRecord _ hside]
    split <;> rfl

theorem side_openStats (k line : Nat) : (openStats s k line).1.get fld ix = s.get fld ix := by
  unfold openStats
  dsimp only
  split
  · split
    · rw [side_closeStats _ hside]
    · rfl
  · rfl

theorem side_keepStats (k line : Nat) (b : Stats) : (keepStats s k line b).get fld ix = s.get fld ix := by
  unfold keepStats
  dsimp only
  split
  · rw [side_closeStats _ hside, get_setCtx]
  · rw [get_setCtx]

theorem side_statsLost (k line : Nat) : (statsLost s k line).get fld ix = s.get fld ix := by
  unfold statsLost
  split
  · rw [side_keepStats _ hside, side_openStats _ hside]
  · rfl

theorem side_issueVerdict (n : Nat) (it : Item) (path : Nat) (d : Decision) (unbound : Bool) :
    (issueVerdict s n it path d unbound).2.get fld ix = s.get fld ix := by
  have hne := ne_of_side hside
  rw [side_of_pushChange _ hside ix (pushChange_issueVerdict s n it path d unbound)]
  exact keepsRegs_verdictNumbered s n it path fld ix (by simp [pathCounters, hne])

theorem side_freeHandle (n i : Nat) (mon : Bool) : (freeHandle s n i mon).get fld ix = s.get fld ix := by
  have hne := ne_of_side hside
  unfold freeHandle
  grind [get_setChase]

theorem side_monitorDecide (n i : Nat) (it : Item) (path : Nat) (d : Decision) (unbound : Bool) :
    (monitorDecide s n i it path d unbound).get fld ix = s.get fld ix := by
  have hne := ne_of_side hside
  unfold monitorDecide
  grind [side_issueVerdict, side_freeHandle]

theorem side_unbindItems (n k : Nat) : (unbindItems s n k).get fld ix = s.get fld ix := by
  have hne := ne_of_side hside
  unfold unbindItems
  grind [side_monitorDecide, side_logEvent, side_foldl]

theorem side_joinLost (k : Nat) (t : Trig) : (joinLost s k t).get fld ix = s.get fld ix := by
  have hne := ne_of_side hside
  unfold joinLost
  grind [side_statsLost, side_gapLine]

theorem side_settleOrder (n k : Nat) : (settleOrder n s k).get fld ix = s.get fld ix := by
  induction n generalizing s with
  | zero => rfl
  | succ n ih =>
    rw [settleOrder]
    split
    · split
      · rfl
      · rw [ih, side_joinLost _ hside, get_setCtx]
    · split
      · rfl
      · rw [ih, side_joinLost _ hside, get_setCtx]
    · rfl

theorem side_resolveLines (k : Nat) : (resolveLines s k).get fld ix = s.get fld ix := by
  have hne := ne_of_side hside
  unfold resolveLines
  grind [side_settleOrder]

theorem side_loseTriggered (k reason : Nat) : (loseTriggered s k reason).get fld ix = s.get fld ix := by
  have hne := ne_of_side hside
  unfold loseTriggered
  grind [get_bumpBy, get_setCtx, side_resolveLines]

theorem side_loseDevices (lanes : List Nat) : (loseDevices s lanes).get fld ix = s.get fld ix := by
  have hne := ne_of_side hside
  unfold loseDevices
  grind [side_loseTriggered, side_foldl]

theorem side_checkOverrate (k : Nat) : (checkOverrate s k).get fld ix = s.get fld ix := by
  have hne := ne_of_side hside
  unfold checkOverrate
  grind [side_logEvent, get_setCtx]

theorem side_sendControl (n k : Nat) : (sendControl n s k).get fld ix = s.get fld ix := by
  induction n generalizing s with
  | zero => rfl
  | succ n ih =>
    rw [sendControl]
    dsimp only
    split
    · split
      · rw [get_emit, get_setCtx]
      · rw [ih, side_answer _ hside, get_setCtx]
    · rfl

theorem side_pumpControl (k : Nat) : (pumpControl s k).get fld ix = s.get fld ix := by
  have hne := ne_of_side hside
  unfold pumpControl
  grind [side_sendControl]

theorem side_endControl (k outcome : Nat) (data : List Byte) :
    (endControl s k outcome data).get fld ix = s.get fld ix := by
  have hne := ne_of_side hside
  unfold endControl
  grind [side_pumpControl, side_answer, get_setCtx]

theorem side_discardApplies (k : Nat) : (discardApplies s k).get fld ix = s.get fld ix := by
  have hne := ne_of_side hside
  unfold discardApplies
  grind [side_answer, get_setCtx, side_foldl]

theorem side_disarmOneShots (k : Nat) : (disarmOneShots s k).get fld ix = s.get fld ix := by
  have hne := ne_of_side hside
  unfold disarmOneShots
  grind [get_setCtx]

theorem side_dropPatch (n : Nat) : (dropPatch s n).get fld ix = s.get fld ix := by
  have hne := ne_of_side hside
  unfold dropPatch
  grind [side_answer, get_setChase, side_foldl]

theorem side_undoRows (b : Busy) : (undoRows s b).get fld ix = s.get fld ix := by
  have hne := ne_of_side hside
  unfold undoRows
  grind [side_setMem, get_mk, lookup_regs, side_foldl]

theorem side_stopCopies (n : Nat) (hit : Busy → Bool) : (stopCopies s n hit).get fld ix = s.get fld ix := by
  have hne := ne_of_side hside
  unfold stopCopies
  grind [side_undoRows, get_setChase, side_foldl]

theorem side_endCopies (engines : List Nat) (code : Nat) : (endCopies s engines code).get fld ix = s.get fld ix := by
  have hne := ne_of_side hside
  unfold endCopies
  grind [get_put, side_foldl]

theorem side_isolateCopies (n : Nat) (hit : Busy → Bool) : (isolateCopies s n hit).get fld ix = s.get fld ix := by
  have hne := ne_of_side hside
  unfold isolateCopies
  grind [side_endCopies, side_stopCopies]

omit hside in
theorem side_statusChanged (before after : State) : (statusChanged before after).get fld ix = after.get fld ix := by
  unfold statusChanged
  split
  · rfl
  · rfl

end

end Sys2Proof.Proofs

/-! Camera lanes (R211 to R213, R429, R430): what losing the lines of a device leaves unchanged, and how a group of lanes
steps. -/

namespace Sys2Proof.Proofs

open Sys2Proof.Machine Sys2Proof.Safety Sys2Proof.Laws

/-! ### What losing lines leaves unchanged (R213, R231, R254) -/

/-- A state without its contexts, its registers and its free values. -/
def besideLines (s : State) : State := { s with regs := [], ctxs := .empty, free := 0 }

theorem beside_foldl {α : Type} {g : State → α → State} (hg : ∀ s a, besideLines (g s a) = besideLines s) (l : List α)
    (s : State) : besideLines (l.foldl g s) = besideLines s := by
  induction l generalizing s with
  | nil => rfl
  | cons a l ih => exact (ih _).trans (hg s a)

section
variable (s : State)

theorem beside_put (f : Fld) (i v : Nat) : besideLines (s.put f i v) = besideLines s := rfl

theorem beside_bump (f : Fld) (i : Nat) : besideLines (s.bump f i) = besideLines s := rfl

theorem beside_bumpBy (f : Fld) (i n : Nat) : besideLines (s.bumpBy f i n) = besideLines s := rfl

theorem beside_setCtx (k : Nat) (x : Context) : besideLines (s.setCtx k x) = besideLines s := rfl

theorem beside_cropDrop (k : Nat) : besideLines (cropDrop s k) = besideLines s := by
  unfold cropDrop
  grind [beside_setCtx, beside_bump]

theorem beside_addCropRecord (k ty : Nat) (payload : List Byte) :
    besideLines (addCropRecord s k ty payload) = besideLines s := by
  unfold addCropRecord
  grind [beside_cropDrop, beside_setCtx]

theorem beside_pushSlot (k : Nat) (g : Slug) : besideLines (pushSlot s k g) = besideLines s := by
  unfold pushSlot
  grind [beside_put, beside_setCtx]

theorem beside_placeMarker (k : Nat) (g : Gap) : besideLines (placeMarker s k g) = besideLines s := by
  unfold placeMarker
  grind [beside_bump, beside_pushSlot, beside_setCtx]

theorem beside_placeClosed (n k : Nat) : besideLines (placeClosed n s k) = besideLines s := by
  induction n generalizing s with
  | zero => rfl
  | succ n ih =>
    rw [placeClosed]
    split
    · rfl
    · split
      · rfl
      · rw [ih, beside_placeMarker, beside_setCtx]

theorem beside_placeWaiting (k : Nat) : besideLines (placeWaiting s k) = besideLines s := by
  unfold placeWaiting
  grind [beside_placeClosed]

theorem beside_gapLine (k : Nat) (t : Trig) (reason : Nat) : besideLines (gapLine s k t reason) = besideLines s := by
  unfold gapLine
  grind [beside_placeWaiting, beside_setCtx]

theorem beside_closeStats (k : Nat) : besideLines (closeStats s k) = besideLines s := by
  unfold closeStats
  dsimp only
  split
  · rfl
  · rw [beside_addCropRecord]
    split <;> rfl

theorem beside_openStats (k line : Nat) : besideLines (openStats s k line).1 = besideLines s := by
  unfold openStats
  dsimp only
  split
  · split
    · rw [beside_closeStats]
    · rfl
  · rfl

theorem beside_keepStats (k line : Nat) (b : Stats) : besideLines (keepStats s k line b) = besideLines s := by
  unfold keepStats
  dsimp only
  split
  · rw [beside_closeStats, beside_setCtx]
  · rw [beside_setCtx]

theorem beside_statsLost (k line : Nat) : besideLines (statsLost s k line) = besideLines s := by
  unfold statsLost
  split
  · rw [beside_keepStats, beside_openStats]
  · rfl

theorem beside_joinLost (k : Nat) (t : Trig) : besideLines (joinLost s k t) = besideLines s := by
  unfold joinLost
  grind [beside_statsLost, beside_gapLine]

theorem beside_settleOrder (n k : Nat) : besideLines (settleOrder n s k) = besideLines s := by
  induction n generalizing s with
  | zero => rfl
  | succ n ih =>
    rw [settleOrder]
    split
    · split
      · rfl
      · rw [ih, beside_joinLost, beside_setCtx]
    · split
      · rfl
      · rw [ih, beside_joinLost, beside_setCtx]
    · rfl

theorem beside_resolveLines (k : Nat) : besideLines (resolveLines s k) = besideLines s := by
  unfold resolveLines
  grind [beside_settleOrder]

theorem beside_loseTriggered (k reason : Nat) : besideLines (loseTriggered s k reason) = besideLines s := by
  unfold loseTriggered
  grind [beside_bumpBy, beside_setCtx, beside_resolveLines]

theorem beside_loseDevices (lanes : List Nat) : besideLines (loseDevices s lanes) = besideLines s := by
  unfold loseDevices
  grind [beside_loseTriggered, beside_foldl]

end

/-! ### A group of lanes steps (R211, R212) -/

/-- Lanes told a rate and the number of their connections. -/
def stepLanes (s : State) (lanes : List Nat) (count rate : Nat) : State :=
  lanes.foldl (fun s l => ((s.put .cxpLaneState l lnStepping).put .cxpLaneRate l rate).emit (.connConfig l count rate)) s

theorem configGroup_eq (s : State) (dev rate : Nat) :
    configGroup s dev rate = loseDevices (stepLanes s (groupLanes s dev) (groupLanes s dev).length rate) (groupLanes s dev) :=
  rfl

section
variable (s : State) (lanes : List Nat) (count rate : Nat)

theorem width_laneState : Fld.cxpLaneState.info.width = 3 := rfl

theorem width_laneRate : Fld.cxpLaneRate.info.width = 3 := rfl

theorem laneState_stepLanes (m : Nat) :
    (stepLanes s lanes count rate).get .cxpLaneState m = if m ∈ lanes then lnStepping else s.get .cxpLaneState m := by
  induction lanes generalizing s with
  | nil => rfl
  | cons l lanes ih =>
    rw [stepLanes, List.foldl_cons, ← stepLanes, ih, get_emit, get_put_ne _ (by decide), get_put]
    by_cases hl : m = l <;> by_cases hm : m ∈ lanes <;> simp [hl, hm, lnStepping, width_laneState]

theorem laneRate_stepLanes (m : Nat) :
    (stepLanes s lanes count rate).get .cxpLaneRate m = if m ∈ lanes then rate % 2 ^ 3 else s.get .cxpLaneRate m := by
  induction lanes generalizing s with
  | nil => rfl
  | cons l lanes ih =>
    rw [stepLanes, List.foldl_cons, ← stepLanes, ih, get_emit, get_put, get_put_ne _ (by decide)]
    by_cases hl : m = l <;> by_cases hm : m ∈ lanes <;> simp [hl, hm, width_laneRate]

theorem get_stepLanes {f : Fld} (hstate : f ≠ .cxpLaneState) (hrate : f ≠ .cxpLaneRate) (i : Nat) :
    (stepLanes s lanes count rate).get f i = s.get f i := by
  induction lanes generalizing s with
  | nil => rfl
  | cons l lanes ih =>
    rw [stepLanes, List.foldl_cons, ← stepLanes, ih, get_emit, get_put_ne _ hrate, get_put_ne _ hstate]

theorem log_stepLanes : (stepLanes s lanes count rate).log = s.log := by
  induction lanes generalizing s with
  | nil => rfl
  | cons l lanes ih => exact ih _

end

section
variable (s : State) (dev rate : Nat)

theorem get_configGroup {f : Fld} (hf : f ∉ sideRegs) (i : Nat) : (configGroup s dev rate).get f i =
    (stepLanes s (groupLanes s dev) (groupLanes s dev).length rate).get f i := by
  rw [configGroup_eq, side_loseDevices _ hf]

theorem beside_configGroup : besideLines (configGroup s dev rate) =
    besideLines (stepLanes s (groupLanes s dev) (groupLanes s dev).length rate) := by
  rw [configGroup_eq, beside_loseDevices]

theorem laneState_configGroup (m : Nat) : (configGroup s dev rate).get .cxpLaneState m =
    if m ∈ groupLanes s dev then lnStepping else s.get .cxpLaneState m := by
  rw [get_configGroup _ _ _ (by decide), laneState_stepLanes]

theorem laneRate_configGroup {m : Nat} (hm : m ∈ groupLanes s dev) :
    (configGroup s dev rate).get .cxpLaneRate m = rate % 2 ^ 3 := by
  rw [get_configGroup _ _ _ (by decide), laneRate_stepLanes, if_pos hm]

theorem log_besideLines (t : State) : (besideLines t).log = t.log := rfl

theorem log_configGroup : (configGroup s dev rate).log = s.log := by
  rw [← log_besideLines, beside_configGroup, log_besideLines, log_stepLanes]

end

/-! ### The statement -/

theorem exec_laneLockTimeout {s : State} {l : CxpLane} (hstep : s.get .cxpLaneState l.val = lnStepping)
    (hrate : s.get .cxpLaneRate l.val ≠ 0) :
    exec (.laneLockTimeout l) s =
      .next (configGroup s (s.get .cxpLaneDevice l.val) (s.get .cxpLaneRate l.val - 1)) :=
  (if_neg (not_not.mpr hstep)).trans (if_neg hrate)

/-- Lane 0 steps, and its rate register holds 20, which its three bits cannot. -/
def steppingTooFast : State :=
  { State.reset with regs := [((.cxpLaneState, 0), lnStepping), ((.cxpLaneRate, 0), 20)] }

/-- Refutes O37: the statement takes any state, and in one whose lane's rate register holds 20 the group that steps down
from it is put at 19 cut to the field's three bits, which is 3. -/
theorem not_lanesStepUpAndGoDown : ¬ Obligations.LanesStepUpAndGoDown := by
  intro h
  obtain ⟨-, -, hstep, -, -⟩ := h steppingTooFast 0 ⟨0, 0, 0, false⟩
  obtain ⟨t, hexec, ht⟩ := (hstep rfl).2.1 (by decide)
  have hdown : exec (.laneLockTimeout 0) steppingTooFast = .next (configGroup steppingTooFast 0 19) :=
    exec_laneLockTimeout (l := 0) rfl (by decide)
  have hstate : t = configGroup steppingTooFast 0 19 := Host.Outcome.next.inj (hexec.symm.trans hdown)
  have hmem : 0 ∈ groupLanes steppingTooFast 0 := by decide
  obtain ⟨-, hrate⟩ := ht 0 hmem
  rw [hstate, laneRate_configGroup _ _ _ hmem] at hrate
  exact absurd hrate (by decide)

end Sys2Proof.Proofs

/-! Trigger compares (R15, R217, R308, R309), trigger packets and the lines that answer them (R218, R219). -/

namespace Sys2Proof.Proofs

open Sys2Proof.Machine Sys2Proof.Safety Sys2Proof.Laws

/-! ### What serving a hit leaves of the compare -/

/-- Where the compare of a context stands: its next line, its target, and what TRIG_NEXT shows of that. -/
def aims (s : State) (k : Nat) : Nat × Nat × Nat :=
  ((s.context k).nextLine, (s.context k).trigTarget, s.get .trigNext k)

section
variable (s : State) {j : Nat}

theorem context_setCtx_other {k : Nat} (h : j ≠ k) (x : Context) : (s.setCtx k x).context j = s.context j :=
  tab_get_set_other _ _ _ h

variable {s} in
theorem aims_setCtx_of {k : Nat} {x : Context}
    (h : (x.nextLine, x.trigTarget) = ((s.context k).nextLine, (s.context k).trigTarget)) :
    aims (s.setCtx k x) j = aims s j := by
  obtain ⟨hline, htarget⟩ := Prod.ext_iff.mp h
  by_cases hj : j = k
  · rw [aims, aims, get_setCtx, hj, context_setCtx, show x.nextLine = _ from hline, show x.trigTarget = _ from htarget]
  · rw [aims, aims, get_setCtx, context_setCtx_other s hj]

theorem aims_setCtx (k : Nat) (x : Context) (hline : x.nextLine = (s.context k).nextLine)
    (htarget : x.trigTarget = (s.context k).trigTarget) : aims (s.setCtx k x) j = aims s j :=
  aims_setCtx_of (by rw [hline, htarget])

theorem aims_put {f : Fld} (hf : f ≠ .trigNext) (i v : Nat) : aims (s.put f i v) j = aims s j := by
  rw [aims, aims, get_put_ne _ hf.symm, context_put]

theorem aims_bump {f : Fld} (hf : f ≠ .trigNext) (i : Nat) : aims (s.bump f i) j = aims s j := aims_put s hf i _

theorem aims_bumpBy {f : Fld} (hf : f ≠ .trigNext) (i n : Nat) : aims (s.bumpBy f i n) j = aims s j := aims_put s hf i _

variable {s} in
theorem aims_setCtx_bumpBy {f : Fld} {i n k : Nat} {x : Context} (hf : f ≠ .trigNext)
    (h : (x.nextLine, x.trigTarget) = ((s.context k).nextLine, (s.context k).trigTarget)) :
    aims ((s.bumpBy f i n).setCtx k x) j = aims s j :=
  (aims_setCtx_of (s := s.bumpBy f i n) h).trans (aims_bumpBy s hf i n)

theorem aims_emit (x : Tx) : aims (s.emit x) j = aims s j := rfl

/-- An answer is a completion, which changes no context and, of the registers, only those on the side. -/
theorem ctxs_answer (r : Req) (code : Nat) (details : List Word) : (answer s r code details).ctxs = s.ctxs := by
  have hqueue : ∀ m c, (queueCompletion s m c).ctxs = s.ctxs := fun m c => by
    unfold queueCompletion
    dsimp only
    split <;> rfl
  unfold answer complete
  split
  · split
    · exact (congrArg State.ctxs (ringsChange_stageEvent ..).2 :)
    · exact hqueue ..
  · exact hqueue ..

theorem aims_answer (r : Req) (code : Nat) (details : List Word) : aims (answer s r code details) j = aims s j := by
  rw [aims, aims, State.context, ctxs_answer, side_answer _ (by decide)]
  rfl

theorem aims_cropDrop (k : Nat) : aims (cropDrop s k) j = aims s j :=
  aims_setCtx_bumpBy (by decide) rfl

theorem aims_addCropRecord (k ty : Nat) (payload : List Byte) : aims (addCropRecord s k ty payload) j = aims s j := by
  unfold addCropRecord
  grind [aims_cropDrop, aims_setCtx]

theorem aims_pushSlot (k : Nat) (g : Slug) : aims (pushSlot s k g) j = aims s j := by
  unfold pushSlot
  grind [aims_put, aims_setCtx]

theorem aims_placeMarker (k : Nat) (g : Gap) : aims (placeMarker s k g) j = aims s j := by
  unfold placeMarker
  grind [aims_bump, aims_pushSlot, aims_setCtx]

theorem aims_placeClosed (n k : Nat) : aims (placeClosed n s k) j = aims s j := by
  induction n generalizing s with
  | zero => rfl
  | succ n ih =>
    rw [placeClosed]
    split
    · rfl
    · split
      · rfl
      · rw [ih, aims_placeMarker]
        exact aims_setCtx_of rfl ..

theorem aims_placeWaiting (k : Nat) : aims (placeWaiting s k) j = aims s j := by
  unfold placeWaiting
  grind [aims_placeClosed]

theorem aims_gapLine (k : Nat) (t : Trig) (reason : Nat) : aims (gapLine s k t reason) j = aims s j := by
  rw [gapLine, aims_placeWaiting]
  refine aims_setCtx_of ?_
  unfold joinGap Context.forgetLine
  split
  · rfl
  · dsimp only
    split <;> rfl

theorem aims_loseLine (k : Nat) (t : Trig) (reason : Nat) : aims (loseLine s k t reason) j = aims s j := by
  unfold loseLine
  grind [aims_gapLine, aims_bump]

theorem aims_commitSlug (k : Nat) (t : Trig) (g : Slug) : aims (commitSlug s k t g) j = aims s j := by
  unfold commitSlug
  grind [aims_placeWaiting, aims_placeMarker, aims_setCtx, aims_pushSlot, aims_loseLine]

theorem aims_closeStats (k : Nat) : aims (closeStats s k) j = aims s j := by
  unfold closeStats
  dsimp only
  split
  · rfl
  · rw [aims_addCropRecord]
    split
    · exact aims_setCtx_of rfl ..
    · exact aims_setCtx_of rfl ..

theorem aims_openStats (k line : Nat) : aims (openStats s k line).1 j = aims s j := by
  unfold openStats
  dsimp only
  split
  · split
    · rw [aims_closeStats]
    · rfl
  · rfl

theorem aims_keepStats (k line : Nat) (b : Stats) : aims (keepStats s k line b) j = aims s j := by
  unfold keepStats
  dsimp only
  split
  · rw [aims_closeStats]
    exact aims_setCtx_of rfl ..
  · exact aims_setCtx_of rfl ..

theorem aims_statsLost (k line : Nat) : aims (statsLost s k line) j = aims s j := by
  unfold statsLost
  split
  · rw [aims_keepStats, aims_openStats]
  · rfl

theorem aims_statsLine (k line : Nat) (px : List (List Nat)) (black : List Nat) : aims (statsLine s k line px black) j = aims s j := by
  unfold statsLine
  split
  · rw [aims_keepStats, aims_openStats]
  · rfl

theorem aims_switchBank (k line t : Nat) : aims (switchBank s k line t) j = aims s j := by
  unfold switchBank
  grind [aims_setCtx, aims_put, aims_answer]

theorem aims_switchBanks (k line : Nat) : aims (switchBanks s k line) j = aims s j := by
  rw [switchBanks, List.foldl_cons, List.foldl_cons, List.foldl_cons, List.foldl_cons, List.foldl_nil]
  rw [aims_switchBank, aims_switchBank, aims_switchBank, aims_switchBank]

theorem aims_stagePixels (k : Nat) (samples : List Nat) : aims (stagePixels s k samples) j = aims s j := by
  unfold stagePixels
  grind [aims_setCtx]

theorem aims_pipeLine (k line : Nat) (samples : List Nat) : aims (pipeLine s k line samples).1 j = aims s j := by
  unfold pipeLine
  dsimp only
  split
  · exact (aims_put _ (by decide) ..).trans (aims_setCtx_of rfl ..)
  · exact aims_setCtx_of rfl ..

theorem aims_serveLine (k line : Nat) (samples : List Nat) : aims (serveLine s k line samples).1 j = aims s j := by
  unfold serveLine
  dsimp only
  split
  · rw [aims_pipeLine, aims_stagePixels, aims_switchBanks]
  · rw [aims_switchBanks]

theorem aims_joinLost (k : Nat) (t : Trig) : aims (joinLost s k t) j = aims s j := by
  unfold joinLost
  grind [aims_statsLost, aims_gapLine]

theorem aims_settleOrder (n k : Nat) : aims (settleOrder n s k) j = aims s j := by
  induction n generalizing s with
  | zero => rfl
  | succ n ih =>
    rw [settleOrder]
    split
    · split
      · rfl
      · rw [ih, aims_joinLost]
        exact aims_setCtx_of rfl ..
    · split
      · rfl
      · rw [ih, aims_joinLost]
        exact aims_setCtx_of rfl ..
    · rfl

theorem aims_resolveLines (k : Nat) : aims (resolveLines s k) j = aims s j := by
  unfold resolveLines
  grind [aims_settleOrder]

theorem aims_loseTriggered (k reason : Nat) : aims (loseTriggered s k reason) j = aims s j := by
  unfold loseTriggered
  grind [aims_bumpBy, aims_setCtx, aims_resolveLines]

theorem aims_ageTriggers (k : Nat) : aims (ageTriggers s k) j = aims s j :=
  aims_setCtx_bumpBy (by decide) rfl

theorem aims_pushLost (k reason : Nat) (t : Trig) : aims (pushLost s k reason t) j = aims s j :=
  aims_setCtx_bumpBy (by decide) rfl

theorem aims_dropDeferred (k : Nat) : aims (dropDeferred s k) j = aims s j := by
  unfold dropDeferred
  grind [aims_setCtx, aims_pushLost]

theorem aims_sendTrigger (k : Nat) (t : Trig) : aims (sendTrigger s k t) j = aims s j := by
  unfold sendTrigger
  dsimp only
  split
  · split
    · exact aims_pushLost ..
    · rfl
  · split
    · exact aims_setCtx_bumpBy (by decide) rfl
    · exact aims_setCtx_of rfl ..

theorem aims_serveTrigger (k : Nat) (t : Trig) : aims (serveTrigger s k t) j = aims s j := by
  unfold serveTrigger
  grind [aims_dropDeferred, aims_sendTrigger, aims_gapLine, aims_pushLost]

theorem aims_closeLine (k : Nat) (t : Trig) (samples : List Nat) (flags crc : Nat) :
    aims (closeLine s k t samples flags crc) j = aims s j := by
  unfold closeLine
  dsimp only
  split
  · rw [aims_joinLost, aims_bump _ (by decide), aims_bump _ (by decide)]
  · split
    · rw [aims_statsLine, aims_commitSlug, aims_serveLine]
    · rw [aims_statsLost, aims_commitSlug, aims_serveLine]

theorem aims_injectLine (k : Nat) (p : Replay) (t : Trig) : aims (injectLine s k p t) j = aims s j := by
  unfold injectLine
  grind [aims_setCtx, aims_joinLost, aims_bump, aims_closeLine]

end

/-! ### Compare hits -/

/-- Where the compare of a context stands once a hit has moved it on. -/
def aimed (s : State) (k : Nat) : Nat × Nat × Nat :=
  let x := s.context k
  let target := wrapTo 48 ((x.trigTarget : Int) + x.trigPitch)
  ((x.nextLine + 1) % 2 ^ 48, target, target)

theorem wrapTo_lt (w : Nat) (v : Int) : wrapTo w v < 2 ^ w := by
  have hpos : (0 : Int) < ((2 ^ w : Nat) : Int) := by positivity
  have := Int.emod_lt_of_pos v hpos
  have := Int.emod_nonneg v hpos.ne'
  unfold wrapTo
  omega

theorem aimed_target_lt (s : State) (k : Nat) : (aimed s k).2.1 < 2 ^ 48 := by
  exact wrapTo_lt 48 ((s.context k).trigTarget + (s.context k).trigPitch : Int)

theorem aims_moved (s : State) (k : Nat) (x : Context) (hline : x.nextLine = ((s.context k).nextLine + 1) % 2 ^ 48)
    (htarget : x.trigTarget = (aimed s k).2.1) :
    aims ((s.setCtx k x).put .trigNext k (aimed s k).2.1) k = aimed s k := by
  rw [aims, context_put, context_setCtx, hline, htarget, get_put_same]
  exact congrArg (fun v => (((s.context k).nextLine + 1) % 2 ^ 48, (aimed s k).2.1, v))
    (Nat.mod_eq_of_lt (aimed_target_lt s k))

theorem aims_compareHit (s : State) (k : Nat) : aims (compareHit s k) k = aimed s k := by
  unfold compareHit
  dsimp only
  split
  · next p _ =>
    split
    · generalize hs : (if p.begun = true then _ else _) = s2
      have hmoved : aims s2 k = aimed s k := by
        rw [← hs]
        split
        · exact aims_moved s k _ rfl rfl
        · rw [aims_loseTriggered]
          exact aims_moved s k _ rfl rfl
      split
      · rw [aims_serveTrigger, hmoved]
      · rw [aims_injectLine, hmoved]
    · rw [aims_resolveLines, aims_serveTrigger, aims_ageTriggers]
      exact aims_moved s k _ rfl rfl
  · rw [aims_resolveLines, aims_serveTrigger, aims_ageTriggers]
    exact aims_moved s k _ rfl rfl

/-! ### Trigger packets and lines -/

/-- A deferred trigger of a line not lost goes out and awaits its answer. -/
theorem sendTrigger_deferred (s : State) (k : Nat) (d : Trig) (hlost : d.lost = 0)
    (hup : s.get .cxpLaneState (s.get .cxpSrcMaster k) = lnUp) :
    sendTrigger (s.setCtx k { s.context k with deferred := none, pktBusy := false }) k d =
      ((s.setCtx k { s.context k with deferred := none, pktBusy := false }).setCtx k
        { s.context k with deferred := none, pktBusy := true
                           outstanding := (s.context k).outstanding ++ [d] }).emit (.trigger k d.line) := by
  unfold sendTrigger
  rw [get_setCtx, get_setCtx, if_neg (not_not.mpr hup), context_setCtx]
  dsimp only
  rw [if_neg (by decide), if_pos hlost]

theorem beginLine_answers (s : State) (k : Nat) (d : Trig) (ds : List Trig) (h : (s.context k).outstanding = d :: ds)
    (hlost : d.lost = 0) (hreceives : (!s.flag .ctxBound k || replaying (s.context k) || !sourceUp s k) = false) :
    beginLine s k = s.setCtx k { s.context k with outstanding := ds, rx := (s.context k).rx ++ [⟨d, false, 0⟩] } := by
  unfold beginLine
  dsimp only
  rw [hreceives, if_neg (by decide), h]
  simp [hlost]

theorem beginLine_unsolicited (s : State) (k : Nat) (h : ∀ d ∈ (s.context k).outstanding, d.lost ≠ 0)
    (hresetting : (s.context k).resetting = false) (hquiet : (s.context k).quiet = 0)
    (hreceives : (!s.flag .ctxBound k || replaying (s.context k) || !sourceUp s k) = false) :
    beginLine s k =
      ((s.bump .linesUnsol k).setCtx k { s.context k with desync := true }).put .cxpDesync k 1 := by
  have hnone : (s.context k).outstanding.dropWhile (fun t => t.lost != 0) = [] := by
    simpa using h
  unfold beginLine
  dsimp only
  rw [hreceives, if_neg (by decide), hnone]
  exact if_neg (by simp [hresetting, hquiet])

/-- Settles O38: a hit moves the compare on before anything that serves the line, and serving it leaves the compare
where it stands. -/
theorem linesAnswerTheirTriggers : Obligations.LinesAnswerTheirTriggers := by
  refine ⟨fun s k => ⟨fun h => if_neg (Bool.eq_false_iff.mp h), fun h => ⟨_, if_pos h, ?_⟩⟩, fun s k => ?_⟩
  · have hline := congrArg Prod.fst (aims_compareHit s k.val)
    have htarget := congrArg (·.2.1) (aims_compareHit s k.val)
    have hnext := congrArg (·.2.2) (aims_compareHit s k.val)
    exact ⟨hline, htarget, hnext.trans htarget.symm⟩
  have hreceives : ∀ h : s.flag .ctxBound k.val = true ∧ replaying (s.context k.val) = false ∧
      sourceUp s k.val = true,
      (!s.flag .ctxBound k.val || replaying (s.context k.val) || !sourceUp s k.val) = false := by
    rintro ⟨hbound, hreplay, hup⟩
    rw [hbound, hreplay, hup]
    rfl
  refine ⟨fun d hbusy hd hlost hup => ?_, fun hbusy hd => ?_, fun hbusy => ?_,
    fun d ds h hlost hr => congrArg Host.Outcome.next (beginLine_answers s _ d ds h hlost (hreceives hr)),
    fun hr h hresetting hquiet => congrArg Host.Outcome.next (beginLine_unsolicited s _ h hresetting hquiet (hreceives hr)),
    fun hr => congrArg Host.Outcome.next (if_pos ?_)⟩
  · have hsend : exec (.triggerPacketEnd k) s = .next (sendTrigger
        (s.setCtx k.val { s.context k.val with deferred := none, pktBusy := false }) k.val d) := by
      change execTriggerPacketEnd k s = _
      unfold execTriggerPacketEnd
      simp only [hbusy, hd]
      rfl
    rw [sendTrigger_deferred s _ d hlost hup] at hsend
    exact ⟨_, hsend, rfl, context_setCtx .., rfl⟩
  · change execTriggerPacketEnd k s = _
    unfold execTriggerPacketEnd
    simp only [hbusy, hd]
    rfl
  · change execTriggerPacketEnd k s = _
    unfold execTriggerPacketEnd
    simp only [hbusy]
    rfl
  · by_contra hn
    simp only [Bool.or_eq_true, Bool.not_eq_true', not_or, Bool.not_eq_false, Bool.not_eq_true] at hn
    exact hr ⟨hn.1.1, hn.1.2, hn.2⟩

end Sys2Proof.Proofs

/-! Camera control requests (R221), and the order of an epoch (R266). -/

namespace Sys2Proof.Proofs

open Sys2Proof.Machine Sys2Proof.Safety Sys2Proof.Laws

/-! ### Camera control -/

section
variable (s : State) (k : Nat)

/-- A request put behind an empty queue goes out where no other is outstanding and the master lane is up. -/
theorem pumpControl_sends (c : CtrlReq) (x : Context) (hctrl : x.ctrl = none) (hqueue : x.ctrlQueue = [c])
    (hup : s.get .cxpLaneState (s.get .cxpSrcMaster k) = lnUp) :
    ∃ y : Context, y.ctrl = some c ∧
      pumpControl (s.setCtx k x) k = ((s.setCtx k x).setCtx k y).emit (.control k c.write c.addr c.data) := by
  refine ⟨{ (if c.settle then openSettle x else x) with ctrl := some c, ctrlQueue := [] }, rfl, ?_⟩
  unfold pumpControl
  rw [context_setCtx, hqueue]
  rw [List.length_singleton, sendControl]
  simp only [context_setCtx, hctrl, hqueue, get_setCtx, if_pos hup]

theorem pumpControl_idle (h : (s.context k).ctrlQueue = []) : pumpControl s k = s := by
  rw [pumpControl, h]
  rfl

theorem postControl_sends (c : CtrlReq)
    (hstale : ((((s.mbox (fwMbox s c.req.sender.toNat)).msgs.find? (carriesControl c.req)).map
      (fun e => e.stale)).getD false) = false)
    (howner : senderFn s c.req.sender.toNat = k + 1) (hserving : serving s = true) (hhold : s.mgmt.hold = .none)
    (hresetting : (s.context k).resetting = false) (hctrl : (s.context k).ctrl = none)
    (hqueue : (s.context k).ctrlQueue = []) (hup : s.get .cxpLaneState (s.get .cxpSrcMaster k) = lnUp) :
    ((postControl s k c).context k).ctrl = some c ∧
      (postControl s k c).tx = .control k c.write c.addr c.data :: s.tx := by
  have hserved : (!serving s || s.mgmt.hold != .none || (s.context k).resetting) = false := by
    rw [hserving, hhold, hresetting]
    rfl
  unfold postControl
  dsimp only
  rw [hstale, if_neg (by decide), if_neg (not_not.mpr howner), hserved, if_neg (by decide)]
  generalize hs1 : s.setMbox _ _ = s1
  have hctx : s1.context k = s.context k := hs1 ▸ rfl
  have hup1 : s1.get .cxpLaneState (s1.get .cxpSrcMaster k) = lnUp := hs1 ▸ hup
  have htx : s1.tx = s.tx := hs1 ▸ rfl
  rw [hctx]
  obtain ⟨y, hy, hpump⟩ := pumpControl_sends s1 k c
    { s.context k with ctrlQueue := (s.context k).ctrlQueue ++ [c] } hctrl (by rw [hqueue]; rfl) hup1
  rw [hpump]
  exact ⟨(congrArg Context.ctrl (context_setCtx ..)).trans hy, congrArg (_ :: ·) htx⟩

/-- The outcome of the request outstanding, with none behind it: its completion, and no request is left. -/
theorem endControl_completes (outcome : Nat) (data : List Byte) (c : CtrlReq) (hctrl : (s.context k).ctrl = some c)
    (hqueue : (s.context k).ctrlQueue = []) : ∃ t : State, (t.context k).ctrl = none ∧
      endControl s k outcome data = answer t c.req cOk (BitVec.ofNat 32 outcome ::
        (List.range 5).map (fun i => BitVec.ofNat 32 (leNat ((data.drop (4 * i)).take 4)))) := by
  refine ⟨s.setCtx k { (if c.settle then endSettle (s.context k) else s.context k) with ctrl := none },
    congrArg Context.ctrl (context_setCtx ..), ?_⟩
  unfold endControl
  simp only [hctrl]
  apply pumpControl_idle
  rw [State.context, ctxs_answer, ← State.context, context_setCtx]
  dsimp only
  split
  · exact hqueue
  · exact hqueue

end

/-- Settles O40: an empty queue takes the request and sends it; an outcome with nothing behind it only completes. -/
theorem cameraControlAnswers : Obligations.CameraControlAnswers := by
  refine fun s r k settle addr len data => ⟨?_, fun c hctrl hqueue => ⟨?_, ?_⟩⟩
  · rintro ⟨hstale, howner, hserving, hhold, hresetting, hctrl, hqueue, hup⟩
    have hsends := fun c : CtrlReq => fun hr : c.req = r => postControl_sends s k.val c (hr ▸ hstale) (hr ▸ howner)
      hserving hhold hresetting hctrl hqueue hup
    exact ⟨⟨_, rfl, hsends _ rfl⟩, ⟨_, rfl, hsends _ rfl⟩⟩
  · obtain ⟨t, ht, hend⟩ := endControl_completes s k.val 0 data c hctrl hqueue
    exact ⟨t, congrArg Host.Outcome.next hend, ht⟩
  · obtain ⟨t, ht, hend⟩ := endControl_completes s k.val 1 [] c hctrl hqueue
    exact ⟨t, congrArg Host.Outcome.next hend, ht⟩

/-! ### The order of an epoch -/

theorem swapAt_perm {l : List Nat} {i j : Nat} (hi : i < l.length) (hj : j < l.length) : (swapAt l i j).Perm l := by
  rw [swapAt, List.getD_eq_getElem _ _ hi, List.getD_eq_getElem _ _ hj]
  exact List.set_set_perm hi hj

theorem high64_le (x : BitVec 64) (i : Nat) : high64 x.toNat (i + 1) ≤ i := by
  have hproduct : x.toNat * (i + 1) < 2 ^ 64 * (i + 1) := Nat.mul_lt_mul_of_pos_right x.isLt (Nat.succ_pos i)
  have := Nat.div_lt_of_lt_mul hproduct
  exact (Nat.mod_le ..).trans (by omega)

/-- Swapping positions of a list, one swap after another, permutes it. -/
theorem foldl_swapAt_perm (f : Nat → Nat) (is : List Nat) {n : Nat} (l : List Nat) (hlen : l.length = n)
    (h : ∀ i ∈ is, i < n ∧ f i < n) : (is.foldl (fun perm i => swapAt perm i (f i)) l).Perm l := by
  induction is generalizing l with
  | nil => exact .refl _
  | cons i is ih =>
    obtain ⟨hi, hf⟩ := h i (List.mem_cons_self ..)
    have hswap := swapAt_perm (hlen ▸ hi) (hlen ▸ hf)
    exact (ih _ (hswap.length_eq.trans hlen) (fun j hj => h j (List.mem_cons_of_mem _ hj))).trans hswap

/-- Settles O43: every swap is of two positions of the list, as the draw for place i is at most i. -/
theorem epochOrderIsAPermutation : Obligations.EpochOrderIsAPermutation := by
  refine fun seed e n => foldl_swapAt_perm _ _ _ List.length_range (fun i hi => ?_)
  have hlt : i < n := List.mem_range.mp (List.mem_of_mem_drop (List.mem_reverse.mp hi))
  exact ⟨hlt, (high64_le ..).trans_lt hlt⟩

end Sys2Proof.Proofs

/-! Training of the Rhasha ports (R279 to R282, R301). -/

namespace Sys2Proof.Proofs

open Sys2Proof.Machine Sys2Proof.Safety Sys2Proof.Laws

/-! ### What the clock's following of a port changes -/

/-- The registers that following a port's clock, or leaving it, may change. -/
def clkRegs : List Fld :=
  [.rhClkStratum, .rhClkLocked, .rhClkLockedTo, .clkSource, .clkSwitched, .clkRamping, .evlogHead, .evlogWrap]

section
variable (s : State)

theorem ports_logEvent (code source severity : Nat) (details : List Nat) :
    (logEvent s code source severity details).ports = s.ports := by
  unfold logEvent fireVector
  dsimp only
  split <;> split <;> rfl

theorem keepsRegs_leavePort : keepsRegs clkRegs s (leavePort s) := by
  intro f i hf
  simp only [clkRegs, List.mem_cons, List.not_mem_nil, or_false, not_or] at hf
  obtain ⟨-, -, -, hsource, hswitched, hramping, hhead, hwrap⟩ := hf
  have hlog : ∀ (t : State) code source severity details,
      (logEvent t code source severity details).get f i = t.get f i :=
    fun t code source severity details => keepsRegs_logEvent t code source severity details f i (by simp [hhead, hwrap])
  unfold leavePort
  split
  · rfl
  · split
    · unfold chooseSource
      dsimp only
      rw [if_neg (by decide), hlog]
      exact (get_put_ne _ hramping ..).trans ((get_put_ne _ hswitched ..).trans (get_put_ne _ hsource ..))
    · unfold enterHoldover
      rw [hlog, get_put_ne _ hswitched]
      exact (get_put_ne _ hramping ..).trans (get_put_ne _ hsource ..)

theorem ports_leavePort : (leavePort s).ports = s.ports := by
  unfold leavePort
  split
  · rfl
  · split
    · unfold chooseSource
      dsimp only
      rw [if_neg (by decide), ports_logEvent]
      rfl
    · exact ports_logEvent ..

theorem keepsRegs_updateClk : keepsRegs clkRegs s (updateClk s) := by
  intro f i hf
  have hne := hf
  simp only [clkRegs, List.mem_cons, List.not_mem_nil, or_false, not_or] at hne
  obtain ⟨hstratum, hlocked, hto, -⟩ := hne
  have hput : ∀ a b c, (((s.put .rhClkStratum 0 a).put .rhClkLocked 0 b).put .rhClkLockedTo 0 c).get f i = s.get f i :=
    fun a b c => (get_put_ne _ hto ..).trans ((get_put_ne _ hlocked ..).trans (get_put_ne _ hstratum ..))
  unfold updateClk
  dsimp only
  split
  · exact hput ..
  · split
    · exact hput ..
    · exact (keepsRegs_leavePort _ f i hf).trans (hput ..)

theorem ports_updateClk : (updateClk s).ports = s.ports := by
  unfold updateClk
  dsimp only
  split
  · rfl
  · split
    · rfl
    · exact ports_leavePort _

@[simp] theorem port_updateClk (p : Nat) : (updateClk s).port p = s.port p := by
  rw [State.port, ports_updateClk]
  rfl

theorem get_updateClk {f : Fld} (hf : f ∉ clkRegs) (i : Nat) : (updateClk s).get f i = s.get f i :=
  keepsRegs_updateClk s f i hf

theorem flag_updateClk {f : Fld} (hf : f ∉ clkRegs) (i : Nat) : (updateClk s).flag f i = s.flag f i := by
  rw [State.flag, get_updateClk s hf]
  rfl

/-! ### What a link sends -/

theorem mem_tx_logEvent {x : Tx} (h : x ∈ s.tx) (code source severity : Nat) (details : List Nat) :
    x ∈ (logEvent s code source severity details).tx := by
  unfold logEvent fireVector
  dsimp only
  split <;> split <;> simp [State.emit, h]

theorem mem_tx_leavePort {x : Tx} (h : x ∈ s.tx) : x ∈ (leavePort s).tx := by
  unfold leavePort
  split
  · exact h
  · split
    · unfold chooseSource
      dsimp only
      rw [if_neg (by decide)]
      exact mem_tx_logEvent _ (by exact h) ..
    · exact mem_tx_logEvent _ (by exact h) ..

theorem mem_tx_updateClk {x : Tx} (h : x ∈ s.tx) : x ∈ (updateClk s).tx := by
  unfold updateClk
  dsimp only
  split
  · exact h
  · split
    · exact h
    · exact mem_tx_leavePort _ (by exact h)

theorem regs_transmit (p : Nat) (pkt : Packet) : (transmit s p pkt).regs = s.regs := by
  unfold transmit
  dsimp only
  split <;> rfl

theorem regs_drainWaiting (n p : Nat) : (drainWaiting n s p).regs = s.regs := by
  induction n generalizing s with
  | zero => rfl
  | succ n ih =>
    rw [drainWaiting]
    split
    · rfl
    · split
      · exact (ih _).trans (regs_transmit ..)
      · rfl

theorem regs_emitPackets (p : Nat) (l : List Packet) :
    (l.foldl (fun s pkt => s.emit (.packet p pkt)) s).regs = s.regs := by
  induction l generalizing s with
  | nil => rfl
  | cons a l ih => exact ih _

/-! ### Entering a state -/

/-- A port that enters DETECT, or DISABLED, holds no rate, no lane and no CAP; its replay buffer is kept. -/
theorem enterDetect_detects (p : Nat) :
    (enterDetect s p).get .rhState p =
        (if (s.flag .rhPortEn p && soundLanes s p != 0) = true then lnkDetect else lnkDisabled) ∧
      (enterDetect s p).get .rhRate p = 0 ∧ (enterDetect s p).get .rhLanes p = 0 ∧
      ((enterDetect s p).port p).capRun = [] ∧ ((enterDetect s p).port p).unacked = (s.port p).unacked ∧
      ((enterDetect s p).port p).lastGen = (s.port p).lastGen := by
  have hst : (if (s.flag .rhPortEn p && soundLanes s p != 0) = true then lnkDetect else lnkDisabled) <
      2 ^ Fld.rhState.info.width := by
    split <;> decide
  unfold enterDetect
  dsimp only
  generalize (if (s.flag .rhPortEn p && soundLanes s p != 0) = true then lnkDetect else lnkDisabled) = st at hst ⊢
  generalize hx : s.setPort p _ = s1
  have hregs : ∀ t u : State, u = updateClk ((((s1.put .rhState p st).put .rhRate p 0).put .rhLanes p 0).put
      .rhNarrowed p 0) → t.regs = u.regs → t.ports = u.ports →
      t.get .rhState p = st ∧ t.get .rhRate p = 0 ∧ t.get .rhLanes p = 0 ∧
        (t.port p).capRun = [] ∧ (t.port p).unacked = (s.port p).unacked ∧ (t.port p).lastGen = (s.port p).lastGen := by
    rintro t u rfl hregs hports
    rw [get_of_regs hregs, get_of_regs hregs, get_of_regs hregs, State.port, hports, ← State.port, port_updateClk,
      get_updateClk _ (by decide), get_updateClk _ (by decide), get_updateClk _ (by decide)]
    simp only [get_put, reduceCtorEq, false_and, if_false, and_self, if_true, port_put, ← hx, port_setPort]
    exact ⟨Nat.mod_eq_of_lt hst, rfl, rfl, trivial⟩
  split
  · exact hregs _ _ rfl rfl rfl
  · exact hregs _ _ rfl rfl rfl

theorem regs_enterActive (p : Nat) {f : Fld} (hf : f ∉ clkRegs) (i : Nat) :
    (enterActive s p).get f i = (s.put .rhState p lnkActive).get f i := by
  unfold enterActive drainPort
  dsimp only
  rw [get_updateClk _ hf]
  exact get_of_regs ((regs_drainWaiting ..).trans ((regs_emitPackets ..).trans rfl)) ..

end

theorem capWord_setPort (s : State) (p v : Nat) {x : Port} (hlanes : x.laneEn = (s.port p).laneEn) (ack : Bool) :
    capWord ((s.setPort p x).put .rhState p v) p ack = capWord s p ack := by
  unfold capWord goodLanes soundLanes ownModule
  rw [port_put, port_setPort, hlanes, get_put_ne _ (by decide), get_put_ne _ (by decide), get_setPort, get_setPort]
  rfl

/-- Good lanes that lock take a port from DETECT to CAP. -/
theorem locked_detect (s : State) (p : Nat) {lanes : Nat} (hdetect : s.get .rhState p = lnkDetect)
    (hgood : lanes &&& goodLanes s p ≠ 0) : ∃ x : Port, x.ready = BitVec.ofNat 4 (lanes &&& goodLanes s p) ∧
      locked s p lanes = ((s.setPort p x).put .rhState p lnkCap).emit
        (.cap p (BitVec.ofNat 64 (capWord s p false))) := by
  let x : Port := { s.port p with
    ready := BitVec.ofNat 4 (lanes &&& goodLanes s p)
    capLane := (List.range 4).find? (bitAt (lanes &&& goodLanes s p)), capRun := [], capAcked := false }
  refine ⟨x, rfl, ((if_pos hdetect).trans (if_neg hgood)).trans ?_⟩
  change sendCap ((s.setPort p x).put .rhState p lnkCap) p false = _
  rw [sendCap, capWord_setPort (x := x) s p _ rfl]

/-! ### The sweep of a lane -/

/-- One code more of a run: the run that goes on and the longest one, each with its first code and its length. -/
def runStep (a : (Nat × Nat) × (Nat × Nat)) (good : Bool) : (Nat × Nat) × (Nat × Nat) :=
  let cur := if good then (a.1.1, a.1.2 + 1) else (a.1.1 + a.1.2 + 1, 0)
  (cur, if a.2.2 < cur.2 then cur else a.2)

theorem longestRun_eq (l : List Bool) : longestRun l = (l.foldl runStep ((0, 0), (0, 0))).2 := rfl

/-- What the two runs say of the codes judged so far. -/
structure RunsOf (l : List Bool) (a : (Nat × Nat) × (Nat × Nat)) : Prop where
  ends : a.1.1 + a.1.2 = l.length
  within : a.2.1 + a.2.2 ≤ l.length
  current : ∀ i, a.1.1 ≤ i → i < l.length → l[i]? = some true
  longest : ∀ i, a.2.1 ≤ i → i < a.2.1 + a.2.2 → l[i]? = some true
  bounded : a.1.2 ≤ a.2.2
  none : a.2.2 = 0 → ∀ b ∈ l, b = false

theorem runsOf_step {l : List Bool} {a : (Nat × Nat) × (Nat × Nat)} (h : RunsOf l a) (good : Bool) :
    RunsOf (l ++ [good]) (runStep a good) := by
  obtain ⟨⟨c, n⟩, ⟨d, m⟩⟩ := a
  obtain ⟨hends, hwithin, hcurrent, hlongest, hbounded, hnone⟩ := h
  dsimp only at *
  have hold : ∀ i v, l[i]? = some v → (l ++ [good])[i]? = some v := fun i v hi =>
    (List.getElem?_append_left (List.getElem?_eq_some_iff.mp hi).1).trans hi
  have hlen : (l ++ [good]).length = l.length + 1 := List.length_append
  cases good with
  | false =>
    refine ⟨?_, ?_, fun i hi hlt => ?_, fun i hi hlt => hold i _ (hlongest i hi hlt), Nat.zero_le _, fun hm b hb => ?_⟩
    · simp only [runStep, hlen]
      exact congrArg (· + 1) hends
    · rw [hlen]
      exact Nat.le_succ_of_le hwithin
    · simp only [runStep] at hi
      simp only [hlen] at hlt
      exact absurd hi (by simp; omega)
    · obtain hb | hb := List.mem_append.mp hb
      · exact hnone hm b hb
      · exact List.mem_singleton.mp hb
  | true =>
    have hrun : ∀ i, c ≤ i → i < l.length + 1 → (l ++ [true])[i]? = some true := fun i hi hlt => by
      obtain hlt | rfl := Nat.lt_succ_iff_lt_or_eq.mp hlt
      · exact hold i _ (hcurrent i hi hlt)
      · simp
    by_cases hm : m < n + 1
    · have hstep : runStep ((c, n), (d, m)) true = ((c, n + 1), (c, n + 1)) := by simp [runStep, hm]
      rw [hstep]
      refine ⟨?_, ?_, fun i hi hlt => hrun i hi (hlen ▸ hlt), fun i hi hlt => hrun i hi ?_, le_rfl,
        fun h => absurd h (Nat.succ_ne_zero n)⟩
      all_goals dsimp only at *; omega
    · have hstep : runStep ((c, n), (d, m)) true = ((c, n + 1), (d, m)) := by simp [runStep, hm]
      rw [hstep]
      refine ⟨?_, ?_, fun i hi hlt => hrun i hi (hlen ▸ hlt), fun i hi hlt => hold i _ (hlongest i hi hlt), ?_, ?_⟩
      all_goals dsimp only at *; omega

theorem runsOf_foldl (m : List Bool) {l : List Bool} {a : (Nat × Nat) × (Nat × Nat)} (h : RunsOf l a) :
    RunsOf (l ++ m) (m.foldl runStep a) := by
  induction m generalizing l a with
  | nil => simpa using h
  | cons b m ih => simpa using ih (runsOf_step h b)

theorem runsOf_all (l : List Bool) : RunsOf l (l.foldl runStep ((0, 0), (0, 0))) :=
  runsOf_foldl (l := []) (a := ((0, 0), (0, 0))) l ⟨rfl, le_rfl, fun i _ h => absurd h (Nat.not_lt_zero i),
    fun i _ h => absurd h (Nat.not_lt_zero i), le_rfl, by simp⟩

/-- The code chosen is one of the longest run, which holds good codes only. -/
theorem sweepChoice_good (l : List (Nat × Bool)) {c : Nat} (h : sweepChoice l = some c) :
    ∃ h : c < l.length, (l[c]).2 = true := by
  have hruns := runsOf_all (l.map (fun e => e.2))
  rw [sweepChoice, longestRun_eq] at h
  generalize (l.map (fun e => e.2)).foldl runStep ((0, 0), (0, 0)) = a at h hruns
  obtain ⟨_, ⟨d, m⟩⟩ := a
  dsimp only at h
  split at h
  · cases h
  · next hm =>
    obtain rfl := Option.some.inj h
    have hgood := hruns.longest (d + (m - 1) / 2) (by dsimp only; omega) (by dsimp only; omega)
    rw [List.getElem?_map, Option.map_eq_some_iff] at hgood
    obtain ⟨e, he, htrue⟩ := hgood
    obtain ⟨hlt, rfl⟩ := List.getElem?_eq_some_iff.mp he
    exact ⟨hlt, htrue⟩

theorem sweepChoice_none_iff (l : List (Nat × Bool)) : sweepChoice l = none ↔ ∀ e ∈ l, e.2 = false := by
  constructor
  · have hruns := runsOf_all (l.map (fun e => e.2))
    rw [sweepChoice, longestRun_eq]
    intro h e he
    split at h
    · next hm => exact hruns.none hm e.2 (List.mem_map_of_mem he)
    · cases h
  · intro h
    by_contra hn
    obtain ⟨c, hc⟩ := Option.ne_none_iff_exists'.mp hn
    obtain ⟨hlt, hgood⟩ := sweepChoice_good l hc
    exact absurd (h _ (List.getElem_mem hlt)) (by simp [hgood])

/-- Settles O44: each step of training is one branch of its command, and what enters DETECT or ACTIVE does so alike. -/
theorem portsTrain : Obligations.PortsTrain := by
  refine ⟨fun s p => ⟨fun h => ?_, fun fn h => if_neg (fun h0 => h (Fin.ext h0)), fun h => ?_, fun h => ?_,
    fun lanes h hl => ?_, fun h hdup => ?_, fun w crc h => ⟨fun hcrc => ?_, fun hcrc => ?_⟩, fun h hready => ?_,
    fun code lanes h hcode hlanes => ?_, fun h hfailed => ?_, fun lanes h hfailed htarget hl => ?_,
    fun h hfailed => ?_⟩, ?_, fun l c => sweepChoice_good l, sweepChoice_none_iff⟩
  · have henter : enterRetrain s p.val = updateClk (((s.setPort p.val { s.port p.val with suspended := true }).put
        .rhState p.val lnkRetrain).emit (.rate p.val 0 15)) := if_pos (beq_iff_eq.mpr h)
    refine ⟨enterRetrain s p.val, rfl, ?_⟩
    rw [henter, get_updateClk _ (by decide), port_updateClk]
    refine ⟨get_put_same .., congrArg Port.suspended (port_setPort ..), mem_tx_updateClk _ (List.mem_cons_self ..)⟩
  · obtain ⟨hstate, hrate, hlanes, hcap, hbuf, -⟩ := enterDetect_detects s p.val
    exact ⟨_, if_pos h, hstate, hrate, hlanes, hcap, hbuf⟩
  · obtain ⟨hstate, hrate, hlanes, hcap, hbuf, hgen⟩ :=
      enterDetect_detects (s.setPort p.val { s.port p.val with lastGen := none }) p.val
    rw [port_setPort] at hbuf hgen
    exact ⟨_, if_pos h, ⟨hstate, hrate, hlanes, hcap, hbuf⟩, hgen⟩
  · obtain ⟨x, hready, hlock⟩ := locked_detect s p.val h hl
    refine ⟨_, congrArg Host.Outcome.next hlock, get_put_same .., ?_, rfl⟩
    refine (congrArg (fun x : Port => x.ready.toNat) (port_setPort s p.val x)).trans ?_
    rw [hready]
    exact (BitVec.toNat_ofNat ..).trans (Nat.mod_eq_of_lt (Nat.and_le_left.trans_lt lanes.isLt))
  · obtain ⟨hstate, hrate, hlanes, hcap, hbuf, -⟩ := enterDetect_detects s p.val
    exact ⟨_, if_pos ⟨h, hdup⟩, hstate, hrate, hlanes, hcap, hbuf⟩
  · exact (if_pos h).trans (if_pos hcrc)
  · exact (if_pos h).trans (if_neg hcrc)
  · change execWidenTimeout p s = _
    unfold execWidenTimeout
    rw [if_pos h]
    dsimp only
    rw [if_neg hready]
  · have hnot : ¬(s.get .rhState p.val = lnkActive ∧ code = 0) := fun hn => absurd (h.symm.trans hn.1) (by decide)
    have hexec : exec (.rateReceived p code lanes) s = _ := (if_neg hnot).trans (if_pos ⟨.inr h, hcode⟩)
    rw [if_neg hlanes] at hexec
    have hin : s.get .rhLanes p.val &&& lanes.toNat < 2 ^ Fld.rhLanes.info.width :=
      Nat.and_le_right.trans_lt lanes.isLt
    refine ⟨_, hexec, ?_, congrArg Port.target (port_setPort ..), congrArg Port.stepFrom (port_setPort ..),
      (get_put_same ..).trans (Nat.mod_eq_of_lt hin)⟩
    exact (get_put_ne _ (by decide) ..).trans (get_put_same ..)
  · have hstep : exec (.stepTimeout p) s = _ := (if_pos h).trans (if_neg (by simp [hfailed]))
    exact ⟨_, hstep, h, rfl, congrArg Port.failedCode (port_setPort ..), congrArg Port.target (port_setPort ..)⟩
  · have hsome : (s.port p.val).failedCode.isSome = true := Option.isSome_iff_ne_none.mpr hfailed
    have hrate : (s.port p.val).target < 2 ^ Fld.rhRate.info.width := htarget.trans_lt (by decide)
    have hlocked : ∃ t : State, locked s p.val lanes.toNat = enterActive t p.val ∧
        t.get .rhRate p.val = (s.port p.val).target := by
      unfold locked
      dsimp only
      rw [if_neg (h ▸ by decide), if_neg (h ▸ by decide), if_pos h, if_neg hl, if_pos hsome]
      refine ⟨_, rfl, (get_put_ne _ (by decide) ..).trans ?_⟩
      split
      · exact (get_put_same ..).trans (Nat.mod_eq_of_lt hrate)
      · exact (get_put_ne _ (by decide) ..).trans ((get_put_same ..).trans (Nat.mod_eq_of_lt hrate))
    obtain ⟨t, ht, htrate⟩ := hlocked
    refine ⟨_, congrArg Host.Outcome.next ht, ?_, ?_⟩
    · rw [regs_enterActive _ _ (by decide), get_put_same]
      rfl
    · rw [regs_enterActive _ _ (by decide), get_put_ne _ (by decide), htrate]
  · obtain ⟨hstate, hrate, hlanes, hcap, hbuf, -⟩ := enterDetect_detects s p.val
    exact ⟨_, (if_pos h).trans (if_pos (Option.isSome_iff_ne_none.mpr hfailed)), hstate, hrate, hlanes, hcap, hbuf⟩
  · intro s p lane errors w i hover hlen hst
    have hgo : (s.flag .rhEqOverride i || decide (16 ≤ w.length) ||
        !(s.get .rhState p.val == lnkWiden || s.get .rhState p.val == lnkStep)) = false := by
      have hnot : ¬16 ≤ w.length := Nat.not_le.mpr hlen
      obtain hst | hst := hst <;> simp [hover, hnot, hst]
    have hexec : exec (.eqCodeDwell p lane errors) s = _ := if_neg (Bool.eq_false_iff.mp hgo)
    have hlength : (w ++ [(w.length, errors == 0)]).length = w.length + 1 := List.length_append
    have hsweep : ∀ t : State, t.ports = (s.setPort p.val { s.port p.val with
        sweep := (s.port p.val).sweep.set lane.val (w ++ [(w.length, errors == 0)]) }).ports →
        (t.port p.val).sweep.get [] lane.val = w ++ [(w.length, errors == 0)] := by
      intro t ht
      rw [State.port, ht, ← State.port, port_setPort]
      exact tab_get_set_same ..
    rw [hexec]
    cases hchoice : (if (w ++ [(w.length, errors == 0)]).length = 16 then sweepChoice (w ++ [(w.length, errors == 0)])
      else none) with
    | none =>
      refine ⟨_, rfl, hsweep _ rfl, fun _ => rfl, fun c h15 hc => ?_⟩
      rw [if_pos (by rw [hlength, h15]), h15, hc] at hchoice
      cases hchoice
    | some d =>
      refine ⟨_, rfl, hsweep _ rfl, fun hshort => ?_, fun c h15 hc => ?_⟩
      · rw [if_neg (by rw [hlength]; omega)] at hchoice
        cases hchoice
      · rw [if_pos (by rw [hlength, h15]), h15, hc] at hchoice
        obtain rfl := Option.some.inj hchoice
        exact get_put_same ..

end Sys2Proof.Proofs

/-! The link layer of the Rhasha ports: heartbeats, links that go down, acknowledgements (R278, R284 to R287). -/

namespace Sys2Proof.Proofs

open Sys2Proof.Machine Sys2Proof.Safety Sys2Proof.Laws

/-! ### What runs on after a link went down leaves of it -/

/-- A link that is down: its port, how often it went down, and the event log. -/
structure LinkOff (p : Nat) (x : Port) (n : Nat) (l : List LogEntry) (s : State) : Prop where
  state : s.get .rhState p = lnkDown
  port : s.port p = x
  count : s.get .rhDown p = n
  log : s.log = l

section
variable {s : State} {p : Nat} {x : Port} {n : Nat} {l : List LogEntry} (h : LinkOff p x n l s)
include h

theorem linkOff_put {f : Fld} (hstate : f ≠ .rhState) (hdown : f ≠ .rhDown) (i v : Nat) :
    LinkOff p x n l (s.put f i v) :=
  ⟨(get_put_ne _ hstate.symm ..).trans h.state, h.port, (get_put_ne _ hdown.symm ..).trans h.count, h.log⟩

theorem linkOff_setChase (k : Nat) (c : Chase) : LinkOff p x n l (s.setChase k c) := ⟨h.state, h.port, h.count, h.log⟩

theorem linkOff_emit (t : Tx) : LinkOff p x n l (s.emit t) := ⟨h.state, h.port, h.count, h.log⟩

theorem linkOff_setPort {q : Nat} (hq : p ≠ q) (y : Port) : LinkOff p x n l (s.setPort q y) :=
  ⟨h.state, (tab_get_set_other _ _ _ hq).trans h.port, h.count, h.log⟩

theorem linkOff_transmit {q : Nat} (hq : p ≠ q) (pkt : Packet) : LinkOff p x n l (transmit s q pkt) := by
  unfold transmit
  dsimp only
  split
  · exact linkOff_emit (linkOff_setPort h hq _) _
  · exact linkOff_setPort h hq _

theorem linkOff_sendOn {q : Nat} (hq : p ≠ q) (pkt : Packet) : LinkOff p x n l (sendOn s q pkt) := by
  unfold sendOn
  dsimp only
  split
  · exact linkOff_transmit (linkOff_setPort h hq _) hq _
  · exact linkOff_setPort h hq _

/-- No packet goes out on a link that is down. -/
theorem linkOff_sendCtrl (dest : Nat) (m : CtrlMsg) : LinkOff p x n l (sendCtrl s dest m) := by
  have hunrouted := linkOff_put h (f := .rhUnroutable) (by decide) (by decide)
  unfold sendCtrl
  split
  · next q _ =>
    split
    · next hserves =>
      refine linkOff_sendOn h (fun hq => ?_) _
      rw [linkServes, linkActive, ← hq, h.state] at hserves
      exact absurd hserves (by simp [lnkDown, lnkActive])
    · exact hunrouted ..
  · exact hunrouted ..

end

section
variable {p : Nat} {x : Port} {n : Nat} {l : List LogEntry}

theorem linkOff_foldl {α : Type} {g : State → α → State}
    (hg : ∀ s a, LinkOff p x n l s → LinkOff p x n l (g s a)) (as : List α) {s : State} (h : LinkOff p x n l s) :
    LinkOff p x n l (as.foldl g s) := by
  induction as generalizing s with
  | nil => exact h
  | cons a as ih => exact ih (hg s a h)

variable {s : State} (h : LinkOff p x n l s)
include h

theorem linkOff_sendToMask (mask : BitVec 16) (m : CtrlMsg) : LinkOff p x n l (sendToMask s mask m) := by
  refine linkOff_foldl (fun s d h => ?_) _ h
  split
  · exact linkOff_sendCtrl h ..
  · exact h

theorem linkOff_propose (k : Nat) : LinkOff p x n l (propose s k) := by
  unfold propose
  dsimp only
  split
  · exact linkOff_setChase (linkOff_sendToMask (linkOff_setChase h ..) ..) ..
  · exact linkOff_sendToMask (linkOff_setChase h ..) ..

theorem linkOff_wantPropose (k : Nat) : LinkOff p x n l (wantPropose s k) := by
  unfold wantPropose
  split
  · split
    · exact linkOff_setChase h ..
    · exact linkOff_propose h ..
  · exact h

theorem linkOff_markMissing (k code : Nat) (hit : SortOut → Bool) : LinkOff p x n l (markMissing s k code hit) := by
  refine linkOff_foldl (fun s _ h => ?_) _ (linkOff_setChase h ..)
  unfold countMissing
  split
  · exact linkOff_put h (by decide) (by decide) ..
  · exact linkOff_put h (by decide) (by decide) ..

theorem linkOff_modulesLost (mask : BitVec 16) (hit : SortOut → Bool) (named : Bool) :
    LinkOff p x n l (modulesLost s mask hit named) := by
  refine linkOff_foldl (fun s k h => ?_) _ h
  have hnamed : ∀ c : Chase, LinkOff p x n l (if named then
      (markMissing s k cNoExpert hit).setChase k c else markMissing s k cNoExpert hit) := fun c => by
    split
    · exact linkOff_setChase (linkOff_markMissing h ..) ..
    · exact linkOff_markMissing h ..
  dsimp only
  generalize hs : (if named = true then _ else _) = s1
  have h1 : LinkOff p x n l s1 := hs ▸ hnamed _
  split
  · exact linkOff_put (linkOff_wantPropose h1 k) (by decide) (by decide) ..
  · exact h1

theorem linkOff_sendUnreach (mask : BitVec 16) : LinkOff p x n l (sendUnreach s mask) := linkOff_sendToMask h ..

end

/-- An entry among the newest 4,095 is still in the log after one entry more. -/
theorem mem_log_logEvent (s : State) {e : LogEntry} (h : e ∈ s.log.take 4095) (code source severity : Nat)
    (details : List Nat) : e ∈ (logEvent s code source severity details).log := by
  rw [logEvent_log, List.take_succ_cons]
  exact List.mem_cons_of_mem _ h

theorem mem_log_updateClk (s : State) {e : LogEntry} (h : e ∈ s.log.take 4095) : e ∈ (updateClk s).log := by
  have hleave : ∀ t : State, t.log = s.log → e ∈ (leavePort t).log := fun t ht => by
    rw [← ht] at h
    unfold leavePort
    split
    · exact List.mem_of_mem_take h
    · split
      · unfold chooseSource
        dsimp only
        rw [if_neg (by decide)]
        exact mem_log_logEvent _ (by exact h) ..
      · exact mem_log_logEvent _ (by exact h) ..
  unfold updateClk
  dsimp only
  split
  · exact List.mem_of_mem_take h
  · split
    · exact List.mem_of_mem_take h
    · exact hleave _ rfl

/-- The port of a link that starts anew. -/
theorem port_clearLink (s : State) (p : Nat) : (clearLink s p).port p = { s.port p with
    txSeq := 0, rxExpected := 0, nakSent := false, unacked := [], waiting := [], through := [],
    lastThrough := false, resends := 0, accepted := 0, ackDue := false, hbSeen := false, suspended := false } :=
  port_setPort ..

/-- The state and the log of a link that went down, once everything it sets off has run. -/
theorem linkDown_off (s : State) (p : Nat) : ∃ t e l, linkDown s p = updateClk t ∧
    LinkOff p ((clearLink s p).port p) (min (s.get .rhDown p + 1) 0xFFFFFFFF) ((e :: l).take 4096) t ∧
    e.code = 0x0020 ∧ e.seq = s.logSeq := by
  unfold linkDown
  dsimp only
  generalize hs : State.emit _ _ = s1
  have hoff : LinkOff p ((clearLink s p).port p) (min (s.get .rhDown p + 1) 0xFFFFFFFF)
      ((⟨s1.now, s1.logSeq, 0x0020, srcBlock 8, 1, [p, s1.get .rhPartner p, 0, 0]⟩ : LogEntry) :: s1.log |>.take 4096)
      (logEvent s1 0x0020 (srcBlock 8) 1 [p, s1.get .rhPartner p, 0, 0]) := by
    have hlog : ∀ f, f ∉ [Fld.evlogHead, .evlogWrap] →
        (logEvent s1 0x0020 (srcBlock 8) 1 [p, s1.get .rhPartner p, 0, 0]).get f p = s1.get f p :=
      fun f hf => keepsRegs_logEvent s1 _ _ _ _ f p hf
    refine ⟨(hlog _ (by decide)).trans ?_, ?_, (hlog _ (by decide)).trans ?_, logEvent_log ..⟩
    · rw [← hs]
      exact get_put_same ..
    · rw [State.port, ports_logEvent, ← hs]
      rfl
    · rw [← hs]
      exact (get_put_ne _ (by decide) ..).trans (get_bump_count _ rfl p)
  exact ⟨_, _, _, rfl, linkOff_sendUnreach (linkOff_modulesLost hoff ..) _, rfl, hs ▸ rfl⟩

/-! ### Acknowledgements and replays -/

section
variable (s : State) (p : Nat)

theorem drainPort_idle (hwaiting : (s.port p).waiting = []) (hthrough : (s.port p).through = []) :
    drainPort s p = s := by
  rw [drainPort, hwaiting, hthrough]
  rfl

/-- Packets that go out, oldest first, change nothing but what went out. -/
theorem emitPackets_eq (l : List Packet) :
    (l.foldl (fun s pkt => s.emit (.packet p pkt)) s).tx = (l.map (fun k => Tx.packet p k)).reverse ++ s.tx ∧
      (l.foldl (fun s pkt => s.emit (.packet p pkt)) s).ports = s.ports := by
  induction l generalizing s with
  | nil => exact ⟨rfl, rfl⟩
  | cons a l ih =>
    obtain ⟨htx, hports⟩ := ih (s.emit (.packet p a))
    refine ⟨htx.trans ?_, hports⟩
    rw [List.map_cons, List.reverse_cons, List.append_assoc]
    rfl

theorem resend_eq (l : List Packet) :
    (resend s p l).tx = (l.map (fun k => Tx.packet p k)).reverse ++ s.tx ∧
      (resend s p l).port p = { s.port p with replayAt := some s.clk } ∧ (resend s p l).regs = s.regs := by
  obtain ⟨htx, hports⟩ := emitPackets_eq (s.setPort p { s.port p with replayAt := some s.clk }) p l
  refine ⟨htx, ?_, regs_emitPackets ..⟩
  rw [State.port, resend, hports, ← State.port, port_setPort]

theorem resendAll_replays (h : (s.port p).resends < 4) :
    (resendAll s p).tx = ((s.port p).unacked.map (fun k => Tx.packet p k)).reverse ++ s.tx ∧
      (resendAll s p).port p = { s.port p with resends := (s.port p).resends + 1, replayAt := some s.clk } ∧
      (resendAll s p).regs = s.regs := by
  have hresend : resendAll s p = resend (s.setPort p { s.port p with resends := (s.port p).resends + 1 }) p
      (s.port p).unacked := if_neg (Nat.not_le.mpr h)
  obtain ⟨htx, hport, hregs⟩ := resend_eq (s.setPort p { s.port p with resends := (s.port p).resends + 1 }) p
    (s.port p).unacked
  rw [hresend]
  refine ⟨htx, hport.trans ?_, hregs⟩
  rw [port_setPort]
  rfl

/-- A NAK by the packet it names: the one before the oldest, one that is held, or neither. -/
theorem negative_of_cons {k : Packet} {ks : List Packet} (hcons : (s.port p).unacked = k :: ks) (n : Nat) :
    negative s p n =
      if (n + 1) % 4096 = k.hdr.seq.toNat then (if replayedNow s p then s else resendAll s p)
      else match (s.port p).unacked.findIdx? (fun k => k.hdr.seq.toNat == n) with
        | none => s.bump .rhCodeErr p
        | some i => if replayedNow s p then s else resend s p ((s.port p).unacked.drop (i + 1)) := by
  unfold negative
  dsimp only
  split
  · next h => exact absurd (hcons.symm.trans h) (List.cons_ne_nil k ks)
  · next h =>
    obtain ⟨rfl, -⟩ := List.cons.inj (hcons.symm.trans h)
    rfl

/-- The timer that runs out with packets not acknowledged, before a replay of this cycle. -/
theorem execReplayTimeout_due {p : RhPort} (hruns : linkRuns s p.val = true) (hne : (s.port p.val).unacked ≠ [])
    (hnow : replayedNow s p.val = false) : execReplayTimeout p s =
      .next (resendAll (if 4 ≤ (s.port p.val).resends then s else s.bump .rhReplay p.val) p.val) := by
  unfold execReplayTimeout
  dsimp only
  rw [hruns, hnow, if_neg (by simpa using hne)]

theorem resendAll_retrains (h : 4 ≤ (s.port p).resends) : resendAll s p = enterRetrain s p := if_pos h

end

/-- Settles O45: after a link went down nothing reaches its port, as packets go out on links that serve only. -/
theorem linksKeepTheirPackets : Obligations.LinksKeepTheirPackets := by
  refine ⟨fun s p gen st count => ⟨fun hact hhold => ?_, fun hst => if_neg hst, fun hact => ⟨if_pos hact, if_pos hact,
    fun g hhold hgen hne => ?_, fun hhold hgen => ?_, fun hhold => ?_⟩, fun hsusp hact hst => ?_,
    fun hsusp hst => ?_⟩, fun s p => ?_, fun s p seq => ?_⟩
  · exact if_pos (by rw [hact, hhold]; rfl)
  · change execHbReceived p gen st s = _
    unfold execHbReceived
    dsimp only
    rw [hhold, if_neg (by decide), if_pos hact, if_pos ⟨by rw [hgen]; rfl, by rw [hgen]; simpa using hne⟩]
  · have hexec : exec (.hbReceived p gen st) s = .next (updateClk (s.setPort p.val { s.port p.val with
        lastGen := some gen, hbState := st, hbSeen := true })) := by
      change execHbReceived p gen st s = _
      unfold execHbReceived
      dsimp only
      rw [hhold, if_neg (by decide), if_pos hact, if_neg]
      rintro ⟨hsome, hne⟩
      obtain hgen | hgen := hgen
      · rw [hgen] at hsome
        cases hsome
      · exact hne hgen
    refine ⟨_, hexec, ?_⟩
    rw [port_updateClk, port_setPort]
    exact ⟨rfl, rfl, rfl, keepsRegs_updateClk _⟩
  · exact if_pos (by rw [linkRuns, hact, hhold]; rfl)
  · change execSuspensionTimeout p s = _
    unfold execSuspensionTimeout
    rw [hsusp, hact, if_neg (by decide), if_neg hst]
  · change execSuspensionTimeout p s = _
    unfold execSuspensionTimeout
    rw [hsusp, linkActive, hst, if_neg (by decide), if_pos rfl]
  · obtain ⟨t, e, l, hdown, ⟨hstate, hport, hcount, hlog⟩, hcode, hseq⟩ := linkDown_off s p
    dsimp only
    rw [hdown, port_updateClk, get_updateClk _ (by decide), get_updateClk _ (by decide), hport, port_clearLink]
    refine ⟨hstate, rfl, rfl, rfl, rfl, rfl, hcount, e, mem_log_updateClk _ ?_, hcode, hseq⟩
    rw [hlog]
    exact List.mem_cons_self ..
  intro x at0 hruns
  have hnak : exec (.nak p seq) s = .next (negative s p.val seq.toNat) := if_pos hruns
  refine ⟨fun i hi hwaiting hthrough => ?_, fun hi => ?_, fun i k ks hcons hne hi hnow => ?_,
    fun k ks hcons heq hnow => ?_, fun hne hnow => ⟨?_, fun hi => ?_⟩, fun hack => ?_, fun hne hfew hnow => ?_,
    fun hne hmany hnow => ?_, if_pos hruns, fun hold => ?_⟩
  · refine (if_pos hruns).trans (congrArg Host.Outcome.next ?_)
    rw [acknowledge, show (s.port p.val).unacked.findIdx? _ = _ from hi]
    exact drainPort_idle _ _ ((congrArg Port.waiting (port_setPort ..)).trans hwaiting)
      ((congrArg Port.through (port_setPort ..)).trans hthrough)
  · refine (if_pos hruns).trans (congrArg Host.Outcome.next ?_)
    rw [acknowledge, show (s.port p.val).unacked.findIdx? _ = _ from hi]
  · have hresend : negative s p.val seq.toNat = resend s p.val (x.unacked.drop (i + 1)) := by
      rw [negative_of_cons s _ hcons, if_neg hne, show (s.port p.val).unacked.findIdx? _ = _ from hi]
      exact if_neg (by simp [hnow])
    exact ⟨_, hnak.trans (congrArg _ hresend), resend_eq ..⟩
  · have hall : negative s p.val seq.toNat = resendAll s p.val := by
      rw [negative_of_cons s _ hcons, if_pos heq, if_neg (by simp [hnow])]
    exact ⟨fun hfew => ⟨_, hnak.trans (congrArg _ hall), resendAll_replays s p.val hfew⟩,
      fun hmany => hnak.trans (congrArg _ (hall.trans (resendAll_retrains s p.val hmany)))⟩
  · exact if_pos (by simp [hnow])
  · obtain ⟨k, ks, hcons⟩ := List.exists_cons_of_ne_nil hne
    obtain ⟨i, hi⟩ := Option.isSome_iff_exists.mp hi
    rw [hnak, negative_of_cons s _ hcons, hnow, show (s.port p.val).unacked.findIdx? _ = _ from hi]
    simp
  · exact if_pos (by rw [hruns, hack]; rfl)
  · have hexec := execReplayTimeout_due s hruns hne hnow
    rw [if_neg (Nat.not_le.mpr hfew)] at hexec
    obtain ⟨htx, hport, hregs⟩ := resendAll_replays (s.bump .rhReplay p.val) p.val hfew
    refine ⟨_, hexec, congrArg Port.resends hport, ?_, htx⟩
    rw [get_of_regs hregs]
    exact get_bump_count _ rfl _
  · have hexec := execReplayTimeout_due s hruns hne hnow
    rw [if_pos hmany, resendAll_retrains s _ hmany] at hexec
    exact hexec
  · exact if_pos (by rw [hruns, decide_eq_true hold]; rfl)

end Sys2Proof.Proofs

/-! Data packets and their destinations (R283, R284, R288, R292, R293), and the epochs of an imposition (R295, R296). -/

namespace Sys2Proof.Proofs

open Sys2Proof.Machine Sys2Proof.Safety Sys2Proof.Laws

/-! ### A packet arrives -/

section
variable {s : State} {p : Nat} (hruns : linkRuns s p = true)
include hruns

theorem receive_running (h : PktHdr) (deliver : State → State) : receive s p h deliver =
    (if seqDiff h.seq.toNat (s.port p).rxExpected < 0 then sendAck s p
      else if 0 < seqDiff h.seq.toNat (s.port p).rxExpected then sendNak s p
      else receive s p h deliver) := by
  unfold receive
  dsimp only
  rw [hruns]
  simp only [Bool.not_true, Bool.false_eq_true, if_false]
  split
  · rfl
  · split <;> rfl

/-- The expected packet is counted and delivered once. -/
theorem receive_expected (h : PktHdr) (deliver : State → State)
    (hseq : seqDiff h.seq.toNat (s.port p).rxExpected = 0) (hack : h.ack = none) (hroom : (s.port p).accepted < 15) :
    receive s p h deliver = deliver (s.setPort p { s.port p with
      rxExpected := ((s.port p).rxExpected + 1) % 4096, nakSent := false, accepted := (s.port p).accepted + 1
      ackDue := true }) := by
  unfold receive
  dsimp only
  rw [hruns, if_neg (by decide), hseq, if_neg (by decide), if_neg (by decide), hack]
  dsimp only
  rw [port_setPort, if_neg (by dsimp only; omega)]

theorem arrive_fits (h : PktHdr) (body : PktBody) (hsize : bodyBytes body ≤ 2112)
    (htype : h.ptype.toNat = bodyType body) : arrive s p h body = receive s p h (fun s => route s h body) := by
  unfold arrive
  rw [hruns, if_neg (by decide), if_neg (Nat.not_lt.mpr hsize), if_neg (not_not.mpr htype)]

end

theorem sendNak_again (s : State) (p : Nat) : sendNak (sendNak s p) p = sendNak s p := by
  by_cases hsent : (s.port p).nakSent = true
  · have hsame : sendNak s p = s := if_pos hsent
    rw [hsame, hsame]
  · have hport : ((sendNak s p).port p).nakSent = true := by
      rw [sendNak, if_neg hsent]
      exact congrArg Port.nakSent (port_setPort ..)
    exact if_pos hport

/-! ### Sorts at their home chase, replies at their sender -/

theorem freeSlot_lowest {c : Chase} {i : Nat} (h : freeSlot c = some i) : ∀ j, j < i → c.inbound.get none j ≠ none := by
  intro j hj hnone
  obtain ⟨-, l₁, l₂, hl, hbefore⟩ := List.find?_eq_some_iff_append.mp h
  have hi : i < 64 := List.mem_range.mp (List.mem_of_find?_eq_some h)
  have hmem : j ∈ l₁ := by
    have hj1 : (List.range 64)[j]? = some j := List.getElem?_range (by omega)
    have hlen : l₁.length = i := by
      have hat : (l₁ ++ i :: l₂)[l₁.length]? = some i := by simp
      rw [← hl] at hat
      obtain ⟨hlt, hget⟩ := List.getElem?_eq_some_iff.mp hat
      rw [List.getElem_range] at hget
      exact hget
    rw [hl, List.getElem?_append_left (by omega)] at hj1
    exact List.mem_of_getElem? hj1
  have := hbefore j hmem
  rw [hnone] at this
  cases this

section
variable (s : State) (h : SortHdr)

theorem deliverSort_served (payload : List Byte) {i : Nat} (hrun : s.get .chState h.dstChase.toNat = 3)
    (hepoch : epochServed s h.dstChase.toNat h.epoch.toNat = true)
    (hfree : freeSlot (s.chase h.dstChase.toNat) = some i) :
    deliverSort s h payload = s.setChase h.dstChase.toNat { s.chase h.dstChase.toNat with
      inbound := (s.chase h.dstChase.toNat).inbound.set i (some ⟨h, payload, false⟩)
      inOrder := (s.chase h.dstChase.toNat).inOrder ++ [i] } := by
  unfold deliverSort
  dsimp only
  rw [hrun, hepoch, if_neg (by decide), hfree]

theorem deliverSort_refused (payload : List Byte)
    (hrefused : ¬(s.get .chState h.dstChase.toNat = 3 ∧ epochServed s h.dstChase.toNat h.epoch.toNat = true) ∨
      freeSlot (s.chase h.dstChase.toNat) = none) :
    deliverSort s h payload = sendReply (s.bump .rhSortRefused h.dstChase.toNat) h cNoExpert [] := by
  unfold deliverSort
  dsimp only
  split
  · rfl
  · next hserved =>
    have hserves : s.get .chState h.dstChase.toNat = 3 ∧ epochServed s h.dstChase.toNat h.epoch.toNat = true := by
      simpa using hserved
    obtain hnot | hnone := hrefused
    · exact absurd hserves hnot
    · rw [hnone]

variable {x : SortOut} (hx : (s.chase h.srcChase.toNat).sorts.find? (answersSort h) = some x)
include hx

theorem acceptReply_arrived (output : List Byte) (hstatus : h.status = 0) : acceptReply s h output =
    s.setChase h.srcChase.toNat { s.chase h.srcChase.toNat with
      sorts := (s.chase h.srcChase.toNat).sorts.erase x ++ [{ x with fate := .arrived output }] } := by
  unfold acceptReply
  dsimp only
  rw [hx]
  exact if_pos hstatus

theorem acceptReply_missing (output : List Byte) (hstatus : h.status ≠ 0) : acceptReply s h output =
    (s.setChase h.srcChase.toNat { s.chase h.srcChase.toNat with
      sorts := (s.chase h.srcChase.toNat).sorts.erase x ++ [{ x with fate := .missing cNoExpert }] }).bump
        .rhNoExpert h.srcChase.toNat := by
  unfold acceptReply
  dsimp only
  rw [hx]
  exact (if_neg hstatus).trans (if_neg (by decide))

end

/-- Settles O46: a packet that arrives whole is received by its number, and the expected one is routed once. -/
theorem packetsReachTheirDestination : Obligations.PacketsReachTheirDestination := by
  refine ⟨?_, fun s p hdr body hruns => ⟨fun hlong => ?_, fun hfits htype => ?_⟩,
    fun s p h deliver hruns => ⟨fun hold => ⟨?_, rfl⟩, fun hahead => ⟨?_, fun hnak => ⟨?_, sendNak_again s p⟩⟩,
    fun hseq hack hroom => receive_expected hruns h deliver hseq hack hroom⟩,
    fun s h payload => ⟨fun i hserves hfree => ?_, deliverSort_refused s h payload⟩,
    fun s h output => ⟨fun x hx hstatus => ?_, fun x hx hstatus => ?_, fun hnone => ?_⟩⟩
  · intro s p hdr h payload m body x u hruns hseq hack hroom
    have harrive : ∀ body : PktBody, bodyBytes body ≤ 2112 → hdr.ptype.toNat = bodyType body →
        arrive s p.val hdr body = route u hdr body := fun body hsize htype =>
      (arrive_fits hruns hdr body hsize htype).trans (receive_expected hruns hdr _ hseq hack hroom)
    refine ⟨fun hdest => ⟨fun htype hsize => ?_, fun htype hsize => ?_, fun htype => ?_⟩,
      fun htype hsize hdest => ⟨fun o hhops hroute hserves => ?_, fun hhops => ?_⟩⟩
    · exact congrArg Host.Outcome.next ((harrive _ hsize (by rw [htype]; rfl)).trans (if_pos hdest))
    · exact congrArg Host.Outcome.next ((harrive _ hsize (by rw [htype]; rfl)).trans (if_pos hdest))
    · have hctrl : ∀ m : CtrlMsg, arrive s p.val hdr (.ctrl m) = onCtrl u m := fun m =>
        (harrive (.ctrl m) (by decide : (32 : Nat) ≤ 2112) (by rw [htype]; rfl)).trans (if_pos hdest)
      exact ⟨congrArg Host.Outcome.next (hctrl _), congrArg Host.Outcome.next (hctrl _),
        congrArg Host.Outcome.next (hctrl _), congrArg Host.Outcome.next (hctrl _),
        congrArg Host.Outcome.next (hctrl _)⟩
    · refine congrArg Host.Outcome.next ((harrive _ hsize htype).trans ((if_neg hdest).trans ?_))
      have hroute' : routePort u hdr.dest.toNat = some o := hroute
      have hserves' : linkServes u o = true := hserves
      unfold forward
      rw [if_neg hhops, hroute']
      exact if_pos hserves'
    · exact congrArg Host.Outcome.next ((harrive _ hsize htype).trans ((if_neg hdest).trans (if_pos hhops)))
  · change Host.Outcome.next (arrive s p.val hdr body) = _
    rw [arrive, hruns, if_neg (by decide), if_pos hlong]
  · change Host.Outcome.next (arrive s p.val hdr body) = _
    rw [arrive, hruns, if_neg (by decide), if_neg (Nat.not_lt.mpr hfits), if_pos htype]
  · rw [receive_running hruns, if_pos hold]
  · rw [receive_running hruns, if_neg (by omega), if_pos hahead]
  · rw [sendNak, if_neg (by simp [hnak])]
    rfl
  · obtain ⟨hrun, hepoch⟩ := hserves
    rw [deliverSort_served s h payload hrun hepoch hfree, chase_setChase]
    exact ⟨tab_get_set_same .., rfl, freeSlot_lowest hfree, rfl⟩
  · rw [acceptReply_arrived s h hx output hstatus, chase_setChase]
    exact ⟨rfl, rfl⟩
  · rw [acceptReply_missing s h hx output hstatus]
    exact ⟨congrArg Chase.sorts (chase_setChase ..), get_bump_count _ rfl _⟩
  · unfold acceptReply
    dsimp only
    rw [hnone]

/-! ### Epochs -/

/-- The state once a committed epoch is current. -/
theorem execEpochApply_pending (s : State) (n : ChaseNo) {e : Nat × BitVec 16}
    (he : (s.chase n.val).pendEpoch = some e) : ∃ u : State,
      u = ((s.setChase n.val { s.chase n.val with
        pendEpoch := none, joined := (s.chase n.val).joined ||| e.2
        prevEpochs := (s.chase n.val).prevEpochs.set (s.get .rhEpoch n.val) (presentMask s n.val) }).put .rhEpoch n.val
          e.1).put .rhPresent n.val e.2.toNat ∧
      exec (.epochApply n) s =
        .next (setRole (if inMask e.2 (ownModule s) then u.put .rhJoining n.val 0 else u) n.val) := by
  refine ⟨_, rfl, ?_⟩
  change execEpochApply n s = _
  unfold execEpochApply
  dsimp only
  rw [he]

/-- Settles O47. -/
theorem epochsAreAgreedAndApplied : Obligations.EpochsAreAgreedAndApplied := by
  refine fun s n => ⟨fun pr hpr => ?_, fun e he hsmall => ?_, ?_⟩
  · change execAcceptTimeout n s = _
    unfold execAcceptTimeout
    dsimp only
    rw [show (s.chase n.val).proposal = some pr from hpr]
  · obtain ⟨u, hu, hexec⟩ := execEpochApply_pending s n he
    have hjoin : ∀ f i, f ≠ .rhJoining → f ≠ .rhRole →
        (setRole (if inMask e.2 (ownModule s) then u.put .rhJoining n.val 0 else u) n.val).get f i = u.get f i := by
      intro f i hjoining hrole
      rw [setRole, get_put_ne _ hrole]
      split
      · exact get_put_ne _ hjoining ..
      · rfl
    have hchase : (setRole (if inMask e.2 (ownModule s) then u.put .rhJoining n.val 0 else u) n.val).chase n.val =
        u.chase n.val := by
      unfold setRole
      split <;> rfl
    refine ⟨_, hexec, ?_, ?_, ?_, ?_, fun hin => ?_⟩
    · rw [hjoin _ _ (by decide) (by decide), hu, get_put_ne _ (by decide), get_put_same]
      exact Nat.mod_eq_of_lt hsmall
    · rw [presentMask, hjoin _ _ (by decide) (by decide), hu, get_put_same]
      exact BitVec.eq_of_toNat_eq ((Nat.mod_mod ..).trans (Nat.mod_eq_of_lt e.2.isLt))
    · rw [hchase, hu, chase_put, chase_put, chase_setChase]
    · rw [hchase, hu, chase_put, chase_put, chase_setChase]
      exact tab_get_set_same ..
    · rw [if_pos hin, setRole, get_put_ne _ (by decide), get_put_same]
      rfl
  · change execProposeIntervalEnd n s = _
    unfold execProposeIntervalEnd
    dsimp only
    split
    · rfl
    · rfl

end Sys2Proof.Proofs

/-! The root clock (R402 to R405, R420). -/

namespace Sys2Proof.Proofs

open Sys2Proof.Machine Sys2Proof.Safety Sys2Proof.Laws

/-! ### Following a port -/

/-- What says whether the reference may follow the designated port is outside the clock's own registers. -/
theorem clkFollows_congr {s t : State} (hregs : ∀ f ∈ [Fld.rhClkPort, .rhClkEn, .rhState, .rhModule],
    ∀ i, t.get f i = s.get f i) (hports : t.ports = s.ports) : clkFollows t = clkFollows s := by
  unfold clkFollows linkActive ownModule State.flag State.port
  dsimp only
  rw [hports, hregs .rhClkPort (by decide), hregs .rhClkEn (by decide), hregs .rhState (by decide),
    hregs .rhModule (by decide)]

/-- RH_CLK, rewritten. -/
def clkShown (s : State) (stratum locked partner : Nat) : State :=
  ((s.put .rhClkStratum 0 stratum).put .rhClkLocked 0 locked).put .rhClkLockedTo 0 partner

theorem get_clkShown (s : State) (a b c : Nat) {f : Fld} (hf : f ∉ clkRegs) (i : Nat) :
    (clkShown s a b c).get f i = s.get f i := by
  simp only [clkRegs, List.mem_cons, List.not_mem_nil, or_false, not_or] at hf
  obtain ⟨hstratum, hlocked, hto, -⟩ := hf
  exact (get_put_ne _ hto ..).trans ((get_put_ne _ hlocked ..).trans (get_put_ne _ hstratum ..))

theorem get_clkShown_source (s : State) (a b c : Nat) {f : Fld} (hf : f ∈ [Fld.clkSource, .clkSwitched, .clkRamping])
    (i : Nat) : (clkShown s a b c).get f i = s.get f i := by
  have hne : f ≠ .rhClkStratum ∧ f ≠ .rhClkLocked ∧ f ≠ .rhClkLockedTo := by
    revert f
    decide
  exact (get_put_ne _ hne.2.2 ..).trans ((get_put_ne _ hne.2.1 ..).trans (get_put_ne _ hne.1 ..))

/-- A source that agrees with whether the port may be followed stays. -/
theorem updateClk_settled (s : State) (h : clkFollows s = decide (s.get .clkSource 0 = 1)) :
    ∃ a b c, updateClk s = clkShown s a b c := by
  by_cases hsource : s.get .clkSource 0 = 1
  · have hboth : (clkFollows s && s.get .clkSource 0 == 1) = true := by simp [h, hsource]
    exact ⟨_, _, _, if_pos hboth⟩
  · have hnone : (clkFollows s && s.get .clkSource 0 == 1) = false := by simp [hsource]
    have hfollows : clkFollows s = false := h.trans (decide_eq_false hsource)
    refine ⟨0, 0, 0, (if_neg (Bool.eq_false_iff.mp hnone)).trans ((if_neg (Bool.eq_false_iff.mp hfollows)).trans ?_)⟩
    refine if_pos (fun hport => hsource ?_)
    exact (get_clkShown_source s 0 0 0 (by decide) 0).symm.trans hport

/-! ### Choosing a source -/

section
variable (s : State) (src : ClkSource) (steps : Int)

theorem srcCode_lt : srcCode src < 2 ^ Fld.clkSource.info.width := by
  cases src <;> decide

/-- What an event-log entry leaves of the clock. -/
theorem clock_logEvent (code source severity : Nat) (details : List Nat) :
    (logEvent s code source severity details).clock = s.clock := by
  rw [logEvent_frame]

theorem get_logEvent {f : Fld} (hf : f ∉ [Fld.evlogHead, .evlogWrap]) (i code source severity : Nat)
    (details : List Nat) : (logEvent s code source severity details).get f i = s.get f i :=
  keepsRegs_logEvent s code source severity details f i hf

theorem log_head_logEvent (code source severity : Nat) (details : List Nat) :
    ((logEvent s code source severity details).log.head?.map (fun e => e.code)) = some code := by
  rw [logEvent_log]
  rfl

/-- What a chosen source leaves: its code, a ramp of the given distance, and the event. -/
structure Chosen (s : State) (src : ClkSource) (steps : Int) (t : State) : Prop where
  source : t.get .clkSource 0 = srcCode src
  ramping : t.get .clkRamping 0 = b2n (src != .holdover)
  switched : t.get .clkSwitched 0 = 1
  rest : ∀ f ∉ clkRegs, ∀ i, t.get f i = s.get f i
  clock : t.clock = { s.clock with steps := if src = .holdover then 0 else steps }
  logged : (t.log.head?.map (fun e => e.code)) = some 0x0006
  follows : clkFollows t = clkFollows s

/-- A source is chosen: the clock's own fields, then the event. -/
theorem chosen_of_logEvent {u : State} {severity : Nat} {details : List Nat}
    (hsource : u.get .clkSource 0 = srcCode src) (hramping : u.get .clkRamping 0 = b2n (src != .holdover))
    (hswitched : u.get .clkSwitched 0 = 1)
    (hrest : ∀ f ∉ [Fld.clkSource, .clkRamping, .clkSwitched], ∀ i, u.get f i = s.get f i)
    (hports : u.ports = s.ports) (hclock : u.clock = { s.clock with steps := if src = .holdover then 0 else steps }) :
    Chosen s src steps (logEvent u 0x0006 (srcBlock 1) severity details) := by
  refine ⟨?_, ?_, ?_, fun f hf i => ?_, (clock_logEvent ..).trans hclock, log_head_logEvent .., ?_⟩
  · rw [get_logEvent _ (by decide), hsource]
  · rw [get_logEvent _ (by decide), hramping]
  · rw [get_logEvent _ (by decide), hswitched]
  · have hne : f ∉ [Fld.evlogHead, .evlogWrap] ∧ f ∉ [Fld.clkSource, .clkRamping, .clkSwitched] := by
      simp only [clkRegs, List.mem_cons, List.not_mem_nil, or_false, not_or] at hf ⊢
      tauto
    rw [get_logEvent _ hne.1, hrest _ hne.2]
  · refine clkFollows_congr (fun f hf i => ?_) ((ports_logEvent ..).trans hports)
    have hne : f ∉ [Fld.evlogHead, .evlogWrap] ∧ f ∉ [Fld.clkSource, .clkRamping, .clkSwitched] := by
      revert f
      decide
    rw [get_logEvent _ hne.1, hrest _ hne.2]

theorem chosen_enterHoldover : Chosen s .holdover steps (enterHoldover s) := by
  unfold enterHoldover
  generalize hu : State.put _ .clkSwitched 0 1 = u
  have hget : ∀ f i, u.get f i = (((s.put .clkSource 0 3).put .clkRamping 0 0).put .clkSwitched 0 1).get f i :=
    fun f i => hu ▸ rfl
  refine chosen_of_logEvent s .holdover steps ?_ ?_ ?_ (fun f hf i => ?_) (hu ▸ rfl) (hu ▸ rfl)
  · rw [hget, get_put_ne _ (by decide), get_put_ne _ (by decide), get_put_same]
    rfl
  · rw [hget, get_put_ne _ (by decide), get_put_same]
    rfl
  · rw [hget, get_put_same]
    rfl
  · simp only [List.mem_cons, List.not_mem_nil, or_false, not_or] at hf
    rw [hget, get_put_ne _ hf.2.2, get_put_ne _ hf.2.1, get_put_ne _ hf.1]

theorem chosen_chooseSource : Chosen s src steps (chooseSource s src steps) := by
  unfold chooseSource
  split
  · next h =>
    rw [h]
    exact chosen_enterHoldover s steps
  · next h =>
    generalize hu : State.mk .. = u
    have hget : ∀ f i, u.get f i =
        (((s.put .clkSource 0 (srcCode src)).put .clkSwitched 0 1).put .clkRamping 0 1).get f i := fun f i => hu ▸ rfl
    refine chosen_of_logEvent s src steps ?_ ?_ ?_ (fun f hf i => ?_) (hu ▸ rfl) (by rw [← hu, if_neg h])
    · rw [hget, get_put_ne _ (by decide), get_put_ne _ (by decide), get_put_same]
      exact Nat.mod_eq_of_lt (srcCode_lt src)
    · rw [hget, get_put_same, bne_iff_ne.mpr h]
      rfl
    · rw [hget, get_put_ne _ (by decide), get_put_same]
      rfl
    · simp only [List.mem_cons, List.not_mem_nil, or_false, not_or] at hf
      rw [hget, get_put_ne _ hf.2.1, get_put_ne _ hf.2.2, get_put_ne _ hf.1]

/-- RH_CLK follows a source chosen as R402 allows, and the choice stands. -/
theorem chosen_updateClk {s t : State} {src : ClkSource} {steps : Int} (h : Chosen s src steps t)
    (hfollows : clkFollows s = decide (src = .port)) : Chosen s src steps (updateClk t) := by
  have hport : decide (src = .port) = decide (t.get .clkSource 0 = 1) := by
    rw [h.source]
    cases src <;> rfl
  obtain ⟨a, b, c, hshown⟩ := updateClk_settled t (h.follows.trans (hfollows.trans hport))
  rw [hshown]
  refine ⟨?_, ?_, ?_, fun f hf i => ?_, h.clock, h.logged, ?_⟩
  · rw [get_clkShown_source _ _ _ _ (by decide), h.source]
  · rw [get_clkShown_source _ _ _ _ (by decide), h.ramping]
  · rw [get_clkShown_source _ _ _ _ (by decide), h.switched]
  · rw [get_clkShown _ _ _ _ hf, h.rest f hf]
  · rw [← h.follows]
    exact clkFollows_congr (fun f hf i => get_clkShown _ _ _ _ (by revert f; decide) i) rfl

theorem follows_of_allowed {s : State} {src : ClkSource} (h : sourceAllowed s src = true) :
    clkFollows s = decide (src = .port) := by
  unfold sourceAllowed at h
  cases src <;> simp_all

end

/-! ### A REF that is lost -/

section
variable {s : State} (hsource : s.get .clkSource 0 = 0) (hok : s.flag .clkRefOk 0 = true)
include hsource hok

theorem refLost_followed : refLost s = if clkFollows (s.put .clkRefOk 0 0) then
    updateClk (chooseSource ((s.put .clkRefOk 0 0).fresh 20).2 .port ((s.put .clkRefOk 0 0).fresh 20).1)
    else enterHoldover (s.put .clkRefOk 0 0) := by
  unfold refLost
  dsimp only
  rw [if_neg (by simp [hsource, hok])]

end

theorem clkFollows_refLost (s : State) : clkFollows (s.put .clkRefOk 0 0) = clkFollows s :=
  clkFollows_congr (fun f hf i => get_put_ne _ (by revert f; decide) ..) rfl

/-- A draw changes nothing the clock goes by, so a choice made after it is one made of the state before. -/
theorem chosen_port_fresh {s : State} (hfollows : clkFollows s = true) (n : Nat) :
    ∃ steps, Chosen s .port steps (updateClk (chooseSource (s.fresh n).2 .port (s.fresh n).1)) := by
  generalize hf : s.fresh n = f
  obtain ⟨hregs, hports, hclock⟩ : f.2.regs = s.regs ∧ f.2.ports = s.ports ∧ f.2.clock = s.clock := by
    subst hf
    exact ⟨rfl, rfl, rfl⟩
  have hsame : clkFollows f.2 = clkFollows s := clkFollows_congr (fun g _ i => get_of_regs hregs ..) hports
  obtain ⟨h1, h2, h3, h4, h5, h6, h7⟩ :=
    chosen_updateClk (chosen_chooseSource f.2 .port f.1) (hsame.trans hfollows)
  exact ⟨_, h1, h2, h3, fun g hg i => (h4 g hg i).trans (get_of_regs hregs ..), hclock ▸ h5, h6, h7.trans hsame⟩

theorem refLost_rest (s : State) : ∀ f ∉ clkRegs, ∀ i, (refLost s).get f i = (s.put .clkRefOk 0 0).get f i := by
  unfold refLost
  dsimp only
  split
  · exact fun f _ i => rfl
  · split
    · next hfollows =>
      obtain ⟨steps, hchosen⟩ := chosen_port_fresh hfollows 20
      exact hchosen.rest
    · exact (chosen_enterHoldover _ 0).rest

theorem get_refLost (s : State) {f : Fld} (hf : f ∉ clkRegs) (hok : f ≠ .clkRefOk) (i : Nat) :
    (refLost s).get f i = s.get f i := (refLost_rest s f hf i).trans (get_put_ne _ hok ..)

theorem refOk_refLost (s : State) : (refLost s).get .clkRefOk 0 = 0 :=
  (refLost_rest s _ (by decide) 0).trans (get_put_same ..)

/-- A ramp upwards takes a step, the last one with its event. -/
theorem execClockRampStep_up {s : State} (hramping : s.flag .clkRamping 0 = true) (hsteps : 0 < s.clock.steps) :
    (s.clock.steps = 1 → execClockRampStep s = .next (logEvent
      ({ s with clock := ⟨s.clock.steps - 1, s.clock.divider + 1⟩ }.put .clkRamping 0 0) 0x0007 (srcBlock 1) 0
        [s.get .clkSource 0, 0, 0, 0])) ∧
      (s.clock.steps ≠ 1 → execClockRampStep s =
        .next { s with clock := ⟨s.clock.steps - 1, s.clock.divider + 1⟩ }) := by
  unfold execClockRampStep
  dsimp only
  rw [hramping, if_neg (by decide), if_pos hsteps]
  exact ⟨fun h => if_pos (by omega), fun h => if_neg (by omega)⟩

/-- Settles O48: RH_CLK follows what R402 allows, so a choice stands. -/
theorem clocksFollowTheirSources : Obligations.ClocksFollowTheirSources := by
  refine fun s src steps n khz => ⟨fun hallowed hne => ?_, fun hallowed hsource => ?_, fun hnot => ?_,
    fun hramping hsteps => ?_, fun hsource hok hfollows => ?_, fun hsource hok hfollows => ?_, fun hok => ⟨?_, ?_⟩, ?_⟩
  · have hgo : (sourceAllowed s src && !(src == .holdover && s.get .clkSource 0 == 3)) = true := by
      simp [hallowed, hne]
    obtain ⟨h1, h2, h3, -, h5, h6, -⟩ :=
      chosen_updateClk (chosen_chooseSource s src steps) (follows_of_allowed hallowed)
    rw [bne_iff_ne.mpr hne] at h2
    rw [if_neg hne] at h5
    exact ⟨_, if_pos hgo, h1, h2, h3, h5, h6⟩
  · have hgo : (sourceAllowed s .holdover && !(ClkSource.holdover == .holdover && s.get .clkSource 0 == 3)) = true := by
      simp [hallowed, hsource]
    obtain ⟨h1, h2, h3, -, h5, -, -⟩ :=
      chosen_updateClk (chosen_chooseSource s .holdover steps) (follows_of_allowed hallowed)
    exact ⟨_, if_pos hgo, h1, h2, h3, h5⟩
  · exact if_neg (by simp [hnot])
  · obtain ⟨hend, hgo⟩ := execClockRampStep_up hramping hsteps
    by_cases hone : s.clock.steps = 1
    · exact ⟨_, hend hone, (clock_logEvent ..).trans rfl, iff_of_true ((get_logEvent _ (by decide) ..).trans
        (get_put_same ..)) hone⟩
    · exact ⟨_, hgo hone, rfl, iff_of_false (bne_iff_ne.mp hramping) hone⟩
  · have hlost := refLost_followed hsource hok
    rw [clkFollows_refLost, hfollows, if_neg (by decide)] at hlost
    obtain ⟨h1, -, h3, h4, h5, -, -⟩ := chosen_enterHoldover (s.put .clkRefOk 0 0) 0
    exact ⟨_, congrArg Host.Outcome.next hlost, (h4 _ (by decide) _).trans (get_put_same ..), h1, h3,
      (congrArg ClockSt.divider h5).trans rfl, (congrArg ClockSt.steps h5).trans rfl⟩
  · have hlost := refLost_followed hsource hok
    rw [clkFollows_refLost, hfollows, if_pos rfl] at hlost
    obtain ⟨steps, h1, h2, h3, h4, h5, -, -⟩ := chosen_port_fresh ((clkFollows_refLost s).trans hfollows) 20
    exact ⟨_, congrArg Host.Outcome.next hlost, (h4 _ (by decide) _).trans (get_put_same ..), h1, h3, h2,
      (congrArg ClockSt.divider h5).trans rfl⟩
  · have htrim : exec (.oscTrimWindow steps false) s = .next (((s.put .oscCode 0
        (if 500 < steps then s.get .oscCode 0 - 1
          else if steps < -500 then min 511 (s.get .oscCode 0 + 1) else s.get .oscCode 0)).put .oscBySync 0 0).put
        .oscTrimmed 0 (b2n (decide (steps.natAbs ≤ 1000)))) := by
      change execOscTrimWindow steps false s = _
      unfold execOscTrimWindow
      dsimp only
      rw [hok]
      rfl
    refine ⟨_, htrim, ?_, ?_, ?_, fun f i hf => ?_⟩
    · rw [get_put_ne _ (by decide), get_put_ne _ (by decide), get_put_same]
      rfl
    · rw [get_put_ne _ (by decide), get_put_same]
      rfl
    · rw [get_put_same]
      cases decide (steps.natAbs ≤ 1000) <;> rfl
    · simp only [List.mem_cons, List.not_mem_nil, or_false, not_or] at hf
      rw [get_put_ne _ hf.2.2, get_put_ne _ hf.2.1, get_put_ne _ hf.1]
  · change execOscTrimWindow steps true s = _
    unfold execOscTrimWindow
    dsimp only
    rw [hok]
    rfl
  · by_cases hn : n.val = 0
    · by_cases hrange : 99980 ≤ khz.toNat ∧ khz.toNat ≤ 100020
      · refine ⟨_, (if_neg (not_not.mpr hn)).trans (if_pos hrange), (get_put_ne _ (by decide) ..).trans (get_put_same ..),
          fun _ => ⟨fun _ => get_put_same .., fun hout => ?_⟩⟩
        omega
      · refine ⟨_, (if_neg (not_not.mpr hn)).trans (if_neg hrange), (get_refLost _ (by decide) (by decide) _).trans
          (get_put_same ..), fun _ => ⟨fun hin => absurd hin hrange, fun _ => refOk_refLost _⟩⟩
    · exact ⟨_, if_pos hn, get_put_same .., fun h => absurd (congrArg Fin.val h) hn⟩

end Sys2Proof.Proofs

/-! Encoders (R304 to R307). -/

namespace Sys2Proof.Proofs

open Sys2Proof.Machine

/-- The index latch an answer leaves of encoder 0. -/
def latchOf : Answer → Option Nat
  | .next t => some (t.get .encIndexLatch 0)
  | _ => none

/-- Encoder 0 stands at 2⁴⁸, a position that its 48 bits cannot hold. -/
def positionTooLong : State := { State.reset with regs := [((.encPos, 0), 2 ^ 48)] }

theorem latchOf_indexEdge : latchOf (exec (.indexEdge 0) positionTooLong) = some 0 := by decide

/-- Refutes O49: the statement takes any state, and in one whose position register holds 2⁴⁸ an index edge latches that
position cut to the 48 bits of the latch, which is 0. -/
theorem not_encodersCount : ¬ Obligations.EncodersCount := by
  intro h
  obtain ⟨-, -, hindex⟩ := h.2 positionTooLong 0 0
  obtain ⟨t, hexec, hlatch, -⟩ := hindex (by decide)
  have hshown : some (t.get .encIndexLatch 0) = some 0 := (congrArg latchOf hexec).symm.trans latchOf_indexEdge
  have hlong : t.get .encIndexLatch 0 = 2 ^ 48 := hlatch
  exact absurd (hlong.symm.trans (Option.some.inj hshown)) (by decide)

end Sys2Proof.Proofs

/-! Compares, fire ticks and the exchanges of the fire queues (R308, R310, R311, R314, R316, R335). -/

namespace Sys2Proof.Proofs

open Sys2Proof.Machine Sys2Proof.Safety Sys2Proof.Laws

/-! ### Compares and lagging outputs -/

section
variable (s : State)

theorem periodicCompareHit_advances (j : Fin 8) (hdue : periodicDue s j.val = true)
    (hlive : compareLive s (s.get .pcmpEncoder j.val) = true) (hpitch : s.get .pcmpPitch j.val ≠ 0) :
    ∃ t, exec (.periodicCompareHit j) s = .next t ∧
      t.get .pcmpTarget j.val = wrapTo 48 (s.s48 .pcmpTarget j.val + (s.get .pcmpPitch j.val : Nat)) := by
  have hgo : (periodicDue s j.val && compareLive s (s.get .pcmpEncoder j.val)) = true := by rw [hdue, hlive]; rfl
  refine ⟨_, if_pos hgo, ?_⟩
  unfold periodicAdvance State.s48
  dsimp only
  rw [side_stageEvent _ (by decide), side_stageEvent _ (by decide), if_neg hpitch, get_put_same, Nat.one_mul]
  exact Nat.mod_eq_of_lt (wrapTo_lt 48 _)

theorem trigOneshotHit_fires (k : Ctx) (i : Fin 4) {a : OneShot}
    (ha : (s.context k.val).oneshots.get none i.val = some a)
    (hlive : compareLive s (s.get .ctxEncoder k.val) = true)
    (hreached : countReached (sext 48 a.target) (livePos s k.val) = true) : exec (.trigOneshotHit k i) s =
      .next ((s.setCtx k.val { s.context k.val with
        oneshots := (s.context k.val).oneshots.set i.val none }).emit (.trigPacket k.val a.conn a.tag)) := by
  change execTrigOneshotHit k i s = _
  unfold execTrigOneshotHit
  dsimp only
  rw [ha]
  exact if_pos (by rw [hlive, hreached]; rfl)

theorem payLag_owed (o : Nat) (hlag : 0 < (s.emu o).lag) :
    ((payLag s o).emu o).lag = (s.emu o).lag - 1 ∧ (payLag s o).tx = .emu o true :: s.tx := by
  unfold payLag
  dsimp only
  rw [if_neg hlag.ne', if_pos hlag, decide_eq_true hlag]
  refine ⟨?_, rfl⟩
  unfold emuCount State.emu State.setEmu
  dsimp only [State.emit]
  rw [tab_get_set_same, tab_get_set_same]

end

/-! ### Exchanges -/

/-- Entries that stand, each, no later than the one after it. -/
def inOrder (l : List FireCmd) : Prop :=
  l.Pairwise (fun a b => 0 ≤ countAhead (sext 48 b.position) (sext 48 a.position))

theorem exchangePairs_perm (l : List FireCmd) : (exchangePairs l).Perm l := by
  induction l using exchangePairs.induct with
  | case1 a b l hlater ih =>
    rw [exchangePairs, if_pos hlater]
    exact ((ih.cons a).cons b).trans (List.Perm.swap a b l)
  | case2 a b l hlater ih =>
    rw [exchangePairs, if_neg hlater]
    exact (ih.cons b).cons a
  | case3 l hshort => rw [exchangePairs.eq_2 l hshort]

theorem exchangePairs_ordered (l : List FireCmd) (h : inOrder l) : exchangePairs l = l := by
  induction l using exchangePairs.induct with
  | case1 a b l hlater ih =>
    have hnot := (List.pairwise_cons.mp h).1 b (List.mem_cons_self ..)
    exact absurd hlater (Int.not_lt.mpr hnot)
  | case2 a b l hlater ih =>
    rw [exchangePairs, if_neg hlater, ih (List.Pairwise.of_cons (List.Pairwise.of_cons h))]
  | case3 l hshort => exact exchangePairs.eq_2 l hshort

/-- The stages 2n and 2n + 1 change places where the entry ahead is later. -/
theorem exchangePairs_stages (l : List FireCmd) (n : Nat) {a b : FireCmd} (ha : l[2 * n]? = some a)
    (hb : l[2 * n + 1]? = some b) :
    if countAhead (sext 48 b.position) (sext 48 a.position) < 0
      then (exchangePairs l)[2 * n]? = some b ∧ (exchangePairs l)[2 * n + 1]? = some a
      else (exchangePairs l)[2 * n]? = some a ∧ (exchangePairs l)[2 * n + 1]? = some b := by
  induction l using exchangePairs.induct generalizing n with
  | case1 x y l hlater ih =>
    rw [exchangePairs, if_pos hlater]
    cases n with
    | zero =>
      obtain rfl : x = a := Option.some.inj ha
      obtain rfl : y = b := Option.some.inj hb
      rw [if_pos hlater]
      exact ⟨rfl, rfl⟩
    | succ n => exact ih n ha hb
  | case2 x y l hlater ih =>
    rw [exchangePairs, if_neg hlater]
    cases n with
    | zero =>
      obtain rfl : x = a := Option.some.inj ha
      obtain rfl : y = b := Option.some.inj hb
      rw [if_neg hlater]
      exact ⟨rfl, rfl⟩
    | succ n => exact ih n ha hb
  | case3 l hshort =>
    match l, hshort with
    | [], _ => cases hb
    | [_], _ => cases hb
    | x :: y :: l, hshort => exact absurd rfl (hshort x y l)

/-- A cycle's exchange of one queue. -/
def exchangeQueue (odd : Bool) (l : List FireCmd) : List FireCmd :=
  match odd, l with
  | true, a :: l => a :: exchangePairs l
  | _, l => exchangePairs l

section
variable (odd : Bool) (l : List FireCmd)

theorem exchangeQueue_perm : (exchangeQueue odd l).Perm l := by
  unfold exchangeQueue
  split
  · exact (exchangePairs_perm _).cons _
  · exact exchangePairs_perm _

theorem exchangeQueue_ordered (h : inOrder l) : exchangeQueue odd l = l := by
  unfold exchangeQueue
  split
  · exact congrArg _ (exchangePairs_ordered _ (List.Pairwise.of_cons h))
  · exact exchangePairs_ordered _ h

theorem exchangeQueue_stages {i : Nat} (hi : i % 2 = b2n odd) {a b : FireCmd} (ha : l[i]? = some a)
    (hb : l[i + 1]? = some b) :
    if countAhead (sext 48 b.position) (sext 48 a.position) < 0
      then (exchangeQueue odd l)[i]? = some b ∧ (exchangeQueue odd l)[i + 1]? = some a
      else (exchangeQueue odd l)[i]? = some a ∧ (exchangeQueue odd l)[i + 1]? = some b := by
  cases odd with
  | false =>
    obtain ⟨n, rfl⟩ : ∃ n, i = 2 * n := ⟨i / 2, by simp [b2n] at hi; omega⟩
    exact exchangePairs_stages l n ha hb
  | true =>
    obtain ⟨n, rfl⟩ : ∃ n, i = 2 * n + 1 := ⟨i / 2, by simp [b2n] at hi; omega⟩
    match l, ha with
    | x :: l, ha => exact exchangePairs_stages l n ha hb

end

/-- Entries that have landed by the tick. -/
def landed (s : State) (l : List FireCmd) : List FireCmd :=
  l.map (fun c => { c with landed := some (c.landed.getD s.tick) })

theorem landEntries_eq (s : State) (e : Nat) : landEntries s e = s.setFq e (landed s (s.fq e)) := by
  unfold landEntries landed
  refine congrArg (s.setFq e) (List.map_congr_left (fun c _ => ?_))
  obtain ⟨_, _, _, _, _, _, landed, _⟩ := c
  cases landed <;> rfl

theorem landed_of_tick {s t : State} (h : t.tick = s.tick) : landed t = landed s := by
  unfold landed
  rw [h]

/-- The queues of a list of encoders take part in a cycle's exchange, one after another. -/
theorem foldl_exchange (odd : Bool) (s : State) (es : List Nat) (hes : es.Nodup) :
    ∃ t : State, es.foldl (fun s0 e =>
      let s := landEntries s0 e
      s.setFq e (match odd, s.fq e with
        | true, a :: l => a :: exchangePairs l
        | _, l => exchangePairs l)) s = t ∧ { t with fqs := s.fqs } = s ∧
      ∀ e, t.fq e = if e ∈ es then exchangeQueue odd (landed s (s.fq e)) else s.fq e := by
  induction es generalizing s with
  | nil => exact ⟨s, rfl, rfl, fun e => rfl⟩
  | cons e es ih =>
    obtain ⟨hnot, hes⟩ := List.nodup_cons.mp hes
    obtain ⟨t, ht, hkeeps, hqueues⟩ := ih ((landEntries s e).setFq e (exchangeQueue odd ((landEntries s e).fq e))) hes
    refine ⟨t, ht, (congrArg (fun u : State => { u with fqs := s.fqs }) hkeeps).trans ?_, fun j => ?_⟩
    · rw [landEntries_eq]
      rfl
    · have hself : (landEntries s e).fq e = landed s (s.fq e) := by
        rw [landEntries_eq]
        exact tab_get_set_same ..
      rw [hqueues, landed_of_tick (s := s) (by rw [landEntries_eq]; rfl), hself]
      by_cases hj : j = e
      · rw [if_neg (hj ▸ hnot), if_pos (hj ▸ List.mem_cons_self ..), hj]
        exact tab_get_set_same ..
      · rw [fq_setFq_other _ hj, landEntries_eq, fq_setFq_other _ hj]
        simp only [List.mem_cons, hj, false_or]

/-! ### A tick's queues -/

section
variable (s : State) (e : Nat)

/-- Registers that a tick's queues count in. -/
def takeRegs : List Fld := [.fqLateFire, .fcDeadSuppressed]

/-- Taking what is reached leaves the rest of the queue, and beyond it only counts. -/
theorem takeQueue_eq :
    { (takeQueue s e).2 with fqs := s.fqs, regs := s.regs } = s ∧ keepsRegs takeRegs s (takeQueue s e).2 ∧
      (takeQueue s e).2.fqs = (s.setFq e ((s.fq e).filter (fun c => !entryReached s e c))).fqs := by
  unfold takeQueue
  dsimp only
  generalize hs1 : State.bumpBy _ .fqLateFire e _ = s1
  have hkept : ∀ (l : List Nat) (u : State),
      (fun u : State => ({ u with regs := [] } : State)) (l.foldl (fun s o => s.bump .fcDeadSuppressed o) u) =
        { u with regs := [] } :=
    foldl_keeps (φ := fun u : State => ({ u with regs := [] } : State)) (fun _ _ => rfl)
  have hrest := foldl_keeps (φ := fun u : State => ({ u with regs := [] } : State))
    (g := fun s (c : FireCmd) => (pulseChannels s c.channels.toNat).2.foldl (fun s o => s.bump .fcDeadSuppressed o) s)
    (fun u c => hkept _ u) ((s.fq e).filter (entryReached s e)) s1
  refine ⟨(congrArg (fun u : State => { u with fqs := s.fqs, regs := s.regs }) hrest).trans (hs1 ▸ rfl), ?_,
    (congrArg State.fqs hrest).trans (hs1 ▸ rfl)⟩
  intro f i hf
  simp only [takeRegs, List.mem_cons, List.not_mem_nil, or_false, not_or] at hf
  obtain ⟨hlate, hdead⟩ := hf
  have hbump : ∀ (l : List Nat) (u : State), (l.foldl (fun s o => s.bump .fcDeadSuppressed o) u).get f i = u.get f i :=
    foldl_keeps (φ := fun u : State => u.get f i) (fun u o => get_put_ne u hdead ..)
  refine (foldl_keeps (φ := fun u : State => u.get f i) (fun u c => hbump _ u) _ _).trans ?_
  rw [← hs1]
  exact get_put_ne _ hlate ..

theorem takeQueue_due {d : Nat × Nat × Nat} (hd : d ∈ (takeQueue s e).1) :
    ∃ c ∈ s.fq e, entryReached s e c = true ∧ bitAt c.channels.toNat d.2.2 = true := by
  obtain ⟨c, hc, hd⟩ := List.mem_flatMap.mp hd
  obtain ⟨ch, hch, rfl⟩ := List.mem_map.mp hd
  obtain ⟨hmem, hreached⟩ := List.mem_filter.mp hc
  exact ⟨c, hmem, hreached, (List.mem_filter.mp (List.mem_filter.mp hch).1).2⟩

end

theorem entryReached_congr {s t : State} (hencs : t.encs = s.encs) (hpos : ∀ i, t.get .encPos i = s.get .encPos i)
    (hcheck : ∀ i, t.get .encZCheck i = s.get .encZCheck i) (e : Nat) : entryReached t e = entryReached s e := by
  funext c
  unfold entryReached wireNow State.s48 State.flag State.enc
  dsimp only
  rw [hencs, hpos, hcheck]

/-- One queue of a tick: what is due, and the queue's rest, landed. -/
def tickQueue (a : List (Nat × Nat × Nat) × State) (e : Nat) : List (Nat × Nat × Nat) × State :=
  (a.1 ++ (takeQueue a.2 e).1, landEntries (takeQueue a.2 e).2 e)

/-- What the queues of a list of encoders leave once a tick has taken from them. -/
structure QueuesTaken (s : State) (es : List Nat) (a : List (Nat × Nat × Nat) × State) : Prop where
  kept : { a.2 with fqs := s.fqs, regs := s.regs } = s
  regs : keepsRegs takeRegs s a.2
  queues : ∀ e, a.2.fq e =
    if e ∈ es then landed s ((s.fq e).filter (fun c => !entryReached s e c)) else s.fq e
  due : ∀ d ∈ a.1, ∃ e ∈ es, ∃ c ∈ s.fq e, entryReached s e c = true ∧ bitAt c.channels.toNat d.2.2 = true

theorem queuesTaken_tickQueue {s : State} {es : List Nat} {a : List (Nat × Nat × Nat) × State}
    (h : QueuesTaken s es a) {e : Nat} (he : e ∉ es) : QueuesTaken s (es ++ [e]) (tickQueue a e) := by
  obtain ⟨hkept, hregs, hqueues, hdue⟩ := h
  obtain ⟨htake, htakeRegs, htakeFqs⟩ := takeQueue_eq a.2 e
  have hreached : ∀ j, entryReached a.2 j = entryReached s j := entryReached_congr (congrArg State.encs hkept :)
    (fun i => hregs _ _ (by decide)) (fun i => hregs _ _ (by decide))
  have hself : a.2.fq e = s.fq e := (hqueues e).trans (if_neg he)
  have htick : (takeQueue a.2 e).2.tick = s.tick :=
    (congrArg State.tick htake :).trans (congrArg State.tick hkept :)
  have hrest : (takeQueue a.2 e).2.fq e = (s.fq e).filter (fun c => !entryReached s e c) := by
    rw [fq_of_fqs htakeFqs, hself, hreached]
    exact tab_get_set_same ..
  refine ⟨?_, ?_, fun j => ?_, fun d hd => ?_⟩
  · rw [tickQueue, landEntries_eq]
    exact (congrArg (fun u : State => { u with fqs := s.fqs, regs := s.regs }) htake).trans hkept
  · rw [tickQueue, landEntries_eq]
    exact fun f i hf => (htakeRegs f i hf).trans (hregs f i hf)
  · rw [tickQueue, landEntries_eq, landed_of_tick htick, hrest]
    by_cases hj : j = e
    · subst hj
      rw [if_pos (List.mem_append_right _ (List.mem_singleton.mpr rfl))]
      exact tab_get_set_same ..
    · rw [fq_setFq_other _ hj, fq_of_fqs htakeFqs, fq_setFq_other _ hj, hqueues]
      simp only [List.mem_append, List.mem_singleton, hj, or_false]
  · obtain hd | hd := List.mem_append.mp hd
    · obtain ⟨j, hj, hc⟩ := hdue d hd
      exact ⟨j, List.mem_append_left _ hj, hc⟩
    · obtain ⟨c, hc, hr, hbit⟩ := takeQueue_due a.2 e hd
      exact ⟨e, List.mem_append_right _ (List.mem_singleton.mpr rfl), c, hself ▸ hc, hreached e ▸ hr, hbit⟩

theorem queuesTaken_foldl {s : State} (fs : List Nat) {es : List Nat} {a : List (Nat × Nat × Nat) × State}
    (h : QueuesTaken s es a) (hnodup : (es ++ fs).Nodup) : QueuesTaken s (es ++ fs) (fs.foldl tickQueue a) := by
  induction fs generalizing es a with
  | nil => rwa [List.append_nil]
  | cons e fs ih =>
    have hmem : e ∉ es := fun he => (List.nodup_append.mp hnodup).2.2 e he e (List.mem_cons_self ..) rfl
    rw [List.append_cons] at hnodup ⊢
    exact ih (queuesTaken_tickQueue h hmem) hnodup

/-! ### A tick's pulses -/

/-- What the pulses of a tick leave alone: the tick, the queues, the contexts, what went out, and of the field link all
but the changes to send. -/
def besidePulses (s : State) : Nat × Tab (List FireCmd) × Tab Context × List Tx × Barrier :=
  (s.tick, s.fqs, s.ctxs, s.tx, { s.barrier with changes := [] })

section
variable (s : State)

theorem beside_commandTo (c : Nat) (on : Bool) : besidePulses (commandTo s c on) = besidePulses s := by
  unfold commandTo
  dsimp only
  split <;> rfl

theorem beside_pulseOff (c : Nat) : besidePulses (pulseOff s c) = besidePulses s := beside_commandTo ..

theorem beside_pulseOn (c e off : Nat) : besidePulses (pulseOn s c e off) = besidePulses s := beside_commandTo ..

theorem beside_meetPulse (c e off : Nat) : besidePulses (meetPulse s c e off) = besidePulses s := by
  unfold meetPulse
  dsimp only
  split <;> rfl

theorem beside_endPulse (c : Nat) : besidePulses (endPulse s c) = besidePulses s := by
  unfold endPulse
  split
  · split
    · exact beside_pulseOff ..
    · rfl
  · rfl

theorem beside_resumePulse (c : Nat) : besidePulses (resumePulse s c) = besidePulses s := by
  unfold resumePulse
  split
  · dsimp only
    split
    · rfl
    · split
      · rfl
      · split
        · rfl
        · split
          · rfl
          · exact beside_pulseOn ..
  · rfl

theorem beside_startPulse (c e off : Nat) : besidePulses (startPulse s c e off) = besidePulses s := by
  unfold startPulse
  split
  · rfl
  · split
    · rfl
    · exact beside_pulseOn ..

variable {j : Nat}

theorem chan_setChan_other {c : Nat} (h : j ≠ c) (x : ChanSt) : (s.setChan c x).chan j = s.chan j :=
  tab_get_set_other _ _ _ h

theorem chan_commandTo_other {c : Nat} (h : j ≠ c) (on : Bool) : (commandTo s c on).chan j = s.chan j := by
  unfold commandTo
  dsimp only
  split
  · rfl
  · exact chan_setChan_other s h _

theorem chan_pulseOn_other {c : Nat} (h : j ≠ c) (e off : Nat) : (pulseOn s c e off).chan j = s.chan j :=
  (chan_commandTo_other _ h _).trans (chan_setChan_other s h _)

theorem chan_startPulse_other {c : Nat} (h : j ≠ c) (e off : Nat) : (startPulse s c e off).chan j = s.chan j := by
  unfold startPulse
  split
  · rfl
  · split
    · exact chan_setChan_other _ h _
    · exact chan_pulseOn_other s h e off

variable (hidle : (s.chan j).pulse = none)
include hidle

theorem chan_meetPulse_idle (c e off : Nat) : (meetPulse s c e off).chan j = s.chan j := by
  unfold meetPulse
  dsimp only
  split
  · next p hp =>
    exact chan_setChan_other s (fun h => by rw [← h, hidle] at hp; cases hp) _
  · rfl

theorem chan_endPulse_idle (c : Nat) : (endPulse s c).chan j = s.chan j := by
  unfold endPulse
  split
  · next p hp =>
    have hne : j ≠ c := fun h => by rw [← h, hidle] at hp; cases hp
    split
    · exact (chan_commandTo_other _ hne _).trans (chan_setChan_other s hne _)
    · rfl
  · rfl

theorem chan_resumePulse_idle (c : Nat) : (resumePulse s c).chan j = s.chan j := by
  unfold resumePulse
  split
  · next p hp =>
    have hne : j ≠ c := fun h => by rw [← h, hidle] at hp; cases hp
    have hdrop := chan_setChan_other s hne { s.chan c with pulse := none }
    dsimp only
    split
    · rfl
    · split
      · exact hdrop
      · split
        · exact hdrop
        · split
          · rfl
          · exact chan_pulseOn_other s hne ..
  · rfl

end

/-- Steps that leave an idle channel as it is leave it so one after another. -/
theorem foldl_chan_idle {α : Type} {g : State → α → State} {j : Nat} (l : List α)
    (hg : ∀ s, ∀ a ∈ l, (s.chan j).pulse = none → (g s a).chan j = s.chan j) (s : State)
    (hidle : (s.chan j).pulse = none) : (l.foldl g s).chan j = s.chan j := by
  induction l generalizing s with
  | nil => rfl
  | cons a l ih =>
    have hstep := hg s a (List.mem_cons_self ..) hidle
    exact (ih (fun s b hb => hg s b (List.mem_cons_of_mem _ hb)) _ (hstep ▸ hidle)).trans hstep

/-- The pulses of a tick, of what is due at it. -/
def tickPulses (due : List (Nat × Nat × Nat)) (s : State) : State :=
  let busy := fun (s : State) (c : Nat) => (s.chan c).pulse.isSome
  (due.filter (fun d => !busy s d.2.2)).foldl
    (fun s d => if busy s d.2.2 then meetPulse s d.2.2 d.1 d.2.1 else startPulse s d.2.2 d.1 d.2.1)
    ((List.range 16).foldl resumePulse ((List.range 16).foldl endPulse
      (due.foldl (fun s d => meetPulse s d.2.2 d.1 d.2.1) s)))

theorem beside_tickPulses (due : List (Nat × Nat × Nat)) (s : State) :
    besidePulses (tickPulses due s) = besidePulses s := by
  refine (foldl_keeps (φ := besidePulses) (fun s d => ?_) _ _).trans
    ((foldl_keeps beside_resumePulse _ _).trans ((foldl_keeps beside_endPulse _ _).trans
      (foldl_keeps (φ := besidePulses) (fun s d => beside_meetPulse s ..) _ _)))
  dsimp only
  split
  · exact beside_meetPulse ..
  · exact beside_startPulse ..

/-- A channel without a pulse that nothing due names keeps its state. -/
theorem chan_tickPulses (due : List (Nat × Nat × Nat)) (s : State) {j : Nat} (hdue : ∀ d ∈ due, d.2.2 ≠ j)
    (hidle : (s.chan j).pulse = none) : (tickPulses due s).chan j = s.chan j := by
  have hmeet := foldl_chan_idle (g := fun s (d : Nat × Nat × Nat) => meetPulse s d.2.2 d.1 d.2.1) due
    (fun s d _ h => chan_meetPulse_idle s h ..) s hidle
  unfold tickPulses
  generalize due.foldl (fun s d => meetPulse s d.2.2 d.1 d.2.1) s = s1 at hmeet ⊢
  have hend := foldl_chan_idle (List.range 16) (fun s c _ h => chan_endPulse_idle s h c) s1 (by rwa [hmeet])
  generalize (List.range 16).foldl endPulse s1 = s2 at hend ⊢
  have hresume := foldl_chan_idle (List.range 16) (fun s c _ h => chan_resumePulse_idle s h c) s2 (by rwa [hend, hmeet])
  generalize (List.range 16).foldl resumePulse s2 = s3 at hresume ⊢
  refine (foldl_chan_idle _ (fun s d hd h => ?_) s3 (by rwa [hresume, hend, hmeet])).trans
    (hresume.trans (hend.trans hmeet))
  dsimp only
  split
  · exact chan_meetPulse_idle s h ..
  · exact chan_startPulse_other s (hdue d (List.mem_filter.mp hd).1).symm ..

theorem fireTick_eq (s : State) : fireTick s =
    tickPulses ((List.range 4).foldl tickQueue ([], { s with tick := s.tick + 1 })).1
      ((List.range 4).foldl tickQueue ([], { s with tick := s.tick + 1 })).2 := by
  unfold fireTick tickPulses tickQueue
  with_reducible rfl

/-- Settles O50: a tick is its queues, then its pulses, and each part leaves what the other is about. -/
theorem comparesAndTicksAct : Obligations.ComparesAndTicksAct := by
  refine ⟨fun s j k i o => ⟨periodicCompareHit_advances s j, fun h => if_neg (by simp [h]), fun a ha hlive hreached =>
    ⟨_, trigOneshotHit_fires s k i ha hlive hreached, ?_, rfl, rfl⟩, fun hfull hen hwire => ⟨fun hlag =>
      ⟨_, if_pos ⟨hfull, hen, by rw [hwire]; rfl⟩, payLag_owed s o.val hlag⟩, fun hlag => ?_⟩⟩, fun s hfull hhold => ?_,
    fun s odd => ?_⟩
  · exact (congrArg (fun x : Context => x.oneshots.get none i.val) (context_setCtx ..)).trans (tab_get_set_same ..)
  · refine (if_pos ⟨hfull, hen, by rw [hwire]; rfl⟩).trans (congrArg Host.Outcome.next ?_)
    exact if_pos hlag
  · have hqueues : QueuesTaken { s with tick := s.tick + 1 } (List.range 4)
        ((List.range 4).foldl tickQueue ([], { s with tick := s.tick + 1 })) :=
      queuesTaken_foldl (es := []) (List.range 4) ⟨rfl, fun _ _ _ => rfl, fun _ => rfl, fun d hd => absurd hd (by simp)⟩
        (by decide)
    have htick : exec .fireTick s = .next (fireTick s) := if_pos ⟨hfull, hhold⟩
    rw [fireTick_eq] at htick
    generalize (List.range 4).foldl tickQueue ([], { s with tick := s.tick + 1 }) = a at hqueues htick
    obtain ⟨hkept, -, htaken, hdue⟩ := hqueues
    obtain ⟨htick', hfqs, hctxs, htx, hbarrier⟩ : _ ∧ _ ∧ _ ∧ _ ∧ _ := by
      simpa only [besidePulses, Prod.mk.injEq] using beside_tickPulses a.1 a.2
    have htick1 : a.2.tick = s.tick + 1 := (congrArg State.tick hkept :)
    refine ⟨_, htick, htick'.trans htick1, fun e he => ?_, fun c hc hidle => ?_, ?_,
      hctxs.trans (congrArg State.ctxs hkept :), htx.trans (congrArg State.tx hkept :)⟩
    · rw [fq_of_fqs hfqs, htaken, if_pos (List.mem_range.mpr he), htick', htick1]
      rfl
    · have hchan : a.2.chan c = s.chan c := (congrArg (fun u : State => u.chan c) hkept :)
      refine (chan_tickPulses a.1 a.2 (fun d hd hdc => ?_) (hchan ▸ hidle)).trans hchan
      obtain ⟨e, he, cmd, hcmd, hreached, hbit⟩ := hdue d hd
      have hoff := hc e cmd (List.mem_range.mp he) hcmd hreached
      rw [hdc, hoff] at hbit
      cases hbit
    · refine (congrArg (fun b : Barrier => { b with changes := s.barrier.changes }) hbarrier).trans ?_
      exact congrArg (fun u : State => { u.barrier with changes := s.barrier.changes }) hkept
  · obtain ⟨t, ht, hkept, hqueues⟩ := foldl_exchange odd s (List.range 4) (by decide)
    have hqueue : ∀ e, e < 4 → t.fq e = exchangeQueue odd (landed s (s.fq e)) := fun e he =>
      (hqueues e).trans (if_pos (List.mem_range.mpr he))
    refine ⟨t, congrArg Host.Outcome.next ht, fun e he => ?_, fun e i a b he hi ha hb => ?_, fun e he hord => ?_, hkept⟩
    · rw [hqueue e he]
      exact exchangeQueue_perm ..
    · rw [hqueue e he]
      refine exchangeQueue_stages odd (landed s (s.fq e)) hi (a := { a with landed := some (a.landed.getD s.tick) })
        (b := { b with landed := some (b.landed.getD s.tick) }) ?_ ?_
      · rw [landed, List.getElem?_map, ha]
        rfl
      · rw [landed, List.getElem?_map, hb]
        rfl
    · rw [hqueue e he]
      exact exchangeQueue_ordered odd _ (List.pairwise_map.mpr hord)

end Sys2Proof.Proofs

/-! The barrier link and the trips (R318 to R323, R333, R334). -/

namespace Sys2Proof.Proofs

open Sys2Proof.Machine Sys2Proof.Safety Sys2Proof.Laws

/-! ### A change's place in the frames -/

theorem frameFor_start (s : State) : 24 ≤ framePhase s + 128 * frameFor s - halfNs s ∧
    framePhase s + 128 * frameFor s - halfNs s < 152 := by
  unfold frameFor
  omega

theorem offsetFor_near (s : State) : offsetFor s < 16 ∧
    8 * (offsetFor s : Int) - (148 - (framePhase s + 128 * frameFor s - halfNs s)) ≤ 4 ∧
    (148 - (framePhase s + 128 * frameFor s - halfNs s)) - 8 * (offsetFor s : Int) ≤ 4 := by
  obtain ⟨hlow, hhigh⟩ := frameFor_start s
  unfold offsetFor
  omega

theorem commandTo_change (s : State) (c : Nat) (on : Bool) (h : (s.chan c).commanded ≠ on) :
    ((commandTo s c on).chan c).commanded = on ∧
      (commandTo s c on).barrier.changes = s.barrier.changes ++ [⟨frameFor s, offsetFor s, c, on⟩] := by
  unfold commandTo
  dsimp only
  rw [if_neg h]
  exact ⟨congrArg ChanSt.commanded (chan_setChan ..), rfl⟩

/-! ### The bits of a down frame -/

theorem crc8Bit_lt {c : Nat} (h : c < 256) : crc8Bit c < 256 := by
  unfold crc8Bit
  split
  · exact Nat.xor_lt_two_pow (n := 8) (Nat.mod_lt _ (by decide)) (by decide)
  · omega

theorem foldl_lt {α : Type} {g : Nat → α → Nat} {n : Nat} (hg : ∀ c a, c < n → g c a < n) (l : List α) {c : Nat}
    (h : c < n) : l.foldl g c < n := by
  induction l generalizing c with
  | nil => exact h
  | cons a l ih => exact ih (hg c a h)

theorem crc8_lt (l : List Byte) : crc8 l < 256 :=
  foldl_lt (fun c b h => foldl_lt (fun _ _ h => crc8Bit_lt h) _ (Nat.xor_lt_two_pow (n := 8) h b.isLt)) l (by decide)

theorem natLe_add (n v k : Nat) : natLe n (v + 256 ^ n * k) = natLe n v := by
  induction n generalizing v with
  | zero => rfl
  | succ n ih =>
    have hdiv : (v + 256 ^ (n + 1) * k) / 256 = v / 256 + 256 ^ n * k := by
      rw [pow_succ', Nat.mul_assoc, Nat.add_mul_div_left _ _ (by decide)]
    have hbyte : BitVec.ofNat 8 (v + 256 ^ (n + 1) * k) = BitVec.ofNat 8 v := by
      apply BitVec.eq_of_toNat_eq
      rw [BitVec.toNat_ofNat, BitVec.toNat_ofNat, pow_succ', Nat.mul_assoc]
      exact Nat.add_mul_mod_self_left ..
    rw [natLe, natLe, hdiv, ih, hbyte]

/-- A frame of 56 bits under the CRC of its seven bytes. -/
theorem frameCrcOk_composed {f : Nat} (h : f < 2 ^ 56) : frameCrcOk (f + 2 ^ 56 * crc8 (natLe 7 f)) = true := by
  have hbytes : natLe 7 (f + 2 ^ 56 * crc8 (natLe 7 f)) = natLe 7 f := natLe_add 7 f _
  have hlt := crc8_lt (natLe 7 f)
  rw [frameCrcOk, hbytes, beq_iff_eq, bitsAt, Nat.add_mul_div_left _ _ (by decide), Nat.div_eq_of_lt h, Nat.zero_add]
  exact (Nat.mod_eq_of_lt hlt).symm

theorem sum_bits_lt (g : Nat → Bool) (n : Nat) : ((List.range n).map (fun c => b2n (g c) * 2 ^ c)).sum < 2 ^ n := by
  induction n with
  | zero => exact Nat.one_pos
  | succ n ih =>
    have hbit : b2n (g n) * 2 ^ n ≤ 2 ^ n := by
      cases g n <;> simp [b2n]
    rw [List.range_succ, List.map_append, List.sum_append, List.map_singleton, List.sum_singleton, pow_succ]
    omega

/-- The parts of the low 56 bits of a down frame. -/
theorem downBits_parts (before after : BitVec 16) (mine : List DownChange) (seq aux : Nat) :
    ∃ slots a b, slots < 2 ^ 16 ∧ a < 2 ^ 4 ∧ b < 2 ^ 4 ∧
      downBits before after mine seq aux =
        after.toNat + 2 ^ 16 * slots + 2 ^ 32 * a + 2 ^ 36 * b + 2 ^ 40 * seq + 2 ^ 44 * aux ∧
      (mine = [] → slots = 0 ∧ a = 0 ∧ b = 0) := by
  unfold downBits
  dsimp only
  refine ⟨_, _, _, sum_bits_lt _ 16, Nat.mod_lt _ (by decide), Nat.mod_lt _ (by decide), rfl, fun h => ?_⟩
  rw [h]
  exact ⟨by simp [b2n], rfl, rfl⟩

theorem downFrame_fields {after slots a b seq aux crc : Nat} (hafter : after < 2 ^ 16) (hslots : slots < 2 ^ 16)
    (ha : a < 2 ^ 4) (hb : b < 2 ^ 4) (hseq : seq < 2 ^ 4) (haux : aux < 2 ^ 12) :
    let f := after + 2 ^ 16 * slots + 2 ^ 32 * a + 2 ^ 36 * b + 2 ^ 40 * seq + 2 ^ 44 * aux
    let d := f + 2 ^ 56 * crc
    f < 2 ^ 56 ∧ bitsAt d 0 16 = after ∧ bitsAt d 16 24 = slots + 2 ^ 16 * a + 2 ^ 20 * b ∧ bitsAt d 40 4 = seq ∧
      bitsAt d 44 12 = aux := by
  dsimp only [bitsAt]
  omega

/-- The frame the die sends next, by its parts, and the barrier it leaves. -/
theorem composeDown_frame (s : State) :
    let d := composeDown s
    frameCrcOk d.1 = true ∧ bitsAt d.1 0 16 = d.2.barrier.sent.toNat ∧
      bitsAt d.1 40 4 = s.barrier.downNo.toNat % 16 ∧ d.2.barrier.downNo = s.barrier.downNo + 1 ∧
      bitsAt d.1 44 12 = (d.2.barrier.auxRec.getD (s.barrier.downNo.toNat % 8) 0).toNat ∧
      (s.barrier.downNo.toNat % 8 = 0 → d.2.barrier.auxRec = configRecord s (s.barrier.downNo.toNat / 8)) ∧
      (s.barrier.changes = [] → bitsAt d.1 16 24 = 0 ∧ d.2.barrier.sent = s.barrier.sent) := by
  unfold composeDown
  dsimp only
  generalize hrec : (if s.barrier.downNo.toNat % 8 = 0 then configRecord s (s.barrier.downNo.toNat / 8)
    else s.barrier.auxRec) = words
  generalize hbefore : levelsAfter s.barrier.sent _ = before
  generalize hmine : s.barrier.changes.filter (fun x => decide (x.frame = _)) = mine
  generalize hafter : levelsAfter before mine = after
  obtain ⟨slots, a, b, hslots, ha, hb, hbits, hnone⟩ := downBits_parts before after mine
    (s.barrier.downNo.toNat % 16) (words.getD (s.barrier.downNo.toNat % 8) 0).toNat
  obtain ⟨hlow, h0, h16, h40, h44⟩ := downFrame_fields (crc := crc8 (natLe 7 (downBits before after mine
    (s.barrier.downNo.toNat % 16) (words.getD (s.barrier.downNo.toNat % 8) 0).toNat))) after.isLt hslots ha hb
    (Nat.mod_lt s.barrier.downNo.toNat (by decide : 0 < 2 ^ 4)) (words.getD (s.barrier.downNo.toNat % 8) 0).isLt
  rw [show s.barrier.downNo.toNat % 2 ^ 4 = s.barrier.downNo.toNat % 16 from rfl, ← hbits] at hlow h0 h16 h40 h44
  refine ⟨frameCrcOk_composed hlow, h0, h40, rfl, h44, fun h => ?_, fun h => ?_⟩
  · rw [← hrec, if_pos h]
  · rw [h] at hbefore hmine
    obtain ⟨rfl, rfl, rfl⟩ := hnone hmine.symm
    refine ⟨h16, ?_⟩
    rw [← hafter, ← hmine, ← hbefore]
    rfl

/-! ### Outputs that the field side switches off -/

section
variable (s : State)

theorem chan_driveTo_other {c j : Nat} (h : j ≠ c) (on : Bool) (at4ns : Option Nat) :
    (driveTo s c on at4ns).chan j = s.chan j := by
  unfold driveTo
  dsimp only
  split
  · rfl
  · exact tab_get_set_other _ _ _ h

theorem driven_driveTo (c : Nat) (on : Bool) (at4ns : Option Nat) : ((driveTo s c on at4ns).chan c).driven = on := by
  unfold driveTo
  dsimp only
  split
  · assumption
  · exact congrArg ChanSt.driven (chan_setChan ..)

theorem chan_fieldOff_other {c j : Nat} (h : j ≠ c) : (fieldOff s c).chan j = s.chan j := by
  unfold fieldOff
  dsimp only
  split
  · exact (chan_driveTo_other _ h ..).trans (tab_get_set_other _ _ _ h)
  · rfl

theorem driven_fieldOff (c : Nat) : ((fieldOff s c).chan c).driven = false := by
  unfold fieldOff
  dsimp only
  split
  · exact driven_driveTo ..
  · next h => exact Bool.eq_false_iff.mpr h

theorem regs_fieldOff (c : Nat) : (fieldOff s c).regs = s.regs := by
  unfold fieldOff driveTo
  dsimp only
  split
  · split <;> rfl
  · rfl

variable (p : Nat → Bool)

theorem regs_fieldOffAll : (fieldOffAll s p).regs = s.regs :=
  foldl_keeps (φ := State.regs) (fun s c => by
    split
    · exact regs_fieldOff ..
    · rfl) _ _

/-- An output that is off stays off while others are switched off. -/
theorem driven_foldl_fieldOff {c : Nat} (l : List Nat) (h : (s.chan c).driven = false ∨ c ∈ l ∧ p c = true) :
    ((l.foldl (fun s c => if p c then fieldOff s c else s) s).chan c).driven = false := by
  induction l generalizing s with
  | nil => simpa using h
  | cons d l ih =>
    refine ih _ ?_
    dsimp only
    by_cases hd : c = d
    · subst hd
      split
      · exact .inl (driven_fieldOff ..)
      · next hp => exact .inl (h.resolve_right (fun hmem => hp hmem.2))
    · have hsame : (if p d then fieldOff s d else s).chan c = s.chan c := by
        split
        · exact chan_fieldOff_other s hd
        · rfl
      rw [hsame]
      exact h.imp_right (fun hmem => ⟨(List.mem_cons.mp hmem.1).resolve_left hd, hmem.2⟩)

theorem driven_fieldOffAll {c : Nat} (hc : c < 16) (hp : p c = true) : ((fieldOffAll s p).chan c).driven = false :=
  driven_foldl_fieldOff s p _ (.inr ⟨List.mem_range.mpr hc, hp⟩)

theorem chan_fieldOffAll_other {c : Nat} (hp : p c = false) : (fieldOffAll s p).chan c = s.chan c :=
  foldl_keeps (φ := fun s : State => s.chan c) (fun s d => by
    split
    · next hd => exact chan_fieldOff_other s (fun h => by rw [h, hd] at hp; cases hp)
    · rfl) _ _

end

/-! ### Frames that are lost -/

section
variable (s : State)

/-- The field side that has counted one frame more as lost. -/
def missedDown : State :=
  { s with barrier := { s.barrier with
    fieldBad := s.barrier.fieldBad + 1, fieldGood := 0, cfgWords := [],
    fieldSeq := s.barrier.fieldSeq.map (fun q => q + 1) } }

theorem barrier_logEvent (code source severity : Nat) (details : List Nat) :
    (logEvent s code source severity details).barrier = s.barrier := by
  rw [logEvent_frame]

theorem chans_logEvent (code source severity : Nat) (details : List Nat) :
    (logEvent s code source severity details).chans = s.chans := by
  rw [logEvent_frame]

/-- Entering the safe state: every output off, then the flags and the event. -/
theorem enterSafe_enters (h : s.barrier.fieldSafe = false) : (enterSafe s).barrier.fieldSafe = true ∧
    (enterSafe s).get .barFieldSafe 0 = 1 ∧ (enterSafe s).chans = (fieldOffAll s (fun _ => true)).chans := by
  unfold enterSafe
  dsimp only
  rw [if_neg (Bool.eq_false_iff.mp h)]
  generalize hu : State.mk .. = u
  have hsafe : u.barrier.fieldSafe = true := hu ▸ rfl
  have hchans : u.chans = (fieldOffAll s (fun _ => true)).chans := by rw [← hu]
  rw [barrier_logEvent, chans_logEvent, get_logEvent _ (by decide), get_bump_ne _ (by decide), get_put_ne _ (by decide),
    get_put_same]
  exact ⟨hsafe, rfl, hchans⟩

theorem downLost_fourth (hsafe : s.barrier.fieldSafe = false) (hbad : s.barrier.fieldBad = 3) :
    (downLost s).barrier.fieldSafe = true ∧ (downLost s).get .barFieldSafe 0 = 1 ∧
      ∀ c, c < 16 → ((downLost s).chan c).driven = false := by
  have hlost : downLost s = enterSafe (missedDown s) := if_pos (by omega)
  obtain ⟨hin, hreg, hchans⟩ := enterSafe_enters (missedDown s) hsafe
  rw [hlost]
  refine ⟨hin, hreg, fun c hc => ?_⟩
  rw [State.chan, hchans]
  exact driven_fieldOffAll (missedDown s) _ hc rfl

theorem downLost_few (hbad : s.barrier.fieldBad < 3) : downLost s = missedDown s := if_neg (by omega)

/-- A register of every channel, written for a list of them. -/
theorem get_foldl_put {f : Fld} {v c : Nat} (hv : v < 2 ^ f.info.width) (l : List Nat)
    (h : c ∈ l ∨ s.get f c = v) : (l.foldl (fun s c => s.put f c v) s).get f c = v := by
  induction l generalizing s with
  | nil => simpa using h
  | cons d l ih =>
    refine ih _ ?_
    by_cases hd : c = d
    · exact .inr (hd ▸ (get_put_same ..).trans (Nat.mod_eq_of_lt hv))
    · rw [get_put_other _ (fun h => hd (congrArg Prod.snd h))]
      exact h.imp_left (fun hmem => (List.mem_cons.mp hmem).resolve_left hd)

theorem get_foldl_put_other {f g : Fld} (h : g ≠ f) (v i : Nat) (l : List Nat) :
    (l.foldl (fun s c => s.put f c v) s).get g i = s.get g i :=
  foldl_keeps (φ := fun s : State => s.get g i) (fun s _ => get_put_ne s h ..) l s

theorem upLost_fourth (hup : s.flag .barUp 0 = true) (hbad : s.barrier.upBad = 3) :
    (upLost s).get .barUp 0 = 0 ∧ (upLost s).get .barSafeSeen 0 = 1 ∧
      ∀ c, c < 16 → (upLost s).get .fcStale c = 1 := by
  unfold upLost
  dsimp only
  rw [if_pos ⟨by omega, hup⟩]
  refine ⟨?_, ?_, fun c hc => get_foldl_put _ (by decide) _ (.inl (List.mem_range.mpr hc))⟩
  · rw [get_foldl_put_other _ (by decide), get_put_ne _ (by decide), get_put_same]
    rfl
  · rw [get_foldl_put_other _ (by decide), get_put_same]
    rfl

/-! ### The frame that brings the link up -/

theorem barUp_inputEdge (c : Nat) (level : Bool) (time clk : Nat) :
    (inputEdge s c level time clk).get .barUp 0 = s.get .barUp 0 := by
  unfold inputEdge
  dsimp only
  split
  · rw [get_put_ne _ (by decide), get_put_ne _ (by decide)]
  · split
    · rw [side_stageEvent _ (by decide), get_put_ne _ (by decide)]
    · rw [get_put_ne _ (by decide)]

theorem barUp_frameEdge (f i : Nat) : (frameEdge s f i).get .barUp 0 = s.get .barUp 0 := by
  unfold frameEdge
  dsimp only
  split
  · rfl
  · split
    · rfl
    · exact (barUp_inputEdge ..).trans rfl

theorem regs_commandTo (c : Nat) (on : Bool) : (commandTo s c on).regs = s.regs := by
  unfold commandTo
  dsimp only
  split <;> rfl

theorem barUp_readBack (c : Nat) (level : Bool) : (readBack s c level).get .barUp 0 = s.get .barUp 0 := by
  have hlevel : ∀ v, (s.put .fcLevel c v).get .barUp 0 = s.get .barUp 0 := fun v => get_put_ne _ (by decide) ..
  unfold readBack
  dsimp only
  split
  · split
    · rfl
    · exact hlevel _
  · split
    · split
      · exact (get_of_regs (regs_commandTo ..) ..).trans (hlevel _)
      · exact hlevel _
    · exact hlevel _

theorem barUp_decideClears : (decideClears s).get .barUp 0 = s.get .barUp 0 := by
  unfold decideClears
  dsimp only
  split
  · rfl
  · rw [get_put_ne _ (by decide), get_put_ne _ (by decide), get_put_ne _ (by decide)]
    rfl

theorem barUp_applyStatus (w : Nat) : (applyStatus s w).get .barUp 0 = s.get .barUp 0 := by
  have hset : ∀ (s : State) (f : Fld) (c i : Nat), f ≠ .barUp →
      (if bitAt w (3 * c + i) then s.put f c 1 else s).get .barUp 0 = s.get .barUp 0 := fun s f c i h => by
    split
    · exact get_put_ne _ h.symm ..
    · rfl
  unfold applyStatus
  dsimp only
  rw [barUp_decideClears, get_put_ne _ (by decide), get_put_ne _ (by decide), get_put_ne _ (by decide),
    get_put_ne _ (by decide), get_put_ne _ (by decide)]
  refine foldl_keeps (φ := fun s : State => s.get .barUp 0) (fun s c => ?_) _ _
  rw [hset _ _ _ _ (by decide), hset _ _ _ _ (by decide), hset _ _ _ _ (by decide)]

theorem barUp_statusNibble (n : Nat) : (statusNibble s n).get .barUp 0 = s.get .barUp 0 := by
  unfold statusNibble
  dsimp only
  split
  · rfl
  · exact (barUp_applyStatus ..).trans rfl

theorem upGoodFrame_up (f : Nat) (hdown : s.flag .barUp 0 = false) (hgood : s.barrier.upGood = 63) :
    (upGoodFrame s f).get .barUp 0 = 1 := by
  unfold upGoodFrame
  dsimp only
  generalize hs1 : State.mk .. = s1
  have hflag : (!s1.flag .barUp 0 && decide (64 ≤ s.barrier.upGood + 1)) = true := by
    rw [show s1.flag .barUp 0 = s.flag .barUp 0 from hs1 ▸ rfl, hdown, hgood]
    rfl
  rw [hflag, if_pos rfl]
  generalize hs2 : (List.range 16).foldl _ (s1.put .barUp 0 1) = s2
  have hup : s2.get .barUp 0 = 1 := by
    rw [← hs2, get_foldl_put_other _ (by decide), get_put_same]
    rfl
  rw [if_pos (by rw [State.flag, hup]; rfl), barUp_statusNibble]
  exact (foldl_keeps (φ := fun s : State => s.get .barUp 0) (fun s i => barUp_readBack s ..) _ _).trans
    ((foldl_keeps (φ := fun s : State => s.get .barUp 0) (fun s i => barUp_frameEdge s ..) _ _).trans hup)

end

/-! ### Arrivals -/

section
variable {s : State} {frame : BitVec 64}

theorem upFrame_good (hrun : framesRun s = true) (hcrc : frameCrcOk frame.toNat = true)
    (hseq : s.barrier.upSeq = none ∨ s.barrier.upSeq = some (BitVec.ofNat 3 (bitsAt frame.toNat 1 3) - 1)) :
    exec (.upFrame frame) s = .next (upGoodFrame { s with barrier := { s.barrier with
      upSeq := some (BitVec.ofNat 3 (bitsAt frame.toNat 1 3)) } } frame.toNat) := by
  change execUpFrame frame s = _
  unfold execUpFrame
  dsimp only
  rw [hrun, hcrc, if_neg (by decide), Bool.true_and]
  obtain hnone | hseq := hseq
  · rw [hnone]
    rfl
  · rw [hseq]
    exact if_pos (by simp)

theorem upFrame_bad (hrun : framesRun s = true) (hcrc : frameCrcOk frame.toNat = false) :
    exec (.upFrame frame) s = .next (upLost (s.bump .barBadDown 0)) := by
  change execUpFrame frame s = _
  unfold execUpFrame
  dsimp only
  rw [hrun, hcrc]
  rfl

end

section
variable {s : State} {f : Nat}

theorem downArrives_good (hcrc : frameCrcOk f = true)
    (hseq : s.barrier.fieldSeq = none ∨ s.barrier.fieldSeq = some (BitVec.ofNat 4 (bitsAt f 40 4) - 1)) :
    downArrives s f = downGood { s with barrier := { s.barrier with
      fieldSeq := some (BitVec.ofNat 4 (bitsAt f 40 4)) } } f := by
  unfold downArrives
  dsimp only
  rw [hcrc, Bool.true_and]
  obtain hnone | hseq := hseq
  · rw [hnone]
    rfl
  · rw [hseq]
    exact if_pos (by simp)

theorem downArrives_bad (hcrc : frameCrcOk f = false) : downArrives s f = downLost (s.bump .barBadUp 0) := by
  unfold downArrives
  dsimp only
  rw [hcrc]
  rfl

theorem downArrives_broken (hcrc : frameCrcOk f = true)
    (hseq : ∃ q, s.barrier.fieldSeq = some q ∧ q ≠ BitVec.ofNat 4 (bitsAt f 40 4) - 1) :
    (downArrives s f).barrier.fieldSeq = some (BitVec.ofNat 4 (bitsAt f 40 4)) ∧
      { downArrives s f with barrier := (downLost (s.bump .barBadUp 0)).barrier } = downLost (s.bump .barBadUp 0) := by
  obtain ⟨q, hq, hne⟩ := hseq
  have hbreak : (BitVec.ofNat 4 (bitsAt f 40 4) == q + 1) = false :=
    beq_eq_false_iff_ne.mpr (fun h => hne (by rw [h, BitVec.add_sub_cancel]))
  have hbroken : downArrives s f = { downLost (s.bump .barBadUp 0) with barrier :=
      { (downLost (s.bump .barBadUp 0)).barrier with fieldSeq := some (BitVec.ofNat 4 (bitsAt f 40 4)) } } := by
    unfold downArrives
    dsimp only
    rw [hcrc, Bool.true_and, hq]
    exact (if_neg (Bool.eq_false_iff.mp hbreak)).trans (if_pos rfl)
  rw [hbroken]
  exact ⟨rfl, rfl⟩

end

/-! ### Trips -/

section
variable (s : State)

theorem trip_latches (n : Fin 2) : ∃ t, fieldOffAll ((s.put .tripActive 0 (s.get .tripActive 0 ||| 2 ^ n.val)).put
      .tripLatch 0 (s.get .tripLatch 0 ||| 2 ^ n.val)) (fun c => bitAt (fieldMask s n.val) c) = t ∧
    t.get .tripLatch 0 = (s.get .tripLatch 0 ||| 2 ^ n.val) % 4 ∧ bitAt (t.get .tripActive 0) n.val = true ∧
    (∀ c, c < 16 → bitAt (fieldMask s n.val) c = true → (t.chan c).driven = false) ∧
    (∀ c, c < 16 → bitAt (fieldMask s n.val) c = false → t.chan c = s.chan c) := by
  refine ⟨_, rfl, ?_, ?_, fun c hc hbit => driven_fieldOffAll _ _ hc hbit,
    fun c _ hbit => chan_fieldOffAll_other _ _ hbit⟩
  · rw [get_of_regs (regs_fieldOffAll ..), get_put_same]
    rfl
  · rw [get_of_regs (regs_fieldOffAll ..), get_put_ne _ (by decide), get_put_same,
      show (2 : Nat) ^ Fld.tripActive.info.width = 2 ^ 2 from rfl, bitAt_mod n.isLt, bitAt,
      ← Nat.testBit_eq_decide_div_mod_eq, Nat.testBit_or, Nat.testBit_two_pow_self, Bool.or_true]

end

section
variable {s : State}

/-- What deciding a clear of trip 0 alone leaves. -/
theorem decideClears_first (hreq : s.barrier.clearReq = 1) :
    bitAt ((decideClears s).get .tripLatch 0) 0 = (bitAt (s.get .tripLatch 0) 0 && bitAt (s.get .tripActive 0) 0) ∧
      bitAt ((decideClears s).get .tripLatch 0) 1 = bitAt (s.get .tripLatch 0) 1 ∧
      (decideClears s).get .tripLastClear 0 = (if bitAt (s.get .tripActive 0) 0 then cTripActive else cOk) ∧
      (decideClears s).get .tripClearPending 0 = 0 := by
  have hreq' : s.barrier.clearReq.toNat = 1 := by rw [hreq]; rfl
  unfold decideClears
  dsimp only
  rw [hreq', if_neg (by decide)]
  generalize State.mk .. = u
  simp only [get_put, reduceCtorEq, false_and, if_false, and_self, if_true]
  generalize bitAt (s.get .tripLatch 0) 0 = a
  generalize bitAt (s.get .tripLatch 0) 1 = b
  generalize bitAt (s.get .tripActive 0) 0 = c
  generalize bitAt (s.get .tripActive 0) 1 = d
  revert a b c d
  decide

variable (s) in
/-- The request of a clear, as the command hands it on. -/
def clearAsked (mask : Nat) : State :=
  { s with barrier := { s.barrier with clearReq := s.barrier.clearReq ||| BitVec.ofNat 2 mask } }

theorem requestClear_linked {mask : Nat} (hmask : mask ≠ 0) (hup : s.flag .barUp 0 = true)
    (hsafe : s.barrier.fieldSafe = false) : requestClear s mask = decideClears (clearAsked s mask) := by
  unfold requestClear
  dsimp only
  rw [if_neg hmask]
  exact if_pos (by rw [hup, hsafe]; rfl)

theorem requestClear_unlinked {mask : Nat} (hmask : mask ≠ 0)
    (hlink : s.flag .barUp 0 = false ∨ s.barrier.fieldSafe = true) :
    requestClear s mask = (clearAsked s mask).put .tripClearPending 0 1 := by
  unfold requestClear
  dsimp only
  rw [if_neg hmask]
  exact if_neg (by obtain h | h := hlink <;> simp [h])

theorem exec_tripClear (hfull : s.power = .full) (c0 c1 : Bool) :
    exec (.tripClear 0 c0 c1) s = .next (requestClear s (b2n c0 + 2 * b2n c1)) :=
  congrArg Host.Outcome.next (if_pos hfull)

theorem tripClear_decides (hfull : s.power = .full) (hup : s.flag .barUp 0 = true)
    (hsafe : s.barrier.fieldSafe = false) :
    exec (.tripClear 0 true false) s = .next (decideClears (clearAsked s 1)) :=
  (exec_tripClear hfull ..).trans (congrArg Host.Outcome.next (requestClear_linked (by decide) hup hsafe))

theorem tripClear_pends (hfull : s.power = .full) (hlink : s.flag .barUp 0 = false ∨ s.barrier.fieldSafe = true)
    {c0 c1 : Bool} (hclear : c0 = true ∨ c1 = true) : exec (.tripClear 0 c0 c1) s =
      .next ((clearAsked s (b2n c0 + 2 * b2n c1)).put .tripClearPending 0 1) := by
  have hmask : b2n c0 + 2 * b2n c1 ≠ 0 := by
    revert hclear
    cases c0 <;> cases c1 <;> simp [b2n]
  rw [exec_tripClear hfull, requestClear_unlinked hmask hlink]

end

/-- Settles O51: the parts of a down frame do not overlap, so each reads back, and the fourth loss and the trips switch
outputs off one by one. -/
theorem barrierLinkAndTripsLatch : Obligations.BarrierLinkAndTripsLatch := by
  refine ⟨fun s c on _ hne => ?_, composeDown_frame, ?_, fun s n c0 c1 => ⟨fun hpower => ?_,
    fun hfull hup hsafe hreq => ⟨fun hact => ?_, fun hact => ?_⟩, fun hfull hlink hclear => ?_,
    fun fn hfn => if_neg (fun h => hfn (Fin.ext h))⟩⟩
  · obtain ⟨hcommanded, hchanges⟩ := commandTo_change s c on hne
    obtain ⟨hlow, hhigh⟩ := frameFor_start s
    obtain ⟨hin, hbefore, hafter⟩ := offsetFor_near s
    exact ⟨hcommanded, hchanges, hlow, hhigh, hin, hbefore, hafter⟩
  · intro s frame hrun f d b seq
    refine ⟨if_neg (by simp [hrun]), fun hcrc hseq => downArrives_good (s := d) hcrc hseq,
      fun hcrc => ⟨downArrives_bad hcrc, upFrame_bad hrun hcrc⟩,
      fun hcrc hseq => downArrives_broken (s := d) hcrc hseq, fun hcrc hseq => upFrame_good hrun hcrc hseq,
      if_neg (by simp [hrun]), if_neg (by simp [hrun]), fun hsafe hbad => downLost_fourth s hsafe hbad, fun hbad => ?_,
      fun hup hbad => upLost_fourth s hup hbad, fun hdown hgood => upGoodFrame_up s f hdown hgood⟩
    rw [downLost_few s hbad]
    exact ⟨rfl, rfl⟩
  · obtain ⟨t, ht, hlatch⟩ := trip_latches s n
    exact ⟨t, (if_neg hpower).trans (congrArg Host.Outcome.next ht), hlatch⟩
  · obtain ⟨h0, h1, hlast, hpending⟩ := decideClears_first (s := clearAsked s 1) (by rw [clearAsked, hreq]; rfl)
    refine ⟨_, tripClear_decides hfull hup hsafe, h0.trans ?_, h1, hlast.trans ?_, hpending⟩
    · rw [show (clearAsked s 1).get .tripActive 0 = s.get .tripActive 0 from rfl, hact, Bool.and_false]
    · rw [show (clearAsked s 1).get .tripActive 0 = s.get .tripActive 0 from rfl, hact]
      rfl
  · obtain ⟨h0, -, hlast, -⟩ := decideClears_first (s := clearAsked s 1) (by rw [clearAsked, hreq]; rfl)
    refine ⟨_, tripClear_decides hfull hup hsafe, h0.trans ?_, hlast.trans ?_⟩
    · rw [show (clearAsked s 1).get .tripActive 0 = s.get .tripActive 0 from rfl, hact, Bool.and_true]
      rfl
    · rw [show (clearAsked s 1).get .tripActive 0 = s.get .tripActive 0 from rfl, hact]
      rfl
  · exact ⟨_, tripClear_pends hfull hlink hclear, get_put_same .., (get_put_ne _ (by decide) ..).trans rfl⟩

end Sys2Proof.Proofs

/-! Field channels: edges, open wires, overloads and the supply (R326 to R330, R324, R461). -/

namespace Sys2Proof.Proofs

open Sys2Proof.Machine Sys2Proof.Safety Sys2Proof.Laws

section
variable {s : State} {c : Chan}

/-- An output that is on is switched off by the field side itself, and waits for a frame that shows it off. -/
theorem fieldOff_driven (c : Nat) (hon : (s.chan c).driven = true) :
    (fieldOff s c).chan c = { s.chan c with blocked := true, driven := false } ∧
      (fieldOff s c).tx = .field c false none :: s.tx := by
  unfold fieldOff driveTo
  dsimp only
  rw [if_pos hon, chan_setChan, if_neg (by simp [hon])]
  exact ⟨chan_setChan .., rfl⟩

theorem outputOverload_switchesOff (hout : fieldOutput s c.val = true) (hon : (s.chan c.val).driven = true) :
    ∃ t, exec (.outputOverload c) s = .next t ∧ t.get .fcOverload c.val = 1 ∧ (t.chan c.val).driven = false ∧
      (t.chan c.val).blocked = true ∧ t.get .fcOverloads c.val = min (s.get .fcOverloads c.val + 1) 0xFFFFFFFF ∧
      (∀ d, d ≠ c.val → t.chan d = s.chan d) ∧ t.tx = .field c.val false none :: s.tx := by
  have hgo : (fieldOutput s c.val && (s.chan c.val).driven) = true := by rw [hout, hon]; rfl
  obtain ⟨hchan, htx⟩ := fieldOff_driven (s := (s.put .fcOverload c.val 1).bump .fcOverloads c.val) c.val hon
  refine ⟨_, if_pos hgo, ?_, congrArg ChanSt.driven hchan, congrArg ChanSt.blocked hchan, ?_,
    fun d hd => (chan_fieldOff_other _ hd).trans rfl, htx⟩
  · rw [get_of_regs (regs_fieldOff ..), get_bump_ne _ (by decide), get_put_same]
    rfl
  · rw [get_of_regs (regs_fieldOff ..), get_bump_count _ rfl, get_put_ne _ (by decide)]

/-- An input's settled edge reaches the die with the link up and the supply there. -/
theorem exec_inputEdge {level : Bool} (hin : isInput s c.val = true) (hfield : fieldInput s c.val = true)
    (hrun : framesRun s = true) (hsupply : s.barrier.supply = true) (hup : s.flag .barUp 0 = true) :
    exec (.inputEdge c level) s = .next (inputEdge (s.setChan c.val { s.chan c.val with reported := true }) c.val level
      s.now s.clk) := by
  change execInputEdge c level s = _
  unfold execInputEdge
  dsimp only
  rw [hin, hfield, hrun, hsupply, hup]
  rfl

end

/-- Inputs become undetermined, one after another. -/
theorem foldl_undetermined (l : List Nat) (s : State) {d : Nat} (hin : isInput s d = true)
    (h : d ∈ l ∨ s.get .fcLevel d = 0 ∧ s.get .fcUndet d = 1) :
    let t := l.foldl (fun s c => if isInput s c then (s.put .fcLevel c 0).put .fcUndet c 1 else s) s
    t.get .fcLevel d = 0 ∧ t.get .fcUndet d = 1 := by
  induction l generalizing s with
  | nil => simpa using h
  | cons c l ih =>
    have hmode : ∀ e, isInput ((s.put .fcLevel c 0).put .fcUndet c 1) e = isInput s e := fun e => by
      rw [isInput, isInput, get_put_ne _ (by decide), get_put_ne _ (by decide)]
    dsimp only [List.foldl_cons]
    by_cases hc : isInput s c = true
    · rw [if_pos hc]
      refine ih _ ((hmode d).trans hin) ?_
      by_cases hd : d = c
      · subst hd
        rw [get_put_ne _ (by decide), get_put_same, get_put_same]
        exact .inr ⟨rfl, rfl⟩
      · rw [get_put_ne _ (by decide), get_put_other _ (fun h => hd (congrArg Prod.snd h)),
          get_put_other _ (fun h => hd (congrArg Prod.snd h)), get_put_ne _ (by decide)]
        exact h.imp_left (fun hmem => (List.mem_cons.mp hmem).resolve_left hd)
    · rw [if_neg hc]
      exact ih s hin (h.imp_left (fun hmem => (List.mem_cons.mp hmem).resolve_left (fun hd => by
        rw [← hd] at hc
        exact hc hin)))

/-- What the loss of the supply leaves beside the inputs' levels. -/
theorem foldl_undetermined_frame (l : List Nat) (s : State) {α : Type} {φ : State → α}
    (hlevel : ∀ s i v, φ (s.put .fcLevel i v) = φ s) (hundet : ∀ s i v, φ (s.put .fcUndet i v) = φ s) :
    φ (l.foldl (fun s c => if isInput s c then (s.put .fcLevel c 0).put .fcUndet c 1 else s) s) = φ s :=
  foldl_keeps (fun s c => by
    split
    · exact (hundet ..).trans (hlevel ..)
    · rfl) l s

theorem fieldSupplyLost_leaves (s : State) : ∃ t, exec .fieldSupplyLost s = .next t ∧ t.barrier.supply = false ∧
    t.get .barSupplyOk 0 = 0 ∧ (∀ d, d < 16 → (t.chan d).driven = false) ∧
    (∀ d, d < 16 → isInput s d = true → t.get .fcLevel d = 0 ∧ t.get .fcUndet d = 1) := by
  have hregsOff := regs_fieldOffAll s (fun _ => true)
  have hoff : ∀ d, d < 16 → ((fieldOffAll s (fun _ => true)).chan d).driven = false :=
    fun d hd => driven_fieldOffAll s _ hd rfl
  have hexec : exec .fieldSupplyLost s = execFieldSupplyLost s := rfl
  unfold execFieldSupplyLost at hexec
  dsimp only at hexec
  generalize fieldOffAll s (fun _ => true) = f at hregsOff hoff hexec
  generalize hu : State.mk .. = u at hexec
  have hsupply : u.barrier.supply = false := by rw [← hu]
  have hchans : u.chans = f.chans := by rw [← hu]
  have hregs : u.regs = s.regs := (congrArg State.regs hu).symm.trans hregsOff
  refine ⟨_, hexec, ?_, ?_, fun d hd => ?_, fun d hd hin => foldl_undetermined _ _ ?_ (.inl (List.mem_range.mpr hd))⟩
  · exact (foldl_undetermined_frame _ _ (φ := fun t : State => t.barrier.supply) (fun _ _ _ => rfl)
      (fun _ _ _ => rfl)).trans hsupply
  · exact (foldl_undetermined_frame _ _ (φ := fun t : State => t.get .barSupplyOk 0)
      (fun _ _ _ => get_put_ne _ (by decide) ..) (fun _ _ _ => get_put_ne _ (by decide) ..)).trans (get_put_same ..)
  · have hkept := foldl_undetermined_frame (List.range 16) (u.put .barSupplyOk 0 0) (φ := State.chans)
      (fun _ _ _ => rfl) (fun _ _ _ => rfl)
    rw [State.chan, hkept]
    exact (congrArg (fun t : Tab ChanSt => (t.get ChanSt.reset d).driven) hchans).trans (hoff d hd)
  · rw [isInput, get_put_ne _ (by decide), get_of_regs hregs]
    exact hin

/-- Settles O52: what the field side reports is one branch of each command, and what it switches off is one output. -/
theorem fieldChannelsReport : Obligations.FieldChannelsReport := by
  refine fun s c level => ⟨fun hin hfield hrun hsupply hup hsettled hstamp hassigned hlevel => ?_,
    fun hin hfield hrun hsupply hup hundet => ?_, fun hfield hcheck => if_pos (by rw [hfield, hcheck]; rfl),
    fun hout hon => ⟨outputOverload_switchesOff hout hon, if_pos (by rw [hout, hon]; rfl)⟩, fun hout => ?_,
    fieldSupplyLost_leaves s, rfl⟩
  · rw [exec_inputEdge hin hfield hrun hsupply hup]
    generalize hs : s.setChan c.val { s.chan c.val with reported := true } = s'
    have hregs : s'.regs = s.regs := (congrArg State.regs hs).symm.trans rfl
    have hundet : s'.flag .fcUndet c.val = false := by rw [← hs]; exact hsettled
    have hrecord : (s'.flag .fcStamp c.val && s'.flag .fcAssigned c.val && s'.get .fcLevel c.val != b2n level) =
        true := by
      rw [State.flag, State.flag, get_of_regs hregs, get_of_regs hregs, get_of_regs hregs]
      exact Bool.and_eq_true_iff.mpr ⟨Bool.and_eq_true_iff.mpr ⟨hstamp, hassigned⟩, bne_iff_ne.mpr hlevel⟩
    unfold inputEdge
    dsimp only
    rw [hundet, if_neg (by decide), hrecord, if_pos rfl, get_of_regs hregs]
  · rw [exec_inputEdge hin hfield hrun hsupply hup]
    exact congrArg Host.Outcome.next (if_pos hundet)
  · refine ⟨_, if_pos hout, ?_, driven_fieldOff ..⟩
    rw [get_of_regs (regs_fieldOff ..), get_put_same]
    rfl

end Sys2Proof.Proofs

/-! Device time and its domains (R343, R345, R346), and the launch queues (R348 to R350). -/

namespace Sys2Proof.Proofs

open Sys2Proof.Machine Sys2Proof.Safety Sys2Proof.Laws

/-! ### Steps of device time -/

section
variable (s : State)

theorem servo_setServo_same (d : Nat) (x : Servo) : (s.setServo d x).servo d = x := tab_get_set_same ..

theorem servo_setServo_other {d e : Nat} (h : e ≠ d) (x : Servo) : (s.setServo d x).servo e = s.servo e :=
  tab_get_set_other _ _ _ h

theorem servo_setOffset (d e : Nat) (o : Int) :
    (setOffset s d o).servo e = { s.servo e with offset := if e = d then o else (s.servo e).offset } := by
  by_cases h : e = d
  · subst h
    rw [if_pos rfl]
    exact servo_setServo_same ..
  · rw [if_neg h]
    exact servo_setServo_other s h _

theorem get_setOffset {f : Fld} (hf : f ≠ .domOffset) (d i : Nat) (o : Int) :
    (setOffset s d o).get f i = s.get f i := get_put_ne _ hf ..

theorem get_stepTime {f : Fld} (htime : f ≠ .timeNow) (hoff : f ≠ .domOffset) (t i : Nat) :
    (stepTime s t).get f i = s.get f i := by
  unfold stepTime
  dsimp only
  refine (foldl_keeps (φ := fun s : State => s.get f i) (fun s d => get_setOffset s hoff d i _) _ _).trans ?_
  exact (get_put_ne s htime ..).trans rfl

theorem now_stepTime (t : Nat) : (stepTime s t).now = t % 2 ^ 64 := by
  unfold stepTime State.now
  dsimp only
  refine (foldl_keeps (φ := fun s : State => s.get .timeNow 0)
    (fun s d => get_setOffset s (by decide) d 0 _) _ _).trans ?_
  exact get_put_same s .timeNow 0 t

/-- A step of device time moves both domains' offsets the other way: their own clocks stay. -/
theorem servo_stepTime (t e : Nat) : (stepTime s t).servo e = { s.servo e with
    offset := if e < 2 then (s.servo e).offset - ((t : Int) - s.now) * nsUnits else (s.servo e).offset } := by
  have htwo : stepTime s t =
      let s1 := { s.put .timeNow 0 t with timeFrac := 0 }
      let s2 := setOffset s1 0 ((s1.servo 0).offset - ((t : Int) - s.now) * nsUnits)
      setOffset s2 1 ((s2.servo 1).offset - ((t : Int) - s.now) * nsUnits) := rfl
  rw [htwo]
  dsimp only
  generalize hs1 : State.mk .. = s1
  have hservo : ∀ e, s1.servo e = s.servo e := fun e => by rw [← hs1]; rfl
  rw [servo_setOffset, servo_setOffset, servo_setOffset, hservo, hservo, hservo]
  obtain rfl | rfl | he : e = 0 ∨ e = 1 ∨ 2 ≤ e := by omega
  · rfl
  · rfl
  · rw [if_neg (by omega), if_neg (by omega), if_neg (by omega)]

/-- What following a domain may change once a setting has been made. -/
theorem firstSetting_valid (h : s.flag .timeValid 0 = true) : firstSetting s = s := if_pos (by rw [h]; rfl)

theorem get_firstSetting {f : Fld} (htime : f ≠ .timeNow) (hoff : f ≠ .domOffset) (hvalid : f ≠ .timeValid) (i : Nat) :
    (firstSetting s).get f i = s.get f i := by
  unfold firstSetting
  dsimp only
  split
  · rfl
  · rw [get_put_ne _ hvalid, get_stepTime _ htime hoff]

theorem servo_firstSetting (e : Nat) :
    ((firstSetting s).servo e).synced = (s.servo e).synced ∧ ((firstSetting s).servo e).good = (s.servo e).good := by
  unfold firstSetting
  dsimp only
  split
  · exact ⟨rfl, rfl⟩
  · have hservo := servo_stepTime s (wrapTo 64 ((s.now : Int) + (s.servo (selected s)).offset / nsUnits)) e
    exact ⟨(congrArg Servo.synced hservo :), (congrArg Servo.good hservo :)⟩

theorem get_autoSwitch {f : Fld} (hsel : f ≠ .timeSel) (hswitched : f ≠ .timeSwitched) (i : Nat) :
    (autoSwitch s).get f i = s.get f i := by
  unfold autoSwitch
  dsimp only
  split
  · rw [get_put_ne _ hswitched, get_put_ne _ hsel]
  · rfl

theorem servos_autoSwitch : (autoSwitch s).servos = s.servos := by
  unfold autoSwitch
  dsimp only
  split <;> rfl

theorem servo_autoSwitch (e : Nat) : (autoSwitch s).servo e = s.servo e := by
  rw [State.servo, servos_autoSwitch]
  rfl

/-- What follows a change of a domain keeps the domain's state and servo, and device time where it is set. -/
theorem followed_keeps (e : Nat) : let t := firstSetting (autoSwitch s)
    t.get .domState e = s.get .domState e ∧ t.get .domFreq e = s.get .domFreq e ∧
      (t.servo e).synced = (s.servo e).synced ∧ (t.servo e).good = (s.servo e).good ∧
      (s.flag .timeValid 0 = true → t.now = s.now ∧ t.servo e = s.servo e) := by
  obtain ⟨hsynced, hgood⟩ := servo_firstSetting (autoSwitch s) e
  rw [servo_autoSwitch] at hsynced hgood
  refine ⟨?_, ?_, hsynced, hgood, fun hvalid => ?_⟩
  · rw [get_firstSetting _ (by decide) (by decide) (by decide), get_autoSwitch _ (by decide) (by decide)]
  · rw [get_firstSetting _ (by decide) (by decide) (by decide), get_autoSwitch _ (by decide) (by decide)]
  · have hset : (autoSwitch s).flag .timeValid 0 = true := by
      rwa [State.flag, get_autoSwitch _ (by decide) (by decide)]
    rw [firstSetting_valid _ hset]
    exact ⟨get_autoSwitch _ (by decide) (by decide) _, servo_autoSwitch ..⟩

end

/-- The state that a Sync leaves before anything follows it. -/
theorem ptpSync_feeds (s : State) (d : Dom) (time : BitVec 64) (ppb : BitVec 32) (hpower : s.power ≠ .off)
    (hen : s.flag .domEnable d.val = true) :
    let x := s.servo d.val
    let seen : Int := sext 64 (wrapTo 64 ((time.toNat : Int) - s.now)) * nsUnits
    let good := if x.synced = true ∧ (seen - x.offset).natAbs < 100 * nsUnits.natAbs then x.good + 1 else 0
    ∃ t, exec (.ptpSync d time ppb) s = .next t ∧ (t.servo d.val).synced = true ∧ (t.servo d.val).good = good ∧
      t.get .domFreq d.val = ppb.toNat ∧
      t.get .domState d.val = (if 16 ≤ good ∨ s.get .domState d.val = domLocked then domLocked else domAcquiring) ∧
      (s.flag .timeValid 0 = true → t.now = s.now ∧ (t.servo d.val).offset = seen) := by
  intro x seen good
  have hgo : (!s.flag .domEnable d.val || s.power == .off) = false := by simp [hen, hpower]
  have hgood : (if (x.synced && decide ((seen - x.offset).natAbs < 100 * nsUnits.natAbs)) = true then x.good + 1
      else 0) = good := by
    simp only [good, Bool.and_eq_true, decide_eq_true_eq]
  have hexec : exec (.ptpSync d time ppb) s = .next (firstSetting (autoSwitch
      (((setOffset (s.setServo d.val { x with good := good, synced := true }) d.val seen).put .domFreq d.val
        ppb.toNat).put .domState d.val
          (if 16 ≤ good ∨ s.get .domState d.val = domLocked then domLocked else domAcquiring)))) := by
    refine (if_neg (Bool.eq_false_iff.mp hgo)).trans ?_
    rw [hgood]
  generalize hu : ((setOffset (s.setServo d.val { x with good := good, synced := true }) d.val seen).put .domFreq d.val
    ppb.toNat).put .domState d.val _ = u at hexec
  obtain ⟨hstate, hfreq, hsynced, hgoodKept, hvalid⟩ := followed_keeps u d.val
  have hservo : u.servo d.val = { x with good := good, synced := true, offset := seen } := by
    rw [← hu]
    refine (servo_setOffset ..).trans ?_
    rw [servo_setServo_same, if_pos rfl]
  have hcode : (if 16 ≤ good ∨ s.get .domState d.val = domLocked then domLocked else domAcquiring) <
      2 ^ Fld.domState.info.width := by
    split <;> decide
  refine ⟨_, hexec, hsynced.trans (congrArg Servo.synced hservo), hgoodKept.trans (congrArg Servo.good hservo), ?_, ?_,
    fun hset => ?_⟩
  · rw [hfreq, ← hu, get_put_ne _ (by decide), get_put_same]
    exact Nat.mod_eq_of_lt ppb.isLt
  · rw [hstate, ← hu, get_put_same]
    exact Nat.mod_eq_of_lt hcode
  · have hkept : ∀ f, f ≠ .domState → f ≠ .domFreq → f ≠ .domOffset → u.get f 0 = s.get f 0 := fun f h1 h2 h3 => by
      rw [← hu, get_put_ne _ h1, get_put_ne _ h2, get_setOffset _ h3]
      rfl
    obtain ⟨hnow, hoff⟩ := hvalid (by rwa [State.flag, hkept _ (by decide) (by decide) (by decide)])
    exact ⟨hnow.trans (hkept _ (by decide) (by decide) (by decide)),
      (congrArg Servo.offset hoff).trans (congrArg Servo.offset hservo)⟩

theorem domainLost_loses (s : State) (d : Dom) (hen : s.get .domState d.val ≠ domDisabled) :
    ∃ t, exec (.domainLost d) s = .next t ∧ t.get .domState d.val = domLost ∧ (t.servo d.val).synced = false ∧
      (s.flag .timeValid 0 = true → t.now = s.now) ∧
      (s.flag .timeAuto 0 = true → s.get .timeSel 0 = d.val → s.get .domState (1 - d.val) = domLocked →
        t.get .timeSel 0 = 1 - d.val ∧ t.get .timeSwitched 0 = 1) := by
  have hexec : exec (.domainLost d) s = .next (firstSetting (autoSwitch
      ((s.setServo d.val { s.servo d.val with good := 0, synced := false }).put .domState d.val domLost))) := if_neg hen
  generalize hu : (s.setServo d.val { s.servo d.val with good := 0, synced := false }).put .domState d.val domLost = u
    at hexec
  obtain ⟨hstate, -, hsynced, -, hvalid⟩ := followed_keeps u d.val
  have hlost : u.get .domState d.val = domLost := by
    rw [← hu, get_put_same]
    rfl
  have hkept : ∀ f, f ≠ .domState → u.get f 0 = s.get f 0 := fun f h => by
    rw [← hu, get_put_ne _ h]
    rfl
  refine ⟨_, hexec, hstate.trans hlost, ?_, fun hset => ?_, fun hauto hsel hother => ?_⟩
  · rw [hsynced, ← hu]
    exact congrArg Servo.synced (servo_setServo_same ..)
  · obtain ⟨hnow, -⟩ := hvalid (by rwa [State.flag, hkept _ (by decide)])
    exact hnow.trans (hkept _ (by decide))
  · have hlocked : u.get .domState (1 - d.val) = domLocked := by
      rw [← hu, get_put_other _ (fun h => by have := congrArg Prod.snd h; dsimp only at this; omega)]
      exact hother
    have hgo : (u.flag .timeAuto 0 && u.get .domState (selected u) == domLost &&
        u.get .domState (1 - selected u) == domLocked) = true := by
      have hselected : selected u = d.val := (hkept _ (by decide)).trans hsel
      rw [hselected, hlost, hlocked, State.flag, hkept _ (by decide)]
      simpa [State.flag] using hauto
    have hselected : selected u = d.val := (hkept _ (by decide)).trans hsel
    have hswitch : autoSwitch u = (u.put .timeSel 0 (1 - d.val)).put .timeSwitched 0 1 :=
      (if_pos hgo).trans (by rw [hselected])
    rw [hswitch, get_firstSetting _ (by decide) (by decide) (by decide),
      get_firstSetting _ (by decide) (by decide) (by decide), get_put_ne _ (by decide), get_put_same, get_put_same]
    refine ⟨Nat.mod_eq_of_lt ?_, rfl⟩
    exact (by omega : 1 - d.val < 2)

theorem timeStep_free (s : State) (hi : Word) (hfull : s.power = .full)
    (hctx : ∀ k, k < 16 → s.flag .ctxBound k = false) (hqueue : ∀ e, e < 2 → (s.eport e).queue = []) :
    exec (.timeStep 0 hi) s = .next ((stepTime s (s.loOf .timeStep 0 + hi.toNat * 2 ^ 32)).put .timeValid 0 1) := by
  have hfree : ((List.range 16).any (fun k => s.flag .ctxBound k) ||
      (List.range 2).any (fun p => !(s.eport p).queue.isEmpty)) = false := by
    rw [Bool.or_eq_false_iff, List.any_eq_false, List.any_eq_false]
    exact ⟨fun k hk => by rw [hctx k (List.mem_range.mp hk)]; decide,
      fun e he => by rw [hqueue e (List.mem_range.mp he)]; decide⟩
  exact congrArg Host.Outcome.next ((if_pos hfull).trans (if_neg (Bool.eq_false_iff.mp hfree)))

theorem timeStep_refused (s : State) (hi : Word) (hfull : s.power = .full)
    (hbusy : (∃ k, k < 16 ∧ s.flag .ctxBound k = true) ∨ (∃ e, e < 2 ∧ (s.eport e).queue ≠ [])) :
    exec (.timeStep 0 hi) s = .next (s.put .timeStepRefused 0 1) := by
  have hnot : ((List.range 16).any (fun k => s.flag .ctxBound k) ||
      (List.range 2).any (fun p => !(s.eport p).queue.isEmpty)) = true := by
    rw [Bool.or_eq_true, List.any_eq_true, List.any_eq_true]
    refine hbusy.imp (fun ⟨k, hk, hbound⟩ => ⟨k, List.mem_range.mpr hk, hbound⟩)
      (fun ⟨e, he, hne⟩ => ⟨e, List.mem_range.mpr he, ?_⟩)
    simpa using hne
  exact congrArg Host.Outcome.next ((if_pos hfull).trans (if_pos hnot))

/-! ### Launch queues -/

section
variable (s : State) (p : Nat)

/-- What a fetch leaves alone: everything but the port's queue. -/
theorem fetchLaunch_keeps (n : Nat) : { fetchLaunch n s p with eports := s.eports } = s ∧
    ((fetchLaunch n s p).eport p).sending = (s.eport p).sending ∧
    ((fetchLaunch n s p).eport p).txts = (s.eport p).txts := by
  induction n generalizing s with
  | zero => exact ⟨rfl, rfl, rfl⟩
  | succ n ih =>
    rw [fetchLaunch]
    dsimp only
    split
    · generalize hx : s.setEport p _ = s1
      obtain ⟨hkept, hsending, htxts⟩ := ih s1
      have hport : (s1.eport p).sending = (s.eport p).sending ∧ (s1.eport p).txts = (s.eport p).txts := by
        rw [← hx]
        unfold State.eport State.setEport
        rw [tab_get_set_same]
        exact ⟨rfl, rfl⟩
      refine ⟨(congrArg (fun t : State => { t with eports := s.eports }) hkept).trans (by rw [← hx]; rfl),
        hsending.trans hport.1, htxts.trans hport.2⟩
    · exact ⟨rfl, rfl, rfl⟩

/-- A ring's vector, fired or due: beyond the rings' state, one more event on the connectors. -/
theorem ringAdvance_leaves (r : Nat) : { ringAdvance s r with rings := s.rings, tx := s.tx } = s ∧
    ∀ x ∈ s.tx, x ∈ (ringAdvance s r).tx := by
  unfold ringAdvance
  split
  · exact ⟨rfl, fun x h => h⟩
  · dsimp only
    cases (s.ring r).fired
    · exact ⟨rfl, fun x h => List.mem_cons_of_mem _ h⟩
    · dsimp only
      split
      · exact ⟨rfl, fun x h => List.mem_cons_of_mem _ h⟩
      · exact ⟨rfl, fun x h => h⟩

/-- What is done with the head entry: its status, the index after it, and nothing else of the port but its queue. -/
theorem launchDone_leaves (e : Launch) (status : Nat) : let t := launchDone s p e status
    t.host = memWrite s.host (slotAddr s (launchRing p) e.slot + 14) (byteOf status) ∧
      t.get .ringProd (launchRing p) = (e.slot + 1) % 2 ^ 32 ∧ (∀ x ∈ s.tx, x ∈ t.tx) ∧
      (t.eport p).sending = (s.eport p).sending ∧ (t.eport p).txts = (s.eport p).txts ∧
      (∀ f, f ≠ .ringProd → ∀ i, t.get f i = s.get f i) := by
  unfold launchDone fetchAhead
  dsimp only
  generalize hs1 : (launchStatus s p e status).setEport p _ = s1
  have hport : (s1.eport p).sending = (s.eport p).sending ∧ (s1.eport p).txts = (s.eport p).txts := by
    rw [← hs1]
    unfold State.eport State.setEport
    rw [tab_get_set_same]
    exact ⟨rfl, rfl⟩
  have hregs : s1.regs = s.regs := by rw [← hs1]; rfl
  have hhost : s1.host = memWrite s.host (slotAddr s (launchRing p) e.slot + 14) (byteOf status) := by rw [← hs1]; rfl
  have htx : s1.tx = s.tx := by rw [← hs1]; rfl
  obtain ⟨hring, hsent⟩ := ringAdvance_leaves (s1.put .ringProd (launchRing p) ((e.slot + 1) % 2 ^ 32)) (launchRing p)
  generalize ringAdvance (s1.put .ringProd (launchRing p) ((e.slot + 1) % 2 ^ 32)) (launchRing p) = s2 at hring hsent ⊢
  obtain ⟨hfetch, hsending, htxts⟩ := fetchLaunch_keeps s2 p 32
  generalize fetchLaunch 32 s2 p = t at hfetch hsending htxts ⊢
  have hregs2 : t.regs = (s1.put .ringProd (launchRing p) ((e.slot + 1) % 2 ^ 32)).regs :=
    (congrArg State.regs hfetch :).trans (congrArg State.regs hring :)
  have heport : s2.eport p = s1.eport p := (congrArg (fun u : State => u.eport p) hring :)
  refine ⟨(congrArg State.host hfetch :).trans ((congrArg State.host hring :).trans hhost), ?_, fun x hx => ?_,
    hsending.trans ?_, htxts.trans ?_, fun f hf i => ?_⟩
  · rw [get_of_regs hregs2, get_put_same]
    exact Nat.mod_mod ..
  · rw [show t.tx = s2.tx from (congrArg State.tx hfetch :)]
    exact hsent x (htx ▸ hx)
  · rw [heport, hport.1]
  · rw [heport, hport.2]
  · rw [get_of_regs hregs2, get_put_ne _ hf, get_of_regs hregs]

/-- What stamping a frame leaves: a time-stamp where one was asked for and there is room. -/
theorem stampFrame_leaves (e : Launch) : let t := stampFrame s p e
    t.host = s.host ∧ (∀ f, f ≠ .txtsOvf → ∀ i, t.get f i = s.get f i) ∧
      (e.tsReq = true → (s.eport p).txts.length < 16 → (t.eport p).txts =
        (s.eport p).txts ++ [(e.tsId, wrapTo 64 ((s.now : Int) + sext 16 (s.get .tsTxCorr p)))]) := by
  unfold stampFrame
  dsimp only
  split
  · next h => exact ⟨rfl, fun _ _ _ => rfl, fun hreq => by rw [hreq] at h; cases h⟩
  · split
    · next h => exact ⟨rfl, fun f hf i => get_bump_ne _ hf .., fun _ hlt => absurd h (Nat.not_le.mpr hlt)⟩
    · exact ⟨rfl, fun _ _ _ => rfl, fun _ _ => (congrArg EPortSt.txts (tab_get_set_same ..) :)⟩

theorem slotAddr_congr {s t : State} (h : ∀ f, f ∈ [Fld.ringBase, .ringLog2, .ringPageLog2] → ∀ i,
    t.get f i = s.get f i) (r idx : Nat) : slotAddr t r idx = slotAddr s r idx := by
  unfold slotAddr slotBytes
  rw [h .ringBase (by decide), h .ringLog2 (by decide), h .ringPageLog2 (by decide)]

/-- The frame that leaves: its status and index, the port sending, its time-stamp. -/
theorem sendHead_leaves (hwf : Memory.wf s.host = true) (e : Launch) (late : Bool) : let t := sendHead s p e late
    .frame p e.frame late ∈ t.tx ∧ (t.eport p).sending = true ∧
      memRead t.host (slotAddr s (launchRing p) e.slot + 14) = BitVec.ofNat 8 (b2n late) ∧
      t.get .ringProd (launchRing p) = (e.slot + 1) % 2 ^ 32 ∧
      (e.tsReq = true → (s.eport p).txts.length < 16 → (t.eport p).txts =
        (s.eport p).txts ++ [(e.tsId, wrapTo 64 ((s.now : Int) + sext 16 (s.get .tsTxCorr p)))]) ∧
      t.get .lqDropped p = s.get .lqDropped p := by
  unfold sendHead
  dsimp only
  obtain ⟨hhost, hregs, htxts⟩ := stampFrame_leaves s p e
  generalize stampFrame s p e = s1 at hhost hregs htxts ⊢
  generalize hs2 : (s1.setEport p { s1.eport p with sending := true }).emit (.frame p e.frame late) = s2
  have hport : s2.eport p = { s1.eport p with sending := true } := by
    rw [← hs2]
    exact tab_get_set_same ..
  have hmem : .frame p e.frame late ∈ s2.tx := by
    rw [← hs2]
    exact List.mem_cons_self ..
  have hhost2 : s2.host = s.host := by rw [← hs2]; exact hhost
  have hregs2 : s2.regs = s1.regs := by rw [← hs2]; rfl
  generalize hs3 : (if late = true then s2.bump .lqLate p else s2) = s3
  have hkept : s3.eports = s2.eports ∧ s3.tx = s2.tx ∧ s3.host = s2.host ∧
      ∀ f, f ≠ .lqLate → ∀ i, s3.get f i = s2.get f i := by
    rw [← hs3]
    split
    · exact ⟨rfl, rfl, rfl, fun f hf i => get_bump_ne _ hf ..⟩
    · exact ⟨rfl, rfl, rfl, fun _ _ _ => rfl⟩
  obtain ⟨heports, htx3, hhost3, hregs3⟩ := hkept
  have hport3 : s3.eport p = { s1.eport p with sending := true } := by
    rw [State.eport, heports]
    exact hport
  have hget : ∀ f, f ≠ .lqLate → f ≠ .txtsOvf → ∀ i, s3.get f i = s.get f i := fun f hlate hovf i =>
    (hregs3 f hlate i).trans ((get_of_regs hregs2 ..).trans (hregs f hovf i))
  have haddr : slotAddr s3 (launchRing p) e.slot = slotAddr s (launchRing p) e.slot :=
    slotAddr_congr (fun f hf i => hget f (by revert f; decide) (by revert f; decide) i) ..
  obtain ⟨hdone, hprod, hsent, hsending, htxtsDone, hdoneRegs⟩ := launchDone_leaves s3 p e (b2n late)
  refine ⟨hsent _ (htx3 ▸ hmem), hsending.trans (congrArg EPortSt.sending hport3), ?_, hprod, fun hreq hroom => ?_, ?_⟩
  · rw [hdone, haddr, hhost3, hhost2]
    exact memRead_memWrite_same hwf ..
  · rw [htxtsDone, hport3]
    exact htxts hreq hroom
  · rw [hdoneRegs _ (by decide), hget _ (by decide) (by decide)]

theorem lqDropped_bump : (s.bump .lqDropped p).get .lqDropped p ≠ 0 := by
  rw [get_bump_count _ rfl]
  omega

/-- A count of drops is not lost while the queue is served. -/
theorem lqDropped_launchHead (n : Nat) (hwf : Memory.wf s.host = true) (h : s.get .lqDropped p ≠ 0) :
    (launchHead n s p).get .lqDropped p ≠ 0 := by
  induction n generalizing s with
  | zero => exact h
  | succ n ih =>
    have hsend : ∀ e late, (sendHead s p e late).get .lqDropped p ≠ 0 := fun e late => by
      obtain ⟨-, -, -, -, -, hkept⟩ := sendHead_leaves s p hwf e late
      rwa [hkept]
    rw [launchHead]
    split
    · exact h
    · next e _ _ =>
      split
      · exact h
      · split
        · split
          · exact hsend _ _
          · exact h
        · split
          · exact h
          · split
            · exact hsend _ _
            · split
              · split
                · exact hsend _ _
                · exact h
              · obtain ⟨hhost, -, -, -, -, hregs⟩ := launchDone_leaves (s.bump .lqDropped p) p e 2
                refine ih _ (hhost ▸ memWrite_wf hwf ..) ?_
                rw [hregs _ (by decide)]
                exact lqDropped_bump s p

variable {e : Launch} {es : List Launch} (hqueue : (s.eport p).queue = e :: es)
  (hsending : (s.eport p).sending = false)
include hqueue hsending

/-- The first look at the head of a queue that is not sending. -/
theorem serveLaunch_head : ∃ n, serveLaunch s p =
    if e.time = 0 then (if s.flag .lqPcsReady p then sendHead s p e false else s)
    else if sinceLaunch s e < 0 then s
    else if s.flag .lqPcsReady p && decide (sinceLaunch s e ≤ 8) then sendHead s p e false
    else if s.flag .lqLatePolicy p then (if s.flag .lqPcsReady p then sendHead s p e true else s)
    else launchHead n (launchDone (s.bump .lqDropped p) p e 2) p := by
  refine ⟨(s.eport p).queue.length + ringFill s (launchRing p), ?_⟩
  rw [serveLaunch, launchFuel, launchHead]
  simp only [hqueue, hsending, Bool.false_eq_true, if_false]

end

/-- Settles O53: what follows a domain keeps its state and servo, and a frame's status is the last thing written of its
slot. -/
theorem deviceTimeAndLaunches : Obligations.DeviceTimeAndLaunches := by
  refine ⟨?_, ?_⟩
  · intro s d time ppb fn hi p x seen good step profile measures
    refine ⟨fun hpower hen => ptpSync_feeds s d time ppb hpower hen, fun hen => domainLost_loses s d hen,
      fun hfull hctx hqueue => ⟨_, timeStep_free s hi hfull hctx hqueue, ?_, get_put_same .., fun e he => ?_⟩,
      timeStep_refused s hi, fun hfn => if_neg (fun h => hfn (Fin.ext h)), fun hm => ?_, fun hm => ?_⟩
    · exact (get_put_ne _ (by decide) ..).trans (now_stepTime ..)
    · have hservo := servo_stepTime s step e
      rw [if_pos he] at hservo
      exact (congrArg Servo.offset hservo :)
    · obtain ⟨hen, hport, hprofile⟩ := hm
      refine if_pos ?_
      obtain h | h := hprofile <;> simp [hen, hport, show s.get .domProfile d.val = _ from h]
    · refine if_neg (fun h => hm ?_)
      simp only [Bool.and_eq_true, Bool.or_eq_true, beq_iff_eq] at h
      exact ⟨h.1.1, h.1.2, h.2⟩
  · intro s p val x
    refine ⟨rfl, rfl, rfl, rfl, fun hfull hbit => ?_, fun e es hwf hqueue hsending => ?_⟩
    · exact (if_pos ⟨rfl, hbit⟩).trans (congrArg Host.Outcome.next (if_pos hfull))
    · obtain ⟨-, -, -, -, hhost⟩ := hwf
      obtain ⟨n, hserve⟩ := serveLaunch_head s p.val hqueue hsending
      intro ready
      refine ⟨fun htime hearly => ?_, fun hdue hready => ?_, fun htime hlate hpolicy hready => ?_,
        fun htime hlate hpolicy => ?_, fun late => ?_⟩
      · rw [hserve, if_neg htime, if_pos hearly]
      · rw [hserve, show s.flag .lqPcsReady p.val = true from hready]
        obtain hnow | ⟨hfallen, hfew⟩ := hdue
        · rw [if_pos hnow]
          rfl
        · by_cases hnow : e.time = 0
          · rw [if_pos hnow]
            rfl
          · rw [if_neg hnow, if_neg (by omega), if_pos (by simpa using hfew)]
      · rw [hserve, if_neg htime, if_neg (by omega), show s.flag .lqPcsReady p.val = true from hready,
          if_neg (by simpa using hlate), if_pos hpolicy]
        rfl
      · rw [hserve, if_neg htime, if_neg (by omega), if_neg (by simp; omega), hpolicy, if_neg (by decide)]
        obtain ⟨hdone, -, -, -, -, hregs⟩ := launchDone_leaves (s.bump .lqDropped p.val) p.val e 2
        refine lqDropped_launchHead _ _ _ (hdone ▸ memWrite_wf hhost ..) ?_
        rw [hregs _ (by decide)]
        exact lqDropped_bump s p.val
      · obtain ⟨hframe, hsent, hstatus, hprod, htxts, -⟩ := sendHead_leaves s p.val hhost e late
        exact ⟨hframe, hsent, hstatus, hprod, htxts⟩

end Sys2Proof.Proofs

/-! Host rings, status blocks and crop pages (R354 to R362, R366, R367). -/

namespace Sys2Proof.Proofs

open Sys2Proof.Machine Sys2Proof.Safety Sys2Proof.Laws

/-! ### Numbers in memory -/

theorem leNat_natLe (n v : Nat) : leNat (natLe n v) = v % 256 ^ n := by
  induction n generalizing v with
  | zero => simp [natLe, leNat, Nat.mod_one]
  | succ n ih =>
    rw [natLe, leNat, ih, pow_succ', Nat.mod_mul]
    exact congrArg (· + _) (BitVec.toNat_ofNat ..)

theorem memBytes_slice (m : Memory) (a k n : Nat) {len : Nat} (h : k + n ≤ len) :
    memBytes m (a + k) n = ((memBytes m a len).drop k).take n := by
  apply List.ext_getElem
  · simp [memBytes]
    omega
  · intro i _ _
    simp [memBytes, Nat.add_assoc]

/-- A part of what was stored reads back. -/
theorem memBytes_memStore_part {m : Memory} (h : Memory.wf m = true) (a k n : Nat) (l : List Byte)
    (hin : k + n ≤ l.length) : memBytes (memStore m a l) (a + k) n = (l.drop k).take n := by
  rw [memBytes_slice _ a k n hin, memBytes_memStore h]

/-- Bytes beside those stored are what they were. -/
theorem memBytes_memStore_outside {m : Memory} (h : Memory.wf m = true) {a b n : Nat} (l : List Byte)
    (hout : b + n ≤ a ∨ a + l.length ≤ b) : memBytes (memStore m a l) b n = memBytes m b n := by
  refine List.map_congr_left (fun i hi => memRead_memStore_outside h l ?_)
  have := List.mem_range.mp hi
  omega

theorem length_padTo (n : Nat) (b : List Byte) : (padTo n b).length = n := by
  simp [padTo]
  omega

/-- A number at its place among the bytes of a record that is padded. -/
theorem padTo_number {pre post : List Byte} {n v len : Nat} (hfits : pre.length + n ≤ len) :
    leNat (((padTo len (pre ++ (natLe n v ++ post))).drop pre.length).take n) = v % 256 ^ n := by
  have hpre : pre.take len = pre := List.take_of_length_le (by omega)
  have hnum : (natLe n v).take (len - pre.length) = natLe n v := List.take_of_length_le (by rw [length_natLe]; omega)
  have hnumber : ((padTo len (pre ++ (natLe n v ++ post))).drop pre.length).take n = natLe n v := by
    rw [padTo, List.take_append, hpre, List.take_append, hnum, List.append_assoc, List.drop_left, List.append_assoc]
    exact List.take_left' (length_natLe ..)
  rw [hnumber, leNat_natLe]

/-- A number in a padded record that memory holds. -/
theorem memNat_padTo {m : Memory} (h : Memory.wf m = true) (a : Nat) {pre post : List Byte} {n v len k : Nat}
    (hk : pre.length = k) (hfits : k + n ≤ len) :
    memNat (memStore m a (padTo len (pre ++ (natLe n v ++ post)))) (a + k) n = v % 256 ^ n := by
  subst hk
  rw [memNat, memBytes_memStore_part h a pre.length n _ (by rw [length_padTo]; exact hfits), padTo_number hfits]

/-! ### Rings -/

section
variable (s : State)

/-- The index that the host writes stands, whatever it sets going. -/
theorem consWritten_stands (r v : Nat) (hv : v < 2 ^ 32) : (consWritten s r v).get .ringCons r = v ∧
    (consWritten s r v).chases = s.chases ∧ (consWritten s r v).mboxes = s.mboxes := by
  have hput : (s.put .ringCons r v).get .ringCons r = v := (get_put_same ..).trans (Nat.mod_eq_of_lt hv)
  unfold consWritten
  dsimp only
  split
  · obtain ⟨hkept, -, -⟩ := fetchLaunch_keeps (s.put .ringCons r v) (r - 68) 32
    exact ⟨(get_of_regs (congrArg State.regs hkept :) ..).trans hput, (congrArg State.chases hkept :),
      (congrArg State.mboxes hkept :)⟩
  · split
    · obtain ⟨hregs, hkept⟩ := ringsChange_ringDrain drainFuel (s.put .ringCons r v) r
      exact ⟨(hregs _ _ (by decide)).trans hput, (congrArg State.chases hkept :), (congrArg State.mboxes hkept :)⟩
    · exact ⟨hput, rfl, rfl⟩

theorem postMessage_own {fn : Fn} (words : List Word) (ring : Option Word) (hroom : (s.mbox fn.val).msgs.length < 16) :
    postMessage s fn.val fn.val fn.val 64 false words ring =
      (cOk, s.setMbox fn.val { s.mbox fn.val with msgs := (s.mbox fn.val).msgs ++
        [⟨words.take 16, 64, false, BitVec.ofNat 6 fn.val, byteOf (senderGen s fn.val), false, ring⟩] }) := by
  have hmay : mayPost s fn.val fn.val = true := (if_pos (by omega)).trans (beq_self_eq_true _)
  unfold postMessage
  dsimp only
  rw [hmay, if_neg (by decide), if_neg (by omega), if_pos (by omega)]

theorem postMessage_full {fn : Fn} (words : List Word) (ring : Option Word) (hfull : 16 ≤ (s.mbox fn.val).msgs.length) :
    postMessage s fn.val fn.val fn.val 64 false words ring = (cBusy, s) := by
  have hmay : mayPost s fn.val fn.val = true := (if_pos (by omega)).trans (beq_self_eq_true _)
  unfold postMessage
  dsimp only
  rw [hmay, if_neg (by decide), if_pos (by omega)]

variable (fn : Fn)

theorem commandRingEntry_posts (hruns : ringRuns s (ringOf fn.val 0) = true)
    (hentry : s.get .ringProd (ringOf fn.val 0) ≠ s.get .ringCons (ringOf fn.val 0))
    (hroom : (s.mbox fn.val).msgs.length < 16) : ∃ t m, exec (.commandRingEntry fn) s = .next t ∧
      (t.mbox fn.val).msgs = (s.mbox fn.val).msgs ++ [m] ∧
      m.words = slotWords s (slotAddr s (ringOf fn.val 0) (s.get .ringProd (ringOf fn.val 0))) ∧
      m.ring = some (BitVec.ofNat 32 (s.get .ringProd (ringOf fn.val 0))) ∧ m.sender.toNat = fn.val ∧
      m.stale = false ∧ t.get .ringProd (ringOf fn.val 0) = (s.get .ringProd (ringOf fn.val 0) + 1) % 2 ^ 32 := by
  have hgo : (!ringRuns s (ringOf fn.val 0) || s.get .ringProd (ringOf fn.val 0) == s.get .ringCons (ringOf fn.val 0)) =
      false := by
    simp [hruns, hentry]
  have hpost := postMessage_own s (fn := fn)
    (slotWords s (slotAddr s (ringOf fn.val 0) (s.get .ringProd (ringOf fn.val 0))))
    (some (BitVec.ofNat 32 (s.get .ringProd (ringOf fn.val 0)))) hroom
  have hexec : exec (.commandRingEntry fn) s = execCommandRingEntry fn s := rfl
  unfold execCommandRingEntry at hexec
  dsimp only at hexec
  rw [hgo, if_neg (by decide), hpost, if_pos rfl] at hexec
  refine ⟨_, _, hexec, congrArg Mailbox.msgs (tab_get_set_same ..), ?_, rfl, ?_, rfl, ?_⟩
  · exact List.take_of_length_le (by simp [slotWords])
  · exact (BitVec.toNat_ofNat ..).trans (Nat.mod_eq_of_lt (by omega))
  · exact (get_put_same ..).trans (Nat.mod_mod ..)

theorem commandRingEntry_waits (h : ringRuns s (ringOf fn.val 0) = false ∨
      s.get .ringProd (ringOf fn.val 0) = s.get .ringCons (ringOf fn.val 0) ∨ 16 ≤ (s.mbox fn.val).msgs.length) :
    exec (.commandRingEntry fn) s = .next s := by
  change execCommandRingEntry fn s = _
  unfold execCommandRingEntry
  dsimp only
  split
  · rfl
  · next hgo =>
    simp only [Bool.or_eq_true, Bool.not_eq_true', beq_iff_eq, not_or] at hgo
    have hfull := (h.resolve_left hgo.1).resolve_left hgo.2
    rw [postMessage_full s _ _ hfull]
    rfl

/-! ### The status block -/

/-- The indices before that of the command ring. -/
def statusHead (fn : Nat) : List Byte :=
  natLe 4 (if fn = 0 then 0 else s.get .ringProd (ringOf fn 1)) ++
    (natLe 4 (if fn = 0 then 0 else s.get .ringProd (ringOf fn 2)) ++ natLe 4 (s.get .ringProd (ringOf fn 3)))

theorem statusBlock_eq (n : Nat) : statusBlock s n =
    padTo 64 (statusHead s n ++ (natLe 4 (s.get .ringProd (ringOf n 0)) ++ natLe 8 s.now)) := by
  simp [statusBlock, statusHead, List.append_assoc]

theorem statusBlock_index {m : Memory} (h : Memory.wf m = true) (a n : Nat) :
    memNat (memStore m a (statusBlock s n)) (a + 12) 4 = s.get .ringProd (ringOf n 0) % 2 ^ 32 := by
  rw [statusBlock_eq]
  exact memNat_padTo h a (by simp [statusHead, length_natLe]) (by decide)

theorem statusBlock_time {m : Memory} (h : Memory.wf m = true) (a n : Nat) :
    memNat (memStore m a (statusBlock s n)) (a + 16) 8 = s.now % 2 ^ 64 := by
  have hsplit : statusBlock s n = padTo 64 ((statusHead s n ++ natLe 4 (s.get .ringProd (ringOf n 0))) ++
      (natLe 8 s.now ++ [])) := by
    rw [statusBlock_eq, List.append_nil, List.append_assoc]
  rw [hsplit]
  exact memNat_padTo h a (by simp [statusHead, length_natLe]) (by decide)

theorem statusBlockWrite_shows (hwf : Memory.wf s.host = true) (haddr : statusAddr s fn.val ≠ 0)
    (hfull : s.power = .full) (hdue : statusDue s fn.val = true) : ∃ t, exec (.statusBlockWrite fn) s = .next t ∧
      memNat t.host (statusAddr s fn.val + 12) 4 = s.get .ringProd (ringOf fn.val 0) % 2 ^ 32 ∧
      memNat t.host (statusAddr s fn.val + 16) 8 = s.now % 2 ^ 64 ∧ { t with host := s.host, rings := s.rings } = s ∧
      statusDue t fn.val = false ∧ ∀ a, (a < statusAddr s fn.val ∨ statusAddr s fn.val + 64 ≤ a) →
        memRead t.host a = memRead s.host a := by
  have hgo : ¬(statusAddr s fn.val = 0 ∨ s.power ≠ .full ∨ (!statusDue s fn.val) = true) := by
    simp [haddr, hfull, hdue]
  have hexec : exec (.statusBlockWrite fn) s = _ := if_neg hgo
  have hindex := statusBlock_index s hwf (statusAddr s fn.val) fn.val
  have htime := statusBlock_time s hwf (statusAddr s fn.val) fn.val
  have hbeside : ∀ a, (a < statusAddr s fn.val ∨ statusAddr s fn.val + 64 ≤ a) →
      memRead (memStore s.host (statusAddr s fn.val) (statusBlock s fn.val)) a = memRead s.host a :=
    fun a ha => memRead_memStore_outside hwf _ (by rwa [statusBlock, length_padTo])
  generalize memStore s.host _ (statusBlock s fn.val) = host at hexec hindex htime hbeside
  refine ⟨_, hexec, hindex, htime, rfl, ?_, hbeside⟩
  unfold statusDue State.ring State.setRing
  dsimp only
  rw [tab_get_set_same]
  exact decide_eq_false (by unfold Config.k4PerUs; omega)

/-! ### Interrupt intervals -/

theorem interruptInterval_fires {ring : Fin 6} {r v : Nat} (hring : hostRing fn.val ring.val = some r)
    (hvec : ringVector r = some v) (hdue : (s.ring r).due = true) : ∃ t, exec (.interruptInterval fn ring) s = .next t ∧
      t.tx = .msix (ringFn r) v :: s.tx ∧ (t.ring r).due = false ∧ (t.ring r).fired = some s.clk := by
  have hexec : exec (.interruptInterval fn ring) s = execInterruptInterval fn ring s := rfl
  unfold execInterruptInterval at hexec
  rw [hring] at hexec
  dsimp only at hexec
  rw [hvec] at hexec
  dsimp only at hexec
  rw [if_pos hdue] at hexec
  exact ⟨_, hexec, rfl, congrArg RingSt.due (tab_get_set_same ..), congrArg RingSt.fired (tab_get_set_same ..)⟩

theorem interruptInterval_waits {ring : Fin 6} {r : Nat} (hring : hostRing fn.val ring.val = some r)
    (hdue : (s.ring r).due = false) : exec (.interruptInterval fn ring) s = .next s := by
  change execInterruptInterval fn ring s = _
  unfold execInterruptInterval
  rw [hring]
  dsimp only
  split
  · rfl
  · rw [hdue, if_neg (by decide)]

end

/-! ### Crop pages -/

section
variable (s : State) (k : Ctx)

theorem deliverReady_held {n : Nat} {p : Page} (h : (s.context n).crop.held = some p) : deliverReady s n =
    if ringRuns s (cropRing n) && ringFree s (cropRing n) then deliverPage s n p else s := by
  rw [deliverReady, h]

/-- The crop state of the context after a delivery, and the index that moved on. -/
theorem deliverPage_leaves (n : Nat) (p : Page) : ((deliverPage s n p).context n).crop =
      { (s.context n).crop with held := none } ∧
    (deliverPage s n p).get .ringProd (cropRing n) = (s.get .ringProd (cropRing n) + 1) % 2 ^ 32 ∧
    (deliverPage s n p).host = memStore (memStore s.host
      (slotAddr s (cropRing n) (s.get .ringProd (cropRing n)) + 64) p.bytes)
      (slotAddr s (cropRing n) (s.get .ringProd (cropRing n))) (pageHeader n p) := by
  unfold deliverPage
  dsimp only
  generalize memStore (memStore s.host _ p.bytes) _ (pageHeader n p) = h
  have hidx : (State.setCtx { s with host := h } n
      { s.context n with crop := { (s.context n).crop with held := none } }).get .ringProd (cropRing n) =
      s.get .ringProd (cropRing n) := rfl
  rw [hidx]
  generalize hu : State.setCtx { s with host := h } n _ = u
  obtain ⟨hkept, -⟩ := ringAdvance_leaves (u.put .ringProd (cropRing n) ((s.get .ringProd (cropRing n) + 1) % 2 ^ 32))
    (cropRing n)
  generalize ringAdvance _ _ = t at hkept
  have hctxs : t.ctxs = u.ctxs := (congrArg State.ctxs hkept :)
  have hhost : t.host = u.host := (congrArg State.host hkept :)
  refine ⟨?_, ?_, ?_⟩
  · rw [State.context, hctxs, ← hu]
    exact congrArg Context.crop (tab_get_set_same ..)
  · exact (get_of_regs (congrArg State.regs hkept :) ..).trans ((get_put_same ..).trans (Nat.mod_mod ..))
  · rw [hhost, ← hu]
    rfl

theorem pageHeader_kind (n : Nat) (p : Page) : pageHeader n p = padTo 64 ([] ++ (natLe 1 0x20 ++
    (natLe 1 n ++ natLe 1 1 ++ natLe 1 (b2n p.spoil) ++ natLe 4 p.seq ++ natLe 4 p.bytes.length ++ natLe 4 p.records ++
      natLe 8 p.first))) := by
  simp [pageHeader, List.append_assoc]

/-- The bytes of a header before its page number. -/
def pageHead (n : Nat) (p : Page) : List Byte := natLe 1 0x20 ++ natLe 1 n ++ natLe 1 1 ++ natLe 1 (b2n p.spoil)

theorem pageHeader_seq (n : Nat) (p : Page) : pageHeader n p = padTo 64 (pageHead n p ++ (natLe 4 p.seq ++
    (natLe 4 p.bytes.length ++ natLe 4 p.records ++ natLe 8 p.first))) := by
  simp [pageHeader, pageHead, List.append_assoc]

theorem pageHeader_length (n : Nat) (p : Page) : pageHeader n p = padTo 64 ((pageHead n p ++ natLe 4 p.seq) ++
    (natLe 4 p.bytes.length ++ (natLe 4 p.records ++ natLe 8 p.first))) := by
  simp [pageHeader, pageHead, List.append_assoc]

theorem pageHeader_records (n : Nat) (p : Page) : pageHeader n p =
    padTo 64 ((pageHead n p ++ natLe 4 p.seq ++ natLe 4 p.bytes.length) ++ (natLe 4 p.records ++ natLe 8 p.first)) := by
  simp [pageHeader, pageHead, List.append_assoc]

/-- What the host reads of a header. -/
theorem pageHeader_reads {m : Memory} (h : Memory.wf m = true) (a n : Nat) (p : Page) :
    memNat (memStore m a (pageHeader n p)) a 1 = 0x20 ∧
    memNat (memStore m a (pageHeader n p)) (a + 4) 4 = p.seq % 2 ^ 32 ∧
    memNat (memStore m a (pageHeader n p)) (a + 8) 4 = p.bytes.length % 2 ^ 32 ∧
    memNat (memStore m a (pageHeader n p)) (a + 12) 4 = p.records % 2 ^ 32 := by
  have hhead : (pageHead n p).length = 4 := by simp [pageHead, length_natLe]
  refine ⟨?_, ?_, ?_, ?_⟩
  · rw [pageHeader_kind]
    exact (memNat_padTo h a (k := 0) rfl (by decide)).trans rfl
  · rw [pageHeader_seq]
    exact memNat_padTo h a hhead (by decide)
  · rw [pageHeader_length]
    exact memNat_padTo h a (by simp [hhead, length_natLe]) (by decide)
  · rw [pageHeader_records]
    exact memNat_padTo h a (by simp [hhead, length_natLe]) (by decide)

theorem length_pageHeader (n : Nat) (p : Page) : (pageHeader n p).length = 64 := length_padTo ..

theorem cropPageDelivery_delivers {p : Page} (hwf : Memory.wf s.host = true)
    (hheld : (s.context k.val).crop.held = some p) (hruns : ringRuns s (cropRing k.val) = true)
    (hfree : ringFree s (cropRing k.val) = true) :
    let at0 := slotAddr s (cropRing k.val) (s.get .ringProd (cropRing k.val))
    ∃ t, exec (.cropPageDelivery k) s = .next t ∧
      (t.context k.val).crop = { (s.context k.val).crop with held := none } ∧
      t.get .ringProd (cropRing k.val) = (s.get .ringProd (cropRing k.val) + 1) % 2 ^ 32 ∧ memNat t.host at0 1 = 0x20 ∧
      memNat t.host (at0 + 4) 4 = p.seq % 2 ^ 32 ∧ memNat t.host (at0 + 8) 4 = p.bytes.length % 2 ^ 32 ∧
      memNat t.host (at0 + 12) 4 = p.records % 2 ^ 32 ∧ memBytes t.host (at0 + 64) p.bytes.length = p.bytes := by
  intro at0
  have hexec : exec (.cropPageDelivery k) s = .next (deliverReady s k.val) := rfl
  rw [deliverReady_held s hheld, hruns, hfree, Bool.and_self, if_pos rfl] at hexec
  obtain ⟨hcrop, hidx, hhost⟩ := deliverPage_leaves s k.val p
  have hdata : Memory.wf (memStore s.host (at0 + 64) p.bytes) = true := memStore_wf hwf _ _
  obtain ⟨hkind, hseq, hlen, hrec⟩ := pageHeader_reads hdata at0 k.val p
  refine ⟨_, hexec, hcrop, hidx, ?_⟩
  rw [hhost]
  refine ⟨hkind, hseq, hlen, hrec, ?_⟩
  rw [memBytes_memStore_outside hdata _ (.inr (by rw [length_pageHeader])), memBytes_memStore hwf]

theorem cropPageDelivery_waits (h : (s.context k.val).crop.held = none ∨ ringRuns s (cropRing k.val) = false ∨
    ringFree s (cropRing k.val) = false) : exec (.cropPageDelivery k) s = .next s := by
  have hexec : exec (.cropPageDelivery k) s = .next (deliverReady s k.val) := rfl
  rw [hexec]
  rcases hheld : (s.context k.val).crop.held with _ | p
  · rw [deliverReady, hheld]
  · rw [deliverReady_held s hheld, if_neg (by simpa using fun hr => by simpa [hheld, hr] using h)]

theorem cropFlushTimeout_flushes {p : Page} (hfill : (s.context k.val).crop.filling = some p)
    (hheld : (s.context k.val).crop.held = none) (hset : s.get .winCropFlush k.val ≠ 0)
    (hlate : p.since + Config.k4PerUs * s.get .winCropFlush k.val ≤ s.clk) :
    ∃ t, exec (.cropFlushTimeout k) s = .next t ∧ (t.context k.val).crop.filling = none ∧
      (t.context k.val).crop.held = (if ringRuns s (cropRing k.val) && ringFree s (cropRing k.val) then none
        else some { p with since := s.clk }) := by
  have hexec : exec (.cropFlushTimeout k) s = execCropFlushTimeout k s := rfl
  unfold execCropFlushTimeout at hexec
  dsimp only at hexec
  rw [hfill, hheld] at hexec
  dsimp only at hexec
  rw [if_neg (by omega)] at hexec
  generalize hu : State.setCtx s k.val _ = u at hexec
  have hcrop : (u.context k.val).crop =
      { (s.context k.val).crop with filling := none, held := some { p with since := s.clk } } := by
    rw [← hu, context_setCtx]
  have hgoes : (ringRuns u (cropRing k.val) && ringFree u (cropRing k.val)) =
      (ringRuns s (cropRing k.val) && ringFree s (cropRing k.val)) := by
    rw [← hu]
    rfl
  rw [deliverReady_held u (congrArg Crop.held hcrop), hgoes] at hexec
  refine ⟨_, hexec, ?_⟩
  split
  · obtain ⟨hsent, -, -⟩ := deliverPage_leaves u k.val { p with since := s.clk }
    rw [hsent, hcrop]
    exact ⟨rfl, rfl⟩
  · rw [hcrop]
    exact ⟨rfl, rfl⟩

theorem pageHoldTimeout_abandons {p : Page} (hheld : (s.context k.val).crop.held = some p)
    (hlate : p.since + Config.k4PerUs * s.get .winPageHold k.val ≤ s.clk) :
    ∃ t, exec (.pageHoldTimeout k) s = .next t ∧ { t with ctxs := s.ctxs } = s ∧ (t.context k.val).crop =
      ({ (s.context k.val).crop with
          held := none, abandoned := (s.context k.val).crop.abandoned + 1,
          lost := (s.context k.val).crop.lost + p.records,
          firstLost := some ((s.context k.val).crop.firstLost.getD p.seq) } : Crop).spoilNext k.val
        (pageRoom s k.val) := by
  have hexec : exec (.pageHoldTimeout k) s = execPageHoldTimeout k s := rfl
  unfold execPageHoldTimeout at hexec
  dsimp only at hexec
  rw [hheld] at hexec
  dsimp only at hexec
  rw [if_neg (by omega)] at hexec
  exact ⟨_, hexec, rfl, congrArg Context.crop (tab_get_set_same ..)⟩

theorem pageHoldTimeout_waits {p : Page} (hheld : (s.context k.val).crop.held = some p)
    (hearly : s.clk < p.since + Config.k4PerUs * s.get .winPageHold k.val) :
    exec (.pageHoldTimeout k) s = .next s := by
  change execPageHoldTimeout k s = _
  unfold execPageHoldTimeout
  dsimp only
  rw [hheld]
  exact if_pos hearly

end

/-! ### The obligation -/

/-- Settles O54: rings and the status block by the state their commands leave, pages by what a delivery stores. -/
theorem ringsAndPagesKeepTheirIndices : Obligations.RingsAndPagesKeepTheirIndices := by
  unfold Obligations.RingsAndPagesKeepTheirIndices
  refine ⟨?_, ?_⟩
  · intro s fn ring val
    refine ⟨?_, ?_, ?_, ?_, ?_, ?_, ?_, ?_⟩
    · intro r hfull hring
      have hexec : exec (.ringConsWrite fn ring val) s = execRingConsWrite fn ring val s := rfl
      unfold execRingConsWrite at hexec
      rw [hring] at hexec
      dsimp only at hexec
      rw [overPcie, if_pos hfull] at hexec
      exact ⟨_, hexec, consWritten_stands s r val.toNat val.isLt⟩
    · intro hring
      change execRingConsWrite fn ring val s = _
      unfold execRingConsWrite
      rw [hring]
    · exact fun hruns hentry hroom => commandRingEntry_posts s fn hruns hentry hroom
    · exact fun h => commandRingEntry_waits s fn h
    · rintro ⟨-, -, -, -, hwf⟩ haddr hfull hdue
      exact statusBlockWrite_shows s fn hwf haddr hfull hdue
    · intro h
      exact if_pos (by simpa using h)
    · exact fun r v hring hvec hdue => interruptInterval_fires s fn hring hvec hdue
    · exact fun r hring hdue => interruptInterval_waits s fn hring hdue
  · intro s k
    refine ⟨?_, ?_, ?_, ?_, ?_⟩
    · rintro p ⟨-, -, -, -, hwf⟩ hheld hruns hfree
      exact cropPageDelivery_delivers s k hwf hheld hruns hfree
    · exact fun h => cropPageDelivery_waits s k h
    · exact fun p hfill hheld hset hlate => cropFlushTimeout_flushes s k hfill hheld hset hlate
    · exact fun p hheld hlate => pageHoldTimeout_abandons s k hheld hlate
    · exact fun p hheld hearly => pageHoldTimeout_waits s k hheld hearly

end Sys2Proof.Proofs

/-! HELLO, mailboxes and quoins (R363, R371 to R374, R380, R381). -/

namespace Sys2Proof.Proofs

open Sys2Proof.Machine Sys2Proof.Safety Sys2Proof.Laws

/-! ### Requests that pass the gate -/

section
variable (s : State)

theorem overPcie_full (h : s.power = .full) (t : State) : overPcie s t = t := if_pos h

theorem firmware_served {s : State} {r : Req} {always hello : Bool} (h : served s r always hello)
    (run : State → State) : firmware s r always hello run = run (takeRequest s r) := by
  unfold firmware
  dsimp only
  rw [h]

/-- HELLO after the gate, over the state without the request. -/
theorem exec_hello {r : Req} (lo hi : BitVec 16) (h : served s r true true) :
    exec (.hello r lo hi) s = .next (
      if s.flag .helloDone (senderFn s r.sender.toNat) then answer (takeRequest s r) r cBusy []
      else if min (s.get .fwProto 0 / 65536) hi.toNat < s.get .fwProto 0 % 65536 ∨
          min (s.get .fwProto 0 / 65536) hi.toNat < lo.toNat then answer (takeRequest s r) r cVersion []
      else answer (((takeRequest s r).put .helloVer (senderFn s r.sender.toNat)
          (min (s.get .fwProto 0 / 65536) hi.toNat)).put .helloDone (senderFn s r.sender.toNat) 1) r cOk
        [BitVec.ofNat 32 (min (s.get .fwProto 0 / 65536) hi.toNat)]) :=
  congrArg Host.Outcome.next (firmware_served h _)

theorem hello_agrees {r : Req} (lo hi : BitVec 16) (hserved : served s r true true)
    (hnew : s.flag .helloDone (senderFn s r.sender.toNat) = false)
    (hfw : s.get .fwProto 0 % 65536 ≤ min (s.get .fwProto 0 / 65536) hi.toNat)
    (hdriver : lo.toNat ≤ min (s.get .fwProto 0 / 65536) hi.toNat) :
    ∃ t, exec (.hello r lo hi) s = .next (answer t r cOk [BitVec.ofNat 32 (min (s.get .fwProto 0 / 65536) hi.toNat)]) ∧
      t.get .helloVer (senderFn s r.sender.toNat) = min (s.get .fwProto 0 / 65536) hi.toNat ∧
      t.get .helloDone (senderFn s r.sender.toNat) = 1 ∧ keepsRegs [.helloVer, .helloDone] s t := by
  have hexec := exec_hello s lo hi hserved
  rw [if_neg (by simp [hnew]), if_neg (by omega)] at hexec
  refine ⟨_, hexec, ?_, get_put_same .., fun f i hf => ?_⟩
  · rw [get_put_ne _ (by decide), get_put_same]
    exact Nat.mod_eq_of_lt (lt_of_le_of_lt (Nat.min_le_right ..) hi.isLt)
  · obtain ⟨hver, hdone⟩ : f ≠ .helloVer ∧ f ≠ .helloDone := by simpa using hf
    rw [get_put_ne _ hdone, get_put_ne _ hver]
    rfl

theorem hello_version {r : Req} (lo hi : BitVec 16) (hserved : served s r true true)
    (hnew : s.flag .helloDone (senderFn s r.sender.toNat) = false)
    (h : min (s.get .fwProto 0 / 65536) hi.toNat < s.get .fwProto 0 % 65536 ∨
      min (s.get .fwProto 0 / 65536) hi.toNat < lo.toNat) :
    exec (.hello r lo hi) s = .next (answer (takeRequest s r) r cVersion []) := by
  rw [exec_hello s lo hi hserved, if_neg (by simp [hnew]), if_pos h]

theorem hello_again {r : Req} (lo hi : BitVec 16) (hserved : served s r true true)
    (hdone : s.flag .helloDone (senderFn s r.sender.toNat) = true) :
    exec (.hello r lo hi) s = .next (answer (takeRequest s r) r cBusy []) := by
  rw [exec_hello s lo hi hserved, if_pos hdone]

theorem undefinedCommand_version {r : Req} {code : BitVec 8} (hcode : definedCode code.toNat = false)
    (hserved : served s r false false) :
    exec (.undefinedCommand r code) s = .next (answer (takeRequest s r) r cVersion [0xFFFFFFFF]) := by
  change execUndefinedCommand r code s = _
  rw [execUndefinedCommand, if_neg (by simp [hcode]), firmware_served hserved]

/-! ### Posts, takes and pops -/

variable (fn : Fn) (m : MbxNo) (len : BitVec 7) (chan : Bool)

theorem exec_mbxPost (hfull : s.power = .full) : exec (.mbxPost fn m len chan) s =
    .next ((postMessage s fn.val fn.val m.val len.toNat chan (postData s m.val) none).2.put .mbxPostResult m.val
      (postMessage s fn.val fn.val m.val len.toNat chan (postData s m.val) none).1) :=
  congrArg Host.Outcome.next (overPcie_full s hfull _)

theorem length_postData : (postData s m.val).length = 16 := by simp [postData]

theorem mbxPost_posts (hfull : s.power = .full) (hmay : mayPost s fn.val m.val = true) (hlen : 0 < len.toNat)
    (hmax : len.toNat ≤ 64) (hroom : (s.mbox m.val).msgs.length < 16) :
    ∃ t msg, exec (.mbxPost fn m len chan) s = .next t ∧ (t.mbox m.val).msgs = (s.mbox m.val).msgs ++ [msg] ∧
      msg.words = postData s m.val ∧ msg.length = len.toNat ∧ msg.channel = chan ∧ msg.sender.toNat = fn.val ∧
      msg.gen.toNat = senderGen s fn.val % 256 ∧ msg.stale = false ∧ t.get .mbxPostResult m.val = cOk ∧
      keepsRegs [.mbxPostResult] s t := by
  have hexec := exec_mbxPost s fn m len chan hfull
  unfold postMessage at hexec
  dsimp only at hexec
  rw [hmay, if_neg (by decide), if_neg (by omega)] at hexec
  dsimp only at hexec
  generalize hmsg : Msg.mk _ _ _ _ _ _ _ = msg at hexec
  generalize hu : (if m.val ≤ 16 then _ else _ : State) = u at hexec
  have hbox : (u.mbox m.val).msgs = (s.mbox m.val).msgs ++ [msg] := by
    rw [← hu]
    split
    · exact congrArg Mailbox.msgs (tab_get_set_same ..)
    · rw [mbox_mailboxVector]
      exact congrArg Mailbox.msgs (tab_get_set_same ..)
  have hregs : u.regs = s.regs := by
    rw [← hu]
    split
    · rfl
    · exact regs_mailboxVector ..
  refine ⟨_, msg, hexec, hbox, ?_, ?_, ?_, ?_, ?_, ?_, get_put_same .., fun f i hf => ?_⟩
  · rw [← hmsg]
    exact List.take_of_length_le (length_postData s m).le
  · rw [← hmsg]
  · rw [← hmsg]
  · rw [← hmsg]
    exact (BitVec.toNat_ofNat ..).trans (Nat.mod_eq_of_lt (by omega))
  · rw [← hmsg]
    exact BitVec.toNat_ofNat ..
  · rw [← hmsg]
  · rw [get_put_ne _ (by simpa using hf)]
    exact get_of_regs hregs ..

theorem mbxPost_full (hfull : s.power = .full) (hmay : mayPost s fn.val m.val = true)
    (hmsgs : 16 ≤ (s.mbox m.val).msgs.length) :
    exec (.mbxPost fn m len chan) s = .next (s.put .mbxPostResult m.val cBusy) := by
  have hpost : postMessage s fn.val fn.val m.val len.toNat chan (postData s m.val) none = (cBusy, s) := by
    unfold postMessage
    dsimp only
    rw [hmay, if_neg (by decide), if_pos (.inr (.inr hmsgs))]
  rw [exec_mbxPost s fn m len chan hfull, hpost]

theorem mbxPost_isolated (hfull : s.power = .full) (hmay : mayPost s fn.val m.val = false) :
    exec (.mbxPost fn m len chan) s = .next (s.put .mbxPostResult m.val cIsolated) := by
  have hpost : postMessage s fn.val fn.val m.val len.toNat chan (postData s m.val) none = (cIsolated, s) := by
    unfold postMessage
    rw [hmay, if_pos (by decide)]
  rw [exec_mbxPost s fn m len chan hfull, hpost]

theorem takeHead_takes {who : Option Nat} {n : Nat} {h : Msg} {rest : List Msg} (code : Nat)
    (hmsgs : (s.mbox n).msgs = h :: rest) (hmay : mayTake s who n = true) :
    takeHead s who n code = complete (s.setMbox n { s.mbox n with msgs := rest }) n (senderFn s h.sender.toNat)
      ((h.words.getD 0 0).toNat / 65536) h.ring code [] := by
  unfold takeHead
  dsimp only
  rw [hmsgs]
  exact if_pos hmay

theorem mbxTake_takes {who : Option Fn} {h : Msg} {rest : List Msg} (code : BitVec 8)
    (hmsgs : (s.mbox m.val).msgs = h :: rest) (hmay : mayTake s (who.map (fun f => f.val)) m.val = true)
    (hwho : who = none ∨ s.power = .full) :
    exec (.mbxTake who m code) s = .next (complete (s.setMbox m.val { s.mbox m.val with msgs := rest }) m.val
      (senderFn s h.sender.toNat) ((h.words.getD 0 0).toNat / 65536) h.ring code.toNat []) := by
  change execMbxTake who m code s = _
  unfold execMbxTake
  dsimp only
  rw [takeHead_takes s code.toNat hmsgs hmay]
  obtain rfl | hfull := hwho
  · rfl
  · rw [overPcie_full s hfull, ite_self]

theorem mbxCplPop_pops (hfull : s.power = .full) (h : fn = 0 ∨ mayPost s fn.val m.val = true) :
    exec (.mbxCplPop fn m) s = .next (s.setMbox m.val { s.mbox m.val with cpls := (s.mbox m.val).cpls.drop 1 }) := by
  change execMbxCplPop fn m s = _
  have hgo : fn.val = 0 ∨ mayPost s fn.val m.val = true := h.imp_left (congrArg Fin.val)
  rw [execMbxCplPop, if_pos hgo, overPcie_full s hfull]
  rfl

theorem mbxCplPop_unseen (hfn : fn ≠ 0) (hmay : mayPost s fn.val m.val = false) :
    exec (.mbxCplPop fn m) s = .next s :=
  if_neg (not_or.mpr ⟨fun h => hfn (Fin.ext h), by simp [hmay]⟩)

end

/-! ### Quoins -/

section
variable (s : State) (fn : Fn) (q : QuoinNo) (hfull : s.power = .full)
include hfull

theorem exec_qacqRead : exec (.qacqRead fn q) s =
    .next { (quoinAcquire s q.val fn.val).2 with rd := BitVec.ofNat 32 (quoinAcquire s q.val fn.val).1 } :=
  congrArg Host.Outcome.next (overPcie_full s hfull _)

theorem qacqRead_acquires (hgranted : quoinGranted s q.val fn.val = true) (hfree : s.flag .quoinHeld q.val = false) :
    ∃ t, exec (.qacqRead fn q) s = .next t ∧ quoinHeldBy t q.val fn.val = true ∧
      t.rd = BitVec.ofNat 32 (if s.flag .quoinBroken q.val then cBroken else cOk) ∧
      keepsRegs [.quoinHeld, .quoinHolder, .quoinHolderGen] s t := by
  have hexec := exec_qacqRead s fn q hfull
  unfold quoinAcquire at hexec
  dsimp only at hexec
  rw [hgranted, if_neg (by decide), hfree, if_neg (by decide)] at hexec
  dsimp only at hexec
  generalize hu : ((s.put .quoinHeld q.val 1).put .quoinHolder q.val fn.val).put .quoinHolderGen q.val _ = u at hexec
  have hheld : u.get .quoinHeld q.val = 1 := by
    rw [← hu, get_put_ne _ (by decide), get_put_ne _ (by decide), get_put_same]
    rfl
  have hholder : u.get .quoinHolder q.val = fn.val := by
    rw [← hu, get_put_ne _ (by decide), get_put_same]
    exact Nat.mod_eq_of_lt (lt_trans fn.isLt (by decide))
  refine ⟨_, hexec, ?_, rfl, fun f i hf => ?_⟩
  · change (u.get .quoinHeld q.val != 0 && u.get .quoinHolder q.val == fn.val) = true
    rw [hheld, hholder, beq_self_eq_true]
    rfl
  · change u.get f i = _
    obtain ⟨h1, h2, h3⟩ : f ≠ .quoinHeld ∧ f ≠ .quoinHolder ∧ f ≠ .quoinHolderGen := by simpa using hf
    rw [← hu, get_put_ne _ h3, get_put_ne _ h2, get_put_ne _ h1]

theorem qacqRead_held (hgranted : quoinGranted s q.val fn.val = true) (hheld : s.flag .quoinHeld q.val = true) :
    exec (.qacqRead fn q) s = .next { s with rd := BitVec.ofNat 32 cBusy } := by
  have hacq : quoinAcquire s q.val fn.val = (cBusy, s) := by simp [quoinAcquire, hgranted, hheld]
  rw [exec_qacqRead s fn q hfull, hacq]

theorem qacqRead_isolated (hgranted : quoinGranted s q.val fn.val = false) :
    exec (.qacqRead fn q) s = .next { s with rd := BitVec.ofNat 32 cIsolated } := by
  have hacq : quoinAcquire s q.val fn.val = (cIsolated, s) := by simp [quoinAcquire, hgranted]
  rw [exec_qacqRead s fn q hfull, hacq]

/-- What a function's release leaves and answers. -/
theorem exec_qopRelease {u : State} {c : Nat} (h : quoinRelease s q.val fn.val = (c, u)) :
    exec (.qopRelease fn q) s = .next (u.put .qopCode fn.val c) := by
  change Host.Outcome.next (overPcie s (quoinPort s fn.val 1 q.val)) = _
  rw [overPcie_full s hfull, quoinPort]
  rw [h]

/-- What a function's clear leaves and answers. -/
theorem exec_qopClear {u : State} {c : Nat} (h : quoinClear s q.val fn.val = (c, u)) :
    exec (.qopClear fn q) s = .next (u.put .qopCode fn.val c) := by
  change Host.Outcome.next (overPcie s (quoinPort s fn.val 2 q.val)) = _
  rw [overPcie_full s hfull, quoinPort]
  rw [h]

theorem qopRelease_releases (hgranted : quoinGranted s q.val fn.val = true)
    (hmine : quoinHeldBy s q.val fn.val = true) : ∃ t, exec (.qopRelease fn q) s = .next t ∧
      t.flag .quoinHeld q.val = false ∧ t.get .qopCode fn.val = cOk ∧
      t.get .quoinBroken q.val = s.get .quoinBroken q.val ∧
      ∀ j, j ≠ q.val → quoinHeldBy t j fn.val = quoinHeldBy s j fn.val := by
  have hexec := exec_qopRelease s fn q hfull (by unfold quoinRelease; rw [hgranted, if_neg (by decide), if_pos hmine])
  refine ⟨_, hexec, ?_, get_put_same .., ?_, fun j hj => ?_⟩
  · rw [State.flag, get_put_ne _ (by decide), get_put_ne _ (by decide), get_put_ne _ (by decide), get_put_same]
    rfl
  · rw [get_put_ne _ (by decide), get_put_ne _ (by decide), get_put_ne _ (by decide), get_put_ne _ (by decide)]
  · unfold quoinHeldBy State.flag
    rw [get_put_ne _ (by decide), get_put_ne _ (by decide), get_put_ne _ (by decide),
      get_put_other _ (by simpa using hj),
      get_put_ne _ (by decide), get_put_ne _ (by decide), get_put_other _ (by simpa using hj), get_put_ne _ (by decide)]

theorem qopClear_clears (hgranted : quoinGranted s q.val fn.val = true) (hmine : quoinHeldBy s q.val fn.val = true)
    (hbroken : s.flag .quoinBroken q.val = true) : ∃ t, exec (.qopClear fn q) s = .next t ∧
      t.flag .quoinBroken q.val = false ∧ quoinHeldBy t q.val fn.val = true ∧ t.get .qopCode fn.val = cOk := by
  have hexec := exec_qopClear s fn q hfull (by
    unfold quoinClear; rw [hgranted, if_neg (by decide), hmine, hbroken, Bool.and_self, if_pos rfl])
  refine ⟨_, hexec, ?_, ?_, get_put_same ..⟩
  · rw [State.flag, get_put_ne _ (by decide), get_put_ne _ (by decide), get_put_ne _ (by decide), get_put_same]
    rfl
  · rw [← hmine]
    unfold quoinHeldBy State.flag
    rw [get_put_ne _ (by decide), get_put_ne _ (by decide), get_put_ne _ (by decide), get_put_ne _ (by decide),
      get_put_ne _ (by decide), get_put_ne _ (by decide), get_put_ne _ (by decide), get_put_ne _ (by decide)]

theorem qop_notHeld (hgranted : quoinGranted s q.val fn.val = true) (hmine : quoinHeldBy s q.val fn.val = false) :
    exec (.qopRelease fn q) s = .next (s.put .qopCode fn.val cBusy) ∧
      exec (.qopClear fn q) s = .next (s.put .qopCode fn.val cBusy) :=
  ⟨exec_qopRelease s fn q hfull (by simp [quoinRelease, hgranted, hmine]),
    exec_qopClear s fn q hfull (by simp [quoinClear, hgranted, hmine])⟩

theorem qop_isolated (hgranted : quoinGranted s q.val fn.val = false) :
    exec (.qopRelease fn q) s = .next (s.put .qopCode fn.val cIsolated) ∧
      exec (.qopClear fn q) s = .next (s.put .qopCode fn.val cIsolated) :=
  ⟨exec_qopRelease s fn q hfull (by simp [quoinRelease, hgranted]),
    exec_qopClear s fn q hfull (by simp [quoinClear, hgranted])⟩

end

/-! ### The obligation -/

/-- Settles O55, by the branches of HELLO, the posts, the takes and the quoin operations. -/
theorem mailboxesAndQuoins : Obligations.MailboxesAndQuoins := by
  unfold Obligations.MailboxesAndQuoins
  refine ⟨?_, ?_⟩
  · intro s r lo hi code fn m len chan
    refine ⟨?_, ?_, ?_, ?_, ?_, ?_, ?_, ?_, ?_, ?_⟩
    · exact fun hserved hnew hfw hdriver => hello_agrees s lo hi hserved hnew hfw hdriver
    · exact fun hserved hnew h => hello_version s lo hi hserved hnew h
    · exact fun hserved hdone => hello_again s lo hi hserved hdone
    · exact fun hcode hserved => undefinedCommand_version s hcode hserved
    · exact fun hfull hmay hlen hmax hroom => mbxPost_posts s fn m len chan hfull hmay hlen hmax hroom
    · exact fun hfull hmay hmsgs => mbxPost_full s fn m len chan hfull hmay hmsgs
    · exact fun hfull hmay => mbxPost_isolated s fn m len chan hfull hmay
    · exact fun who h rest hmsgs hmay hwho => mbxTake_takes s m code hmsgs hmay hwho
    · exact fun hfull h => mbxCplPop_pops s fn m hfull h
    · exact fun hfn hmay => mbxCplPop_unseen s fn m hfn hmay
  · intro s fn q hfull
    refine ⟨?_, ?_, ?_, ?_, ?_, ?_⟩
    · exact fun hgranted hfree => qacqRead_acquires s fn q hfull hgranted hfree
    · exact fun hgranted hheld => qacqRead_held s fn q hfull hgranted hheld
    · exact fun hgranted => qacqRead_isolated s fn q hfull hgranted
    · exact fun hgranted hmine => ⟨qopRelease_releases s fn q hfull hgranted hmine,
        fun hbroken => qopClear_clears s fn q hfull hgranted hmine hbroken⟩
    · exact fun hgranted hmine => qop_notHeld s fn q hfull hgranted hmine
    · exact fun hgranted => qop_isolated s fn q hfull hgranted

end Sys2Proof.Proofs

/-! What the loss of the fabric, of the generations and of the field outputs leaves alone: the power state, the clock of
the model, the fuses, the state of management and the board port. -/

namespace Sys2Proof.Proofs

open Sys2Proof.Machine Sys2Proof.Safety Sys2Proof.Laws

/-- The parts of the state that lie outside the fabric, the mailboxes and the field section. -/
def boardSide (s : State) : List Instr × Power × Nat × Fuses × Mgmt × List Byte × Bool × Word × ClockSt :=
  (s.pending, s.power, s.clk, s.fuses, s.mgmt, s.smb, s.smbAck, s.rd, s.clock)

theorem boardSide_foldl {α : Type} {g : State → α → State} (hg : ∀ s a, boardSide (g s a) = boardSide s) (l : List α)
    (s : State) : boardSide (l.foldl g s) = boardSide s :=
  foldl_keeps (φ := boardSide) hg l s

section
variable {s t : State} (h : boardSide t = boardSide s)
include h

theorem power_of_boardSide : t.power = s.power := congrArg (fun x => x.2.1) h

theorem clk_of_boardSide : t.clk = s.clk := congrArg (fun x => x.2.2.1) h

theorem fuses_of_boardSide : t.fuses = s.fuses := congrArg (fun x => x.2.2.2.1) h

theorem mgmt_of_boardSide : t.mgmt = s.mgmt := congrArg (fun x => x.2.2.2.2.1) h

theorem smbAck_of_boardSide : t.smbAck = s.smbAck := congrArg (fun x => x.2.2.2.2.2.2.1) h

end

section
variable (s : State)

theorem boardSide_put (f : Fld) (i v : Nat) : boardSide (s.put f i v) = boardSide s := rfl

theorem boardSide_bump (f : Fld) (i : Nat) : boardSide (s.bump f i) = boardSide s := rfl

theorem boardSide_emit (x : Tx) : boardSide (s.emit x) = boardSide s := rfl

theorem boardSide_setChase (n : Nat) (c : Chase) : boardSide (s.setChase n c) = boardSide s := rfl

theorem boardSide_setCtx (k : Nat) (c : Context) : boardSide (s.setCtx k c) = boardSide s := rfl

theorem boardSide_setMbox (m : Nat) (x : Mailbox) : boardSide (s.setMbox m x) = boardSide s := rfl

theorem boardSide_setChan (c : Nat) (x : ChanSt) : boardSide (s.setChan c x) = boardSide s := rfl

theorem boardSide_setPort (p : Nat) (x : Port) : boardSide (s.setPort p x) = boardSide s := rfl

theorem boardSide_setEport (p : Nat) (x : EPortSt) : boardSide (s.setEport p x) = boardSide s := rfl

theorem boardSide_setBarrier (b : Barrier) : boardSide { s with barrier := b } = boardSide s := rfl

/-- The state of management aside, what differs is not on the board side. -/
theorem boardSide_setMgmt {s t : State} (h : boardSide t = boardSide s) (m : Mgmt) :
    boardSide { t with mgmt := m } = boardSide { s with mgmt := m } := by
  unfold boardSide at h ⊢
  simp only [Prod.mk.injEq] at h ⊢
  obtain ⟨hpending, hpower, hclk, hfuses, -, hrest⟩ := h
  exact ⟨hpending, hpower, hclk, hfuses, trivial, hrest⟩

theorem boardSide_loads (chases ctxs mgmt) : boardSide { s with chases, ctxs, mgmt } = boardSide { s with mgmt } := rfl

theorem boardSide_emptyModule (galley chases ctxs ports lineRd rings mgmt) :
    boardSide { s with galley, chases, ctxs, ports, lineRd, rings, mgmt } = boardSide { s with mgmt } := rfl

theorem boardSide_emptyFabric : boardSide { s with sram := [], istore := [], fqs := .empty } = boardSide s := rfl

theorem boardSide_resetRegs (keep : Kept → Bool) (reach : Fld → Nat → Bool) :
    boardSide (s.resetRegs keep reach) = boardSide s := rfl

theorem boardSide_fireVector (fn v : Nat) : boardSide (fireVector s fn v) = boardSide s := rfl

theorem boardSide_logEvent (code source severity : Nat) (details : List Nat) :
    boardSide (logEvent s code source severity details) = boardSide s := by
  unfold logEvent
  dsimp only
  split <;> split <;> rfl

theorem boardSide_statusChanged (before : State) : boardSide (statusChanged before s) = boardSide s := by
  unfold statusChanged
  split <;> rfl

theorem boardSide_mailboxVector (m : Nat) : boardSide (mailboxVector s m) = boardSide s := by
  unfold mailboxVector
  split <;> rfl

theorem boardSide_queueCompletion (m : Nat) (c : Cpl) : boardSide (queueCompletion s m c) = boardSide s := by
  unfold queueCompletion
  dsimp only
  split
  · rw [boardSide_mailboxVector, boardSide_setMbox]
  · rfl

theorem boardSide_stageEvent (fn : Nat) (b : List Byte) : boardSide (stageEvent s fn b) = boardSide s :=
  (congrArg boardSide (ringsChange_stageEvent s fn b).2 :)

theorem boardSide_complete (m fn tag : Nat) (ring : Option Word) (code : Nat) (details : List Word) :
    boardSide (complete s m fn tag ring code details) = boardSide s := by
  unfold complete
  split
  · split
    · exact boardSide_stageEvent ..
    · exact boardSide_queueCompletion ..
  · exact boardSide_queueCompletion ..

theorem boardSide_answer (r : Req) (code : Nat) (details : List Word) :
    boardSide (answer s r code details) = boardSide s := boardSide_complete ..

/-! ### Generations -/

theorem boardSide_staleSender (id : Nat) : boardSide (staleSender s id) = boardSide s := rfl

theorem boardSide_quoinBreak (id gen q : Nat) : boardSide (quoinBreak id gen q s) = boardSide s := by
  unfold quoinBreak
  split <;> rfl

theorem boardSide_nextGeneration (f : Fld) (i id : Nat) : boardSide (nextGeneration s f i id) = boardSide s := by
  unfold nextGeneration quoinsBreak
  dsimp only
  rw [boardSide_staleSender, boardSide_foldl (fun t q => boardSide_quoinBreak t ..), boardSide_put]

theorem boardSide_nextCtxGen (k : Nat) : boardSide (nextCtxGen s k) = boardSide s := boardSide_nextGeneration ..

theorem boardSide_nextChaseGen (n : Nat) : boardSide (nextChaseGen s n) = boardSide s := boardSide_nextGeneration ..

theorem boardSide_discardApplies (k : Nat) : boardSide (discardApplies s k) = boardSide s :=
  boardSide_foldl (fun _ _ => boardSide_answer ..) _ _

theorem boardSide_discardMessages (m : Nat) : boardSide (discardMessages s m) = boardSide s := by
  unfold discardMessages
  dsimp only
  rw [boardSide_foldl (fun _ _ => by rw [boardSide_bump, boardSide_complete]), boardSide_setMbox]

theorem boardSide_resetReceiver (m : Nat) : boardSide (resetReceiver s m) = boardSide s := boardSide_discardMessages ..

theorem boardSide_discardReq (r : Req) : boardSide (discardReq s r) = boardSide s := boardSide_answer ..

/-- The receivers of firmware are reset; management forgets the resets that wait. -/
theorem boardSide_resetFirmware : boardSide (resetFirmware s) =
    boardSide { s with mgmt := { s.mgmt with resetReqs := [] } } := by
  have hkept := (boardSide_foldl boardSide_discardReq (heldRequests s) _).trans
    (boardSide_foldl boardSide_resetReceiver (List.range 17) s)
  unfold resetFirmware
  dsimp only
  generalize (heldRequests s).foldl discardReq _ = t at hkept
  rw [mgmt_of_boardSide hkept]
  exact (boardSide_loads ..).trans (boardSide_setMgmt hkept _)

/-! ### Chases without their formes -/

theorem boardSide_emptyMonitor (n : Nat) : boardSide (emptyMonitor s n) = boardSide s := by
  refine boardSide_foldl (fun t k => ?_) _ s
  dsimp only
  split
  · rfl
  · exact boardSide_logEvent ..

theorem boardSide_leaveImposition (n : Nat) : boardSide (leaveImposition s n) = boardSide s := rfl

theorem boardSide_endCopies (engines : List Nat) (code : Nat) : boardSide (endCopies s engines code) = boardSide s := by
  unfold endCopies
  rw [boardSide_foldl (fun _ _ => by rw [boardSide_put, boardSide_put])]

theorem boardSide_setMem (m : Nat) (x : Memory) : boardSide (s.setMem m x) = boardSide s := by
  unfold State.setMem
  split <;> rfl

theorem boardSide_undoRows (b : Busy) : boardSide (undoRows s b) = boardSide s :=
  boardSide_foldl (fun t _ => boardSide_setMem t ..) (b.rows.drop _) s

theorem boardSide_stopCopies (n : Nat) (hit : Busy → Bool) : boardSide (stopCopies s n hit) = boardSide s :=
  boardSide_foldl (fun _ _ => boardSide_undoRows ..) _ _

theorem boardSide_isolateCopies (n : Nat) (hit : Busy → Bool) : boardSide (isolateCopies s n hit) = boardSide s :=
  (boardSide_endCopies ..).trans (boardSide_stopCopies ..)

theorem boardSide_dropPatch (n : Nat) : boardSide (dropPatch s n) = boardSide s :=
  boardSide_foldl (fun _ _ => boardSide_answer ..) _ _

theorem boardSide_clearFormeRegs (n : Nat) : boardSide (clearFormeRegs s n) = boardSide s := by
  unfold clearFormeRegs
  simp only [boardSide_put]

theorem boardSide_dropForme (n : Nat) : boardSide (dropForme s n) = boardSide s := by
  unfold dropForme
  dsimp only
  rw [boardSide_clearFormeRegs, boardSide_put, boardSide_setChase]
  split
  · exact (boardSide_isolateCopies ..).trans (boardSide_dropPatch ..)
  · exact (boardSide_isolateCopies ..).trans (boardSide_dropPatch ..)

theorem boardSide_clearChase (n : Nat) : boardSide (clearChase s n) = boardSide s := by
  unfold clearChase
  dsimp only
  rw [boardSide_setChase, boardSide_leaveImposition, boardSide_nextChaseGen, boardSide_dropForme]
  split
  · rw [boardSide_answer, boardSide_emptyMonitor]
  · exact boardSide_emptyMonitor ..

/-! ### The field outputs and the fabric -/

theorem boardSide_clearLink (p : Nat) : boardSide (clearLink s p) = boardSide s := rfl

theorem boardSide_driveTo (c : Nat) (on : Bool) (at4ns : Option Nat) :
    boardSide (driveTo s c on at4ns) = boardSide s := by
  unfold driveTo
  dsimp only
  split <;> rfl

theorem boardSide_commandTo (c : Nat) (on : Bool) : boardSide (commandTo s c on) = boardSide s := by
  unfold commandTo
  dsimp only
  split <;> rfl

theorem boardSide_pulseOff (c : Nat) : boardSide (pulseOff s c) = boardSide s := boardSide_commandTo ..

theorem boardSide_outputsOff : boardSide (outputsOff s) = boardSide s := by
  refine boardSide_foldl (fun t c => ?_) _ s
  dsimp only
  rw [boardSide_driveTo]
  split
  · exact boardSide_pulseOff ..
  · rfl

theorem boardSide_fieldOff (c : Nat) : boardSide (fieldOff s c) = boardSide s := by
  unfold fieldOff
  dsimp only
  split
  · rw [boardSide_driveTo, boardSide_setChan]
  · rfl

theorem boardSide_fieldOffAll (p : Nat → Bool) : boardSide (fieldOffAll s p) = boardSide s := by
  refine boardSide_foldl (fun t c => ?_) _ s
  split
  · exact boardSide_fieldOff ..
  · rfl

theorem boardSide_enterSafe : boardSide (enterSafe s) = boardSide s := by
  unfold enterSafe
  split
  · rfl
  · dsimp only
    rw [boardSide_logEvent, boardSide_bump, boardSide_put, boardSide_put, boardSide_setBarrier, boardSide_fieldOffAll]

theorem boardSide_barrierStop : boardSide (barrierStop s) = boardSide s := by
  unfold barrierStop
  dsimp only
  rw [boardSide_setBarrier, boardSide_enterSafe]

theorem boardSide_launchStatus (p : Nat) (e : Launch) (status : Nat) :
    boardSide (launchStatus s p e status) = boardSide s := rfl

theorem boardSide_emptyLaunch (p : Nat) : boardSide (emptyLaunch s p) = boardSide s := by
  unfold emptyLaunch
  dsimp only
  rw [boardSide_setEport, boardSide_foldl (fun _ _ => boardSide_launchStatus ..)]

theorem boardSide_clearFabric : boardSide (clearFabric s) = boardSide s := by
  unfold clearFabric
  dsimp only
  rw [boardSide_foldl boardSide_clearLink, boardSide_outputsOff, boardSide_emptyFabric,
    boardSide_foldl boardSide_clearChase]

/-- What management keeps of a WARM reset. -/
def warmMgmt (m : Mgmt) : Mgmt :=
  { m with resetReqs := [], hold := .warm, arm := none, nonce := none, findings := none, laneTop := .empty }

theorem boardSide_loseWarm : boardSide (loseWarm s) = boardSide { s with mgmt := warmMgmt s.mgmt } := by
  unfold loseWarm
  dsimp only
  generalize hgens : (List.range 16).foldl (fun t k => nextCtxGen (discardApplies t k) k) _ = t1
  generalize hsafe : barrierStop ((List.range 2).foldl emptyLaunch (clearFabric t1)) = t2
  generalize hlog : (if t2.flag .secSession 0 then logEvent t2 0x0051 (srcBlock 2) 0 [0, 0, 0, 0] else t2) = t3
  have h1 : boardSide t1 = boardSide (resetFirmware s) := by
    rw [← hgens, boardSide_foldl (fun _ _ => (boardSide_nextCtxGen ..).trans (boardSide_discardApplies ..)),
      boardSide_nextGeneration, boardSide_nextGeneration]
  have h2 : boardSide t2 = boardSide t1 := by
    rw [← hsafe, boardSide_barrierStop, boardSide_foldl (fun _ _ => boardSide_emptyLaunch ..), boardSide_clearFabric]
  have h3 : boardSide t3 = boardSide t2 := by
    rw [← hlog]
    split
    · exact boardSide_logEvent ..
    · rfl
  have hkept := h3.trans (h2.trans (h1.trans (boardSide_resetFirmware s)))
  have hmgmt : t3.mgmt = { s.mgmt with resetReqs := [] } := mgmt_of_boardSide hkept
  have hreset : boardSide (t3.resetRegs (fun a => a.warm) (fun _ _ => true)) = _ := (boardSide_resetRegs ..).trans hkept
  rw [State.resetRegs_mgmt, hmgmt]
  exact (boardSide_emptyModule ..).trans (boardSide_setMgmt hreset _)

end

end Sys2Proof.Proofs

/-! Sensors, alerts and the board port (R27, R385, R386, R389, R390, R457). -/

namespace Sys2Proof.Proofs

open Sys2Proof.Machine Sys2Proof.Safety Sys2Proof.Laws

section
variable (s : State)

/-! ### Level windows -/

theorem levelWindow_within (h : serving s = true) (dev : BitVec 16) : exec (.levelWindow true dev) s =
    .next (statusChanged s ({ s with mgmt := { s.mgmt with
      levelSeen := if s.mgmt.levelSeen != 2 then 1 else 2 } }.put .modLevelOk 0 (b2n (s.mgmt.levelSeen != 2)))) :=
  if_neg (by simp [h])

theorem levelWindow_left (h : serving s = true) (dev : BitVec 16) : exec (.levelWindow false dev) s =
    .next (statusChanged s (raiseAlert (logEvent
      (({ s with mgmt := { s.mgmt with levelSeen := 2 } }.put .modLevelOk 0 0).put .modLevelFault 0 1) 0x0002 0x4D 1
        [dev.toNat, 0, 0, 0]) 3)) :=
  if_neg (by simp [h])

/-! ### Telemetry rounds -/

/-- The registers that a sample leaves for its sensor. -/
def Sampled (t : State) (n v : Nat) : Prop :=
  t.get .telValue n = v ∧ t.get .telWarn n = b2n (warnAt n v) ∧ t.get .telCrit n = b2n (critAt n v)

/-- The sensors' registers, and those of the log. -/
def sampleRegs : List Fld := [.telValue, .telWarn, .telCrit, .evlogHead, .evlogWrap]

/-- What a sample leaves before the event that may be logged. -/
theorem sampleSensor_get (n v : Nat) {f : Fld} (hf : f ∉ [Fld.evlogHead, .evlogWrap]) (i : Nat) :
    (sampleSensor s n v).get f i = (((s.put .telValue n v).put .telWarn n (b2n (warnAt n v))).put .telCrit n
      (b2n (critAt n v))).get f i := by
  unfold sampleSensor
  dsimp only
  split
  · exact keepsRegs_logEvent _ _ _ _ _ f i hf
  · rfl

theorem sampleSensor_sampled (n : Nat) {v : Nat} (hv : v < 2 ^ 16) : Sampled (sampleSensor s n v) n v := by
  refine ⟨?_, ?_, ?_⟩
  · rw [sampleSensor_get _ _ _ (by decide), get_put_ne _ (by decide), get_put_ne _ (by decide), get_put_same]
    exact Nat.mod_eq_of_lt hv
  · rw [sampleSensor_get _ _ _ (by decide), get_put_ne _ (by decide), get_put_same]
    exact b2n_mod_two _
  · rw [sampleSensor_get _ _ _ (by decide), get_put_same]
    exact b2n_mod_two _

theorem sampleSensor_other {n m : Nat} (h : m ≠ n) (v w : Nat) :
    Sampled (sampleSensor s n v) m w ↔ Sampled s m w := by
  have hkept : ∀ f, f ∉ [Fld.evlogHead, .evlogWrap] → (sampleSensor s n v).get f m = s.get f m := fun f hf => by
    rw [sampleSensor_get _ _ _ hf, get_put_other _ (by simp [h]), get_put_other _ (by simp [h]),
      get_put_other _ (by simp [h])]
  rw [Sampled, Sampled, hkept _ (by decide), hkept _ (by decide), hkept _ (by decide)]

theorem keepsRegs_sampleSensor (n v : Nat) : keepsRegs sampleRegs s (sampleSensor s n v) := by
  intro f i hf
  obtain ⟨h1, h2, h3, h4, h5⟩ : f ≠ .telValue ∧ f ≠ .telWarn ∧ f ≠ .telCrit ∧ f ≠ .evlogHead ∧ f ≠ .evlogWrap := by
    simpa [sampleRegs] using hf
  rw [sampleSensor_get _ _ _ (by simp [h4, h5]), get_put_ne _ h3, get_put_ne _ h2, get_put_ne _ h1]

theorem boardSide_sampleSensor (n v : Nat) : boardSide (sampleSensor s n v) = boardSide s := by
  unfold sampleSensor
  dsimp only
  split
  · rw [boardSide_logEvent, boardSide_put, boardSide_put, boardSide_put]
  · rfl

/-- A round from sensor `k` on. -/
def sampleFrom (s : State) (samples : List (BitVec 16)) (k : Nat) : State :=
  (samples.zipIdx k).foldl (fun s e => sampleSensor s e.2 e.1.toNat) s

theorem sampleFrom_cons (x : BitVec 16) (xs : List (BitVec 16)) (k : Nat) :
    sampleFrom s (x :: xs) k = sampleFrom (sampleSensor s k x.toNat) xs (k + 1) := rfl

variable (samples : List (BitVec 16))

/-- Sensors before the first of a round keep what they were. -/
theorem sampleFrom_before {n k : Nat} (h : n < k) (w : Nat) : Sampled (sampleFrom s samples k) n w ↔ Sampled s n w := by
  induction samples generalizing s k with
  | nil => exact Iff.rfl
  | cons x xs ih => rw [sampleFrom_cons, ih _ (by omega), sampleSensor_other _ (by omega)]

theorem sampleFrom_sampled {n : Nat} (h : n < samples.length) (k : Nat) :
    Sampled (sampleFrom s samples k) (k + n) (samples.getD n 0).toNat := by
  induction samples generalizing s k n with
  | nil => exact absurd h (Nat.not_lt_zero n)
  | cons x xs ih =>
    rw [sampleFrom_cons]
    cases n with
    | zero => exact (sampleFrom_before _ xs (by omega) _).mpr (sampleSensor_sampled s k x.isLt)
    | succ n =>
      rw [← Nat.add_assoc, Nat.add_right_comm]
      exact ih _ (Nat.lt_of_succ_lt_succ h) (k + 1)

theorem sampleFrom_keeps (k : Nat) : keepsRegs sampleRegs s (sampleFrom s samples k) ∧
    boardSide (sampleFrom s samples k) = boardSide s := by
  induction samples generalizing s k with
  | nil => exact ⟨keepsRegs_refl s, rfl⟩
  | cons x xs ih =>
    obtain ⟨hregs, hboard⟩ := ih (sampleSensor s k x.toNat) (k + 1)
    rw [sampleFrom_cons]
    exact ⟨fun f i hf => (hregs f i hf).trans (keepsRegs_sampleSensor s k x.toNat f i hf),
      hboard.trans (boardSide_sampleSensor ..)⟩

/-! ### A round that ends without a crit, and one that finds it -/

theorem exec_telemetryRound (hlen : samples.length = 14) (hruns : firmwareRuns s = true) (hhold : s.mgmt.hold = .none) :
    exec (.telemetryRound samples) s = .next
      ((([0, 2, 3] : List Nat).find? (fun n => (sampleFrom s samples 0).flag .telCrit n)).elim (sampleFrom s samples 0)
        (thermalCrit (sampleFrom s samples 0))) := by
  have hkept : (sampleFrom s samples 0).mgmt.hold = .none :=
    (congrArg Mgmt.hold (mgmt_of_boardSide (sampleFrom_keeps s samples 0).2)).trans hhold
  have hexec : exec (.telemetryRound samples) s = execTelemetryRound samples s := rfl
  unfold execTelemetryRound at hexec
  rw [if_neg (by simp [hlen, hruns, Config.sensorCount])] at hexec
  change _ = (match (sampleFrom s samples 0).mgmt.hold with | .thermal n => _ | _ => _) at hexec
  rw [hkept] at hexec
  change _ = (match ([0, 2, 3] : List Nat).find? (fun n => (sampleFrom s samples 0).flag .telCrit n) with
    | some n => Host.Outcome.next (thermalCrit (sampleFrom s samples 0) n)
    | none => Host.Outcome.next (sampleFrom s samples 0)) at hexec
  rw [hexec]
  cases ([0, 2, 3] : List Nat).find? (fun n => (sampleFrom s samples 0).flag .telCrit n) <;> rfl

theorem flag_of_sampled {t : State} {n v : Nat} (h : Sampled t n v) : t.flag .telCrit n = critAt n v := by
  rw [State.flag, h.2.2]
  cases critAt n v <;> rfl

theorem telemetryRound_refreshes (hlen : samples.length = 14) (hruns : firmwareRuns s = true)
    (hhold : s.mgmt.hold = .none) (hcool : ∀ n ∈ [0, 2, 3], critAt n (samples.getD n 0).toNat = false) :
    ∃ t, exec (.telemetryRound samples) s = .next t ∧ ∀ n, n < 14 → Sampled t n (samples.getD n 0).toNat := by
  have hall (n : Nat) (hn : n < 14) : Sampled (sampleFrom s samples 0) n (samples.getD n 0).toNat := by
    have hsampled := sampleFrom_sampled s samples (n := n) (by omega) 0
    rwa [Nat.zero_add] at hsampled
  have hnone : ([0, 2, 3] : List Nat).find? (fun n => (sampleFrom s samples 0).flag .telCrit n) = none := by
    refine List.find?_eq_none.mpr (fun n hn => ?_)
    have hlt : n < 14 := (by decide : ∀ m ∈ [0, 2, 3], m < 14) n hn
    rw [flag_of_sampled (hall n hlt), hcool n hn]
    decide
  have hexec := exec_telemetryRound s samples hlen hruns hhold
  rw [hnone] at hexec
  exact ⟨_, hexec, hall⟩

end

/-! ### A thermal crit (R386) -/

section
variable (s : State)

theorem mgmt_setAlerts (v : BitVec 4) : (setAlerts s v).mgmt = { s.mgmt with alerts := v } ∧
    (setAlerts s v).regs = s.regs ∧ (setAlerts s v).clk = s.clk ∧ (setAlerts s v).power = s.power := by
  unfold setAlerts
  dsimp only
  split <;> exact ⟨rfl, rfl, rfl, rfl⟩

theorem raiseAlert_raises {i : Nat} (h : i < 4) : (raiseAlert s i).mgmt.alerts.getLsbD i = true := by
  obtain ⟨hmgmt, -, -, -⟩ := mgmt_setAlerts s (s.mgmt.alerts ||| BitVec.ofNat 4 (2 ^ i))
  rw [raiseAlert, hmgmt]
  dsimp only
  rw [BitVec.getLsbD_or, BitVec.getLsbD_ofNat, decide_eq_true h, Nat.testBit_two_pow_self, Bool.and_self, Bool.or_true]

/-- Whether a wider reset covers the module's own, and how often it was taken, is told by the clock, the rungs taken,
the reset that holds the module and two registers. -/
theorem wholeRung_congr {s t : State} (hclk : t.clk = s.clk) (hrungs : t.mgmt.rungs = s.mgmt.rungs)
    (hhold : t.mgmt.hold = s.mgmt.hold) (hretry : t.get .supRetry 0 = s.get .supRetry 0)
    (hwindow : t.get .supWindowMs 0 = s.get .supWindowMs 0) (rung : Nat) :
    rungCovered t .whole rung = rungCovered s .whole rung ∧ mayClimb t .whole rung = mayClimb s .whole rung := by
  have hcovers : ∀ x, x = .warm ∨ x = .fabric → coveredBy t x = coveredBy s x := by
    unfold coveredBy
    rw [hhold]
    rintro x (rfl | rfl) <;> cases s.mgmt.hold <;> rfl
  refine ⟨?_, ?_⟩
  · unfold rungCovered widerTaken
    simp only [hclk, hrungs, hcovers _ (.inl rfl), hcovers _ (.inr rfl)]
  · unfold mayClimb rungsTaken retryWindow
    simp only [hclk, hrungs, hretry, hwindow]

theorem mgmt_recordRung (u : LadderUnit) (rung cause : Nat) : boardSide (recordRung s u rung cause) =
    boardSide { s with mgmt := { s.mgmt with rungs := ⟨unitKey u, rung, s.clk⟩ :: s.mgmt.rungs } } := by
  unfold recordRung
  dsimp only
  rw [boardSide_fireVector, boardSide_logEvent, boardSide_bump, boardSide_put, boardSide_put, boardSide_put,
    boardSide_put]

theorem thermalCrit_holds (n : Nat) (hfull : s.power = .full) (hfree : rungCovered s .whole rungWarm = false)
    (hmay : mayClimb s .whole rungWarm = true) :
    (thermalCrit s n).mgmt.hold = .thermal n ∧ (thermalCrit s n).mgmt.alerts.getLsbD 1 = true := by
  obtain ⟨hmgmt, hregs, hclk, hpower⟩ := mgmt_setAlerts s (s.mgmt.alerts ||| BitVec.ofNat 4 (2 ^ 1))
  have hbit := raiseAlert_raises s (i := 1) (by decide)
  unfold thermalCrit
  dsimp only
  change (raiseAlert s 1).mgmt = _ at hmgmt
  change (raiseAlert s 1).regs = _ at hregs
  change (raiseAlert s 1).clk = _ at hclk
  change (raiseAlert s 1).power = _ at hpower
  generalize raiseAlert s 1 = a at hmgmt hregs hclk hpower hbit
  obtain ⟨hcovered, hclimb⟩ := wholeRung_congr hclk (congrArg Mgmt.rungs hmgmt :) (congrArg Mgmt.hold hmgmt :)
    (get_of_regs hregs ..) (get_of_regs hregs ..) rungWarm
  have hrecord := mgmt_recordRung a .whole rungWarm causeThermal
  generalize hb : recordRung a .whole rungWarm causeThermal = b at hrecord
  have hfullb : b.power = .full := (power_of_boardSide hrecord).trans (hpower.trans hfull)
  have hescalate : escalate a .whole rungWarm causeThermal = statusChanged b (loseWarm b) := by
    rw [escalate, climb_taken (by decide) (hcovered.trans hfree) (hclimb.trans hmay), hb, performRung,
      if_neg (by decide), warmReset, if_pos hfullb]
  have hlost : (statusChanged b (loseWarm b)).mgmt = warmMgmt b.mgmt :=
    mgmt_of_boardSide ((boardSide_statusChanged ..).trans (boardSide_loseWarm b))
  have halerts : b.mgmt.alerts = a.mgmt.alerts := (congrArg Mgmt.alerts (mgmt_of_boardSide hrecord) :)
  rw [hescalate]
  generalize statusChanged b (loseWarm b) = t at hlost
  have hwarm : t.mgmt.hold = .warm := (congrArg Mgmt.hold hlost :)
  rw [if_pos hwarm]
  refine ⟨rfl, ?_⟩
  have hkept : t.mgmt.alerts = a.mgmt.alerts := (congrArg Mgmt.alerts hlost).trans halerts
  rwa [← hkept] at hbit

theorem telemetryRound_crit (samples : List (BitVec 16)) (hlen : samples.length = 14) (hruns : firmwareRuns s = true)
    (hhold : s.mgmt.hold = .none) (hfull : s.power = .full) (hfree : rungCovered s .whole rungWarm = false)
    (hmay : mayClimb s .whole rungWarm = true) (hcrit : critAt 0 (samples.getD 0 0).toNat = true) :
    ∃ t, exec (.telemetryRound samples) s = .next t ∧ t.mgmt.hold = .thermal 0 ∧ t.mgmt.alerts.getLsbD 1 = true := by
  have hzero := sampleFrom_sampled s samples (n := 0) (by omega) 0
  obtain ⟨hregs, hboard⟩ := sampleFrom_keeps s samples 0
  have hexec := exec_telemetryRound s samples hlen hruns hhold
  rw [List.find?_cons_of_pos (by rw [flag_of_sampled hzero, hcrit])] at hexec
  have hmgmt := mgmt_of_boardSide hboard
  obtain ⟨hcovered, hclimb⟩ := wholeRung_congr (clk_of_boardSide hboard) (congrArg Mgmt.rungs hmgmt)
    (congrArg Mgmt.hold hmgmt) (hregs _ _ (by decide)) (hregs _ _ (by decide)) rungWarm
  exact ⟨_, hexec, thermalCrit_holds _ 0 ((power_of_boardSide hboard).trans hfull) (hcovered.trans hfree)
    (hclimb.trans hmay)⟩

/-! ### The end of a thermal hold -/

theorem beginBringup_begins (warm : Bool) : (beginBringup s warm).mgmt.hold = .none ∧
    (beginBringup s warm).get .modService 0 = svcBringup ∧
    (beginBringup s warm).get .buStep 0 = (if warm then 2 else 1) ∧
    (beginBringup s warm).get .buWarmPath 0 = b2n warm := by
  have hregs (t : State) : (statusChanged s t).regs = t.regs := by
    unfold statusChanged
    split <;> rfl
  unfold beginBringup
  dsimp only
  generalize hu : (State.mk .. : State) = u
  refine ⟨?_, ?_, ?_, ?_⟩
  · rw [mgmt_of_boardSide (boardSide_statusChanged ..), ← hu]
    rfl
  · rw [get_of_regs (hregs _), get_put_ne _ (by decide), get_put_ne _ (by decide), get_put_ne _ (by decide),
      get_put_ne _ (by decide), get_put_ne _ (by decide), get_put_same]
    rfl
  · rw [get_of_regs (hregs _), get_put_ne _ (by decide), get_put_ne _ (by decide), get_put_ne _ (by decide),
      get_put_ne _ (by decide), get_put_same]
    cases warm <;> rfl
  · rw [get_of_regs (hregs _), get_put_ne _ (by decide), get_put_ne _ (by decide), get_put_ne _ (by decide),
      get_put_same]
    cases warm <;> rfl

/-- The answers to the resets that wait change nothing of bring-up. -/
theorem answerAllResets_keeps :
    boardSide (answerAllResets s) = boardSide { s with mgmt := { s.mgmt with resetReqs := [] } } ∧
    ∀ f, f ∉ sideRegs → ∀ i, (answerAllResets s).get f i = s.get f i := by
  unfold answerAllResets
  refine ⟨boardSide_foldl (fun _ _ => boardSide_answer ..) _ _, fun f hf i => ?_⟩
  exact foldl_keeps (φ := fun t => t.get f i) (fun t e => side_answer t hf i ..) _ _

theorem warmPath_begins (hfull : s.power = .full) (htray : s.mgmt.tray = false) : warmPath s = beginBringup s true := by
  rw [warmPath, if_neg (by simp [htray]), if_pos hfull]

/-- Where the end of a hold runs the WARM path, bring-up begins in step 2 once the waiting resets have been answered. -/
theorem warmPath_answered (hfull : s.power = .full) (htray : s.mgmt.tray = false) :
    let t := answerAllResets (warmPath s)
    t.mgmt.hold = .none ∧ t.get .modService 0 = svcBringup ∧ t.get .buStep 0 = 2 ∧ t.get .buWarmPath 0 = 1 ∧
      t.mgmt.resetReqs = [] := by
  intro t
  obtain ⟨hhold, hservice, hstep, hwarm⟩ := beginBringup_begins s true
  obtain ⟨hboard, hregs⟩ := answerAllResets_keeps (warmPath s)
  rw [← warmPath_begins s hfull htray] at hhold hservice hstep hwarm
  have hmgmt := mgmt_of_boardSide hboard
  exact ⟨(congrArg Mgmt.hold hmgmt).trans hhold, (hregs _ (by decide) 0).trans hservice,
    (hregs _ (by decide) 0).trans hstep, (hregs _ (by decide) 0).trans hwarm, (congrArg Mgmt.resetReqs hmgmt :)⟩

/-- Whether the sensor of a thermal hold has been below warn for ten seconds. -/
def cooled : Bool := (s.mgmt.coolSince.map (fun t => decide (t + 10000 * Config.k4PerMs ≤ s.clk))).getD false

theorem exec_thermalHoldEnd {n : Nat} (hhold : s.mgmt.hold = .thermal n) : exec .thermalHoldEnd s =
    if cooled s = true then .next (answerAllResets (warmPath { s with mgmt := { s.mgmt with coolSince := none } }))
    else .next s := by
  change execThermalHoldEnd s = _
  unfold execThermalHoldEnd
  rw [hhold, cooled]

theorem thermalHoldEnd_begins {n since : Nat} (hhold : s.mgmt.hold = .thermal n)
    (hsince : s.mgmt.coolSince = some since) (hcool : since + 10000 * Config.k4PerMs ≤ s.clk)
    (hfull : s.power = .full) (htray : s.mgmt.tray = false) :
    ∃ t, exec .thermalHoldEnd s = .next t ∧ t.mgmt.hold = .none ∧ t.get .modService 0 = svcBringup ∧
      t.get .buStep 0 = 2 ∧ t.get .buWarmPath 0 = 1 := by
  have hdue : cooled s = true := by
    rw [cooled, hsince, Option.map_some, Option.getD_some, decide_eq_true hcool]
  have hexec := exec_thermalHoldEnd s hhold
  rw [if_pos hdue] at hexec
  generalize hu : (State.mk .. : State) = u at hexec
  obtain ⟨h1, h2, h3, h4, -⟩ := warmPath_answered u (by rw [← hu]; exact hfull) (by rw [← hu]; exact htray)
  exact ⟨_, hexec, h1, h2, h3, h4⟩

theorem thermalHoldEnd_waits {n : Nat} (hhold : s.mgmt.hold = .thermal n) (h : s.mgmt.coolSince = none ∨
    ∃ since, s.mgmt.coolSince = some since ∧ s.clk < since + 10000 * Config.k4PerMs) :
    exec .thermalHoldEnd s = .next s := by
  have hearly : cooled s = false := by
    obtain hnone | ⟨since, hsince, hearly⟩ := h
    · rw [cooled, hnone]
      rfl
    · rw [cooled, hsince, Option.map_some, Option.getD_some, decide_eq_false (not_le.mpr hearly)]
  rw [exec_thermalHoldEnd s hhold, hearly, if_neg (by decide)]

/-! ### The board port -/

theorem boardCommand_unserved (h : firmwareRuns s = false) (run : State → State) : boardCommand s run = smbNack s :=
  if_neg (by simp [h])

theorem boardCommand_served (h : firmwareRuns s = true) (run : State → State) : boardCommand s run = run s := if_pos h

theorem boardPort_unserved (h : firmwareRuns s = false) (n kind causes : BitVec 8) (index : BitVec 16) :
    exec (.smbTelemetry n) s = .next (smbNack s) ∧ exec (.smbEvent index) s = .next (smbNack s) ∧
      exec .smbIdentity s = .next (smbNack s) ∧ exec (.resetArm kind) s = .next (smbNack s) ∧
      exec (.resetExec kind) s = .next (smbNack s) ∧ exec (.alertClear causes) s = .next (smbNack s) :=
  have hnack (run : State → State) := congrArg Host.Outcome.next (boardCommand_unserved s h run)
  ⟨hnack _, hnack _, hnack _, hnack _, hnack _, hnack _⟩

/-- A command of the board port that firmware serves. -/
theorem boardPort_served (h : firmwareRuns s = true) {c : Instr} {run : State → State}
    (hc : exec c s = .next (boardCommand s run)) : exec c s = .next (run s) := by
  rw [hc, boardCommand_served s h]

/-- The causes that stay, as the number they are written as. -/
theorem getLsbD_ofBits (p : Nat → Bool) {i : Nat} (h : i < 4) :
    (BitVec.ofNat 4 ((List.range 4).map (fun j => b2n (p j) * 2 ^ j)).sum).getLsbD i = p i := by
  have hrange : List.range 4 = [0, 1, 2, 3] := rfl
  rw [hrange]
  simp only [List.map_cons, List.map_nil, List.sum_cons, List.sum_nil]
  obtain rfl | rfl | rfl | rfl : i = 0 ∨ i = 1 ∨ i = 2 ∨ i = 3 := by omega
  all_goals cases p 0 <;> cases p 1 <;> cases p 2 <;> cases p 3 <;> rfl

variable (hruns : firmwareRuns s = true)
include hruns

theorem smbTelemetry_reads {n : BitVec 8} (hn : n.toNat < 14) : exec (.smbTelemetry n) s = .next (smbReply s
    (natLe 4 (s.get .telValue n.toNat + 65536 * s.get .telWarn n.toNat + 131072 * s.get .telCrit n.toNat))) :=
  (boardPort_served s hruns (c := .smbTelemetry n) rfl).trans (congrArg Host.Outcome.next (if_pos hn))

theorem smbEvent_reads {index : BitVec 16} {e : LogEntry} (hindex : index.toNat < 4096)
    (he : logAt s index.toNat = some e) : exec (.smbEvent index) s = .next (smbReply s (logBytes e)) := by
  refine (boardPort_served s hruns rfl).trans (congrArg Host.Outcome.next ?_)
  rw [if_neg (by omega), he]
  rfl

theorem resetArm_arms {kind : BitVec 8} (hkind : kind.toNat ≤ 1) : exec (.resetArm kind) s =
    .next (smbReply { s with mgmt := { s.mgmt with arm := some (kind.toNat, s.clk) } } []) :=
  (boardPort_served s hruns rfl).trans (congrArg Host.Outcome.next (if_neg (by omega)))

theorem resetExec_unarmed (harm : armedFor s 0 = false) : exec (.resetExec 0) s = .next (smbReply s []) := by
  refine (boardPort_served s hruns rfl).trans (congrArg Host.Outcome.next ?_)
  dsimp only
  rw [if_neg (by simp)]
  exact if_neg (by simp [harm])

theorem resetExec_warm (harm : armedFor s 0 = true) (hfull : s.power = .full) (hfree : coveredBy s .warm = false) :
    ∃ t, exec (.resetExec 0) s = .next t ∧ t.mgmt.hold = .warm ∧ t.mgmt.arm = none ∧ t.smbAck = true := by
  have hexec := boardPort_served s hruns (c := .resetExec 0) rfl
  dsimp only at hexec
  rw [if_neg (by simp), if_pos (by exact harm)] at hexec
  generalize hu : smbReply { s with mgmt := { s.mgmt with arm := none } } [] = u at hexec
  have hfresh : coveredBy u .warm = false := by
    rw [← hu, ← hfree]
    rfl
  have hpower : u.power = .full := by
    rw [← hu]
    exact hfull
  have hack : u.smbAck = true := by
    rw [← hu]
    rfl
  have hlost := (boardSide_statusChanged (loseWarm u) u).trans (boardSide_loseWarm u)
  have hreset : performReset u .warm = loseWarm u := if_pos hpower
  rw [if_neg (by exact fun h => absurd (h.symm.trans hfresh) (by decide))] at hexec
  change exec (.resetExec 0) s = .next (statusChanged u (performReset u .warm)) at hexec
  rw [hreset] at hexec
  have hmgmt := mgmt_of_boardSide hlost
  exact ⟨_, hexec, (congrArg Mgmt.hold hmgmt :), (congrArg Mgmt.arm hmgmt :), (smbAck_of_boardSide hlost).trans hack⟩

theorem alertClear_clears (causes : BitVec 8) : ∃ t, exec (.alertClear causes) s = .next t ∧ t.smbAck = true ∧
    t.regs = s.regs ∧ ∀ i, i < 4 →
      t.mgmt.alerts.getLsbD i = (s.mgmt.alerts.getLsbD i && !(causes.getLsbD i && causeEnded s i)) := by
  have hexec := boardPort_served s hruns (c := .alertClear causes) rfl
  dsimp only at hexec
  obtain ⟨hmgmt, hregs, -, -⟩ := mgmt_setAlerts s (BitVec.ofNat 4 ((List.range 4).map (fun i =>
    b2n (s.mgmt.alerts.getLsbD i && !(causes.getLsbD i && causeEnded s i)) * 2 ^ i)).sum)
  generalize setAlerts s _ = t at hexec hmgmt hregs
  refine ⟨_, hexec, rfl, hregs, fun i hi => ?_⟩
  rw [smbReply, hmgmt]
  exact getLsbD_ofBits (fun j => s.mgmt.alerts.getLsbD j && !(causes.getLsbD j && causeEnded s j)) hi

end

/-! ### The obligation -/

/-- Settles O56: a telemetry round sensor by sensor, a crit through the ladder's WARM rung, the board port command by
command. -/
theorem sensorsAndBoardPortAnswer : Obligations.SensorsAndBoardPortAnswer := by
  unfold Obligations.SensorsAndBoardPortAnswer
  refine ⟨?_, ?_⟩
  · intro s samples dev
    refine ⟨?_, ?_, ?_, ?_⟩
    · exact fun h => ⟨levelWindow_within s h dev, levelWindow_left s h dev⟩
    · intro hlen hruns hhold
      exact ⟨fun hcool => telemetryRound_refreshes s samples hlen hruns hhold hcool,
        fun hfull hfree hmay hcrit => telemetryRound_crit s samples hlen hruns hhold hfull hfree hmay hcrit⟩
    · exact fun n since hhold hsince hcool hfull htray => thermalHoldEnd_begins s hhold hsince hcool hfull htray
    · exact fun n hhold h => thermalHoldEnd_waits s hhold h
  · intro s n kind causes index
    refine ⟨rfl, ?_, ?_, ?_, ?_, ?_⟩
    · exact fun hpower hpin => if_neg (by simp [hpower, hpin])
    · intro hpower halerts
      exact (if_neg (not_or.mpr ⟨hpower, halerts⟩)).trans rfl
    · exact fun halerts => if_pos (.inr halerts)
    · exact fun h => boardPort_unserved s h n kind causes index
    · intro hruns
      refine ⟨fun hn => smbTelemetry_reads s hruns hn, fun e hindex he => smbEvent_reads s hruns hindex he,
        boardPort_served s hruns (c := .smbIdentity) rfl, fun hkind => resetArm_arms s hruns hkind, ?_, ?_,
        alertClear_clears s hruns causes⟩
      · rintro rfl harm
        exact resetExec_unarmed s hruns harm
      · rintro rfl harm hfull hfree
        exact resetExec_warm s hruns harm hfull hfree

end Sys2Proof.Proofs

/-! Resets that a command asks for (R409 to R412). A WARM reset stops the copy in flight into LPDDR5X as the loss of the
main rail does (R96). -/

namespace Sys2Proof.Proofs

open Sys2Proof.Machine Sys2Proof.Safety Sys2Proof.Laws

/-- A module in Full with that copy at work, whose PF0 has said HELLO. -/
def greetedCopying : State := (copying lpddrRows).put .helloDone 0 1

/-- A request of PF0's driver. -/
def driverReq : Req := ⟨0, 0, none⟩

theorem calm_greetedCopying : Calm greetedCopying := calm_put calm_copying ..

theorem served_driverReq : served greetedCopying driverReq true false := by decide +kernel

theorem exec_warmReset {s : State} {r : Req} (hserved : served s r true false)
    (hmay : mayReset (takeRequest s r) r .warm = true) (hfresh : coveredBy (takeRequest s r) .warm = false)
    (hfull : s.power = .full) : exec (.reset r .warm) s = .next (loseWarm (answer (takeRequest s r) r cOk [])) := by
  have hpower : (answer (takeRequest s r) r cOk []).power = .full :=
    (power_of_boardSide (boardSide_answer ..)).trans hfull
  change execReset r .warm s = _
  unfold execReset
  rw [firmware_served hserved]
  dsimp only
  rw [hmay, if_neg (by decide), hfresh, if_neg (by decide), performReset, warmReset, if_pos hpower]

/-- Refutes O58: with a copy into LPDDR5X at work, a WARM reset does not keep LPDDR5X (R409): the copy stops at a row
boundary and the rows after it stand as before (R96). -/
theorem not_resetsTakeHold : ¬ Obligations.ResetsTakeHold := by
  unfold Obligations.ResetsTakeHold
  intro h
  obtain ⟨-, hwarm, -⟩ := h greetedCopying driverReq 0 0 .warm
  obtain ⟨t, ht, -, -, -, -, -, -, -, hkept, -⟩ := hwarm ⟨served_driverReq, rfl, rfl⟩ rfl
  rw [exec_warmReset served_driverReq rfl rfl rfl] at ht
  have hcalm : Calm (takeRequest greetedCopying driverReq) := calm_setMbox calm_greetedCopying ..
  rw [← Host.Outcome.next.inj ht, lpddr_loseWarm_calm (calm_answer hcalm ..), calm_greetedCopying.2.1] at hkept
  exact absurd hkept (by decide)

end Sys2Proof.Proofs

/-! Security commands, debug tokens and the debugger (R391 to R398, R408). -/

namespace Sys2Proof.Proofs

open Sys2Proof.Machine Sys2Proof.Safety Sys2Proof.Laws

/-! ### Bits -/

theorem bitAt_eq_testBit (v i : Nat) : bitAt v i = v.testBit i := (Nat.testBit_eq_decide_div_mod_eq ..).symm

/-- A table in which a run of places has been set to true. -/
theorem get_foldl_set_true (t : Tab Bool) (a n i : Nat) :
    ((List.range n).foldl (fun t j => t.set (a + j) true) t).get false i =
      (t.get false i || (decide (a ≤ i) && decide (i < a + n))) := by
  induction n with
  | zero => simp
  | succ n ih =>
    rw [List.range_succ, List.foldl_append, List.foldl_cons, List.foldl_nil]
    by_cases hi : i = a + n
    · rw [hi, tab_get_set_same]
      simp
    · rw [tab_get_set_other _ _ _ hi, ih]
      have hlt : i < a + n ↔ i < a + (n + 1) := by omega
      simp only [hlt]

section
variable {s : State} {r : Req}

/-! ### Commands of PF0 -/

/-- A command that only PF0 may send. -/
def ofPf0 (c : Instr) (s : State) (r : Req) (run : State → State) : Prop :=
  exec c s = .next (firmware s r false false (fun s => pf0Only r s run))

theorem ofPf0_isolated {c : Instr} {run : State → State} (hc : ofPf0 c s r run) (hserved : served s r false false)
    (hother : senderFn (takeRequest s r) r.sender.toNat ≠ 0) :
    exec c s = .next (answer (takeRequest s r) r cIsolated []) := by
  rw [hc, firmware_served hserved, pf0Only, if_neg hother]

theorem ofPf0_runs {c : Instr} {run : State → State} (hc : ofPf0 c s r run) (hserved : served s r false false)
    (hpf0 : senderFn (takeRequest s r) r.sender.toNat = 0) : exec c s = .next (run (takeRequest s r)) := by
  rw [hc, firmware_served hserved, pf0Only, if_pos hpf0]

theorem security_isolated (slot : BitVec 8) (key auth : List Byte) (trained lock : Bool) (target uid bit count : Word)
    (hserved : served s r false false) (hother : senderFn (takeRequest s r) r.sender.toNat ≠ 0) :
    ∀ c ∈ [Instr.fwSvnCommit r, .keyEnrol r slot key auth, .keyRevoke r slot, .policySet r trained lock auth,
        .lifecycleAdvance r target uid auth, .optProgram r bit count auth],
      exec c s = .next (answer (takeRequest s r) r cIsolated []) := by
  intro c hc
  simp only [List.mem_cons, List.not_mem_nil, or_false] at hc
  obtain rfl | rfl | rfl | rfl | rfl | rfl := hc <;> exact ofPf0_isolated (run := _) rfl hserved hother

variable (hserved : served s r false false) (hpf0 : senderFn (takeRequest s r) r.sender.toNat = 0)
include hserved hpf0

/-! ### Fuses -/

theorem fwSvnCommit_counts : ∃ t, exec (.fwSvnCommit r) s = .next (answer t r cOk []) ∧
    t.fuses.svn = max ((takeRequest s r).get .secRollback 0) ((takeRequest s r).get .secSvn 0) ∧
    t.get .secRollback 0 = t.fuses.svn % 256 :=
  ⟨_, ofPf0_runs (c := .fwSvnCommit r) (run := _) rfl hserved hpf0, rfl, get_put_same ..⟩

theorem keyEnrol_fills {slot : BitVec 8} {key auth : List Byte} (hslot : slot.toNat < 8)
    (hcalm : (takeRequest s r).flag .secAdvPending 0 = false)
    (hempty : bitAt ((takeRequest s r).get .secFilled 0) slot.toNat = false)
    (hauth : needsAuth (takeRequest s r) = false ∨ authorised (takeRequest s r) (if slot.toNat = 1 then 0 else 1)
      (natLe 1 0x40 ++ natLe 1 slot.toNat ++ key) auth = true) :
    ∃ t, exec (.keyEnrol r slot key auth) s = .next (answer t r cOk []) ∧ t.fuses.keys.get [] slot.toNat = key ∧
      bitAt (t.get .secFilled 0) slot.toNat = true ∧
      ∀ j, j ≠ slot.toNat → t.fuses.keys.get [] j = (takeRequest s r).fuses.keys.get [] j := by
  have hexec := ofPf0_runs (c := .keyEnrol r slot key auth) (run := _) rfl hserved hpf0
  dsimp only at hexec
  have hgood : (needsAuth (takeRequest s r) && !authorised (takeRequest s r) (if slot.toNat = 1 then 0 else 1)
      (natLe 1 0x40 ++ natLe 1 slot.toNat ++ key) auth) = false := by
    obtain h | h := hauth
    · rw [h, Bool.false_and]
    · rw [h, Bool.not_true, Bool.and_false]
  rw [if_neg (by omega), hcalm, hempty, if_neg (by decide), hgood, if_neg (by decide)] at hexec
  refine ⟨_, hexec, tab_get_set_same .., ?_, fun j hj => tab_get_set_other _ _ _ hj⟩
  rw [get_put_same]
  exact (bitAt_mod hslot _).trans ((bitAt_add_pow hempty _).trans (if_pos rfl))

theorem keyRevoke_revokes {slot : BitVec 8} (hslot : slot.toNat < 8)
    (hfilled : bitAt ((takeRequest s r).get .secFilled 0) slot.toNat = true) :
    ∃ t, exec (.keyRevoke r slot) s = .next (answer t r cOk []) ∧ keyUsable t slot.toNat = false ∧
      t.get .secFilled 0 = (takeRequest s r).get .secFilled 0 := by
  have hexec := ofPf0_runs (c := .keyRevoke r slot) (run := _) rfl hserved hpf0
  dsimp only at hexec
  rw [if_neg (by omega), hfilled, if_neg (by decide)] at hexec
  refine ⟨_, hexec, ?_, get_put_ne _ (by decide) ..⟩
  have hbit : bitAt (((takeRequest s r).get .secRevoked 0 ||| 2 ^ slot.toNat) % 2 ^ 8) slot.toNat = true := by
    rw [bitAt_mod hslot, bitAt_eq_testBit, Nat.testBit_or, Nat.testBit_two_pow_self, Bool.or_true]
  rw [keyUsable, get_put_same, Bool.and_eq_false_iff]
  exact .inr (congrArg (!·) hbit)

theorem policySet_sets {trained lock : Bool} {auth : List Byte} (hopen : (takeRequest s r).flag .secLock 0 = false)
    (hauth : needsAuth (takeRequest s r) = false ∨
      authorised (takeRequest s r) 1 (natLe 1 0x42 ++ natLe 1 (b2n trained + 2 * b2n lock)) auth = true) :
    ∃ t, exec (.policySet r trained lock auth) s = .next (answer t r cOk []) ∧ t.fuses.trained = trained ∧
      t.get .secDevTrained 0 = b2n trained ∧ t.get .secLock 0 = b2n lock := by
  have hexec := ofPf0_runs (c := .policySet r trained lock auth) (run := _) rfl hserved hpf0
  dsimp only at hexec
  have hgood : (needsAuth (takeRequest s r) &&
      !authorised (takeRequest s r) 1 (natLe 1 0x42 ++ natLe 1 (b2n trained + 2 * b2n lock)) auth) = false := by
    obtain h | h := hauth <;> simp [h]
  rw [hopen, if_neg (by decide), hgood, if_neg (by decide)] at hexec
  refine ⟨_, hexec, rfl, ?_, ?_⟩
  · rw [get_put_ne _ (by decide), get_put_same]
    exact b2n_mod_two _
  · rw [get_put_same]
    exact b2n_mod_two _

theorem policySet_locked {trained lock : Bool} {auth : List Byte} (hlocked : (takeRequest s r).flag .secLock 0 = true) :
    exec (.policySet r trained lock auth) s = .next (answer (takeRequest s r) r cBusy []) :=
  (ofPf0_runs (c := .policySet r trained lock auth) (run := _) rfl hserved hpf0).trans
    (congrArg Host.Outcome.next (if_pos hlocked))

theorem optProgram_blows {bit count : Word} {auth : List Byte} (hbit : bit.toNat < 5)
    (hin : bit.toNat + count.toNat ≤ 5) (hearly : lifecycle (takeRequest s r) < lcProvisioned) :
    ∃ t, exec (.optProgram r bit count auth) s = .next (answer t r cOk []) ∧ keepsRegs [] s t ∧
      ∀ i, t.fuses.optBits.get false i = ((takeRequest s r).fuses.optBits.get false i ||
        (decide (bit.toNat ≤ i) && decide (i < bit.toNat + count.toNat))) := by
  have hexec := ofPf0_runs (c := .optProgram r bit count auth) (run := _) rfl hserved hpf0
  dsimp only at hexec
  have hlow : lifecycle (takeRequest s r) < 2 := hearly
  rw [if_neg (by simp only [lcSealed]; omega),
    if_neg (by simp only [lcProvisioned, Bool.and_eq_true, beq_iff_eq]; omega)] at hexec
  exact ⟨_, hexec, fun _ _ _ => rfl, fun i => get_foldl_set_true ..⟩

/-! ### The lifecycle -/

theorem lifecycleAdvance_advances {target uid : Word} {auth : List Byte} (hfull : (takeRequest s r).power = .full)
    (huid : uid.toNat = (takeRequest s r).get .secUid 0) (hnext : target.toNat = lifecycle (takeRequest s r) + 1)
    (hopen : target.toNat ≠ lcOpen) (hlast : target.toNat ≤ lcSealed)
    (hcalm : (takeRequest s r).flag .secAdvPending 0 = false)
    (hidle : ∀ c, c < 16 → (takeRequest s r).get .chState c ≠ chRunning)
    (hauth : target.toNat ≠ lcSealed ∨ bitAt ((takeRequest s r).get .secFilled 0) 1 = false) :
    exec (.lifecycleAdvance r target uid auth) s =
      .next (answer (advanceTo (takeRequest s r) target.toNat) r cOk []) := by
  have hexec := ofPf0_runs (c := .lifecycleAdvance r target uid auth) (run := _) rfl hserved hpf0
  dsimp only at hexec
  have hok : ¬(uid.toNat ≠ (takeRequest s r).get .secUid 0 ∨ target.toNat ≠ lifecycle (takeRequest s r) + 1 ∨
      target.toNat = lcOpen ∨ lcSealed < target.toNat) := by
    simp only [huid, hnext, ne_eq, not_true_eq_false, false_or, not_or, not_lt]
    exact ⟨hnext ▸ hopen, hnext ▸ hlast⟩
  have hstill : (List.range 16).any (fun n => (takeRequest s r).get .chState n == chRunning) = false := by
    simpa [List.any_eq_false] using hidle
  have hgood : (target.toNat == lcSealed && bitAt ((takeRequest s r).get .secFilled 0) 1) = false := by
    obtain h | h := hauth
    · rw [beq_false_of_ne h, Bool.false_and]
    · rw [h, Bool.and_false]
  rw [if_neg (not_not.mpr hfull), if_neg hok, hcalm, hstill, if_neg (by decide), hgood, Bool.false_and,
    if_neg (by decide)] at hexec
  exact hexec

end

/-- Voiding the token changes the token and, in PROVISIONED, the reach. -/
theorem get_voidToken (u : State) {f : Fld} (hf : f ≠ .secReach) (i : Nat) :
    (voidToken u).get f i = (u.put .secToken 0 0).get f i := by
  unfold voidToken
  dsimp only
  split
  · exact get_put_ne _ hf ..
  · rfl

theorem boardSide_voidToken (u : State) : boardSide (voidToken u) = boardSide u := by
  unfold voidToken
  dsimp only
  split <;> rfl

/-- The fuses after the next lifecycle fuse has been blown. -/
def advancedFuses (u : State) (target : Nat) : Fuses :=
  { u.fuses with
    lifecycle := target, keys := Tab.empty, filled := u.fuses.filled % 2, revoked := u.fuses.revoked % 2,
    trained := false, wrapGen := u.fuses.wrapGen + 1 }

/-- The registers after it, the reach aside, before the event is logged. -/
def advancedRegs (u : State) (target : Nat) : State :=
  ((((((voidToken { u with fuses := advancedFuses u target }).put .secFilled 0 (u.get .secFilled 0 % 2)).put .secRevoked
    0 (u.get .secRevoked 0 % 2)).put .secDevTrained 0 0).put .secLock 0 0).put .secTarget 0 target).put
    .secAdvPending 0 1

theorem advanceTo_eq (u : State) (target : Nat) : advanceTo u target =
    logEvent (if target = lcSealed then (advancedRegs u target).put .secReach 0 0 else advancedRegs u target) 0x0052
      (srcBlock 2) 0 [target, 0, 0, 0] := rfl

theorem get_advanceTo (u : State) (target : Nat) {f : Fld} (hf : f ∉ [Fld.evlogHead, .evlogWrap, .secReach]) (i : Nat) :
    (advanceTo u target).get f i = (advancedRegs u target).get f i := by
  simp only [List.mem_cons, List.not_mem_nil, or_false, not_or] at hf
  obtain ⟨hhead, hwrap, hreach⟩ := hf
  rw [advanceTo_eq, keepsRegs_logEvent _ _ _ _ _ f i (by simp [hhead, hwrap])]
  split
  · exact get_put_ne _ hreach ..
  · rfl

theorem fuses_advanceTo (u : State) (target : Nat) : (advanceTo u target).fuses = advancedFuses u target := by
  have hregs : boardSide (advancedRegs u target) = boardSide { u with fuses := advancedFuses u target } := by
    simp only [advancedRegs, boardSide_put]
    exact boardSide_voidToken ..
  rw [advanceTo_eq, fuses_of_boardSide (boardSide_logEvent ..)]
  split
  · exact fuses_of_boardSide hregs
  · exact fuses_of_boardSide hregs

/-- What blowing the next fuse leaves. -/
theorem advanceTo_leaves (u : State) {target : Nat} (hlast : target ≤ lcSealed) : let t := advanceTo u target
    t.fuses.lifecycle = target ∧ t.get .secTarget 0 = target ∧ t.get .secAdvPending 0 = 1 ∧ t.get .secToken 0 = 0 ∧
      (∀ j, t.fuses.keys.get [] j = []) ∧ t.get .secFilled 0 = u.get .secFilled 0 % 2 ∧
      t.fuses.wrapGen = u.fuses.wrapGen + 1 := by
  intro t
  have hfuses : t.fuses = advancedFuses u target := fuses_advanceTo u target
  refine ⟨by rw [hfuses]; rfl, ?_, ?_, ?_, fun j => by rw [hfuses]; rfl, ?_, by rw [hfuses]; rfl⟩
  · rw [get_advanceTo _ _ (by decide), advancedRegs, get_put_ne _ (by decide), get_put_same]
    exact Nat.mod_eq_of_lt (lt_of_le_of_lt hlast (by decide))
  · rw [get_advanceTo _ _ (by decide), advancedRegs, get_put_same]
    rfl
  · rw [get_advanceTo _ _ (by decide), advancedRegs, get_put_ne _ (by decide), get_put_ne _ (by decide),
      get_put_ne _ (by decide), get_put_ne _ (by decide), get_put_ne _ (by decide), get_put_ne _ (by decide),
      get_voidToken _ (by decide), get_put_same]
    rfl
  · rw [get_advanceTo _ _ (by decide), advancedRegs, get_put_ne _ (by decide), get_put_ne _ (by decide),
      get_put_ne _ (by decide), get_put_ne _ (by decide), get_put_ne _ (by decide), get_put_same]
    exact Nat.mod_eq_of_lt (lt_trans (Nat.mod_lt _ (by decide)) (by decide))

/-! ### Debug tokens and sessions -/

section
variable {s : State} {r : Req} (hserved : served s r false false)
  (hpf0 : senderFn (takeRequest s r) r.sender.toNat = 0)
include hserved hpf0

theorem debugChallenge_answers : ∃ t v, exec (.debugChallenge r) s = .next (answer t r cOk
      ((List.range 6).map (fun i => BitVec.ofNat 32 (bitsAt v (32 * i) 32)))) ∧
    t.mgmt.nonce = some v ∧ v < 2 ^ 256 ∧ t.regs = (takeRequest s r).regs :=
  ⟨_, _, ofPf0_runs (c := .debugChallenge r) (run := _) rfl hserved hpf0, rfl, Nat.mod_lt _ (Nat.two_pow_pos _), rfl⟩

/-- What a token is answered with where its state is not BLANK or OPEN. -/
theorem exec_debugToken {token : List Byte} (hcalm : (takeRequest s r).flag .secAdvPending 0 = false)
    (hlate : lcOpen < lifecycle (takeRequest s r)) : exec (.debugToken r token) s = .next (
      if lifecycle (takeRequest s r) = lcProvisioned ∧ tokenGood (takeRequest s r) token then
        answer (((takeRequest s r).put .secToken 0 1).put .secReach 0
          (leNat ((token.drop 6).take 2) &&& reachLimit (takeRequest s r))) r cOk []
      else answer (takeRequest s r) r cSignature []) := by
  have hexec := ofPf0_runs (c := .debugToken r token) (run := _) rfl hserved hpf0
  dsimp only at hexec
  rwa [hcalm, if_neg (by decide), if_neg (not_le.mpr hlate)] at hexec

theorem debugToken_good {token : List Byte} (hcalm : (takeRequest s r).flag .secAdvPending 0 = false)
    (hstate : lifecycle (takeRequest s r) = lcProvisioned) (hgood : tokenGood (takeRequest s r) token = true) :
    ∃ t, exec (.debugToken r token) s = .next (answer t r cOk []) ∧ t.get .secToken 0 = 1 ∧
      t.get .secReach 0 = (leNat ((token.drop 6).take 2) &&& reachLimit (takeRequest s r)) % 8 ∧
      keepsRegs [.secToken, .secReach] s t := by
  have hexec := exec_debugToken hserved hpf0 (token := token) hcalm (by rw [hstate]; decide)
  rw [if_pos ⟨hstate, hgood⟩] at hexec
  refine ⟨_, hexec, ?_, get_put_same .., fun f i hf => ?_⟩
  · rw [get_put_ne _ (by decide), get_put_same]
    rfl
  · obtain ⟨htoken, hreach⟩ : f ≠ .secToken ∧ f ≠ .secReach := by simpa using hf
    rw [get_put_ne _ hreach, get_put_ne _ htoken]
    rfl

theorem debugToken_bad {token : List Byte} (hcalm : (takeRequest s r).flag .secAdvPending 0 = false)
    (hlate : lcOpen < lifecycle (takeRequest s r))
    (h : lifecycle (takeRequest s r) ≠ lcProvisioned ∨ tokenGood (takeRequest s r) token = false) :
    exec (.debugToken r token) s = .next (answer (takeRequest s r) r cSignature []) := by
  rw [exec_debugToken hserved hpf0 hcalm hlate, if_neg]
  rintro ⟨hstate, hgood⟩
  obtain h | h := h
  · exact h hstate
  · exact absurd (h.symm.trans hgood) (by decide)

theorem debugEnd_ends (hsession : (takeRequest s r).flag .secSession 0 = true) :
    ∃ t, exec (.debugEnd r) s = .next (answer t r cOk []) ∧ t.get .secSession 0 = 0 ∧ t.get .secToken 0 = 0 ∧
      (t.log.head?.map (fun e => e.code)) = some 0x0051 ∧
      (lifecycle (takeRequest s r) = lcProvisioned → t.get .secReach 0 = 0) := by
  have hexec := ofPf0_runs (c := .debugEnd r) (run := _) rfl hserved hpf0
  dsimp only at hexec
  rw [if_pos hsession] at hexec
  refine ⟨_, hexec, ?_, ?_, ?_, fun hstate => ?_⟩
  · rw [get_logEvent _ (by decide), get_put_same]
    rfl
  · rw [get_logEvent _ (by decide), get_put_ne _ (by decide), get_voidToken _ (by decide), get_put_same]
    rfl
  · rw [log_head_logEvent]
  · rw [get_logEvent _ (by decide), get_put_ne _ (by decide), voidToken, if_pos hstate, get_put_same]
    rfl

end

theorem debugSessionOpen_opens (s : State) (h : s.power ≠ .off) :
    ∃ t, exec .debugSessionOpen s = .next t ∧ t.get .secSession 0 = 1 ∧
      (t.log.head?.map (fun e => e.code)) = some 0x0051 ∧
      (lcOpen < lifecycle s → t.get .secReach 0 = s.get .secReach 0) ∧
      (lifecycle s ≤ lcOpen → s.flag .secAdvPending 0 = false → t.get .secReach 0 = reachLimit s) := by
  have hlimit : reachLimit s % 2 ^ 3 = reachLimit s := by
    unfold reachLimit
    split
    · rfl
    · split <;> rfl
  refine ⟨_, if_neg h, ?_, ?_, fun hlate => ?_, fun hearly hcalm => ?_⟩
  · rw [get_logEvent _ (by decide)]
    split
    · rw [get_put_ne _ (by decide), get_put_same]
      rfl
    · exact get_put_same ..
  · rw [log_head_logEvent]
  · rw [get_logEvent _ (by decide), if_neg (by rintro ⟨hle, -⟩; omega), get_put_ne _ (by decide)]
  · rw [get_logEvent _ (by decide), if_pos ⟨hearly, by simp [hcalm]⟩, get_put_same]
    exact hlimit

/-! ### The debugger -/

theorem sequencer_setChase_other (s : State) {q p : SeqId} (core : Option CoreNo) (x : Machine.Seq)
    (hcore : core = q.core) (c : Chase) (hc : ∀ d, c.seq d = ((s.chase q.chase.val).setSeq core x).seq d) (h : p ≠ q) :
    sequencer (s.setChase q.chase.val c) p = sequencer s p := by
  subst hcore
  unfold sequencer
  by_cases hn : p.chase.val = q.chase.val
  · have hcore : p.core ≠ q.core := fun e => h (by cases p; cases q; simp_all [Fin.ext_iff])
    rw [hn, chase_setChase, hc, seq_setSeq_other _ hcore]
  · rw [State.chase, State.setChase_chases, tab_get_set_other _ _ _ hn, ← State.chase]

theorem debugHalt_ignored (s : State) (q : SeqId)
    (h : s.flag .secSession 0 = false ∨ bitAt (s.get .secReach 0) 1 = false) : exec (.debugHalt q) s = .next s := by
  refine if_pos ?_
  obtain h | h := h <;> simp [h]

theorem debugHalt_halts (s : State) (q : SeqId) (hsession : s.flag .secSession 0 = true)
    (hreach : bitAt (s.get .secReach 0) 1 = true) (hrun : (sequencer s q).run = .running) :
    ∃ t, exec (.debugHalt q) s = .next t ∧ (sequencer t q).run = .halted ∧
      (∀ p, p ≠ q → sequencer t p = sequencer s p) ∧
      (q.core.isNone = true → t.get .chState q.chase.val = chHalted ∧
        ∀ e ∈ (t.chase q.chase.val).openItems, e.2.orphan = true) ∧ keepsRegs [.chState] s t := by
  have hexec : exec (.debugHalt q) s = execDebugHalt q s := rfl
  have hgo : (!s.flag .secSession 0 || !bitAt (s.get .secReach 0) 1 || (sequencer s q).run != .running) = false := by
    simp [hsession, hreach, hrun]
  unfold execDebugHalt at hexec
  dsimp only at hexec
  change _ = if (!s.flag .secSession 0 || !bitAt (s.get .secReach 0) 1 || (sequencer s q).run != .running) = true then _
    else _ at hexec
  rw [hgo, if_neg (by decide)] at hexec
  generalize hx : Machine.Seq.mk _ _ _ _ _ _ _ _ _ _ _ _ _ = x at hexec
  have hhalted : x.run = .halted := by rw [← hx]
  cases hline : q.core.isNone with
  | true =>
    rw [if_pos hline] at hexec
    refine ⟨_, hexec, ?_, fun p hp => ?_, fun _ => ⟨get_put_same .., fun e he => ?_⟩, fun f i hf => ?_⟩
    · change (((s.setChase q.chase.val _).chase q.chase.val).seq q.core).run = _
      rw [chase_setChase, seq_orphanAll, seq_setSeq_same, hhalted]
    · exact sequencer_setChase_other s q.core x rfl _ (fun d => seq_orphanAll ..) hp
    · change e ∈ ((s.setChase q.chase.val _).chase q.chase.val).openItems at he
      rw [chase_setChase] at he
      exact orphan_of_mem_orphanAll he
    · rw [get_put_ne _ (by simpa using hf)]
      rfl
  | false =>
    rw [if_neg (by simp [hline])] at hexec
    refine ⟨_, hexec, ?_, fun p hp => ?_, fun h => absurd h (by simp), fun f i hf => rfl⟩
    · rw [sequencer, chase_setChase, seq_setSeq_same, hhalted]
    · exact sequencer_setChase_other s q.core x rfl _ (fun _ => rfl) hp

/-! ### The obligation -/

/-- Settles O57, command by command: the fuses and registers that PF0's commands leave, the reach of a token and of a
session, and the one sequencer that the debugger halts. -/
theorem securityAndDebugComplete : Obligations.SecurityAndDebugComplete := by
  unfold Obligations.SecurityAndDebugComplete
  refine ⟨?_, ?_, ?_, ?_⟩
  · intro s r slot key auth trained lock target uid bit count u n policy state hserved
    refine ⟨security_isolated slot key auth trained lock target uid bit count hserved,
      fun hpf0 => ⟨?_, ?_, ?_, ?_, ?_, ?_, ?_⟩⟩
    · exact fwSvnCommit_counts hserved hpf0
    · exact fun hslot hcalm hempty hauth => keyEnrol_fills hserved hpf0 hslot hcalm hempty hauth
    · exact fun hslot hfilled => keyRevoke_revokes hserved hpf0 hslot hfilled
    · exact fun hopen hauth => policySet_sets hserved hpf0 hopen hauth
    · exact fun hlocked => policySet_locked hserved hpf0 hlocked
    · exact fun hfull huid hnext hopen hlast hcalm hidle hauth =>
        ⟨_, lifecycleAdvance_advances hserved hpf0 hfull huid hnext hopen hlast hcalm hidle hauth,
          advanceTo_leaves u hlast⟩
    · exact fun hbit hin hearly => optProgram_blows hserved hpf0 hbit hin hearly
  · intro s r token u hserved hpf0
    refine ⟨debugChallenge_answers hserved hpf0, fun hcalm hstate => ⟨fun hgood => ?_, fun hbad => ?_⟩,
      fun hcalm hlate => ?_, fun hsession => debugEnd_ends hserved hpf0 hsession⟩
    · exact debugToken_good hserved hpf0 hcalm hstate hgood
    · exact debugToken_bad hserved hpf0 hcalm (by rw [hstate]; decide) (.inr hbad)
    · exact debugToken_bad hserved hpf0 hcalm (lt_trans (by decide) hlate) (.inl hlate.ne')
  · exact fun s h => debugSessionOpen_opens s h
  · intro s q
    exact ⟨fun hsession hreach hrun => debugHalt_halts s q hsession hreach hrun, fun h => debugHalt_ignored s q h⟩

end Sys2Proof.Proofs

/-! Bring-up, lane qualification and the background test (R402, R422 to R424, R428 to R430, R437). -/

namespace Sys2Proof.Proofs

open Sys2Proof.Machine Sys2Proof.Safety Sys2Proof.Laws

/-! ### Masks of lanes -/

theorem bitAt_withBit (m i : Nat) : bitAt (withBit m i) i = true := by
  rw [bitAt_eq_testBit, withBit, Nat.testBit_or, Nat.testBit_two_pow_self, Bool.or_true]

theorem bitAt_withoutBit (m i : Nat) : bitAt (withoutBit m i) i = false := (bitAt_split m i).1

/-! ### The faults of the lanes: what bring-up found, and which lanes are excluded -/

/-- What a port's good lanes are told from. -/
def laneFaults (s : State) : Mgmt × Nat × Nat := (s.mgmt, s.get .buExclRh 0, s.get .fpLanesRh 0)

theorem soundLanes_congr {s t : State} (h : laneFaults t = laneFaults s) (p : Nat) :
    soundLanes t p = soundLanes s p := by
  have hmgmt : t.mgmt = s.mgmt := congrArg Prod.fst h
  have hexcl : t.get .buExclRh 0 = s.get .buExclRh 0 := congrArg (fun x => x.2.1) h
  rw [soundLanes, soundLanes, hmgmt, hexcl]

theorem laneFaults_foldl {α : Type} {g : State → α → State} (hg : ∀ s a, laneFaults (g s a) = laneFaults s)
    (l : List α) (s : State) : laneFaults (l.foldl g s) = laneFaults s := foldl_keeps (φ := laneFaults) hg l s

section
variable (s : State)

theorem laneFaults_setPort (p : Nat) (x : Port) : laneFaults (s.setPort p x) = laneFaults s := rfl

theorem laneFaults_setChase (n : Nat) (c : Chase) : laneFaults (s.setChase n c) = laneFaults s := rfl

theorem laneFaults_emit (x : Tx) : laneFaults (s.emit x) = laneFaults s := rfl

theorem laneFaults_put {f : Fld} (hexcl : .buExclRh ≠ f) (hplan : .fpLanesRh ≠ f) (i v : Nat) :
    laneFaults (s.put f i v) = laneFaults s := by
  rw [laneFaults, get_put_ne _ hexcl, get_put_ne _ hplan]
  rfl

theorem laneFaults_bump {f : Fld} (hexcl : .buExclRh ≠ f) (hplan : .fpLanesRh ≠ f) (i : Nat) :
    laneFaults (s.bump f i) = laneFaults s := laneFaults_put s hexcl hplan ..

theorem laneFaults_logEvent (code source severity : Nat) (details : List Nat) :
    laneFaults (logEvent s code source severity details) = laneFaults s := by
  rw [laneFaults, get_logEvent _ (by decide), get_logEvent _ (by decide), mgmt_of_boardSide (boardSide_logEvent ..)]
  rfl

theorem mgmt_updateClk : (updateClk s).mgmt = s.mgmt := by
  have hleave (t : State) : (leavePort t).mgmt = t.mgmt := by
    unfold leavePort
    split
    · rfl
    · split
      · unfold chooseSource
        dsimp only
        rw [if_neg (by decide), mgmt_of_boardSide (boardSide_logEvent ..)]
        rfl
      · unfold enterHoldover
        rw [mgmt_of_boardSide (boardSide_logEvent ..)]
        rfl
  unfold updateClk
  dsimp only
  split
  · rfl
  · split
    · rfl
    · exact hleave _

theorem laneFaults_updateClk : laneFaults (updateClk s) = laneFaults s := by
  rw [laneFaults, get_updateClk _ (by decide), get_updateClk _ (by decide), mgmt_updateClk]
  rfl

theorem laneFaults_transmit (p : Nat) (pkt : Packet) : laneFaults (transmit s p pkt) = laneFaults s := by
  unfold transmit
  dsimp only
  split <;> rfl

theorem laneFaults_sendCtrl (dest : Nat) (m : CtrlMsg) : laneFaults (sendCtrl s dest m) = laneFaults s := by
  unfold sendCtrl
  split
  · split
    · unfold sendOn
      dsimp only
      split
      · exact laneFaults_transmit ..
      · rfl
    · exact laneFaults_bump s (by decide) (by decide) ..
  · exact laneFaults_bump s (by decide) (by decide) ..

theorem laneFaults_sendToMask (mask : BitVec 16) (m : CtrlMsg) : laneFaults (sendToMask s mask m) = laneFaults s := by
  refine laneFaults_foldl (fun t d => ?_) _ s
  split
  · exact laneFaults_sendCtrl ..
  · rfl

theorem laneFaults_propose (n : Nat) : laneFaults (propose s n) = laneFaults s := by
  unfold propose commitEpoch
  dsimp only
  split
  · rw [laneFaults_setChase, laneFaults_sendToMask, laneFaults_setChase]
  · rw [laneFaults_sendToMask, laneFaults_setChase]

theorem laneFaults_wantPropose (n : Nat) : laneFaults (wantPropose s n) = laneFaults s := by
  unfold wantPropose
  split
  · split
    · rfl
    · exact laneFaults_propose ..
  · rfl

theorem laneFaults_markMissing (n code : Nat) (hit : SortOut → Bool) :
    laneFaults (markMissing s n code hit) = laneFaults s := by
  refine (laneFaults_foldl (fun t _ => ?_) _ _).trans (laneFaults_setChase ..)
  unfold countMissing
  split
  · exact laneFaults_bump t (by decide) (by decide) ..
  · exact laneFaults_bump t (by decide) (by decide) ..

theorem laneFaults_modulesLost (mask : BitVec 16) (hit : SortOut → Bool) (named : Bool) :
    laneFaults (modulesLost s mask hit named) = laneFaults s := by
  refine laneFaults_foldl (fun t n => ?_) _ s
  dsimp only
  generalize hu : (if named = true then _ else _ : State) = u
  have hmarked : laneFaults u = laneFaults t := by
    rw [← hu]
    split
    · exact laneFaults_markMissing ..
    · exact laneFaults_markMissing ..
  split
  · rw [setRole, laneFaults_put _ (by decide) (by decide), laneFaults_wantPropose, hmarked]
  · exact hmarked

theorem laneFaults_linkDown (p : Nat) : laneFaults (linkDown s p) = laneFaults s := by
  unfold linkDown sendUnreach
  dsimp only
  rw [laneFaults_updateClk, laneFaults_sendToMask, laneFaults_modulesLost, laneFaults_logEvent, laneFaults_emit,
    laneFaults_put _ (by decide) (by decide), laneFaults_bump _ (by decide) (by decide), clearLink, laneFaults_setPort]

theorem laneFaults_enterDetect (p : Nat) : laneFaults (enterDetect s p) = laneFaults s := by
  have hput : ∀ t : State, ∀ st, laneFaults (updateClk ((((t.put .rhState p st).put .rhRate p 0).put .rhLanes p 0).put
      .rhNarrowed p 0)) = laneFaults t := fun t st => by
    rw [laneFaults_updateClk, laneFaults_put _ (by decide) (by decide), laneFaults_put _ (by decide) (by decide),
      laneFaults_put _ (by decide) (by decide), laneFaults_put _ (by decide) (by decide)]
  unfold enterDetect
  dsimp only
  split
  · exact hput ..
  · exact hput ..

theorem enterRetrain_retrains {p : Nat} (h : linkActive s p = true) :
    laneFaults (enterRetrain s p) = laneFaults s ∧ (enterRetrain s p).get .rhState p = lnkRetrain := by
  unfold enterRetrain
  rw [if_pos h, laneFaults_updateClk, laneFaults_emit, laneFaults_put _ (by decide) (by decide), laneFaults_setPort,
    get_updateClk _ (by decide)]
  exact ⟨rfl, get_put_same ..⟩

/-! ### An excluded Rhasha lane -/

/-- The state of an excluded lane's port before it goes down or retrains. -/
def excludedRh (l : Nat) : State :=
  logEvent (forceLanes ((s.put .buExclRh 0 (withBit (s.get .buExclRh 0) l)).put .fpLanesRh 0
    (withoutBit (s.get .fpLanesRh 0) l)) (l / 4)) 0x0021 (srcBlock 8) 1 [l, 0, 0, 0]

theorem excludeRhLane_eq (l : Nat) : excludeRhLane s l =
    if soundLanes (excludedRh s l) (l / 4) = 0 then enterDetect (linkDown (excludedRh s l) (l / 4)) (l / 4)
    else enterRetrain (excludedRh s l) (l / 4) := rfl

theorem bitAt_bitsAt {v lo n i : Nat} (h : i < n) : bitAt (bitsAt v lo n) i = bitAt v (lo + i) := by
  rw [bitsAt, bitAt_mod h, bitAt_eq_testBit, bitAt_eq_testBit, Nat.testBit_div_two_pow, Nat.add_comm]

variable {l : Nat} (hl : l < 16)
include hl

theorem excludedRh_excludes : bitAt ((excludedRh s l).get .buExclRh 0) l = true ∧
    bitAt ((excludedRh s l).get .fpLanesRh 0) l = false := by
  unfold excludedRh forceLanes
  refine ⟨?_, ?_⟩
  · rw [get_logEvent _ (by decide), get_put_ne _ (by decide), get_put_ne _ (by decide), get_put_same]
    exact (bitAt_mod hl _).trans (bitAt_withBit ..)
  · rw [get_logEvent _ (by decide), get_put_ne _ (by decide), get_put_same]
    exact (bitAt_mod hl _).trans (bitAt_withoutBit ..)

omit hl in
/-- An excluded lane is not among its port's sound lanes. -/
theorem soundLanes_excluded {t : State} (h : bitAt (t.get .buExclRh 0) l = true) :
    bitAt (soundLanes t (l / 4)) (l % 4) = false := by
  have hlane : 4 * (l / 4) + l % 4 = l := Nat.div_add_mod l 4
  have hbit : bitAt (bitsAt (t.get .buExclRh 0) (4 * (l / 4)) 4) (l % 4) = true := by
    rw [bitAt_bitsAt (Nat.mod_lt _ (by decide)), hlane, h]
  have hlt : bitsAt (t.get .buExclRh 0) (4 * (l / 4)) 4 < 2 ^ 4 := Nat.mod_lt _ (by decide)
  have hsub : 15 - bitsAt (t.get .buExclRh 0) (4 * (l / 4)) 4 =
      2 ^ 4 - (bitsAt (t.get .buExclRh 0) (4 * (l / 4)) 4 + 1) := by omega
  rw [bitAt_eq_testBit] at hbit
  rw [soundLanes, bitAt_eq_testBit, Nat.testBit_and, hsub, Nat.testBit_two_pow_sub_succ hlt, hbit]
  simp

theorem excludeRhLane_leaves (hactive : linkActive s (l / 4) = true) : let t := excludeRhLane s l
    bitAt (t.get .buExclRh 0) l = true ∧ bitAt (t.get .fpLanesRh 0) l = false ∧
      bitAt (soundLanes t (l / 4)) (l % 4) = false ∧
      t.get .rhState (l / 4) = (if soundLanes t (l / 4) = 0 then lnkDisabled else lnkRetrain) := by
  obtain ⟨hexcl, hplan⟩ := excludedRh_excludes s hl
  have hlink : linkActive (excludedRh s l) (l / 4) = true := by
    unfold linkActive excludedRh forceLanes
    rw [get_logEvent _ (by decide), get_put_ne _ (by decide), get_put_ne _ (by decide), get_put_ne _ (by decide)]
    exact hactive
  have hend : ∀ t, laneFaults t = laneFaults (excludedRh s l) →
      t.get .rhState (l / 4) = (if soundLanes (excludedRh s l) (l / 4) = 0 then lnkDisabled else lnkRetrain) →
      bitAt (t.get .buExclRh 0) l = true ∧ bitAt (t.get .fpLanesRh 0) l = false ∧
        bitAt (soundLanes t (l / 4)) (l % 4) = false ∧
        t.get .rhState (l / 4) = (if soundLanes t (l / 4) = 0 then lnkDisabled else lnkRetrain) := by
    intro t hkept hstate
    have hexclt : t.get .buExclRh 0 = (excludedRh s l).get .buExclRh 0 := congrArg (fun x => x.2.1) hkept
    have hplant : t.get .fpLanesRh 0 = (excludedRh s l).get .fpLanesRh 0 := congrArg (fun x => x.2.2) hkept
    refine ⟨hexclt ▸ hexcl, hplant ▸ hplan, soundLanes_excluded (hexclt ▸ hexcl), ?_⟩
    rw [hstate, soundLanes_congr hkept]
  intro t
  by_cases hnone : soundLanes (excludedRh s l) (l / 4) = 0
  · have ht : t = enterDetect (linkDown (excludedRh s l) (l / 4)) (l / 4) := (excludeRhLane_eq s l).trans (if_pos hnone)
    rw [ht]
    refine hend _ ((laneFaults_enterDetect ..).trans (laneFaults_linkDown ..)) ?_
    obtain ⟨hstate, -⟩ := enterDetect_detects (linkDown (excludedRh s l) (l / 4)) (l / 4)
    rw [hstate, soundLanes_congr (laneFaults_linkDown ..), hnone, if_pos rfl, if_neg (by simp)]
  · have ht : t = enterRetrain (excludedRh s l) (l / 4) := (excludeRhLane_eq s l).trans (if_neg hnone)
    obtain ⟨hkept, hstate⟩ := enterRetrain_retrains _ hlink
    rw [ht]
    exact hend _ hkept (by rw [hstate, if_neg hnone])

end

/-! ### Camera lanes -/

theorem excludeLane_leaves {s : State} {l : Nat} (hl : l < 16) : let t := excludeLane s l true
    t.get .cxpLaneState l = lnExcluded ∧ bitAt (t.get .buExclCxp 0) l = true ∧
      bitAt (t.get .fpLanesCxp 0) l = false ∧ (t.log.head?.map (fun e => e.code)) = some 0x0010 := by
  unfold excludeLane
  simp only [if_true]
  generalize hu : ((s.put .cxpLaneState l lnExcluded).put .fpLanesCxp 0 _).put .buExclCxp 0 _ = u
  have hstate : u.get .cxpLaneState l = lnExcluded := by
    rw [← hu, get_put_ne _ (by decide), get_put_ne _ (by decide), get_put_same]
    rfl
  refine ⟨?_, ?_, ?_, ?_⟩
  · rw [laneState_configGroup, if_neg, get_logEvent _ (by decide), hstate]
    intro hmem
    have hin := (List.mem_filter.mp hmem).2
    rw [get_logEvent (f := .cxpLaneState) _ (by decide), hstate, Bool.and_eq_true] at hin
    exact absurd hin.2 (by decide)
  · rw [get_configGroup _ _ _ (by decide), get_stepLanes _ _ _ _ (by decide) (by decide), get_logEvent _ (by decide),
      ← hu, get_put_same]
    exact (bitAt_mod hl _).trans ((bitAt_add_pow (bitAt_split _ l).1 l).trans (if_pos rfl))
  · rw [get_configGroup _ _ _ (by decide), get_stepLanes _ _ _ _ (by decide) (by decide), get_logEvent _ (by decide),
      ← hu, get_put_ne _ (by decide), get_put_same]
    exact (bitAt_mod hl _).trans (bitAt_split _ l).1
  · rw [log_configGroup, log_head_logEvent]

section
variable (s : State) (lane : Fin 16)

theorem laneQualified_rhasha (h : rhQualifying s lane.val = true) : ∃ t, exec (.laneQualified true lane) s = .next t ∧
    rhQualifying t lane.val = false ∧ bitAt (t.get .buQualRh 0) lane.val = true := by
  refine ⟨_, if_pos h, ?_, ?_⟩
  · have hqual : rhLaneQualified ((recordQualified s (16 + lane.val) (s.get .rhRate (lane.val / 4))).put .buQualRh 0
        (withBit (s.get .buQualRh 0) lane.val)) lane.val = true := by
      unfold rhLaneQualified
      rw [get_put_ne _ (by decide), State.put_mgmt, recordQualified]
      dsimp only
      rw [tab_get_set_same]
      exact decide_eq_true (le_refl _)
    rw [rhQualifying, hqual, Bool.not_true, Bool.and_false]
  · rw [get_put_same]
    exact (bitAt_mod lane.isLt _).trans (bitAt_withBit ..)

theorem laneQualified_camera (h : s.get .cxpLaneState lane.val = lnDiscovery) :
    ∃ t, exec (.laneQualified false lane) s = .next t ∧
      laneQualifiedAt t lane.val (s.get .cxpLaneRate lane.val) = true ∧
      bitAt (t.get .buQualCxp 0) lane.val = true ∧
      t.get .cxpLaneState lane.val = (if serving s then lnUp else lnDiscovery) := by
  have hexec : exec (.laneQualified false lane) s = _ := if_pos h
  generalize hu : (recordQualified s lane.val _).put .buQualCxp 0 _ = u at hexec
  have hqual : laneQualifiedAt u lane.val (s.get .cxpLaneRate lane.val) = true := by
    unfold laneQualifiedAt
    rw [← hu, State.put_mgmt, recordQualified]
    dsimp only
    rw [tab_get_set_same]
    exact decide_eq_true (le_refl _)
  have hbit : bitAt (u.get .buQualCxp 0) lane.val = true := by
    rw [← hu, get_put_same]
    exact (bitAt_mod lane.isLt _).trans (bitAt_withBit ..)
  have hstate : u.get .cxpLaneState lane.val = lnDiscovery := by
    rw [← hu, get_put_ne _ (by decide)]
    exact h
  refine ⟨_, hexec, ?_⟩
  split
  · refine ⟨hqual, ?_, get_put_same ..⟩
    rw [get_put_ne _ (by decide)]
    exact hbit
  · exact ⟨hqual, hbit, hstate⟩

theorem laneQualificationError_rhasha (h : rhQualifying s lane.val = true) :
    ∃ t, exec (.laneQualificationError true lane) s = .next t ∧
      bitAt (t.get .buExclRh 0) lane.val = true ∧ bitAt (t.get .fpLanesRh 0) lane.val = false ∧
      bitAt (soundLanes t (lane.val / 4)) (lane.val % 4) = false ∧
      t.get .rhState (lane.val / 4) = (if soundLanes t (lane.val / 4) = 0 then lnkDisabled else lnkRetrain) := by
  have hactive : linkActive s (lane.val / 4) = true := by
    unfold rhQualifying at h
    simp only [Bool.and_eq_true] at h
    exact h.1.1
  exact ⟨_, if_pos h, excludeRhLane_leaves s lane.isLt hactive⟩

/-! ### The background test -/

theorem lpddrBgBurst_counts (addr : Nat) (passed : Bool) (hrun : s.flag .buLpddrBg 0 = true)
    (hin : addr < lpddrBytes s) :
    ∃ t, exec (.lpddrBgBurst addr passed) s = .next t ∧
      t.get .buLpddrFail 0 = (if passed then s.get .buLpddrFail 0 else min (s.get .buLpddrFail 0 + 1) 0xFFFFFFFF) ∧
      (lpddrBytes s ≤ addr + 64 → t.get .buBgDone 0 = 1 ∧ t.get .buLpddrBg 0 = 0) ∧
      (addr + 64 < lpddrBytes s →
        t.get .buBgProgress 0 = addr * 256 / lpddrBytes s ∧ t.get .buLpddrBg 0 = s.get .buLpddrBg 0) := by
  have hexec : exec (.lpddrBgBurst addr passed) s = execLpddrBgBurst addr passed s := rfl
  unfold execLpddrBgBurst at hexec
  generalize lpddrBytes s = size at hexec hin ⊢
  dsimp only at hexec
  rw [hrun, decide_eq_false (not_le.mpr hin), if_neg (by decide)] at hexec
  have hprogress : addr * 256 / size % 2 ^ 8 = addr * 256 / size :=
    Nat.mod_eq_of_lt (Nat.div_lt_of_lt_mul (by omega))
  generalize hu : (if passed = true then s else _ : State) = u at hexec
  have hfail : u.get .buLpddrFail 0 =
      (if passed then s.get .buLpddrFail 0 else min (s.get .buLpddrFail 0 + 1) 0xFFFFFFFF) := by
    rw [← hu]
    split
    · rfl
    · rw [get_logEvent _ (by decide), get_bump_count _ rfl]
  have hflag : u.get .buLpddrBg 0 = s.get .buLpddrBg 0 := by
    rw [← hu]
    split
    · rfl
    · rw [get_logEvent _ (by decide)]
      exact get_bump_ne _ (by decide) ..
  by_cases hlast : size ≤ addr + 64
  · rw [if_pos hlast] at hexec
    refine ⟨_, hexec, ?_, fun _ => ⟨?_, get_put_same ..⟩, fun h => absurd h (by omega)⟩
    · rw [get_put_ne _ (by decide), get_put_ne _ (by decide), get_put_ne _ (by decide), hfail]
    · rw [get_put_ne _ (by decide), get_put_same]
      rfl
  · rw [if_neg hlast] at hexec
    refine ⟨_, hexec, ?_, fun h => absurd h hlast, fun _ => ⟨?_, ?_⟩⟩
    · rw [get_put_ne _ (by decide), hfail]
    · rw [get_put_same]
      exact hprogress
    · rw [get_put_ne _ (by decide), hflag]

/-! ### The steps -/

/-- Bring-up is going on. -/
def bringsUp : Prop := s.power = .full ∧ s.mgmt.hold = .none ∧ s.get .modService 0 = svcBringup

/-- What the findings of a step leave before it passes or fails. -/
def findingsKept (f : StepFindings) : State :=
  { s with mgmt := { s.mgmt with
      findings := some (mergeFindings (s.mgmt.findings.getD noFindings) f), repairs := s.mgmt.repairs ++ f.rows } }.put
    .buElapsed 0 (s.get .buElapsed 0 + f.elapsedMs)

theorem get_findingsKept (f : StepFindings) {fld : Fld} (h : fld ≠ .buElapsed) (i : Nat) :
    (findingsKept s f).get fld i = s.get fld i := get_put_ne _ h ..

theorem exec_bringupStepDone (f : StepFindings) (h : bringsUp s) (hstep : 1 ≤ s.get .buStep 0)
    (hlast : s.get .buStep 0 ≤ 9) :
    exec (.bringupStepDone f) s = .next (
      if s.get .buStep 0 = 2 ∧ f.failure.val ≠ 0 then statusChanged s (enterFailed { findingsKept s f with
        mgmt := { (findingsKept s f).mgmt with bootFailed := f.failure.val == 1 } } f.failure.val)
      else if s.get .buStep 0 = 2 ∧ rootLocked s = false then findingsKept s f
      else passStep (findingsKept s f) (s.get .buStep 0) (mergeFindings (s.mgmt.findings.getD noFindings) f)) := by
  obtain ⟨hfull, hhold, hservice⟩ := h
  have hexec : exec (.bringupStepDone f) s = execBringupStepDone f s := rfl
  unfold execBringupStepDone at hexec
  dsimp only at hexec
  rw [if_neg (by rw [hfull, hhold, hservice]; simp; omega)] at hexec
  rw [hexec]
  split
  · rfl
  · split <;> rfl

theorem regs_statusChanged (before : State) : (statusChanged before s).regs = s.regs := by
  unfold statusChanged
  split <;> rfl

theorem regs_setAlerts (v : BitVec 4) : (setAlerts s v).regs = s.regs := by
  obtain ⟨-, hregs, -⟩ := mgmt_setAlerts s v
  exact hregs

/-- A module that enters FAILED tells why and sets alert cause 2. -/
theorem enterFailed_leaves (reason : Nat) : (enterFailed s reason).get .modService 0 = svcFailed ∧
    (enterFailed s reason).get .buFailReason 0 = reason % 2 ^ 8 ∧
    (enterFailed s reason).mgmt.alerts.getLsbD 2 = true := by
  unfold enterFailed
  dsimp only
  generalize barrierStop _ = u
  refine ⟨?_, ?_, raiseAlert_raises _ (by decide)⟩
  · rw [raiseAlert, get_of_regs (regs_setAlerts ..), get_put_ne _ (by decide), get_put_same]
    rfl
  · rw [raiseAlert, get_of_regs (regs_setAlerts ..), get_put_same]
    rfl

variable (f : StepFindings)

/-- A step that passes and is followed by the next one. -/
theorem bringupStepDone_goesOn (h : bringsUp s) (hstep : s.get .buStep 0 = 1 ∨ s.get .buStep 0 = 3 ∨
      s.get .buStep 0 = 4 ∨ s.get .buStep 0 = 6 ∨ (s.get .buStep 0 = 2 ∧ rootLocked s = true ∧ f.failure.val = 0)) :
    ∃ t, exec (.bringupStepDone f) s = .next t ∧ t.get .buStep 0 = s.get .buStep 0 + 1 ∧
      t.get .modService 0 = svcBringup := by
  have hexec := exec_bringupStepDone s f h (by omega) (by omega)
  have hpass : passStep (findingsKept s f) (s.get .buStep 0) (mergeFindings (s.mgmt.findings.getD noFindings) f) =
      (findingsKept s f).put .buStep 0 (s.get .buStep 0 + 1) := by
    obtain hn | hn | hn | hn | ⟨hn, -⟩ := hstep <;> rw [hn] <;> rfl
  have hgood : ¬(s.get .buStep 0 = 2 ∧ f.failure.val ≠ 0) := by omega
  have hlocked : ¬(s.get .buStep 0 = 2 ∧ rootLocked s = false) := by
    rintro ⟨htwo, hno⟩
    obtain hn | hn | hn | hn | ⟨-, hroot, -⟩ := hstep
    · omega
    · omega
    · omega
    · omega
    · exact absurd (hno.symm.trans hroot) (by decide)
  rw [if_neg hgood, if_neg hlocked, hpass] at hexec
  refine ⟨_, hexec, (get_put_same ..).trans (Nat.mod_eq_of_lt (lt_of_lt_of_le ?_ (by decide : 16 ≤ _))), ?_⟩
  · omega
  · rw [get_put_ne _ (by decide), get_findingsKept _ _ (by decide)]
    exact h.2.2

theorem bringupStepDone_waits (h : bringsUp s) (hstep : s.get .buStep 0 = 2) (hgood : f.failure.val = 0)
    (hroot : rootLocked s = false) : ∃ t, exec (.bringupStepDone f) s = .next t ∧ t.get .buStep 0 = 2 ∧
      keepsRegs [.buElapsed] s t := by
  have hexec := exec_bringupStepDone s f h (by omega) (by omega)
  rw [if_neg (by omega), if_pos ⟨hstep, hroot⟩] at hexec
  exact ⟨_, hexec, (get_findingsKept _ _ (by decide) 0).trans hstep,
    fun fld i hf => get_findingsKept _ _ (by simpa using hf) i⟩

theorem bringupStepDone_fails (h : bringsUp s) (hstep : s.get .buStep 0 = 2) (hbad : f.failure.val ≠ 0) :
    ∃ t, exec (.bringupStepDone f) s = .next t ∧ t.get .modService 0 = svcFailed ∧
      t.get .buFailReason 0 = f.failure.val ∧ t.mgmt.alerts.getLsbD 2 = true := by
  have hexec := exec_bringupStepDone s f h (by omega) (by omega)
  rw [if_pos ⟨hstep, hbad⟩] at hexec
  generalize (State.mk .. : State) = u at hexec
  obtain ⟨hservice, hreason, halert⟩ := enterFailed_leaves u f.failure.val
  refine ⟨_, hexec, (get_of_regs (regs_statusChanged ..) ..).trans hservice,
    (get_of_regs (regs_statusChanged ..) ..).trans (hreason.trans (Nat.mod_eq_of_lt ?_)), ?_⟩
  · exact lt_trans f.failure.isLt (by decide)
  · rw [mgmt_of_boardSide (boardSide_statusChanged ..)]
    exact halert

theorem bringupStepDone_seven (h : bringsUp s) (hstep : s.get .buStep 0 = 7) :
    ∃ t, exec (.bringupStepDone f) s = .next t ∧
      t.get .buStep 0 = (if s.flag .buWarmPath 0 = true ∧ s.mgmt.testsDone = true then 9 else 8) := by
  have hexec := exec_bringupStepDone s f h (by omega) (by omega)
  rw [if_neg (by omega), if_neg (by omega), hstep] at hexec
  have hruns : runsStep8 (findingsKept s f) = !(s.flag .buWarmPath 0 && s.mgmt.testsDone) := by
    rw [runsStep8, State.flag, get_findingsKept _ _ (by decide)]
    rfl
  refine ⟨_, hexec, ?_⟩
  rw [passStep, get_put_same, hruns]
  cases s.flag .buWarmPath 0 <;> cases s.mgmt.testsDone <;> rfl

/-! ### The end of bring-up -/

theorem get_admitLanes {fld : Fld} (h : fld ≠ .cxpLaneState) (i : Nat) : (admitLanes s).get fld i = s.get fld i := by
  refine foldl_keeps (φ := fun t => t.get fld i) (fun t l => ?_) (List.range 16) s
  split
  · exact get_put_ne _ h ..
  · rfl

theorem fullSet_cores (h : fullSet s = true) : ∀ c, c < 32 → s.get .fpcPresent c ≠ 0 ∧ s.get .fpcEngines c = 4 := by
  unfold fullSet at h
  simp only [Bool.and_eq_true, List.all_eq_true, List.mem_range, beq_iff_eq, State.flag, bne_iff_ne] at h
  exact fun c hc => h.1.1 c hc

/-- The service state that the floor plan gives, and the set that READY asks for. -/
theorem setService_leaves : (setService s).get .modService 0 ≠ svcBringup ∧
    ((setService s).get .modService 0 = svcReady →
      ∀ c, c < 32 → (setService s).get .fpcPresent c ≠ 0 ∧ (setService s).get .fpcEngines c = 4) := by
  unfold setService
  simp only [get_of_regs (regs_statusChanged ..)]
  split
  · next hfull =>
    simp only [Bool.and_eq_true] at hfull
    refine ⟨?_, fun _ c hc => ?_⟩
    · rw [get_put_same]
      decide
    · rw [get_put_ne _ (by decide), get_put_ne _ (by decide)]
      exact fullSet_cores s hfull.1 c hc
  · split
    · rw [get_put_same]
      exact ⟨by decide, fun h => absurd h (by decide)⟩
    · rw [(enterFailed_leaves s 4).1]
      exact ⟨by decide, fun h => absurd h (by decide)⟩

theorem finishBringup_leaves : (finishBringup s).get .modService 0 ≠ svcBringup ∧
    ((finishBringup s).get .modService 0 = svcReady →
      ∀ c, c < 32 → (finishBringup s).get .fpcPresent c ≠ 0 ∧ (finishBringup s).get .fpcEngines c = 4) := by
  have hset := setService_leaves (s.put .buStep 0 0xA)
  unfold finishBringup
  dsimp only
  generalize setService (s.put .buStep 0 0xA) = u at hset
  have hquick : ∀ fld, fld ∉ [Fld.buLpddrBg, .buBgProgress] → ∀ i,
      (if bitsAt (s.get .optShadow 0) 0 1 = 1 then (u.put .buLpddrBg 0 1).put .buBgProgress 0 0 else u).get fld i =
        u.get fld i := by
    intro fld hf i
    simp only [List.mem_cons, List.not_mem_nil, or_false, not_or] at hf
    split
    · rw [get_put_ne _ hf.2, get_put_ne _ hf.1]
    · rfl
  split
  · simp only [get_admitLanes _ (by decide : Fld.modService ≠ .cxpLaneState),
      get_admitLanes _ (by decide : Fld.fpcPresent ≠ .cxpLaneState),
      get_admitLanes _ (by decide : Fld.fpcEngines ≠ .cxpLaneState), hquick .modService (by decide),
      hquick .fpcPresent (by decide), hquick .fpcEngines (by decide)]
    exact hset
  · exact hset

theorem bringupStepDone_nine (h : bringsUp s) (hstep : s.get .buStep 0 = 9) :
    ∃ t, exec (.bringupStepDone f) s = .next t ∧ t.get .modService 0 ≠ svcBringup ∧
      (t.get .modService 0 = svcReady → ∀ c, c < 32 → t.get .fpcPresent c ≠ 0 ∧ t.get .fpcEngines c = 4) := by
  have hexec := exec_bringupStepDone s f h (by omega) (by omega)
  rw [if_neg (by omega), if_neg (by omega), hstep, passStep] at hexec
  generalize writeFloorplan _ _ = u at hexec
  exact ⟨_, hexec, finishBringup_leaves u⟩

end

/-! ### The obligation -/

/-- Settles O60, step by step, lane by lane and burst by burst. -/
theorem bringUpGoesOnStepByStep : Obligations.BringUpGoesOnStepByStep := by
  intro s f lane addr passed step runs l size
  refine ⟨?_, ?_, ?_, ?_, ?_, ?_, ?_, ?_, ?_, ?_⟩
  · exact fun h hstep => bringupStepDone_goesOn s f h hstep
  · exact fun h hstep hgood hroot => bringupStepDone_waits s f h hstep hgood hroot
  · exact fun h hstep hbad => bringupStepDone_fails s f h hstep hbad
  · exact fun h hstep => bringupStepDone_seven s f h hstep
  · exact fun h hstep => bringupStepDone_nine s f h hstep
  · exact fun h => laneQualified_rhasha s lane h
  · exact fun h => laneQualified_camera s lane h
  · exact fun h => laneQualificationError_rhasha s lane h
  · exact fun h => ⟨_, if_pos h, excludeLane_leaves lane.isLt⟩
  · exact fun hrun hin => lpddrBgBurst_counts s addr passed hrun hin

end Sys2Proof.Proofs

/-! Lines that arrive from the cameras (R223, R224) and what a galley takes of them (R231, R232). -/

namespace Sys2Proof.Proofs

open Sys2Proof.Machine Sys2Proof.Safety Sys2Proof.Laws

/-! ### Stream packets -/

section
variable (s : State) (l : CxpLane) (k : Ctx) (crcOk framed : Bool) (errors : Nat)

/-- The error counters after a packet. -/
def packetCounted : State :=
  (if crcOk then s else s.bump .cxpCrcErr l.val).bumpBy .cxpCodeErr l.val errors

theorem ctxs_packetCounted : (packetCounted s l crcOk errors).ctxs = s.ctxs := by
  unfold packetCounted
  split <;> rfl

theorem packetCounted_counts : (packetCounted s l crcOk errors).get .cxpCodeErr l.val =
      min (s.get .cxpCodeErr l.val + errors) 0xFFFFFFFF ∧
    (packetCounted s l crcOk errors).get .cxpCrcErr l.val =
      (if crcOk then s.get .cxpCrcErr l.val else min (s.get .cxpCrcErr l.val + 1) 0xFFFFFFFF) ∧
    keepsRegs [.cxpCodeErr, .cxpCrcErr] s (packetCounted s l crcOk errors) := by
  have hcount (n : Nat) : min n 0xFFFFFFFF % 2 ^ 32 = min n 0xFFFFFFFF := Nat.mod_eq_of_lt (by omega)
  unfold packetCounted
  refine ⟨?_, ?_, fun f i hf => ?_⟩
  · rw [State.bumpBy, get_put_same]
    refine (hcount _).trans ?_
    split
    · rfl
    · rw [get_bump_ne _ (by decide)]
  · rw [State.bumpBy, get_put_ne _ (by decide)]
    split
    · rfl
    · rw [get_bump_count _ rfl]
  · obtain ⟨hcode, hcrc⟩ : f ≠ .cxpCodeErr ∧ f ≠ .cxpCrcErr := by simpa using hf
    rw [State.bumpBy, get_put_ne _ hcode]
    split
    · rfl
    · rw [get_bump_ne _ hcrc]

theorem exec_streamPacket : exec (.streamPacket l k crcOk errors framed) s = .next
    (if ((crcOk && framed) || !(deviceLanes s k.val).contains l.val) = true then packetCounted s l crcOk errors
    else (packetCounted s l crcOk errors).setCtx k.val { (packetCounted s l crcOk errors).context k.val with
      rx := ((packetCounted s l crcOk errors).context k.val).rx.map (fun r =>
        { r with damaged := true, crc := min (r.crc + b2n (!crcOk)) 0xFFFF }) }) := by
  change execStreamPacket l k crcOk errors framed s = _
  unfold execStreamPacket packetCounted
  dsimp only
  split <;> rfl

theorem streamPacket_counts : ∃ t, exec (.streamPacket l k crcOk errors framed) s = .next t ∧
    t.get .cxpCodeErr l.val = min (s.get .cxpCodeErr l.val + errors) 0xFFFFFFFF ∧
    t.get .cxpCrcErr l.val =
      (if crcOk then s.get .cxpCrcErr l.val else min (s.get .cxpCrcErr l.val + 1) 0xFFFFFFFF) ∧
    keepsRegs [.cxpCodeErr, .cxpCrcErr] s t ∧ ((crcOk = true ∧ framed = true) → t.ctxs = s.ctxs) ∧
    ((deviceLanes s k.val).contains l.val = true → (crcOk = false ∨ framed = false) →
      ∀ (i : Nat) (r : LineRx), (s.context k.val).rx[i]? = some r →
        ∃ r' : LineRx, (t.context k.val).rx[i]? = some r' ∧ r'.damaged = true ∧ r'.trig = r.trig) := by
  have hexec := exec_streamPacket s l k crcOk framed errors
  obtain ⟨hcode, hcrc, hkept⟩ := packetCounted_counts s l crcOk errors
  have hctxs := ctxs_packetCounted s l crcOk errors
  generalize packetCounted s l crcOk errors = u at hexec hcode hcrc hkept hctxs
  refine ⟨_, hexec, ?_⟩
  split
  · next hbeside =>
    refine ⟨hcode, hcrc, hkept, fun _ => hctxs, fun hin hbad => absurd hbeside ?_⟩
    rw [hin]
    obtain h | h := hbad <;> simp [h]
  · next hhit =>
    refine ⟨hcode, hcrc, hkept, fun hgood => absurd (by simp [hgood]) hhit, fun _ _ i r hr => ?_⟩
    have hrx : (u.context k.val).rx[i]? = some r := by
      rw [State.context, hctxs]
      exact hr
    rw [context_setCtx]
    dsimp only
    rw [List.getElem?_map, hrx]
    exact ⟨_, rfl, rfl, rfl⟩

end

/-! ### What a closed line leaves of those that arrive -/

/-- The lines of context `k` that arrive, and the count of its damaged lines. -/
def arriving (s : State) (k : Nat) : List LineRx × Nat := ((s.context k).rx, s.get .linesDamaged k)

section
variable (s : State) (k : Nat)

theorem arriving_setCtx (x : Context) (h : x.rx = (s.context k).rx) : arriving (s.setCtx k x) k = arriving s k := by
  rw [arriving, arriving, context_setCtx, get_setCtx, h]

theorem arriving_put {f : Fld} (hf : .linesDamaged ≠ f) (i v : Nat) : arriving (s.put f i v) k = arriving s k := by
  rw [arriving, get_put_ne _ hf]
  rfl

theorem arriving_bump {f : Fld} (hf : .linesDamaged ≠ f) (i : Nat) : arriving (s.bump f i) k = arriving s k :=
  arriving_put s k hf i _

theorem arriving_answer (r : Req) (code : Nat) (details : List Word) :
    arriving (answer s r code details) k = arriving s k := by
  rw [arriving, State.context, ctxs_answer, side_answer _ (by decide)]
  rfl

theorem arriving_free (n : Nat) : arriving { s with free := n } k = arriving s k := rfl

theorem arriving_cropDrop : arriving (cropDrop s k) k = arriving s k := by
  refine Eq.trans (arriving_setCtx (s.bump .ringSpoils (cropRing k)) k _ ?_) (arriving_bump s k (by decide) _)
  rfl

theorem arriving_addCropRecord (ty : Nat) (payload : List Byte) : arriving (addCropRecord s k ty payload) k =
    arriving s k := by
  unfold addCropRecord
  grind [arriving_cropDrop, arriving_setCtx]

theorem arriving_pushSlot (g : Slug) : arriving (pushSlot s k g) k = arriving s k := by
  unfold pushSlot
  dsimp only
  rw [arriving_put _ _ (by decide)]
  exact arriving_setCtx s k _ rfl

theorem arriving_placeMarker (g : Gap) : arriving (placeMarker s k g) k = arriving s k := by
  have hbump : arriving ((pushSlot s k (marker s k g)).bump .galMarkers k) k = arriving s k :=
    (arriving_bump _ k (by decide) _).trans (arriving_pushSlot ..)
  exact Eq.trans (arriving_setCtx _ k _ rfl) hbump

theorem arriving_placeClosed (n : Nat) : arriving (placeClosed n s k) k = arriving s k := by
  induction n generalizing s with
  | zero => rfl
  | succ n ih =>
    rw [placeClosed]
    split
    · rfl
    · split
      · rfl
      · rw [ih, arriving_placeMarker]
        exact arriving_setCtx s k _ rfl

theorem arriving_gapLine (t : Trig) (reason : Nat) : arriving (gapLine s k t reason) k = arriving s k := by
  refine (arriving_placeClosed ..).trans (arriving_setCtx s k _ ?_)
  unfold joinGap Context.forgetLine
  split
  · rfl
  · dsimp only
    split <;> rfl

theorem arriving_loseLine (t : Trig) (reason : Nat) : arriving (loseLine s k t reason) k = arriving s k := by
  unfold loseLine
  grind [arriving_gapLine, arriving_bump]

theorem arriving_commitSlug (t : Trig) (g : Slug) : arriving (commitSlug s k t g) k = arriving s k := by
  unfold commitSlug placeWaiting
  grind [arriving_placeClosed, arriving_placeMarker, arriving_setCtx, arriving_pushSlot, arriving_loseLine]

theorem arriving_closeStats : arriving (closeStats s k) k = arriving s k := by
  unfold closeStats
  dsimp only
  split
  · rfl
  · rw [arriving_addCropRecord]
    split
    · exact arriving_setCtx s k _ rfl
    · exact arriving_setCtx s k _ rfl

theorem arriving_openStats (line : Nat) : arriving (openStats s k line).1 k = arriving s k := by
  unfold openStats
  dsimp only
  split
  · split
    · exact arriving_closeStats ..
    · rfl
  · rfl

theorem arriving_keepStats (line : Nat) (b : Stats) : arriving (keepStats s k line b) k = arriving s k := by
  unfold keepStats
  dsimp only
  split
  · rw [arriving_closeStats]
    exact arriving_setCtx s k _ rfl
  · exact arriving_setCtx s k _ rfl

theorem arriving_statsLost (line : Nat) : arriving (statsLost s k line) k = arriving s k := by
  unfold statsLost
  split
  · rw [arriving_keepStats, arriving_openStats]
  · rfl

theorem arriving_statsLine (line : Nat) (px : List (List Nat)) (black : List Nat) :
    arriving (statsLine s k line px black) k = arriving s k := by
  unfold statsLine
  split
  · rw [arriving_keepStats, arriving_openStats]
  · rfl

theorem arriving_switchBank (line t : Nat) : arriving (switchBank s k line t) k = arriving s k := by
  unfold switchBank
  grind [arriving_setCtx, arriving_put, arriving_answer]

theorem arriving_serveLine (line : Nat) (samples : List Nat) :
    arriving (serveLine s k line samples).1 k = arriving s k := by
  have hbanks : arriving (switchBanks s k line) k = arriving s k := by
    rw [switchBanks, List.foldl_cons, List.foldl_cons, List.foldl_cons, List.foldl_cons, List.foldl_nil,
      arriving_switchBank, arriving_switchBank, arriving_switchBank, arriving_switchBank]
  have hstage (t : State) : arriving (stagePixels t k samples) k = arriving t k := by
    unfold stagePixels
    grind [arriving_setCtx]
  have hpipe (t : State) : arriving (pipeLine t k line samples).1 k = arriving t k := by
    unfold pipeLine
    dsimp only
    split
    · rw [arriving_bump _ _ (by decide)]
      exact arriving_setCtx { t with free := t.free + 4 * samples.length } k _ rfl
    · exact arriving_setCtx { t with free := t.free + 4 * samples.length } k _ rfl
  unfold serveLine
  dsimp only
  split
  · rw [hpipe, hstage, hbanks]
  · rw [hbanks]

theorem arriving_joinLost (t : Trig) : arriving (joinLost s k t) k = arriving s k :=
  (arriving_statsLost ..).trans (arriving_gapLine ..)

theorem arriving_closeLine (t : Trig) (samples : List Nat) (flags crc : Nat) :
    arriving (closeLine s k t samples flags crc) k = arriving s k := by
  unfold closeLine
  dsimp only
  split
  · rw [arriving_joinLost, arriving_bump _ _ (by decide), arriving_bump _ _ (by decide)]
  · split
    · rw [arriving_statsLine, arriving_commitSlug, arriving_serveLine]
    · rw [arriving_statsLost, arriving_commitSlug, arriving_serveLine]

/-- Lost triggers that join the gap take only lost lines from those that arrive. -/
theorem settleOrder_arriving (n : Nat) : ((s.context k).rx = [] → ((settleOrder n s k).context k).rx = []) ∧
    (settleOrder n s k).get .linesDamaged k = s.get .linesDamaged k := by
  induction n generalizing s with
  | zero => exact ⟨id, rfl⟩
  | succ n ih =>
    have hstep (x : Context) (t : Trig) (hx : (s.context k).rx = [] → x.rx = []) :
        ((s.context k).rx = [] → ((settleOrder n (joinLost (s.setCtx k x) k t) k).context k).rx = []) ∧
          (settleOrder n (joinLost (s.setCtx k x) k t) k).get .linesDamaged k = s.get .linesDamaged k := by
      obtain ⟨hrx, hcount⟩ := ih (joinLost (s.setCtx k x) k t)
      obtain ⟨hsame, hregs⟩ := Prod.ext_iff.mp (arriving_joinLost (s.setCtx k x) k t)
      refine ⟨fun h => hrx (hsame.trans ?_), hcount.trans (hregs.trans (get_setCtx ..))⟩
      exact (congrArg Context.rx (context_setCtx ..)).trans (hx h)
    rw [settleOrder]
    split
    · next r rs hrx =>
      split
      · exact ⟨id, rfl⟩
      · exact hstep _ _ (fun h => absurd (hrx.symm.trans h) (by simp))
    · split
      · exact ⟨id, rfl⟩
      · exact hstep _ _ id
    · exact ⟨id, rfl⟩

theorem completeLine_counts (r : LineRx) (samples : List Nat) :
    ((s.context k).rx.tail = [] → ((completeLine s k r samples).context k).rx = []) ∧
      (completeLine s k r samples).get .linesDamaged k =
        if r.damaged = true ∨ samples.length ≠ (s.get .cxpWidthM1 k + 1) * cameraComps s k then
          min (s.get .linesDamaged k + 1) 0xFFFFFFFF
        else s.get .linesDamaged k := by
  unfold completeLine resolveLines
  dsimp only
  generalize hs2 : (if (r.damaged || _) = true then _ else _ : State) = s2
  generalize hs3 : (if (r.trig.age != 0) = true then s2.bump .linesLate k else s2) = s3
  have hcounted : (s2.context k).rx = (s.context k).rx.tail ∧ s2.get .linesDamaged k =
      if r.damaged = true ∨ samples.length ≠ (s.get .cxpWidthM1 k + 1) * cameraComps s k then
        min (s.get .linesDamaged k + 1) 0xFFFFFFFF
      else s.get .linesDamaged k := by
    rw [← hs2]
    by_cases hbad : r.damaged = true ∨ samples.length ≠ (s.get .cxpWidthM1 k + 1) * cameraComps s k
    · rw [if_pos (by simpa using hbad), if_pos hbad, get_bump_count _ rfl]
      exact ⟨congrArg Context.rx (context_setCtx ..), rfl⟩
    · rw [if_neg (by simpa using hbad), if_neg hbad]
      exact ⟨congrArg Context.rx (context_setCtx ..), rfl⟩
  have hlate : arriving s3 k = arriving s2 k := by
    rw [← hs3]
    split
    · exact arriving_bump _ k (by decide) _
    · rfl
  generalize hs4 : closeLine s3 k _ _ _ _ = s4
  obtain ⟨hrx, hregs⟩ :=
    Prod.ext_iff.mp (((congrArg (arriving · k) hs4).symm.trans (arriving_closeLine ..)).trans hlate)
  obtain ⟨hempty, hcount⟩ := settleOrder_arriving s4 k ((s4.context k).rx.length + (s4.context k).outstanding.length)
  exact ⟨fun h => hempty (hrx.trans (hcounted.1.trans h)), hcount.trans (hregs.trans hcounted.2)⟩

theorem lineComplete_counts (k : Ctx) (samples : List Nat) {r : LineRx} {rs : List LineRx}
    (hrx : (s.context k.val).rx = r :: rs) : ∃ t, exec (.lineComplete k samples) s = .next t ∧
      (rs = [] → (t.context k.val).rx = []) ∧ t.get .linesDamaged k.val =
        (if r.damaged = true ∨ samples.length ≠ (s.get .cxpWidthM1 k.val + 1) * cameraComps s k.val then
          min (s.get .linesDamaged k.val + 1) 0xFFFFFFFF else s.get .linesDamaged k.val) := by
  have hexec : exec (.lineComplete k samples) s = execLineComplete k samples s := rfl
  unfold execLineComplete at hexec
  rw [hrx] at hexec
  obtain ⟨hempty, hcount⟩ := completeLine_counts s k.val r samples
  exact ⟨_, hexec, fun h => hempty (by rw [hrx, List.tail_cons, h]), hcount⟩

theorem lineComplete_none (k : Ctx) (samples : List Nat) (hrx : (s.context k.val).rx = []) :
    exec (.lineComplete k samples) s = .next s := by
  change execLineComplete k samples s = _
  unfold execLineComplete
  rw [hrx]

/-! ### What a galley takes -/

/-- The galley holds no more than its depth. -/
def slotsFit (s : State) (k : Nat) : Prop := (s.context k).slots.length ≤ s.get .galDepth k

variable {s k} in
theorem slotsFit_of {t : State} {m : Nat} (hslots : (t.context k).slots.length = (s.context k).slots.length + m)
    (hdepth : t.get .galDepth k = s.get .galDepth k) (hroom : m ≤ freeSlots s k) (h : slotsFit s k) :
    slotsFit t k ∧ freeSlots t k = freeSlots s k - m := by
  unfold slotsFit freeSlots at *
  rw [hslots, hdepth]
  omega

theorem pushSlot_slots (g : Slug) : ((pushSlot s k g).context k).slots = (s.context k).slots ++ [g] ∧
    (pushSlot s k g).get .galDepth k = s.get .galDepth k ∧
    ((pushSlot s k g).context k).writeLine = (g.lastLine + 1) % 2 ^ 48 := by
  unfold pushSlot
  dsimp only
  rw [context_put, context_setCtx, get_put_ne _ (by decide), get_setCtx]
  exact ⟨rfl, rfl, rfl⟩

theorem placeMarker_slots (g : Gap) : ((placeMarker s k g).context k).slots = (s.context k).slots ++ [marker s k g] ∧
    (placeMarker s k g).get .galDepth k = s.get .galDepth k := by
  obtain ⟨hslots, hdepth, -⟩ := pushSlot_slots s k (marker s k g)
  unfold placeMarker
  dsimp only
  rw [context_setCtx, get_setCtx, get_bump_ne _ (by decide)]
  exact ⟨hslots, hdepth⟩

/-- Closed ranges are placed only into free slots. -/
theorem placeClosed_fits (n : Nat) (h : slotsFit s k) : slotsFit (placeClosed n s k) k ∧
    (placeClosed n s k).get .galDepth k = s.get .galDepth k := by
  induction n generalizing s with
  | zero => exact ⟨h, rfl⟩
  | succ n ih =>
    rw [placeClosed]
    split
    · exact ⟨h, rfl⟩
    · next g gs _ =>
      split
      · exact ⟨h, rfl⟩
      · next hfree =>
        obtain ⟨hslots, hdepth⟩ := placeMarker_slots (s.setCtx k { s.context k with closedGaps := gs }) k g
        rw [context_setCtx] at hslots
        rw [get_setCtx] at hdepth
        have hlen : ((placeMarker (s.setCtx k { s.context k with closedGaps := gs }) k g).context k).slots.length =
            (s.context k).slots.length + 1 := by rw [hslots, List.length_append, List.length_singleton]
        obtain ⟨hfits, -⟩ := slotsFit_of hlen hdepth (Nat.pos_of_ne_zero hfree) h
        obtain ⟨hend, hsame⟩ := ih _ hfits
        exact ⟨hend, hsame.trans hdepth⟩

theorem placeWaiting_fits (h : slotsFit s k) : slotsFit (placeWaiting s k) k ∧
    (placeWaiting s k).get .galDepth k = s.get .galDepth k := placeClosed_fits s k _ h

theorem slots_joinGap (x : Context) (t : Trig) (reason line : Nat) :
    ((joinGap x t reason).forgetLine line).slots = x.slots := by
  unfold joinGap Context.forgetLine
  split
  · rfl
  · dsimp only
    split <;> rfl

theorem gapLine_fits (t : Trig) (reason : Nat) (h : slotsFit s k) : slotsFit (gapLine s k t reason) k ∧
    (gapLine s k t reason).get .galDepth k = s.get .galDepth k := by
  obtain ⟨hfits, hdepth⟩ := placeWaiting_fits (s.setCtx k ((joinGap (s.context k) t reason).forgetLine t.line)) k (by
    unfold slotsFit
    rw [context_setCtx, slots_joinGap, get_setCtx]
    exact h)
  exact ⟨hfits, hdepth.trans (get_setCtx ..)⟩

theorem loseLine_full (t : Trig) : loseLine s k t rsFull = (gapLine s k t rsFull).bump .galDropped k := by
  unfold loseLine
  dsimp only
  rw [if_pos rfl]

/-- The galley with its open gap placed, where it has one. -/
def gapPlaced (s : State) (k : Nat) : State :=
  match (s.context k).gap with
  | some gp => placeMarker (s.setCtx k { s.context k with gap := none }) k gp
  | none => s

/-- The slug that is put in, with the mark that it follows a gap. -/
def marked (s : State) (k : Nat) (g : Slug) : Slug :=
  if (s.context k).afterGap then { g with flags := g.flags ||| 64 } else g

theorem lastLine_marked (g : Slug) : (marked s k g).lastLine = g.lastLine := by
  unfold marked
  split
  · have hbit : bitAt (g.flags ||| 64).toNat 0 = bitAt g.flags.toNat 0 := by
      rw [bitAt_eq_testBit, bitAt_eq_testBit, BitVec.toNat_or, Nat.testBit_or]
      exact Bool.or_false _
    unfold Slug.lastLine
    dsimp only
    rw [hbit]
  · rfl

theorem commitSlug_taken (t : Trig) (g : Slug) (h : canTake (placeWaiting s k) k = true) : commitSlug s k t g =
    pushSlot ((gapPlaced (placeWaiting s k) k).setCtx k { (gapPlaced (placeWaiting s k) k).context k with
      afterGap := false }) k (marked (gapPlaced (placeWaiting s k) k) k g) := if_pos h

theorem commitSlug_lost (t : Trig) (g : Slug) (h : canTake (placeWaiting s k) k = false) :
    commitSlug s k t g = loseLine (placeWaiting s k) k t rsFull := if_neg (by simp [h])

theorem placeWaiting_none (h : (s.context k).closedGaps = []) : placeWaiting s k = s := by
  rw [placeWaiting, h]
  rfl

section
variable (t : Trig) (g : Slug) (hclosed : (s.context k).closedGaps = []) (hgap : (s.context k).gap = none)
include hclosed hgap

theorem canTake_plain : canTake s k = decide (1 ≤ freeSlots s k) := by
  rw [canTake, hgap, hclosed]
  rfl

theorem commitSlug_commits (hroom : (s.context k).slots.length < s.get .galDepth k) :
    ((commitSlug s k t g).context k).slots = (s.context k).slots ++ [marked s k g] ∧
      ((commitSlug s k t g).context k).writeLine = (g.lastLine + 1) % 2 ^ 48 := by
  have htake : canTake (placeWaiting s k) k = true := by
    rw [placeWaiting_none s k hclosed, canTake_plain s k hclosed hgap]
    exact decide_eq_true (Nat.sub_pos_of_lt hroom)
  have hplain : gapPlaced s k = s := by rw [gapPlaced, hgap]
  rw [commitSlug_taken s k t g htake, placeWaiting_none s k hclosed, hplain]
  obtain ⟨hslots, -, hline⟩ := pushSlot_slots (s.setCtx k { s.context k with afterGap := false }) k (marked s k g)
  rw [context_setCtx] at hslots
  exact ⟨hslots, hline.trans (by rw [lastLine_marked])⟩

theorem commitSlug_drops (hfull : s.get .galDepth k ≤ (s.context k).slots.length) :
    ((commitSlug s k t g).context k).slots = (s.context k).slots ∧
      ((commitSlug s k t g).context k).gap = some ⟨t.line, 1, BitVec.ofNat 32 rsFull, t.count⟩ ∧
      (commitSlug s k t g).get .galDropped k = min (s.get .galDropped k + 1) 0xFFFFFFFF := by
  have hno : canTake (placeWaiting s k) k = false := by
    rw [placeWaiting_none s k hclosed, canTake_plain s k hclosed hgap]
    exact decide_eq_false (by unfold freeSlots; omega)
  have hjoined : (joinGap (s.context k) t rsFull).forgetLine t.line = Context.forgetLine { s.context k with
      gap := some ⟨t.line, 1, BitVec.ofNat 32 rsFull, t.count⟩ } t.line := by
    rw [joinGap, hgap]
  have hgapLine : gapLine s k t rsFull = s.setCtx k (Context.forgetLine { s.context k with
      gap := some ⟨t.line, 1, BitVec.ofNat 32 rsFull, t.count⟩ } t.line) := by
    rw [gapLine, hjoined]
    refine placeWaiting_none _ k ?_
    rw [context_setCtx]
    exact hclosed
  rw [commitSlug_lost s k t g hno, placeWaiting_none s k hclosed, loseLine_full, hgapLine, get_bump_count _ rfl,
    context_bump, context_setCtx, get_setCtx]
  exact ⟨rfl, rfl, rfl⟩

end

/-- A galley never holds more entries than its depth. -/
theorem commitSlug_fits (t : Trig) (g : Slug) (h : slotsFit s k) :
    ((commitSlug s k t g).context k).slots.length ≤ s.get .galDepth k := by
  obtain ⟨hfits, hdepth⟩ := placeWaiting_fits s k h
  cases htake : canTake (placeWaiting s k) k with
  | false =>
    obtain ⟨hend, hsame⟩ := gapLine_fits (placeWaiting s k) k t rsFull hfits
    rw [commitSlug_lost s k t g htake, loseLine_full, context_bump, ← hdepth, ← hsame]
    exact hend
  | true =>
    rw [commitSlug_taken s k t g htake, ← hdepth]
    generalize placeWaiting s k = u at *
    obtain ⟨hslots, -, -⟩ := pushSlot_slots ((gapPlaced u k).setCtx k { (gapPlaced u k).context k with
      afterGap := false }) k (marked (gapPlaced u k) k g)
    rw [context_setCtx] at hslots
    rw [hslots, List.length_append, List.length_singleton]
    have hroom : (if (u.context k).gap.isSome then 2 else 1) + (u.context k).closedGaps.length ≤ freeSlots u k :=
      of_decide_eq_true htake
    unfold slotsFit at hfits
    unfold freeSlots at hroom
    dsimp only
    cases hgap : (u.context k).gap with
    | none =>
      rw [hgap] at hroom
      rw [gapPlaced, hgap]
      dsimp only
      simp only [Option.isSome_none, Bool.false_eq_true, if_false] at hroom
      omega
    | some gp =>
      obtain ⟨hplaced, -⟩ := placeMarker_slots (u.setCtx k { u.context k with gap := none }) k gp
      rw [context_setCtx] at hplaced
      rw [hgap] at hroom
      rw [gapPlaced, hgap]
      dsimp only
      rw [hplaced]
      dsimp only
      rw [List.length_append, List.length_singleton]
      simp only [Option.isSome_some, if_true] at hroom
      omega

end

/-! ### The obligation -/

/-- Settles O39: packets by the counters and the marks they leave, lines by their end, the galley by its free slots. -/
theorem linesAreReceived : Obligations.LinesAreReceived := by
  unfold Obligations.LinesAreReceived
  refine ⟨?_, ?_⟩
  · intro s l k crcOk framed errors samples
    exact ⟨streamPacket_counts s l k crcOk framed errors, fun hrx => lineComplete_none s k samples hrx,
      fun r rs hrx => lineComplete_counts s k samples hrx⟩
  · intro s k t g
    refine ⟨fun hclosed hgap hroom => ?_, fun hclosed hgap hfull => ?_, fun h => commitSlug_fits s k t g h⟩
    · obtain ⟨hslots, hline⟩ := commitSlug_commits s k t g hclosed hgap hroom
      exact ⟨_, hslots, rfl, hline⟩
    · exact commitSlug_drops s k t g hclosed hgap hfull

end Sys2Proof.Proofs

/-! Parameter banks, staged and applied at a line (R13, R163, R251). -/

namespace Sys2Proof.Proofs

open Sys2Proof.Machine Sys2Proof.Safety Sys2Proof.Laws

section
variable (s : State) (r : Req) (k : Ctx) (target : Fin 4) (bank : Fin 2)

theorem pipeStage_stages (addr size : Nat) (hserved : served s r false false)
    (hmay : mayContext (takeRequest s r) r k.val = true) (hup : ((takeRequest s r).context k.val).resetting = false)
    (hactive : bankActive (takeRequest s r) k.val target.val bank.val = false)
    (hpending : bankPending (takeRequest s r) k.val target.val bank.val = false)
    (hstaging : bankStaging (takeRequest s r) k.val target.val bank.val = false)
    (himage : imageBad (takeRequest s r) k.val target.val (memBytes (takeRequest s r).lpddr addr size) = false) :
    ∃ t, exec (.pipeStage r k target bank addr size) s = .next t ∧
      (t.context k.val).stages =
        ((takeRequest s r).context k.val).stages ++ [⟨target.val, bank.val, addr, size, r⟩] ∧
      { t with ctxs := (takeRequest s r).ctxs } = takeRequest s r := by
  have hexec : exec (.pipeStage r k target bank addr size) s = execPipeStage r k target bank addr size s := rfl
  unfold execPipeStage at hexec
  rw [firmware_served hserved] at hexec
  generalize takeRequest s r = u at *
  dsimp only at hexec
  rw [hmay, if_neg (by decide), hup, hactive, hpending, hstaging, if_neg (by decide), himage,
    if_neg (by decide)] at hexec
  exact ⟨_, hexec, congrArg Context.stages (context_setCtx ..), rfl⟩

theorem pipeApply_applies (line : BitVec 48) (hserved : served s r false false)
    (hmay : mayContext (takeRequest s r) r k.val = true) (hup : ((takeRequest s r).context k.val).resetting = false)
    (hstaging : bankStaging (takeRequest s r) k.val target.val bank.val = false)
    (hmesh : target.val = 2 → meshTooLarge (takeRequest s r) k.val bank.val = false) :
    exec (.pipeApply r k target bank line) s =
      .next (applyBank (takeRequest s r) k.val target.val bank.val line.toNat (some r)) := by
  have hexec : exec (.pipeApply r k target bank line) s = execPipeApply r k target bank line s := rfl
  unfold execPipeApply at hexec
  rw [firmware_served hserved] at hexec
  generalize takeRequest s r = u at *
  have hfits : ¬(target.val = 2 ∧ meshTooLarge u k.val bank.val = true) := by
    rintro ⟨htwo, hlarge⟩
    exact absurd ((hmesh htwo).symm.trans hlarge) (by decide)
  dsimp only at hexec
  rw [hmay, if_neg (by decide), hup, hstaging, if_neg (by decide), if_neg hfits] at hexec
  exact hexec

/-- The end of the oldest copy: its image in the bank, its command answered. -/
theorem pipeStageDone_stages {e : Stage} {es : List Stage} (hwf : Memory.wf s.galley = true)
    (hstages : (s.context k.val).stages = e :: es) :
    ∃ t, exec (.pipeStageDone k) s = .next (answer t e.req cOk []) ∧ (t.context k.val).stages = es ∧
      (e.target = 3 →
        (t.context k.val).paramBlocks.get [] e.bank = memBytes s.lpddr e.addr e.size ∧ t.galley = s.galley) ∧
      (e.target ≠ 3 →
        memBytes t.galley (bankAddr s k.val e.target e.bank) e.size = memBytes s.lpddr e.addr e.size ∧
          ∀ a, (a < bankAddr s k.val e.target e.bank ∨ bankAddr s k.val e.target e.bank + e.size ≤ a) →
            memRead t.galley a = memRead s.galley a) := by
  have hlen : (memBytes s.lpddr e.addr e.size).length = e.size := by simp [memBytes]
  have hexec : exec (.pipeStageDone k) s = execPipeStageDone k s := rfl
  unfold execPipeStageDone at hexec
  dsimp only at hexec
  rw [hstages] at hexec
  dsimp only at hexec
  by_cases hparam : e.target = 3
  · rw [if_pos hparam, if_pos hparam] at hexec
    refine ⟨_, hexec, congrArg Context.stages (context_setCtx ..), fun _ => ⟨?_, rfl⟩, fun h => absurd hparam h⟩
    rw [context_setCtx]
    exact tab_get_set_same ..
  · rw [if_neg hparam, if_neg hparam] at hexec
    have hstored := memBytes_memStore hwf (bankAddr s k.val e.target e.bank) (memBytes s.lpddr e.addr e.size)
    have hbeside : ∀ a, (a < bankAddr s k.val e.target e.bank ∨ bankAddr s k.val e.target e.bank + e.size ≤ a) →
        memRead (memStore s.galley (bankAddr s k.val e.target e.bank) (memBytes s.lpddr e.addr e.size)) a =
          memRead s.galley a :=
      fun a ha => memRead_memStore_outside hwf _ (by rwa [hlen])
    rw [hlen] at hstored
    exact ⟨_, hexec, congrArg Context.stages (context_setCtx ..), fun h => absurd h hparam, fun _ => ⟨hstored, hbeside⟩⟩

end

/-- The apply that is registered is the one pending for its target, at the line R13 gives it. -/
theorem applyBank_registers (s : State) (k target bank line : Nat) (req : Option Req) :
    ((applyBank s k target bank line req).context k).applies.get none target = some ⟨bank, lineUsed s k line, req⟩ ∧
      ∀ u, u ≠ target → ((applyBank s k target bank line req).context k).applies.get none u =
        (s.context k).applies.get none u := by
  have hset (t : State) (hctxs : t.ctxs = s.ctxs) (e : Apply) :
      let t' := t.setCtx k { t.context k with applies := (t.context k).applies.set target (some e) }
      (t'.context k).applies.get none target = some e ∧
        ∀ u, u ≠ target → (t'.context k).applies.get none u = (s.context k).applies.get none u := by
    intro t'
    have hcontext : t.context k = s.context k := by rw [State.context, hctxs, State.context]
    rw [context_setCtx, hcontext]
    exact ⟨tab_get_set_same .., fun u hu => tab_get_set_other _ _ _ hu⟩
  unfold applyBank
  dsimp only
  split
  · exact hset s rfl _
  · split
    · next r _ =>
      exact hset _ (ctxs_answer (s.bump .seqRefused (s.get .ctxChase k)) r cBusy []) _
    · exact hset _ rfl _

/-- Settles O41: the copy by its command and its end, the apply by the entry it leaves. -/
theorem pipeBanksAreStagedAndApplied : Obligations.PipeBanksAreStagedAndApplied := by
  unfold Obligations.PipeBanksAreStagedAndApplied
  refine ⟨?_, ?_⟩
  · intro s r k target bank addr size line
    refine ⟨?_, ?_, ?_⟩
    · exact fun hserved hmay hup hactive hpending hstaging himage =>
        pipeStage_stages s r k target bank addr size hserved hmay hup hactive hpending hstaging himage
    · rintro e es ⟨-, -, hwf, -⟩ hstages
      exact pipeStageDone_stages s k hwf hstages
    · exact fun hserved hmay hup hstaging hmesh =>
        pipeApply_applies s r k target bank line hserved hmay hup hstaging hmesh
  · intro s k target bank line req
    obtain ⟨hpending, hothers⟩ := applyBank_registers s k target bank line req
    exact ⟨hpending, fun h => if_pos h, fun h => if_neg (not_lt.mpr h), hothers⟩

end Sys2Proof.Proofs

/-! Replays (R262, R264) and training feeders (R265, R269, R271). -/

namespace Sys2Proof.Proofs

open Sys2Proof.Machine Sys2Proof.Safety Sys2Proof.Laws

/-! ### Replays -/

section
variable (s : State) (r : Req) (k : Ctx)

theorem replayStart_starts (addr size : Nat) (start : BitVec 48) (looped : Bool) (hserved : served s r false false)
    (hmay : mayContext (takeRequest s r) r k.val = true) (hbound : (takeRequest s r).flag .ctxBound k.val = true)
    (hup : ((takeRequest s r).context k.val).resetting = false)
    (hfree : ((takeRequest s r).context k.val).replay = none)
    (hcheck : RecFile.check ⟨addr, size⟩ (takeRequest s r) = none)
    (hroom : ((takeRequest s r).get .galDepth k.val + 16) * (takeRequest s r).get .galStride k.val ≤
      (takeRequest s r).get .galLimit k.val * 64)
    (hrun : ∃ i, nextRun ⟨addr, size⟩ (takeRequest s r) 0 = some i ∧
      (RecFile.entry ⟨addr, size⟩ (takeRequest s r) i).count ≠ 0 ∧
      runMatches (takeRequest s r) k.val ⟨addr, size⟩ (RecFile.entry ⟨addr, size⟩ (takeRequest s r) i) = true) :
    ∃ t p, exec (.replayStart r k addr size start looped) s = .next (answer t r cOk []) ∧
      (t.context k.val).replay = some p ∧ p.start = start.toNat ∧ p.looped = looped ∧ p.begun = false ∧ p.buf = [] := by
  have hexec : exec (.replayStart r k addr size start looped) s = execReplayStart r k addr size start looped s := rfl
  unfold execReplayStart at hexec
  rw [firmware_served hserved] at hexec
  generalize takeRequest s r = u at *
  obtain ⟨i, hnext, hcount, hmatches⟩ := hrun
  have hgood : ((RecFile.entry ⟨addr, size⟩ u i).count != 0 &&
      runMatches u k.val ⟨addr, size⟩ (RecFile.entry ⟨addr, size⟩ u i)) = true := by
    simp [hcount, hmatches]
  dsimp only at hexec
  rw [hmay, if_neg (by decide), hbound, hup, hfree, if_neg (by decide), hcheck] at hexec
  dsimp only at hexec
  rw [hnext] at hexec
  dsimp only at hexec
  rw [if_neg (by rw [hgood]; simpa using hroom)] at hexec
  exact ⟨_, _, hexec, congrArg Context.replay (context_setCtx ..), rfl, rfl, rfl, rfl⟩

theorem replayStop_stops {p : Replay} (hserved : served s r false false)
    (hmay : mayContext (takeRequest s r) r k.val = true) (hup : ((takeRequest s r).context k.val).resetting = false)
    (hreplay : ((takeRequest s r).context k.val).replay = some p) :
    ∃ t, exec (.replayStop r k) s = .next (answer t r cOk []) ∧
      (t.context k.val).replay = some { p with stopping := true } := by
  have hexec : exec (.replayStop r k) s = execReplayStop r k s := rfl
  unfold execReplayStop at hexec
  rw [firmware_served hserved] at hexec
  generalize takeRequest s r = u at *
  dsimp only at hexec
  rw [hmay, if_neg (by decide), hup, if_neg (by decide), hreplay] at hexec
  exact ⟨_, hexec, congrArg Context.replay (context_setCtx ..)⟩

theorem buf_advance (p : Replay) (f : RecFile) (i : Nat) (whole : Bool) : (p.advance f s i whole).buf = p.buf := by
  unfold Replay.advance
  split
  · rfl
  · split
    · rfl
    · split <;> rfl

/-- A prefetch leaves the entries that wait and adds at most one behind them. -/
theorem buf_fetch (p : Replay) (n : Nat) : (p.fetch s n).buf = p.buf ∨
    (p.buf.length < 16 ∧ ∃ e, (p.fetch s n).buf = p.buf ++ [e]) := by
  unfold Replay.fetch
  split
  · exact .inl rfl
  · next hgo =>
    have hroom : p.buf.length < 16 := by
      simp only [Bool.or_eq_true, decide_eq_true_eq, not_or, not_le] at hgo
      exact hgo.2
    dsimp only
    split
    · exact .inl rfl
    · split
      · exact .inl (buf_advance ..)
      · split
        · exact .inr ⟨hroom, _, buf_advance ..⟩
        · exact .inr ⟨hroom, _, buf_advance ..⟩

theorem chargePrefetch_leaves {n : Nat} {p q : Replay} {t : State} {paid : Bool}
    (h : chargePrefetch s n p = some (t, q, paid)) : q.buf = p.buf ∧ { t with chases := s.chases } = s := by
  unfold chargePrefetch at h
  dsimp only at h
  split at h
  · obtain ⟨rfl, rfl, -⟩ := by simpa using h
    exact ⟨rfl, rfl⟩
  · split at h
    · obtain ⟨rfl, rfl, -⟩ := by simpa using h
      exact ⟨rfl, rfl⟩
    · exact absurd h (by simp)

/-- Entries that a longer list begins with. -/
theorem prefix_kept {α : Type} {a b : List α} (h : b = a ∨ ∃ e, b = a ++ [e]) :
    ∀ i, i < a.length → b[i]? = a[i]? := by
  intro i hi
  obtain rfl | ⟨e, rfl⟩ := h
  · rfl
  · exact List.getElem?_append_left hi

theorem replayPrefetch_fetches {p : Replay} (hreplay : (s.context k.val).replay = some p) (hbuf : p.buf.length ≤ 16) :
    ∃ t q, exec (.replayPrefetch k) s = .next t ∧ (t.context k.val).replay = some q ∧ q.buf.length ≤ 16 ∧
      (∀ i, i < p.buf.length → q.buf[i]? = p.buf[i]?) ∧ { t with ctxs := s.ctxs, chases := s.chases } = s ∧
      (∀ s1 q0, p.ended = false → p.buf.length < 16 → chargePrefetch s k.val p = some (s1, q0, true) →
        q = q0.fetch s k.val ∧ t.chases = s1.chases) := by
  have hexec : exec (.replayPrefetch k) s = execReplayPrefetch k s := rfl
  unfold execReplayPrefetch at hexec
  dsimp only at hexec
  rw [hreplay] at hexec
  dsimp only at hexec
  by_cases hgo : (p.ended || decide (16 ≤ p.buf.length)) = true
  · rw [if_pos hgo] at hexec
    refine ⟨s, p, hexec, hreplay, hbuf, fun _ _ => rfl, rfl, fun s1 q0 hended hroom _ => absurd hgo ?_⟩
    simp [hended, hroom]
  · rw [if_neg hgo] at hexec
    rcases hcharge : chargePrefetch s k.val p with _ | ⟨t, q, paid⟩
    · rw [hcharge] at hexec
      exact ⟨s, p, hexec, hreplay, hbuf, fun _ _ => rfl, rfl, fun s1 q0 _ _ h => absurd h (by simp)⟩
    · rw [hcharge] at hexec
      dsimp only at hexec
      obtain ⟨hq, hkept⟩ := chargePrefetch_leaves s hcharge
      have hgrown : (if paid then q.fetch s k.val else q).buf = p.buf ∨
          (p.buf.length < 16 ∧ ∃ e, (if paid then q.fetch s k.val else q).buf = p.buf ++ [e]) := by
        split
        · exact hq ▸ buf_fetch s q k.val
        · exact .inl hq
      refine ⟨_, _, hexec, congrArg Context.replay (context_setCtx ..), ?_,
        prefix_kept (hgrown.imp_right And.right), ?_, fun s1 q0 _ _ h => ?_⟩
      · obtain h | ⟨hroom, e, h⟩ := hgrown
        · rw [h]
          exact hbuf
        · rw [h, List.length_append, List.length_singleton]
          omega
      · exact (congrArg (fun u : State => { u with ctxs := s.ctxs }) hkept :)
      · obtain ⟨rfl, rfl, rfl⟩ : t = s1 ∧ q = q0 ∧ paid = true := by simpa using h
        exact ⟨if_pos rfl, rfl⟩

end

/-! ### Training feeders -/

section
variable (s : State) (r : Req) (n : ChaseNo)

theorem trainStart_starts {p : TrainParams} (hserved : served s r false false)
    (hmay : mayChase (takeRequest s r) r n.val = true) (hruns : (takeRequest s r).get .chState n.val = chRunning)
    (hfree : ((takeRequest s r).chase n.val).trainer = none) (hparams : trainParamsOk p = true)
    (hcheck : (trainFile p).check (takeRequest s r) = none) :
    ∃ t tr, exec (.trainStart r n p) s = .next (answer t r cOk []) ∧ (t.chase n.val).trainer = some tr ∧ tr.p = p ∧
      tr.epoch = p.firstEpoch.toNat ∧ tr.batch = 0 ∧ tr.stopping = false ∧ t.get .trnState n.val = 1 := by
  have hexec : exec (.trainStart r n p) s = execTrainStart r n p s := rfl
  unfold execTrainStart at hexec
  rw [firmware_served hserved] at hexec
  generalize takeRequest s r = u at *
  dsimp only at hexec
  rw [hmay, if_neg (by decide), hfree, if_neg (by simp [hruns]), hparams, if_neg (by decide), hcheck] at hexec
  refine ⟨_, _, hexec, congrArg Chase.trainer (chase_setChase ..), rfl, rfl, rfl, rfl, ?_⟩
  rw [get_put_ne _ (by decide), get_put_ne _ (by decide), get_put_ne _ (by decide), get_put_same]
  rfl

theorem trainStop_stops {tr : Trainer} (hserved : served s r false false)
    (hmay : mayChase (takeRequest s r) r n.val = true) (htrainer : ((takeRequest s r).chase n.val).trainer = some tr) :
    ∃ t, exec (.trainStop r n) s = .next (answer t r cOk []) ∧
      (t.chase n.val).trainer = some { tr with stopping := true } := by
  have hexec : exec (.trainStop r n) s = execTrainStop r n s := rfl
  unfold execTrainStop at hexec
  rw [firmware_served hserved] at hexec
  generalize takeRequest s r = u at *
  dsimp only at hexec
  rw [hmay, if_neg (by decide), htrainer] at hexec
  exact ⟨_, hexec, congrArg Chase.trainer (chase_setChase ..)⟩

theorem length_takeSamples (ok : Nat → Bool) (room : Nat) (l : List Nat) : (takeSamples ok room l).1.length ≤ room := by
  induction l generalizing room with
  | nil => exact Nat.zero_le _
  | cons i is ih =>
    rw [takeSamples.eq_def]
    dsimp only
    split
    · cases room with
      | zero => exact le_refl 0
      | succ room => exact Nat.succ_le_succ (ih room)
    · exact ih room

/-- A number among the bytes that memory was given. -/
theorem memNat_stored {m : Memory} (h : Memory.wf m = true) (a : Nat) {l pre post : List Byte} {w v k : Nat}
    (hl : l = pre ++ (natLe w v ++ post)) (hk : pre.length = k) : memNat (memStore m a l) (a + k) w = v % 256 ^ w := by
  subst hl hk
  rw [memNat, memBytes_memStore_part h a pre.length w _ (by simp [length_natLe]), List.drop_left,
    List.take_left' (length_natLe ..), leNat_natLe]

/-- The batch buffer after a fill: its ready word, its epoch and batch numbers and its count. -/
theorem batchHead_reads {m : Memory} (h : Memory.wf m = true) (a epoch batch count corrupt last : Nat)
    (entries : List Byte) : let t := memStore m a (natLe 4 1 ++ natLe 4 epoch ++ natLe 4 batch ++ natLe 4 count ++
        natLe 4 corrupt ++ natLe 4 last ++ List.replicate 40 0 ++ entries)
    memNat t a 4 = 1 ∧ memNat t (a + 4) 4 = epoch % 2 ^ 32 ∧ memNat t (a + 8) 4 = batch % 2 ^ 32 ∧
      memNat t (a + 12) 4 = count % 2 ^ 32 := by
  have hlen (v : Nat) : (natLe 4 v).length = 4 := length_natLe ..
  simp only [List.append_assoc]
  generalize natLe 4 corrupt ++ _ = rest
  refine ⟨?_, ?_, ?_, ?_⟩
  · exact memNat_stored h a (v := 1) (List.nil_append _).symm rfl
  · exact memNat_stored h a (pre := natLe 4 1) (v := epoch) rfl (hlen 1)
  · exact memNat_stored h a (v := batch) (List.append_assoc ..).symm (by rw [List.length_append, hlen, hlen])
  · refine memNat_stored h a (pre := natLe 4 1 ++ (natLe 4 epoch ++ natLe 4 batch)) (post := rest) (v := count) ?_ ?_
    · simp only [List.append_assoc]
    · rw [List.length_append, List.length_append, hlen, hlen, hlen]

theorem exec_batchFill {tr : Trainer} (arrival : List Nat) (htrainer : (s.chase n.val).trainer = some tr) :
    exec (.batchFill n arrival) s = .next (fillBatch s n.val tr arrival) := by
  change execBatchFill n arrival s = _
  unfold execBatchFill
  rw [htrainer]

theorem fillBatch_waits {c : Nat} {tr : Trainer} (arrival : List Nat)
    (hbusy : memNat s.lpddr (tr.p.ringAddr + tr.buf * (64 + tr.p.batch * entryBytes tr.p)) 4 ≠ 0) :
    fillBatch s c tr arrival = s.put .trnState c 2 := if_pos hbusy

theorem fillBatch_fills {c : Nat} {tr : Trainer} (arrival : List Nat) (hwf : Memory.wf s.lpddr = true)
    (hfree : memNat s.lpddr (tr.p.ringAddr + tr.buf * (64 + tr.p.batch * entryBytes tr.p)) 4 = 0) :
    let t := fillBatch s c tr arrival
    let a := tr.p.ringAddr + tr.buf * (64 + tr.p.batch * entryBytes tr.p)
    memNat t.lpddr a 4 = 1 ∧ memNat t.lpddr (a + 4) 4 = tr.epoch % 2 ^ 32 ∧
      memNat t.lpddr (a + 8) 4 = tr.batch % 2 ^ 32 ∧ memNat t.lpddr (a + 12) 4 ≤ tr.p.batch ∧
      (tr.stopping = true → (t.chase c).trainer = none) ∧ t.sram = s.sram ∧ t.galley = s.galley ∧
      ∀ b, b < a → memRead t.lpddr b = memRead s.lpddr b := by
  intro t a
  obtain ⟨count, corrupt, last, entries, hcount, hmem, hsram, hgalley, hstop⟩ : ∃ count corrupt last entries,
      count ≤ tr.p.batch ∧ t.lpddr = memStore s.lpddr a (natLe 4 1 ++ natLe 4 tr.epoch ++ natLe 4 tr.batch ++
        natLe 4 count ++ natLe 4 corrupt ++ natLe 4 last ++ List.replicate 40 0 ++ entries) ∧ t.sram = s.sram ∧
      t.galley = s.galley ∧ (tr.stopping = true → (t.chase c).trainer = none) := by
    have ht : t = fillBatch s c tr arrival := rfl
    unfold fillBatch at ht
    dsimp only at ht
    rw [if_neg (not_not.mpr hfree)] at ht
    have hcount := length_takeSamples (sampleValid s tr.p) tr.p.batch (remaining s tr arrival)
    rw [ht]
    split
    · simp only [State.put_lpddr, State.setChase_lpddr, State.put_sram, State.setChase_sram, State.put_galley,
        State.setChase_galley, chase_put, chase_setChase]
      exact ⟨_, _, _, _, hcount, rfl, trivial, trivial, fun _ => trivial⟩
    · next hmore =>
      simp only [State.put_lpddr, State.setChase_lpddr, State.put_sram, State.setChase_sram, State.put_galley,
        State.setChase_galley]
      exact ⟨_, _, _, _, hcount, rfl, trivial, trivial, fun hstop => absurd (by rw [hstop]; rfl) hmore⟩
  obtain ⟨hready, hepoch, hbatch, hnum⟩ := batchHead_reads hwf a tr.epoch tr.batch count corrupt last entries
  refine ⟨hmem ▸ hready, hmem ▸ hepoch, hmem ▸ hbatch, ?_, hstop, hsram, hgalley, fun b hb => ?_⟩
  · rw [hmem, hnum]
    exact le_trans (Nat.mod_le ..) hcount
  · rw [hmem]
    exact memRead_memStore_outside hwf _ (.inl hb)

end

/-! ### The obligation -/

/-- Settles O42: each command by the replay or the feeder it leaves, a fill by the buffer it writes. -/
theorem replayAndTrainingRun : Obligations.ReplayAndTrainingRun := by
  unfold Obligations.ReplayAndTrainingRun
  refine ⟨?_, ?_⟩
  · intro s r k addr size start looped
    refine ⟨?_, ?_, ?_⟩
    · exact fun hserved hmay hbound hup hfree hcheck hroom hrun =>
        replayStart_starts s r k addr size start looped hserved hmay hbound hup hfree hcheck hroom hrun
    · exact fun p hserved hmay hup hreplay => replayStop_stops s r k hserved hmay hup hreplay
    · exact fun p hreplay hbuf => replayPrefetch_fetches s k hreplay hbuf
  · intro s r n p arrival
    refine ⟨?_, ?_, ?_⟩
    · exact fun hserved hmay hruns hfree hparams hcheck =>
        trainStart_starts s r n hserved hmay hruns hfree hparams hcheck
    · exact fun tr hserved hmay htrainer => trainStop_stops s r n hserved hmay htrainer
    · rintro tr ⟨-, -, -, hwf, -⟩ htrainer
      have hexec := exec_batchFill s n arrival htrainer
      exact ⟨fun hbusy => hexec.trans (congrArg _ (fillBatch_waits s arrival hbusy)),
        fun hfree => ⟨_, hexec, fillBatch_fills s arrival hwf hfree⟩⟩

end Sys2Proof.Proofs

/-! Chases created and deleted (R179, R181), contexts bound and unbound (R180, R181, R207, R228, R309). -/

namespace Sys2Proof.Proofs

open Sys2Proof.Machine Sys2Proof.Safety Sys2Proof.Laws

/-! ### Generations -/

section
variable (s : State)

theorem regs_staleSender (id : Nat) : (staleSender s id).regs = s.regs := rfl

theorem chases_staleSender (id : Nat) : (staleSender s id).chases = s.chases := rfl

theorem ctxs_staleSender (id : Nat) : (staleSender s id).ctxs = s.ctxs := rfl

/-- A new generation moves its own register on; the quoins of the sender are on the side. -/
theorem get_nextGeneration {f g : Fld} (hside : g ∉ sideRegs) (i id j : Nat) : (nextGeneration s f i id).get g j =
    (s.put f i ((s.get f i + 1) % 256)).get g j := by
  unfold nextGeneration
  dsimp only
  rw [get_of_regs (regs_staleSender ..), side_quoinsBreak _ hside]

theorem chases_quoinsBreak (id gen : Nat) : (quoinsBreak s id gen).chases = s.chases ∧
    (quoinsBreak s id gen).ctxs = s.ctxs := by
  unfold quoinsBreak
  refine ⟨foldl_keeps (φ := State.chases) (fun t q => ?_) _ s, foldl_keeps (φ := State.ctxs) (fun t q => ?_) _ s⟩
  · unfold quoinBreak
    split <;> rfl
  · unfold quoinBreak
    split <;> rfl

theorem chases_nextGeneration (f : Fld) (i id : Nat) : (nextGeneration s f i id).chases = s.chases ∧
    (nextGeneration s f i id).ctxs = s.ctxs := by
  obtain ⟨hchases, hctxs⟩ := chases_quoinsBreak (s.put f i ((s.get f i + 1) % 256)) id (s.get f i)
  unfold nextGeneration
  dsimp only
  rw [chases_staleSender, ctxs_staleSender, hchases, hctxs, State.put_chases, State.put_ctxs]
  exact ⟨rfl, rfl⟩

theorem chases_answer (r : Req) (code : Nat) (details : List Word) : (answer s r code details).chases = s.chases := by
  have hqueue : ∀ m c, (queueCompletion s m c).chases = s.chases := fun m c => by
    unfold queueCompletion
    dsimp only
    split <;> rfl
  unfold answer complete
  split
  · split
    · exact (congrArg State.chases (ringsChange_stageEvent ..).2 :)
    · exact hqueue ..
  · exact hqueue ..

theorem chases_discardApplies (k : Nat) : (discardApplies s k).chases = s.chases := by
  unfold discardApplies
  exact foldl_keeps (φ := State.chases) (fun t r => chases_answer t r _ _) _ _

/-! ### A chase is created -/

theorem createChase_creates (n owner : Nat) (cores : List Nat) (g : Regions) (lp ga rh : Nat) (howner : owner < 32)
    (hlp : lp < 2 ^ 32) : let t := createChase s n owner cores g lp ga rh
    t.get .chPresent n = 1 ∧ t.get .chState n = 0 ∧ t.get .chOwner n = owner ∧ t.get .bwCeilLpddr n = lp ∧
      (t.chase n).cores = cores ∧ (t.chase n).regions = g ∧ (t.chase n).forme = none ∧
      ∀ m, m ≠ n → t.chase m = s.chase m := by
  unfold createChase
  dsimp only
  rw [chase_setChase]
  refine ⟨?_, ?_, ?_, ?_, rfl, rfl, rfl, fun m hm => ?_⟩
  · rw [get_setChase]
    simp only [get_put, reduceCtorEq, false_and, if_false, and_self, if_true]
    rfl
  · rw [get_setChase]
    simp only [get_put, reduceCtorEq, false_and, if_false, and_self, if_true]
    rfl
  · rw [get_setChase]
    simp only [get_put, reduceCtorEq, false_and, if_false, and_self, if_true]
    exact Nat.mod_eq_of_lt howner
  · rw [get_setChase]
    simp only [get_put, reduceCtorEq, false_and, if_false, and_self, if_true]
    exact Nat.mod_eq_of_lt hlp
  · rw [State.chase, State.setChase_chases, tab_get_set_other _ _ _ hm]
    simp only [State.put_chases, State.chase]

theorem chaseCreate_creates {r : Req} (n : ChaseNo) (owner : Fn) {cores : BitVec 32} (g : Regions) (lp ga rh : Word)
    (hserved : served s r false false) (hpf0 : senderFn (takeRequest s r) r.sender.toNat = 0)
    (habsent : (takeRequest s r).flag .chPresent n.val = false)
    (hshape : shapeOk ((List.range 32).filter (bitAt cores.toNat)) = true)
    (hfree : ((List.range 32).filter (bitAt cores.toNat)).any (coreTaken (takeRequest s r)) = false)
    (hthere : ((List.range 32).filter (bitAt cores.toNat)).all (fun c => (takeRequest s r).flag .fpcPresent c) = true) :
    exec (.chaseCreate r n owner cores g lp ga rh) s = .next (answer (createChase (takeRequest s r) n.val owner.val
      ((List.range 32).filter (bitAt cores.toNat)) g lp.toNat ga.toNat rh.toNat) r cOk []) := by
  have hexec := ofPf0_runs (c := .chaseCreate r n owner cores g lp ga rh) (run := _) rfl hserved hpf0
  dsimp only at hexec
  rwa [habsent, if_neg (by decide), hshape, if_neg (by decide), hfree, if_neg (by decide), hthere, if_neg (by decide)]
    at hexec

/-! ### A context is bound -/

theorem bindContext_binds (n slot k : Nat) (p : BindParams) (hn : n < 16) (hslot : slot < 16)
    (hmargin : p.margin < 2 ^ 31) (hguard : p.guard < 65536) : let t := bindContext s n slot k p
    t.get .ctxBound k = 1 ∧ t.get .ctxChase k = n ∧ t.get .ctxSlot k = slot ∧ t.get .ctxEncoder k = p.encoder.val ∧
      t.get .ctxMargin k = p.margin ∧ t.get .ctxGuard k = p.guard ∧
      t.get .trigNext k = wrapTo 48 (s.s48 .encPos p.encoder.val + p.pitch) ∧ t.get .galEnabled k = 1 ∧
      (t.context k).slots = [] ∧ (t.context k).armed = true ∧ ∀ j, j ≠ k → t.context j = s.context j := by
  unfold bindContext
  dsimp only
  generalize hu : State.put _ .galStride k (slugStride s k) = u
  generalize hx : Context.mk .. = x
  have hslots : x.slots = [] ∧ x.armed = true := by
    rw [← hx]
    exact ⟨rfl, rfl⟩
  have hend (v : State) (hband : ∀ f, f ≠ .galBand → v.get f k = u.get f k) (hctxs : v.ctxs = s.ctxs) :
      (v.setCtx k x).get .ctxBound k = 1 ∧ (v.setCtx k x).get .ctxChase k = n ∧ (v.setCtx k x).get .ctxSlot k = slot ∧
        (v.setCtx k x).get .ctxEncoder k = p.encoder.val ∧ (v.setCtx k x).get .ctxMargin k = p.margin ∧
        (v.setCtx k x).get .ctxGuard k = p.guard ∧
        (v.setCtx k x).get .trigNext k = wrapTo 48 (s.s48 .encPos p.encoder.val + p.pitch) ∧
        (v.setCtx k x).get .galEnabled k = 1 ∧ ((v.setCtx k x).context k).slots = [] ∧
        ((v.setCtx k x).context k).armed = true ∧ ∀ j, j ≠ k → (v.setCtx k x).context j = s.context j := by
    rw [context_setCtx]
    simp only [get_setCtx]
    rw [hband _ (by decide), hband _ (by decide), hband _ (by decide), hband _ (by decide), hband _ (by decide),
      hband _ (by decide), hband _ (by decide), hband _ (by decide), ← hu]
    simp only [get_put, reduceCtorEq, false_and, if_false, and_self, if_true]
    refine ⟨rfl, Nat.mod_eq_of_lt hn, Nat.mod_eq_of_lt hslot, Nat.mod_eq_of_lt p.encoder.isLt, Nat.mod_eq_of_lt hmargin,
      Nat.mod_eq_of_lt hguard, Nat.mod_eq_of_lt (wrapTo_lt ..), rfl, hslots.1, hslots.2, fun j hj => ?_⟩
    rw [context_setCtx_other _ hj, State.context, hctxs, State.context]
  have hbound : u.ctxs = s.ctxs := by
    rw [← hu]
    simp only [State.put_ctxs]
  split
  · exact hend _ (fun f hf => get_put_ne _ hf ..) hbound
  · exact hend u (fun _ _ => rfl) hbound

theorem contextBind_binds {r : Req} (n : ChaseNo) (slot : Fin 16) (k : Ctx) {p : BindParams}
    (hserved : served s r false false) (hmay : mayChase (takeRequest s r) r n.val = true) (hpitch : 0 < p.pitch)
    (hlast : p.pitch ≤ 65535) (hmargin : p.margin < 2 ^ 31) (hguard : p.guard < 65536)
    (howner : (takeRequest s r).get .chOwner n.val = 0 ∨ (takeRequest s r).get .chOwner n.val = k.val + 1)
    (hthere : (takeRequest s r).flag .chPresent n.val = true)
    (hloaded : (takeRequest s r).get .chState n.val ≠ chLoading)
    (hup : ((takeRequest s r).chase n.val).draining = false)
    (hctx : ((takeRequest s r).context k.val).resetting = false)
    (hfree : (takeRequest s r).flag .ctxBound k.val = false)
    (hslot : slotCtx (takeRequest s r) n.val slot.val = none) (hpos : 0 < p.guard) (hwide : p.guard ≤ p.margin)
    (hok : bindRefusal (takeRequest s r) k.val = none) :
    exec (.contextBind r n slot k p) s =
      .next (answer (bindContext (takeRequest s r) n.val slot.val k.val p) r cOk []) := by
  have hexec : exec (.contextBind r n slot k p) s = execContextBind r n slot k p s := rfl
  unfold execContextBind at hexec
  rw [firmware_served hserved] at hexec
  generalize takeRequest s r = u at *
  have hbusy : (!u.flag .chPresent n.val || u.get .chState n.val == chLoading || (u.chase n.val).draining ||
      (u.context k.val).resetting || u.flag .ctxBound k.val || (slotCtx u n.val slot.val).isSome || p.guard == 0 ||
      decide (p.margin < p.guard)) = false := by
    rw [hthere, hup, hctx, hfree, hslot, beq_false_of_ne hloaded, beq_false_of_ne hpos.ne',
      decide_eq_false (not_lt.mpr hwide)]
    rfl
  dsimp only at hexec
  rw [hmay, if_neg (by decide), if_neg (by omega), if_neg (by omega), hbusy, if_neg (by decide), hok] at hexec
  exact hexec

/-! ### A context is unbound -/

/-- The monitor's work on one handle when a context is unbound. -/
def decideUnbound (n k : Nat) (s : State) (h : Nat) : State :=
  match (s.chase n).item h with
  | some it => if it.ctx = k then monitorDecide s n h it 2 (noRead s k) true else s
  | none => s

theorem unbindItems_eq (n k : Nat) : unbindItems s n k =
    logEvent ((List.range 256).foldl (decideUnbound n k) s) 0x0060 (0x20 + n) 0
      [k, ((s.chase n).openItems.filter (fun e => e.2.ctx == k)).length, n, 0] := rfl

theorem item_decideUnbound (n k h i : Nat) {it : Item} (hit : ((decideUnbound n k s h).chase n).item i = some it) :
    (s.chase n).item i = some it ∧ (i = h → it.ctx ≠ k) := by
  unfold decideUnbound at hit
  split at hit
  · next it0 h0 =>
    split at hit
    · rw [item_monitorDecide] at hit
      split at hit
      · exact absurd hit (by simp)
      · next hne => exact ⟨hit, fun e => absurd e hne⟩
    · next hctx =>
      refine ⟨hit, fun e => ?_⟩
      rw [e, h0] at hit
      exact Option.some.inj hit ▸ hctx
  · next h0 =>
    refine ⟨hit, fun e => ?_⟩
    rw [e, h0] at hit
    exact absurd hit (by simp)

/-- Once every handle has been looked at, no item of the context is open. -/
theorem item_foldl_decideUnbound (n k : Nat) (l : List Nat) (i : Nat) {it : Item}
    (hit : ((l.foldl (decideUnbound n k) s).chase n).item i = some it) :
    (s.chase n).item i = some it ∧ (i ∈ l → it.ctx ≠ k) := by
  induction l generalizing s with
  | nil => exact ⟨hit, fun h => absurd h (by simp)⟩
  | cons h l ih =>
    obtain ⟨hmid, hrest⟩ := ih (decideUnbound n k s h) hit
    obtain ⟨hold, hfirst⟩ := item_decideUnbound s n k h i hmid
    refine ⟨hold, fun hmem => ?_⟩
    obtain rfl | hmem := List.mem_cons.mp hmem
    · exact hfirst rfl
    · exact hrest hmem

theorem chases_logEvent (code src sev : Nat) (ds : List Nat) : (logEvent s code src sev ds).chases = s.chases :=
  (congrArg State.chases (logEvent_frame s code src sev ds) :)

theorem item_unbindItems (n k : Nat) {h : Nat} (hh : h < 256) {it : Item}
    (hit : ((unbindItems s n k).chase n).item h = some it) : it.ctx ≠ k := by
  rw [unbindItems_eq, State.chase, chases_logEvent, ← State.chase] at hit
  exact (item_foldl_decideUnbound s n k (List.range 256) h hit).2 (List.mem_range.mpr hh)

/-- What undoing a binding leaves of the registers that tell of it. -/
theorem unbindContext_unbinds (n k : Nat) : let t := unbindContext s n k
    t.get .ctxBound k = 0 ∧ t.get .galEnabled k = 0 ∧ (t.context k).slots = [] ∧ (t.context k).armed = false ∧
      t.get .genCtx k = (s.get .genCtx k + 1) % 256 ∧
      ∀ h, h < 256 → ∀ it, (t.chase n).item h = some it → it.ctx ≠ k := by
  have hside : ∀ f, f ∉ sideRegs → ∀ i, (disarmOneShots (discardApplies (unbindItems s n k) k) k).get f i = s.get f i :=
    fun f hf i => by rw [side_disarmOneShots _ hf, side_discardApplies _ hf, side_unbindItems _ hf]
  unfold unbindContext
  dsimp only
  generalize hu : nextCtxGen (disarmOneShots (discardApplies (unbindItems s n k) k) k) k = u
  have hgen : u.get .genCtx k = (s.get .genCtx k + 1) % 256 := by
    rw [← hu, nextCtxGen, get_nextGeneration _ (by decide), get_put_same, hside _ (by decide)]
    exact Nat.mod_mod ..
  have hchases : u.chases = (unbindItems s n k).chases := by
    rw [← hu, nextCtxGen, (chases_nextGeneration ..).1, disarmOneShots, State.setCtx_chases, chases_discardApplies]
  rw [context_setCtx]
  simp only [get_setCtx]
  refine ⟨?_, ?_, trivial, trivial, ?_, fun h hh it hit => item_unbindItems s n k hh (it := it) ?_⟩
  · simp only [get_put, reduceCtorEq, false_and, if_false, and_self, if_true]
    rfl
  · simp only [get_put, reduceCtorEq, false_and, if_false, and_self, if_true]
    rfl
  · simp only [get_put, reduceCtorEq, false_and, if_false]
    exact hgen
  · rw [← hit, State.chase, State.chase, State.setCtx_chases]
    simp only [State.put_chases]
    rw [hchases]

theorem contextUnbind_unbinds {r : Req} (n : ChaseNo) (slot : Fin 16) {k : Nat} (hserved : served s r false false)
    (hmay : mayChase (takeRequest s r) r n.val = true) (hthere : (takeRequest s r).flag .chPresent n.val = true)
    (hup : ((takeRequest s r).chase n.val).draining = false)
    (hstate : (takeRequest s r).get .chState n.val = chStopped ∨ (takeRequest s r).get .chState n.val = chEmpty)
    (hslot : slotCtx (takeRequest s r) n.val slot.val = some k)
    (hctx : ((takeRequest s r).context k).resetting = false) :
    exec (.contextUnbind r n slot) s = .next (answer (unbindContext (takeRequest s r) n.val k) r cOk []) := by
  have hexec : exec (.contextUnbind r n slot) s = execContextUnbind r n slot s := rfl
  unfold execContextUnbind at hexec
  rw [firmware_served hserved] at hexec
  generalize takeRequest s r = u at *
  have hidle : (u.get .chState n.val == chStopped || u.get .chState n.val == chEmpty) = true := by
    obtain h | h := hstate <;> simp [h]
  dsimp only at hexec
  rw [hmay, if_neg (by decide), hthere, hup, hidle, if_neg (by decide), hslot] at hexec
  dsimp only at hexec
  rwa [hctx, if_neg (by decide)] at hexec

/-! ### A chase is deleted -/

/-- Undoing the binding of one context leaves every other register of another. -/
theorem unbindContext_other (n c : Nat) {f : Fld} (hside : f ∉ sideRegs) {j : Nat} (hj : f ≠ .genCtx ∨ j ≠ c)
    (h0 : f ∉ [Fld.ctxChase, .ctxSlot, .ctxEncoder, .ctxBound, .ctxMargin, .ctxGuard, .ctxNrMask, .ctxNrWidth,
      .galEnabled, .trigNext, .trigPitch] ∨ j ≠ c) : (unbindContext s n c).get f j = s.get f j := by
  have hput : ∀ g v (u : State), (f ≠ g ∨ j ≠ c) → (u.put g c v).get f j = u.get f j := fun g v u h => by
    refine get_put_other u (fun e => ?_) v
    obtain ⟨hf, hjc⟩ := Prod.ext_iff.mp e
    exact h.elim (fun h => h hf) (fun h => h hjc)
  simp only [List.mem_cons, List.not_mem_nil, or_false, not_or] at h0
  unfold unbindContext nextCtxGen
  dsimp only
  rw [get_setCtx, hput _ _ _ (by tauto), hput _ _ _ (by tauto), hput _ _ _ (by tauto), hput _ _ _ (by tauto),
    hput _ _ _ (by tauto), hput _ _ _ (by tauto), hput _ _ _ (by tauto), hput _ _ _ (by tauto), hput _ _ _ (by tauto),
    hput _ _ _ (by tauto), hput _ _ _ (by tauto), get_nextGeneration _ hside, hput _ _ _ hj,
    side_disarmOneShots _ hside, side_discardApplies _ hside, side_unbindItems _ hside]

/-- After every context of a list has been unbound, none of them is, and its galley is off. -/
theorem foldl_unbindContext (n : Nat) (l : List Nat) : let t := l.foldl (fun s c => unbindContext s n c) s
    (∀ j, t.get .genChase j = s.get .genChase j) ∧
      ∀ k, (k ∈ l ∨ (s.get .ctxBound k = 0 ∧ s.get .galEnabled k = 0)) →
        t.get .ctxBound k = 0 ∧ t.get .galEnabled k = 0 := by
  induction l generalizing s with
  | nil => exact ⟨fun _ => rfl, fun k h => h.resolve_left (by simp)⟩
  | cons c l ih =>
    obtain ⟨hgen, hoff⟩ := ih (unbindContext s n c)
    rw [List.foldl_cons]
    refine ⟨fun j => (hgen j).trans (unbindContext_other s n c (by decide) (.inl (by decide)) (.inl (by decide))),
      fun k hk => hoff k ?_⟩
    by_cases hkc : k = c
    · rw [hkc]
      obtain ⟨hbound, hgalley, -⟩ := unbindContext_unbinds s n c
      exact .inr ⟨hbound, hgalley⟩
    · refine hk.imp (fun hmem => (List.mem_cons.mp hmem).resolve_left hkc) (fun h => ?_)
      rw [unbindContext_other s n c (f := .ctxBound) (by decide) (.inl (by decide)) (.inr hkc),
        unbindContext_other s n c (f := .galEnabled) (by decide) (.inl (by decide)) (.inr hkc)]
      exact h

theorem get_dropForme (n : Nat) {f : Fld} (hside : f ∉ sideRegs)
    (hf : f ∉ [Fld.chPlacement, .chAltUsed, .chPatched, .formeId, .bandCycles, .failoverTime, .chProof, .chState,
      .trnState]) (i : Nat) : (dropForme s n).get f i = s.get f i := by
  simp only [List.mem_cons, List.not_mem_nil, or_false, not_or] at hf
  obtain ⟨h1, h2, h3, h4, h5, h6, h7, h8, h9⟩ := hf
  unfold dropForme clearFormeRegs
  dsimp only
  rw [get_put_ne _ h7, get_put_ne _ h6, get_put_ne _ h5, get_put_ne _ h4, get_put_ne _ h3, get_put_ne _ h2,
    get_put_ne _ h1, get_put_ne _ h8, get_setChase]
  split
  · rw [get_put_ne _ h9, side_isolateCopies _ hside, side_dropPatch _ hside]
  · rw [side_isolateCopies _ hside, side_dropPatch _ hside]

theorem chaseDelete_deletes {r : Req} (n : ChaseNo) (hserved : served s r false false)
    (hpf0 : senderFn (takeRequest s r) r.sender.toNat = 0) (hthere : (takeRequest s r).flag .chPresent n.val = true)
    (hup : ((takeRequest s r).chase n.val).draining = false)
    (hctxs : ∀ k ∈ boundTo (takeRequest s r) n.val, ((takeRequest s r).context k).resetting = false)
    (hstate : (takeRequest s r).get .chState n.val = chEmpty ∨ (takeRequest s r).get .chState n.val = chStopped) :
    ∃ t, exec (.chaseDelete r n) s = .next (answer t r cOk []) ∧ t.get .chPresent n.val = 0 ∧
      t.get .genChase n.val = ((takeRequest s r).get .genChase n.val + 1) % 256 ∧ t.chase n.val = Chase.reset ∧
      ∀ k ∈ boundTo (takeRequest s r) n.val, t.get .ctxBound k = 0 ∧ t.get .galEnabled k = 0 := by
  have hexec := ofPf0_runs (c := .chaseDelete r n) (run := _) rfl hserved hpf0
  dsimp only at hexec
  generalize takeRequest s r = u at *
  have hidle : (u.get .chState n.val == chEmpty || u.get .chState n.val == chStopped) = true := by
    obtain h | h := hstate <;> simp [h]
  have hnone : (boundTo u n.val).any (fun c => (u.context c).resetting) = false := by
    rw [List.any_eq_false]
    exact fun k hk => by simp [hctxs k hk]
  rw [hthere, hup, hnone, hidle, if_neg (by decide)] at hexec
  obtain ⟨hgen, hoff⟩ := foldl_unbindContext u n.val (boundTo u n.val)
  generalize (boundTo u n.val).foldl (fun s c => unbindContext s n.val c) u = v at hexec hgen hoff
  have hkept : ∀ f, f ∉ sideRegs → f ∉ [Fld.genChase, .chPlacement, .chAltUsed, .chPatched, .formeId, .bandCycles,
      .failoverTime, .chProof, .chState, .trnState] → ∀ i,
      (nextChaseGen (dropForme v n.val) n.val).get f i = v.get f i := fun f hside hf i => by
    simp only [List.mem_cons, not_or] at hf
    rw [nextChaseGen, get_nextGeneration _ hside, get_put_ne _ hf.1, get_dropForme _ _ hside (by simpa using hf.2)]
  have hnext : (nextChaseGen (dropForme v n.val) n.val).get .genChase n.val = (u.get .genChase n.val + 1) % 256 := by
    rw [nextChaseGen, get_nextGeneration _ (by decide), get_put_same, get_dropForme _ _ (by decide) (by decide), hgen]
    exact Nat.mod_mod ..
  refine ⟨_, hexec, ?_, ?_, chase_setChase .., fun k hk => ?_⟩
  · simp only [get_setChase, get_put, reduceCtorEq, false_and, if_false, and_self, if_true]
    rfl
  · simp only [get_setChase, get_put, reduceCtorEq, false_and, if_false]
    exact hnext
  · simp only [get_setChase, get_put, reduceCtorEq, false_and, if_false]
    rw [hkept _ (by decide) (by decide), hkept _ (by decide) (by decide)]
    exact hoff k (.inl hk)

end

/-! ### The obligation -/

/-- Settles O35: each command by its checks and by what the binding, or its end, leaves. -/
theorem chasesAndContextsAreBound : Obligations.ChasesAndContextsAreBound := by
  unfold Obligations.ChasesAndContextsAreBound
  refine ⟨⟨?_, ?_⟩, ?_, ?_⟩
  · intro s r n owner cores g lp ga rh u l hserved hpf0 habsent hshape hfree hthere
    exact ⟨_, chaseCreate_creates s n owner g lp ga rh hserved hpf0 habsent hshape hfree hthere,
      createChase_creates u n.val owner.val l g lp.toNat ga.toNat rh.toNat (lt_trans owner.isLt (by decide)) lp.isLt⟩
  · exact fun s r n hserved hpf0 hthere hup hctxs hstate =>
      chaseDelete_deletes s n hserved hpf0 hthere hup hctxs hstate
  · intro s r n slot k p u hserved hmay hpitch hlast hmargin hguard howner hthere hloaded hup hctx hfree hslot hpos
      hwide hok
    exact ⟨_, contextBind_binds s n slot k hserved hmay hpitch hlast hmargin hguard howner hthere hloaded hup hctx hfree
      hslot hpos hwide hok, bindContext_binds u n.val slot.val k.val p n.isLt slot.isLt hmargin hguard⟩
  · intro s r n slot k u hserved hmay hthere hup hstate hslot hctx
    exact ⟨_, contextUnbind_unbinds s n slot hserved hmay hthere hup hstate hslot hctx, unbindContext_unbinds u n.val k⟩

end Sys2Proof.Proofs

/-! The logits a gate keeps (R154) and the order of a combination's terms (R65, R156). -/

namespace Sys2Proof.Proofs

open Sys2Proof.Machine Sys2Proof.Safety Sys2Proof.Laws

/-! ### The rank of logits -/

/-- A logit may stand ahead of another that does not come before it. -/
def LogitLe (a b : Nat × Val) : Prop := logitBefore b a = false

section
variable {a b c : Nat × Val} (ha : IsNumber a.2) (hb : IsNumber b.2)
include ha hb

theorem logitLe_iff : LogitLe a b ↔ valReal b.2 ≤ valReal a.2 ∧ (valReal b.2 < valReal a.2 ∨ a.1 ≤ b.1) := by
  have hab := lt_iff_valReal_lt ha hb
  have hba := lt_iff_valReal_lt hb ha
  rw [LogitLe, logitBefore, Bool.or_eq_false_iff, Bool.and_eq_false_iff, Bool.not_eq_false', ← Bool.not_eq_true, hab,
    hba, not_lt, decide_eq_false_iff_not, not_lt]

theorem logitLe_of_before (h : logitBefore a b = true) : LogitLe a b := by
  rw [logitLe_iff ha hb]
  rw [logitBefore, Bool.or_eq_true, Bool.and_eq_true, Bool.not_eq_true', ← Bool.not_eq_true, lt_iff_valReal_lt ha hb,
    lt_iff_valReal_lt hb ha, not_lt, decide_eq_true_eq] at h
  obtain hlogit | ⟨hlogit, hindex⟩ := h
  · exact ⟨hlogit.le, .inl hlogit⟩
  · exact ⟨hlogit, .inr hindex.le⟩

theorem logitLe_trans (hc : IsNumber c.2) (hab : LogitLe a b) (hbc : LogitLe b c) : LogitLe a c := by
  obtain ⟨hba, hab⟩ := (logitLe_iff ha hb).mp hab
  obtain ⟨hcb, hbc⟩ := (logitLe_iff hb hc).mp hbc
  refine (logitLe_iff ha hc).mpr ⟨hcb.trans hba, ?_⟩
  obtain h | hab := hab
  · exact .inl (hcb.trans_lt h)
  · exact hbc.imp (fun h => h.trans_le hba) hab.trans

end

theorem logitInsert_perm (e : Nat × Val) (l : List (Nat × Val)) : (logitInsert e l).Perm (e :: l) := by
  induction l with
  | nil => rfl
  | cons c l ih =>
    rw [logitInsert]
    split
    · rfl
    · exact (ih.cons c).trans (.swap e c l)

theorem logitInsert_ranked {e : Nat × Val} {l : List (Nat × Val)} (he : IsNumber e.2) (hl : ∀ c ∈ l, IsNumber c.2)
    (h : l.Pairwise LogitLe) : (logitInsert e l).Pairwise LogitLe := by
  induction l with
  | nil => exact List.pairwise_singleton _ e
  | cons c l ih =>
    obtain ⟨hc, hrest⟩ := List.forall_mem_cons.mp hl
    obtain ⟨hcl, hranked⟩ := List.pairwise_cons.mp h
    rw [logitInsert]
    split
    case isTrue hbefore =>
      have hec : LogitLe e c := logitLe_of_before he hc hbefore
      refine List.pairwise_cons.mpr ⟨List.forall_mem_cons.mpr ⟨hec, fun x hx => ?_⟩, h⟩
      exact logitLe_trans he hc (hrest x hx) hec (hcl x hx)
    case isFalse hbefore =>
      refine List.pairwise_cons.mpr ⟨fun x hx => ?_, ih hrest hranked⟩
      obtain rfl | hx := List.mem_cons.mp ((logitInsert_perm e l).mem_iff.mp hx)
      · exact Bool.eq_false_iff.mpr hbefore
      · exact hcl x hx

/-- The logits put one by one into a ranked list. -/
def rankLogits (l acc : List (Nat × Val)) : List (Nat × Val) := l.foldl (fun acc e => logitInsert e acc) acc

theorem rankLogits_perm (l acc : List (Nat × Val)) : (rankLogits l acc).Perm (l ++ acc) := by
  induction l generalizing acc with
  | nil => rfl
  | cons e l ih =>
    exact (ih (logitInsert e acc)).trans (((logitInsert_perm e acc).append_left l).trans List.perm_middle)

theorem rankLogits_ranked {l acc : List (Nat × Val)} (hl : ∀ e ∈ l, IsNumber e.2) (hacc : ∀ e ∈ acc, IsNumber e.2)
    (h : acc.Pairwise LogitLe) : (rankLogits l acc).Pairwise LogitLe := by
  induction l generalizing acc with
  | nil => exact h
  | cons e l ih =>
    obtain ⟨he, hrest⟩ := List.forall_mem_cons.mp hl
    refine ih hrest (fun x hx => ?_) (logitInsert_ranked he hacc h)
    obtain rfl | hx := List.mem_cons.mp ((logitInsert_perm e acc).mem_iff.mp hx)
    · exact he
    · exact hacc x hx

/-! ### The logits a gate keeps -/

/-- The logits that are not NaN, each under its own index. -/
def realLogits (l : List Val) : List (Nat × Val) := (l.zipIdx.map (fun e => (e.2, e.1))).filter (fun e => e.2 != .nan)

theorem topLogits_eq (k : Nat) (l : List Val) : topLogits k l = (rankLogits (realLogits l) []).take k := rfl

theorem mem_realLogits {l : List Val} {e : Nat × Val} : e ∈ realLogits l ↔ l[e.1]? = some e.2 ∧ e.2 ≠ .nan := by
  obtain ⟨i, v⟩ := e
  rw [realLogits, List.mem_filter, bne_iff_ne, List.mem_map]
  refine and_congr_left fun _ => ⟨fun ⟨p, hp, he⟩ => ?_, fun h => ⟨(v, i), List.mem_zipIdx_iff_getElem?.mpr h, rfl⟩⟩
  cases he
  exact List.mem_zipIdx_iff_getElem?.mp hp

theorem length_realLogits (l : List Val) : (realLogits l).length = (l.filter (fun v => v != .nan)).length := by
  have hvalues : (l.zipIdx.map (fun e => (e.2, e.1))).map Prod.snd = l := by
    rw [List.map_map]
    exact List.zipIdx_map_fst 0 l
  conv_rhs => rw [← hvalues, List.filter_map, List.length_map]
  rfl

theorem mem_topLogits {k : Nat} {l : List Val} {e : Nat × Val} (h : e ∈ topLogits k l) : e ∈ realLogits l := by
  rw [topLogits_eq] at h
  simpa using (rankLogits_perm (realLogits l) []).mem_iff.mp (List.mem_of_mem_take h)

theorem length_topLogits (k : Nat) (l : List Val) :
    (topLogits k l).length = min k (l.filter (fun v => v != .nan)).length := by
  rw [topLogits_eq, List.length_take, (rankLogits_perm _ _).length_eq, List.append_nil, length_realLogits]

/-- No logit that was left out comes before one that was kept. -/
theorem topLogits_best {k : Nat} {l : List Val} (hl : ∀ b n d, Val.fin b n d ∈ l → 0 < d) {e : Nat × Val}
    (he : e ∈ topLogits k l) {i : Nat} {v : Val} (hi : l[i]? = some v) (hv : v ≠ .nan) (hout : (i, v) ∉ topLogits k l) :
    logitBefore (i, v) e = false := by
  have hnumber : ∀ x ∈ realLogits l, IsNumber x.2 := fun x hx => by
    obtain ⟨hx, hnan⟩ := mem_realLogits.mp hx
    have hmem : x.2 ∈ l := List.mem_of_getElem? hx
    match hval : x.2 with
    | .nan => exact absurd hval hnan
    | .inf _ => trivial
    | .fin b n d => exact hl b n d (hval ▸ hmem)
  have hranked := rankLogits_ranked hnumber (acc := []) (by simp) .nil
  have hmem : (i, v) ∈ rankLogits (realLogits l) [] :=
    (rankLogits_perm _ _).mem_iff.mpr (by simpa using mem_realLogits.mpr ⟨hi, hv⟩)
  rw [topLogits_eq] at he hout
  rw [← List.take_append_drop k (rankLogits (realLogits l) [])] at hranked hmem
  exact (List.pairwise_append.mp hranked).2.2 e he _ ((List.mem_append.mp hmem).resolve_left hout)

/-- The entries of a gate that name an expert: the index of each logit kept, with its weight. -/
theorem gateEntries_eq (k : Nat) (l : List Val) : ∃ ws : List (Ev Val), ws.length = (topLogits k l).length ∧
    (gateEntries k l).1 = ((topLogits k l).zip ws).map (fun e => (e.1.1, bits32 e.2.val)) ++
      List.replicate (k - (((topLogits k l).zip ws).map (fun e => (e.1.1, bits32 e.2.val))).length)
        (0xFFFFFFFF, 0) := by
  refine ⟨_, ?_, rfl⟩
  rw [List.length_map, gateExps, List.length_map]

theorem length_gateEntries (k : Nat) (l : List Val) : (gateEntries k l).1.length = k := by
  obtain ⟨ws, hws, hentries⟩ := gateEntries_eq k l
  have htop : (topLogits k l).length ≤ k := length_topLogits k l ▸ min_le_left ..
  rw [hentries, List.length_append, List.length_replicate, List.length_map, List.length_zip, hws, min_self]
  omega

theorem gateEntries_names {k : Nat} {l : List Val} {e : Nat × Nat} (h : e ∈ (gateEntries k l).1) :
    e = (0xFFFFFFFF, 0) ∨ ∃ v, (e.1, v) ∈ topLogits k l := by
  obtain ⟨ws, -, hentries⟩ := gateEntries_eq k l
  rw [hentries, List.mem_append] at h
  refine h.symm.imp List.eq_of_mem_replicate (fun hmem => ?_)
  obtain ⟨p, hp, rfl⟩ := List.mem_map.mp hmem
  exact ⟨p.1.2, (List.of_mem_zip hp).1⟩

/-! ### The terms of a combination -/

theorem expertInsert_perm (e : Nat × Nat × Nat) (l : List (Nat × Nat × Nat)) : (expertInsert e l).Perm (e :: l) := by
  induction l with
  | nil => rfl
  | cons c l ih =>
    rw [expertInsert]
    split
    · rfl
    · exact (ih.cons c).trans (.swap e c l)

theorem expertInsert_sorted (e : Nat × Nat × Nat) {l : List (Nat × Nat × Nat)}
    (h : l.Pairwise (fun a b => a.2.1 ≤ b.2.1)) : (expertInsert e l).Pairwise (fun a b => a.2.1 ≤ b.2.1) := by
  induction l with
  | nil => exact List.pairwise_singleton _ e
  | cons c l ih =>
    obtain ⟨hcl, hsorted⟩ := List.pairwise_cons.mp h
    rw [expertInsert]
    split
    case isTrue hlt =>
      exact List.pairwise_cons.mpr ⟨List.forall_mem_cons.mpr ⟨hlt.le, fun x hx => hlt.le.trans (hcl x hx)⟩, h⟩
    case isFalse hlt =>
      refine List.pairwise_cons.mpr ⟨fun x hx => ?_, ih hsorted⟩
      obtain rfl | hx := List.mem_cons.mp ((expertInsert_perm e l).mem_iff.mp hx)
      · exact not_lt.mp hlt
      · exact hcl x hx

theorem byExpert_sorts (l : List (Nat × Nat × Nat)) :
    (byExpert l).Perm l ∧ (byExpert l).Pairwise (fun a b => a.2.1 ≤ b.2.1) := by
  have hfold : ∀ acc : List (Nat × Nat × Nat), acc.Pairwise (fun a b => a.2.1 ≤ b.2.1) →
      (l.foldl (fun acc e => expertInsert e acc) acc).Perm (l ++ acc) ∧
        (l.foldl (fun acc e => expertInsert e acc) acc).Pairwise (fun a b => a.2.1 ≤ b.2.1) := by
    induction l with
    | nil => exact fun acc h => ⟨.rfl, h⟩
    | cons e l ih =>
      intro acc h
      obtain ⟨hperm, hsorted⟩ := ih (expertInsert e acc) (expertInsert_sorted e h)
      exact ⟨hperm.trans (((expertInsert_perm e acc).append_left l).trans List.perm_middle), hsorted⟩
  have h := hfold [] .nil
  rwa [List.append_nil] at h

theorem mem_termOrder_fast {gate : List (Nat × Nat × Nat)} {arrived : List Nat} {e : Nat × Nat × Nat}
    (h : e ∈ termOrder false gate arrived) : e ∈ gate ∧ e.2.1 ≠ 0xFFFFFFFF := by
  suffices hreal : e ∈ gate.filter (fun e => e.2.1 != 0xFFFFFFFF) by simpa using List.mem_filter.mp hreal
  obtain harrived | hcommon := List.mem_append.mp h
  · obtain ⟨r, -, hfind⟩ := List.mem_filterMap.mp harrived
    exact List.mem_of_find?_eq_some hfind
  · exact List.mem_of_mem_filter ((byExpert_sorts _).1.mem_iff.mp hcommon)

/-! ### The obligation -/

/-- Settles O24: the ranked logits give the entries; the insertion by expert index gives the terms. -/
theorem gateChoosesTheBestLogits : Obligations.GateChoosesTheBestLogits := by
  unfold Obligations.GateChoosesTheBestLogits
  refine ⟨fun k l => ⟨length_gateEntries k l, fun e he => ?_, length_topLogits k l,
    fun hl e he i v hi hv hout => topLogits_best hl he hi hv hout, fun e he => gateEntries_names he⟩,
    fun gate arrived => ⟨(byExpert_sorts _).1, (byExpert_sorts _).2, rfl, fun e he => mem_termOrder_fast he⟩⟩
  obtain ⟨hget, hnan⟩ := mem_realLogits.mp (mem_topLogits he)
  obtain ⟨hlt, hval⟩ := List.getElem?_eq_some_iff.mp hget
  exact ⟨hlt, hval, hnan⟩

end Sys2Proof.Proofs

/-! A tensor in plain layout reads back as it was written (R32 to R34, R70). -/

namespace Sys2Proof.Proofs

open Sys2Proof.Machine Sys2Proof.Safety Sys2Proof.Laws

/-! ### Packed rows -/

/-- Of pieces of one length, joined, each stands at its place. -/
theorem slice_flatMap {α β : Type} {g : α → List β} {k : Nat} (hg : ∀ a, (g a).length = k) (l : List α) {i : Nat}
    (hi : i < l.length) : ((l.flatMap g).drop (i * k)).take k = g l[i] := by
  induction l generalizing i with
  | nil => exact absurd hi (Nat.not_lt_zero i)
  | cons a l ih =>
    cases i with
    | zero => simp [← hg a]
    | succ i =>
      have hlen : (i + 1) * k = (g a).length + i * k := by rw [hg a, Nat.succ_mul, Nat.add_comm]
      rw [List.flatMap_cons, hlen, List.drop_append, List.drop_of_length_le (by omega),
        Nat.add_sub_cancel_left, List.nil_append, ih]
      rfl

theorem length_flatMap_of {α β : Type} {g : α → List β} {k : Nat} (hg : ∀ a, (g a).length = k) (l : List α) :
    (l.flatMap g).length = l.length * k := by
  rw [List.length_flatMap, List.map_congr_left (fun a _ => hg a), List.map_const', List.sum_replicate, smul_eq_mul]

theorem length_packCodes (f : Fmt) (l : List Nat) : (packCodes f l).length = packedBytes f l.length := by
  have hbytes : ∀ k, (l.flatMap (natLe k)).length = l.length * k := fun k => length_flatMap_of (length_natLe k) l
  cases f
  case u12p => exact (length_flatMap_of (fun a => length_natLe 3 _) _).trans (by rw [List.length_range]; rfl)
  case s4 | sb4 => simp only [packCodes, packedBytes, Fmt.bits, List.length_map, List.length_range]; omega
  all_goals simp only [packCodes, packedBytes, Fmt.bits, hbytes]; omega

section
variable {x : Src} {a : Nat} {l : List Nat}

/-- A source that is free of hazards reads its memory. -/
theorem le_of_stored (hfree : x.free = none) (b n : Nat) : x.le b n = leNat (memBytes x.mem (x.at0 + b) n) := by
  simp only [Src.le, Src.byte, hfree, memBytes, Nat.add_assoc]

variable {f : Fmt} {i : Nat} (hfree : x.free = none)
  (hrow : memBytes x.mem (x.at0 + a) (packedBytes f l.length) = packCodes f l) (hi : i < l.length)
include hfree hrow

/-- A whole number of bytes within a packed row. -/
theorem le_packed {k n : Nat} (h : k + n ≤ packedBytes f l.length) :
    x.le (a + k) n = leNat (((packCodes f l).drop k).take n) := by
  rw [le_of_stored hfree, ← Nat.add_assoc, memBytes_slice _ _ _ _ h, hrow]

include hi

/-- An element of whole bytes reads back. -/
theorem le_bytes {k : Nat} (hpack : packCodes f l = l.flatMap (natLe k)) (hcode : l[i] < 256 ^ k) :
    x.le (a + i * k) k = l[i] := by
  have hlen : i * k + k ≤ packedBytes f l.length := by
    rw [← length_packCodes, hpack, length_flatMap_of (length_natLe k)]
    exact (Nat.succ_mul i k).symm.trans_le (Nat.mul_le_mul_right k hi)
  rw [le_packed hfree hrow hlen, hpack, slice_flatMap (length_natLe k) l hi, leNat_natLe, Nat.mod_eq_of_lt hcode]

/-- A packed half byte reads back. -/
theorem byte_nibbles (hpack : packCodes f l = (List.range ((l.length + 1) / 2)).map
      (fun k => byteOf (l.getD (2 * k) 0 % 16 + 16 * (l.getD (2 * k + 1) 0 % 16)))) (hcode : l[i] < 16) :
    bitsAt (x.byte (a + i / 2)).toNat (4 * (i % 2)) 4 = l[i] := by
  have hlt : i / 2 < (l.length + 1) / 2 := by omega
  have hbyte : x.byte (a + i / 2) = byteOf (l.getD (2 * (i / 2)) 0 % 16 + 16 * (l.getD (2 * (i / 2) + 1) 0 % 16)) := by
    have hget : (packCodes f l)[i / 2]? = some (x.byte (a + i / 2)) := by
      have hin : i / 2 < packedBytes f l.length := by rw [← length_packCodes, hpack]; simpa using hlt
      rw [← hrow, memBytes, List.getElem?_map, List.getElem?_range hin, Src.byte, hfree, Option.map_some, Nat.add_assoc]
    rw [hpack, List.getElem?_map, List.getElem?_range hlt] at hget
    exact (Option.some.inj hget).symm
  have hval : (x.byte (a + i / 2)).toNat = l.getD (2 * (i / 2)) 0 % 16 + 16 * (l.getD (2 * (i / 2) + 1) 0 % 16) := by
    rw [hbyte, byteOf, BitVec.toNat_ofNat, Nat.mod_eq_of_lt]
    omega
  rw [hval, bitsAt]
  obtain hpar | hpar := Nat.mod_two_eq_zero_or_one i
  · have hplace : 2 * (i / 2) = i := by omega
    have hget : l.getD (2 * (i / 2)) 0 = l[i] := by rw [hplace, List.getD_eq_getElem _ _ hi]
    rw [hget, hpar]
    omega
  · have hplace : 2 * (i / 2) + 1 = i := by omega
    have hget : l.getD (2 * (i / 2) + 1) 0 = l[i] := by rw [hplace, List.getD_eq_getElem _ _ hi]
    rw [hget, hpar]
    omega

/-- An element of a packed pair of 12 bits reads back. -/
theorem le_pairs (hf : f = .u12p) (hcode : l[i] < 4096) :
    (if i % 2 = 0 then x.le (a + i / 2 * 3) 3 % 4096 else x.le (a + i / 2 * 3) 3 / 4096) = l[i] := by
  subst hf
  have hlt : i / 2 < (l.length + 1) / 2 := by omega
  have hlen : i / 2 * 3 + 3 ≤ packedBytes .u12p l.length := by simp only [packedBytes]; omega
  have hval : x.le (a + i / 2 * 3) 3 = l.getD (2 * (i / 2)) 0 % 4096 + 4096 * (l.getD (2 * (i / 2) + 1) 0 % 4096) := by
    rw [le_packed hfree hrow hlen, packCodes, slice_flatMap (fun k => length_natLe 3 _) _ (by simpa using hlt),
      leNat_natLe, List.getElem_range, Nat.mod_eq_of_lt]
    omega
  rw [hval]
  obtain hpar | hpar := Nat.mod_two_eq_zero_or_one i
  · have hplace : 2 * (i / 2) = i := by omega
    have hget : l.getD (2 * (i / 2)) 0 = l[i] := by rw [hplace, List.getD_eq_getElem _ _ hi]
    rw [hget, if_pos hpar]
    omega
  · have hplace : 2 * (i / 2) + 1 = i := by omega
    have hget : l.getD (2 * (i / 2) + 1) 0 = l[i] := by rw [hplace, List.getD_eq_getElem _ _ hi]
    rw [hget, if_neg (by omega)]
    omega

/-- Every element of a packed row reads back. -/
theorem packed_packCodes (hcode : l[i] < 2 ^ f.bits) : x.packed f a i = l[i] := by
  cases f
  case u12p => exact le_pairs hfree hrow hi rfl hcode
  case s4 | sb4 => exact byte_nibbles hfree hrow hi rfl hcode
  case u8 | s8 | e4m3 | e5m2 => exact le_bytes hfree hrow hi (k := 1) rfl hcode
  case u16 | f16 | bf16 => exact le_bytes hfree hrow hi (k := 2) rfl hcode
  case s32 | f32 => exact le_bytes hfree hrow hi (k := 4) rfl hcode

end

/-! ### Rows at their places -/

/-- Rows stored one after another, one stride apart. -/
def storeRows (m : Memory) (b stride : Nat) (row : Nat → List Byte) (n : Nat) : Memory :=
  (List.range n).foldl (fun m i => memStore m (b + i * stride) (row i)) m

section
variable {m : Memory} (hm : Memory.wf m = true) {b stride len : Nat} {row : Nat → List Byte}
include hm

theorem storeRows_wf (n : Nat) : Memory.wf (storeRows m b stride row n) = true := by
  induction n with
  | zero => exact hm
  | succ n ih =>
    rw [storeRows, List.range_succ, List.foldl_append]
    exact memStore_wf ih _ _

/-- Rows no longer than their stride each keep their bytes. -/
theorem memBytes_storeRows (hlen : ∀ i, (row i).length = len) (hstride : len ≤ stride) {n h : Nat} (hh : h < n) :
    memBytes (storeRows m b stride row n) (b + h * stride) len = row h := by
  induction n with
  | zero => exact absurd hh (Nat.not_lt_zero h)
  | succ n ih =>
    have hwf := storeRows_wf hm (b := b) (stride := stride) (row := row) n
    rw [storeRows, List.range_succ, List.foldl_append]
    change memBytes (memStore (storeRows m b stride row n) (b + n * stride) (row n)) (b + h * stride) len = row h
    obtain hlt | rfl := Nat.lt_succ_iff_lt_or_eq.mp hh
    · have hnext : (h + 1) * stride ≤ n * stride := Nat.mul_le_mul_right stride hlt
      rw [Nat.succ_mul] at hnext
      rw [memBytes_memStore_outside hwf _ (.inl (by omega)), ih hlt]
    · rw [← hlen h, memBytes_memStore hwf]

end

/-- Clearing a range leaves what lies beside it. -/
theorem memRead_memZero_outside {m : Memory} (hm : Memory.wf m = true) {lo hi a : Nat} (h : a < lo ∨ hi ≤ a) :
    memRead (memZero m lo hi) a = memRead m a := by
  induction m with
  | nil => rfl
  | cons c m ih =>
    obtain ⟨-, -, hwf⟩ := (wf_cons c m).mp hm
    have habove := wf_tail_above hm
    have hrest := ih hwf
    unfold memZero at hrest ⊢
    rw [List.filter_cons]
    split
    case isTrue => simp only [memRead, hrest]
    case isFalse hcut =>
      have hin : lo ≤ c.1 ∧ c.1 < hi := by simpa using hcut
      obtain hlo | hhi := h
      · rw [memRead_below (m := c :: m) (fun d hd => by cases hd; omega), memRead_below]
        intro d hd
        have := habove d (List.mem_of_mem_filter (List.mem_of_mem_head? hd))
        omega
      · rw [hrest, memRead, if_neg (by omega), if_neg (by omega)]

theorem memBytes_memZero_below {m : Memory} (hm : Memory.wf m = true) {lo b n : Nat} (hi : Nat) (h : b + n ≤ lo) :
    memBytes (memZero m lo hi) b n = memBytes m b n := by
  refine List.map_congr_left (fun i hin => memRead_memZero_outside hm (.inl ?_))
  have := List.mem_range.mp hin
  omega

/-! ### The obligation -/

section
variable (s : State) (q : SeqId) {d : Desc}

theorem spaceBase_setMem (n : Nat) (m : Memory) (e : Desc) : spaceBase (s.setMem n m) q e = spaceBase s q e := by
  unfold State.setMem
  split <;> rfl

theorem chase_setMem (i n : Nat) (m : Memory) : (s.setMem i m).chase n = s.chase n := by
  unfold State.setMem
  split <;> rfl

/-- A plain tensor is written row by row, then what its extent is rounded up by is cleared. -/
theorem writeTensor_plain (code : Nat → Nat → Nat → Nat) (hplain : d.layout = 3) (hring : d.ring = 0) :
    (writeTensor s q d 0 code).1 = s.setMem (spaceBase s q d).1
      (memZero (storeRows (s.memOf (spaceBase s q d).1) ((spaceBase s q d).2 + d.base) d.strideH
          (fun i => packCodes d.fmt ((List.range d.w).map (fun w => code i w 0))) d.h)
        ((spaceBase s q d).2 + d.base + d.bareExtent) ((spaceBase s q d).2 + d.base + d.extent)) := by
  have hfold : ∀ (m : Memory) (lost : Nat) (l : List Nat), (∀ i ∈ l, i < d.h) →
      (l.foldl (fun acc i => (List.range 1).foldl (fun acc cb =>
          (memStore acc.1 ((spaceBase s q d).2 + d.base + d.row (0 + i) cb) (rowImage d (code (0 + i)) cb).1,
            acc.2 + (rowImage d (code (0 + i)) cb).2)) acc) (m, lost)).1 =
        l.foldl (fun m i => memStore m ((spaceBase s q d).2 + d.base + i * d.strideH)
          (packCodes d.fmt ((List.range d.w).map (fun w => code i w 0)))) m := by
    intro m lost l hl
    induction l generalizing m lost with
    | nil => rfl
    | cons i l ih =>
      obtain ⟨hi, hrest⟩ := List.forall_mem_cons.mp hl
      have hrow : d.row (0 + i) 0 = i * d.strideH := by
        rw [Desc.row, Desc.line, Desc.lines, if_pos hring, if_pos hplain, Nat.zero_add, Nat.mod_eq_of_lt hi]
        rfl
      have himage : (rowImage d (code (0 + i)) 0).1 = packCodes d.fmt ((List.range d.w).map (fun w => code i w 0)) := by
        unfold rowImage
        dsimp only
        rw [if_pos hplain, Nat.zero_add]
        simp [hplain]
      rw [List.foldl_cons, List.foldl_cons, ← hrow, ← himage]
      exact ih _ _ hrest
  unfold writeTensor storeRows
  dsimp only
  rw [if_pos hplain, hfold _ _ _ (fun i hi => List.mem_range.mp hi)]

/-- Settles O16: each row keeps its bytes, and each packed element of a row reads back. -/
theorem plainTensorReadsBack : Obligations.PlainTensorReadsBack := by
  unfold Obligations.PlainTensorReadsBack
  dsimp only
  intro s q v code h w hmem hspace hfmt hplain hring hstride hh hw hcode hidle
  generalize descOf v = d at *
  have hbytes : d.rowBytes = packedBytes d.fmt d.w := if_pos hplain
  have hfits : packedBytes d.fmt d.w ≤ d.strideH := by
    rw [strideBad, if_pos hplain, hbytes] at hstride
    simp at hstride
    omega
  have hlen : ∀ i, (packCodes d.fmt ((List.range d.w).map (fun w => code i w 0))).length = packedBytes d.fmt d.w :=
    fun i => by rw [length_packCodes, List.length_map, List.length_range]
  have hbare : h * d.strideH + packedBytes d.fmt d.w ≤ d.bareExtent := by
    rw [Desc.bareExtent, Desc.lines, if_pos hring, if_pos hplain, hbytes]
    have := Nat.mul_le_mul_right d.strideH (Nat.le_sub_one_of_lt hh)
    omega
  rw [writeTensor_plain s q code hplain hring]
  have hwf := memOf_wf hmem (spaceBase s q d).1
  have hrow := memBytes_storeRows hwf (b := (spaceBase s q d).2 + d.base) hlen hfits hh
  rw [← memBytes_memZero_below (storeRows_wf hwf d.h) ((spaceBase s q d).2 + d.base + d.extent)
    (lo := (spaceBase s q d).2 + d.base + d.bareExtent) (by omega)] at hrow
  generalize memZero _ _ _ = m at *
  have hsrc : srcOf (s.setMem (spaceBase s q d).1 m) q d = ⟨d, m, (spaceBase s q d).2, none, none⟩ := by
    unfold srcOf
    dsimp only
    rw [spaceBase_setMem, chase_setMem, hidle, memOf_setMem_same]
    rfl
  have hline : d.row h 0 = h * d.strideH := by
    rw [Desc.row, Desc.line, Desc.lines, if_pos hring, if_pos hplain, Nat.mod_eq_of_lt hh]
    rfl
  have hseen : (Src.mk d m (spaceBase s q d).2 none none).unseen h = false := by simp [Src.unseen]
  rw [hsrc, Src.elem]
  dsimp only
  rw [if_neg (by simp [hplain, hseen]), if_pos hplain, Nat.zero_div, hline]
  have hget : ((List.range d.w).map (fun w => code h w 0))[w]'(by simpa using hw) = code h w 0 := by simp
  rw [packed_packCodes (l := (List.range d.w).map (fun w => code h w 0)) rfl _ (by simpa using hw)]
  · exact hget
  · rwa [hget]
  · rw [List.length_map, List.length_range, ← Nat.add_assoc]
    exact hrow

end

end Sys2Proof.Proofs

/-! Resets of the module and of its functions, teardowns, and the service that follows them (R352, R409 to R423). -/

namespace Sys2Proof.Proofs

open Sys2Proof.Machine Sys2Proof.Safety Sys2Proof.Laws

section
variable (s : State)

/-! ### What resets return to its Reset value -/

/-- A reset returns a field to its Reset value unless it keeps or does not reach it. -/
theorem get_resetRegs (keep : Kept → Bool) (reach : Fld → Nat → Bool) (f : Fld) (i : Nat) :
    (s.resetRegs keep reach).get f i =
      if (keep f.info.kept || !reach f i) = true then s.get f i else f.info.reset := by
  unfold State.get State.resetRegs
  dsimp only
  rw [List.find?_filter]
  by_cases h : (keep f.info.kept || !reach f i) = true
  · rw [if_pos h]
    have hsame : (fun e : (Fld × Nat) × Nat => decide ((keep e.1.1.info.kept || !reach e.1.1 e.1.2) = true ∧
        (e.1 == (f, i)) = true)) = fun e => e.1 == (f, i) := by
      funext e
      by_cases he : e.1 = (f, i)
      · simp [he, h]
      · simp [he]
    rw [hsame]
  · rw [if_neg h, List.find?_eq_none.mpr]
    intro e _
    by_cases he : e.1 = (f, i)
    · simp [he, h]
    · simp [he]

/-- The registers that the resets of the fabric and of functions change beyond those changed on the side. -/
def resetSides : List Fld :=
  [Fld.genDraining, .genChase, .genCtx, .mbxRxGen, .mbxDiscarded, .rhEpoch, .rhPresent, .rhRole, .rhJoining,
   .chPlacement, .chAltUsed, .chPatched, .formeId, .bandCycles, .failoverTime, .chProof, .chState, .trnState]

section
variable {f : Fld} (hside : f ∉ sideRegs) (hreset : f ∉ resetSides) (i : Nat)

include hside

theorem get_complete (m fn tag : Nat) (ring : Option Word) (code : Nat) (details : List Word) :
    (complete s m fn tag ring code details).get f i = s.get f i := side_complete s hside i ..

theorem get_answerResets (unit : Nat) : (answerResets s unit).get f i = s.get f i :=
  foldl_keeps (φ := fun t => t.get f i) (fun t _ => side_answer t hside i ..) _ _

include hreset

theorem get_resetReceiver (m : Nat) : (resetReceiver s m).get f i = s.get f i := by
  simp only [resetSides, List.mem_cons, not_or] at hreset
  unfold resetReceiver discardMessages
  refine (foldl_keeps (φ := fun t => t.get f i) (fun t h => ?_) _ _).trans ?_
  · rw [get_bump', if_neg (by tauto), get_complete _ hside]
  · rw [get_setMbox, get_put_ne _ (by tauto)]

theorem get_resetGranted (fn : Nat) : (resetGranted s fn).get f i = s.get f i := by
  refine foldl_keeps (φ := fun t => t.get f i) (fun t g => ?_) _ _
  split
  · exact get_resetReceiver t hside hreset i _
  · rfl

omit hside hreset in
theorem regs_forgetCtxLines (k : Nat) : (forgetCtxLines s k).regs = s.regs := by
  unfold forgetCtxLines
  split <;> rfl

omit hside hreset in
theorem regs_orphanCtx (k : Nat) : (orphanCtx s k).regs = s.regs := by
  unfold orphanCtx
  split <;> rfl

theorem get_drainCtx (k : Nat) : (drainCtx s k).get f i = s.get f i := by
  have hpeak : f ≠ .galPeak := fun e => hside (e ▸ by decide)
  simp only [resetSides, List.mem_cons, not_or] at hreset
  have hstale : ∀ t : State, (staleControls t k).get f i = t.get f i := fun t =>
    foldl_keeps (φ := fun t => t.get f i) (fun t c => side_answer t hside i ..) _ _
  unfold drainCtx
  dsimp only
  rw [get_put_ne _ hpeak, get_setCtx, hstale, get_of_regs (regs_orphanCtx ..), side_disarmOneShots _ hside,
    side_discardApplies _ hside, get_put_ne _ (by tauto), get_of_regs (regs_forgetCtxLines ..), nextCtxGen,
    get_nextGeneration _ hside, get_put_ne _ (by tauto)]

theorem get_clearChase (n : Nat) : (clearChase s n).get f i = s.get f i := by
  have hmonitor : (emptyMonitor s n).get f i = s.get f i := by
    unfold emptyMonitor
    dsimp only
    rw [get_setChase]
    refine side_foldl (fun t k => ?_) _ _
    split
    · rfl
    · exact side_logEvent t hside i ..
  have hload : ∀ t u : State, (match (t.chase n).load with
      | some l => answer u l.req cReceiverReset [BitVec.ofNat 32 (t.get .mbxRxGen (fwMbox t l.req.sender.toNat))]
      | none => u).get f i = u.get f i := fun t u => by
    split
    · exact side_answer u hside i ..
    · rfl
  simp only [resetSides, List.mem_cons, not_or] at hreset
  unfold clearChase leaveImposition
  dsimp only
  rw [get_setChase, get_setChase, get_put_ne _ (by tauto), get_put_ne _ (by tauto), get_put_ne _ (by tauto),
    get_put_ne _ (by tauto), nextChaseGen, get_nextGeneration _ hside, get_put_ne _ (by tauto),
    get_dropForme _ _ hside (by simp only [List.mem_cons, not_or]; tauto)]
  exact (hload ..).trans hmonitor

omit hside hreset in
theorem regs_outputsOff : (outputsOff s).regs = s.regs := by
  have hdrive : ∀ (t : State) c on at4, (driveTo t c on at4).regs = t.regs := fun t c on at4 => by
    unfold driveTo
    dsimp only
    split <;> rfl
  have hpulse : ∀ (t : State) c, (pulseOff t c).regs = t.regs := fun t c => by
    unfold pulseOff commandTo
    dsimp only
    split <;> rfl
  refine foldl_keeps (φ := State.regs) (fun t c => ?_) _ _
  dsimp only
  rw [hdrive]
  split
  · exact hpulse t c
  · rfl

omit hside hreset in
theorem get_clearLink (p : Nat) : (clearLink s p).get f i = s.get f i := rfl

omit hside hreset in
theorem get_emptyFabric : State.get { s with sram := [], istore := [], fqs := .empty } f i = s.get f i := rfl

theorem get_clearFabric : (clearFabric s).get f i = s.get f i := by
  unfold clearFabric
  dsimp only
  rw [side_foldl (fun t p => get_clearLink t i p), get_of_regs (regs_outputsOff _), get_emptyFabric,
    side_foldl (fun t n => get_clearChase t hside hreset i n)]

theorem get_fabricReset (hkept : f.info.kept.fab = true) : (fabricReset s).get f i = s.get f i := by
  have hpeak : f ≠ .galPeak := fun e => hside (e ▸ by decide)
  have hhold : ∀ (t : State) m, State.get { t with mgmt := m } f i = t.get f i := fun _ _ => rfl
  unfold fabricReset
  dsimp only
  rw [hhold, side_foldl (fun t k => get_put_ne _ hpeak _ _ _), side_endCopies _ hside, get_resetRegs, hkept,
    Bool.true_or, if_pos rfl, side_foldl (fun t k => get_drainCtx t hside hreset i k), get_clearFabric s hside hreset]

end

/-! ### Rings that a function level reset has cleared -/

/-- A ring that is off and at its start. -/
def ringCleared (r : Nat) : Prop := s.get .ringEnable r = 0 ∧ s.get .ringProd r = 0

end

section
variable {s : State} {r : Nat} (h : ringCleared s r)
include h

theorem cleared_of_regs {t : State} (hregs : t.regs = s.regs) : ringCleared t r :=
  ⟨(get_of_regs hregs _ _).trans h.1, (get_of_regs hregs _ _).trans h.2⟩

theorem cleared_put {f : Fld} (henable : .ringEnable ≠ f) (hprod : .ringProd ≠ f) (i v : Nat) :
    ringCleared (s.put f i v) r :=
  ⟨(get_put_ne _ henable _ _ _).trans h.1, (get_put_ne _ hprod _ _ _).trans h.2⟩

theorem cleared_setRing (q : Nat) (x : RingSt) : ringCleared (s.setRing q x) r := cleared_of_regs h rfl

theorem cleared_setMbox (m : Nat) (x : Mailbox) : ringCleared (s.setMbox m x) r := cleared_of_regs h rfl

theorem cleared_setCtx (k : Nat) (x : Context) : ringCleared (s.setCtx k x) r := cleared_of_regs h rfl

theorem cleared_bump {f : Fld} (henable : .ringEnable ≠ f) (hprod : .ringProd ≠ f) (i : Nat) :
    ringCleared (s.bump f i) r := cleared_put h henable hprod ..

theorem ringRuns_cleared : ringRuns s r = false := by
  rw [ringRuns, State.flag, h.1]
  rfl

theorem cleared_foldl {α : Type} {g : State → α → State} (hg : ∀ s a, ringCleared s r → ringCleared (g s a) r)
    (l : List α) : ringCleared (l.foldl g s) r := by
  induction l generalizing s with
  | nil => exact h
  | cons a l ih => exact ih (hg s a h)

theorem cleared_ringWrite {q : Nat} (hq : r ≠ q) (b : List Byte) : ringCleared (ringWrite s q b) r := by
  unfold ringWrite
  dsimp only
  have hput : ∀ (m : Memory) v, ringCleared (({ s with host := m } : State).put .ringProd q v) r := fun m v => by
    refine ⟨(get_put_ne _ (by decide) _ _ _).trans h.1, ?_⟩
    rw [get_put, if_neg (fun e => hq e.2)]
    exact h.2
  exact cleared_of_regs (hput _ _) (congrArg State.regs (ringAdvance_leaves ..).1 :)

theorem cleared_ringDrain (n q : Nat) : ringCleared (ringDrain n s q) r := by
  induction n generalizing s with
  | zero => exact h
  | succ n ih =>
    unfold ringDrain
    split
    case isFalse => exact h
    case isTrue hruns =>
      have hq : r ≠ q := fun e => by
        rw [← e, ringRuns_cleared h] at hruns
        simp at hruns
      dsimp only
      split
      · exact h
      · split
        · exact ih (cleared_ringWrite (cleared_setRing h _ _) hq _)
        · exact ih (cleared_ringWrite (cleared_setRing h _ _) hq _)

theorem cleared_stageRecord (q first : Nat) (b : List Byte) : ringCleared (stageRecord s q first b) r := by
  unfold stageRecord
  dsimp only
  split
  · exact cleared_ringDrain (cleared_setRing h _ _) _ _
  · exact cleared_setRing (cleared_bump h (by decide) (by decide) q) _ _

theorem cleared_complete (m fn tag : Nat) (ring : Option Word) (code : Nat) (details : List Word) :
    ringCleared (complete s m fn tag ring code details) r := by
  have hqueue : ∀ c, ringCleared (queueCompletion s m c) r := fun c => by
    unfold queueCompletion
    dsimp only
    split
    · exact cleared_of_regs h (regs_mailboxVector ..)
    · exact cleared_bump h (by decide) (by decide) m
  unfold complete
  split
  · split
    · exact cleared_stageRecord h _ _ _
    · exact hqueue _
  · exact hqueue _

theorem cleared_answer (q : Req) (code : Nat) (details : List Word) : ringCleared (answer s q code details) r :=
  cleared_complete h ..

theorem cleared_nextGeneration {f : Fld} (henable : .ringEnable ≠ f) (hprod : .ringProd ≠ f) (i id : Nat) :
    ringCleared (nextGeneration s f i id) r := by
  refine cleared_of_regs (cleared_foldl (cleared_put h henable hprod i _) (fun t q ht => ?_) _)
    (regs_staleSender ..)
  unfold quoinBreak
  split
  · refine cleared_put (cleared_put (cleared_put ?_ ?_ ?_ _ _) ?_ ?_ _ _) ?_ ?_ _ _
    · refine cleared_put (cleared_put (cleared_put ht ?_ ?_ _ _) ?_ ?_ _ _) ?_ ?_ _ _
      all_goals decide
    all_goals decide
  · exact ht

theorem cleared_resetGranted (fn : Nat) : ringCleared (resetGranted s fn) r := by
  refine cleared_foldl h (fun t g ht => ?_) _
  split
  · unfold resetReceiver discardMessages
    refine cleared_foldl (cleared_setMbox ?_ _ _) (fun u m hu => ?_) _
    · exact cleared_put ht (by decide) (by decide) _ _
    · exact cleared_bump (cleared_complete hu ..) (by decide) (by decide) _
  · exact ht

theorem cleared_resetRegs (keep : Kept → Bool) (reach : Fld → Nat → Bool) : ringCleared (s.resetRegs keep reach) r := by
  refine ⟨?_, ?_⟩
  · rw [get_resetRegs, h.1]
    exact ite_self _
  · rw [get_resetRegs, h.2]
    exact ite_self _

theorem cleared_drainCtx (k : Nat) : ringCleared (drainCtx s k) r := by
  have hforget : ringCleared (forgetCtxLines (nextCtxGen s k) k) r := by
    have hgen : ringCleared (nextCtxGen s k) r :=
      cleared_nextGeneration h (f := .genCtx) (by decide) (by decide) k (k + 1)
    exact cleared_of_regs hgen (regs_forgetCtxLines ..)
  have hdiscard : ∀ t, ringCleared t r → ringCleared (discardApplies t k) r := fun t ht => by
    unfold discardApplies
    dsimp only
    exact cleared_foldl (cleared_setCtx ht _ _) (fun u q hu => cleared_answer hu ..) _
  have horphan : ∀ t, ringCleared t r → ringCleared (orphanCtx t k) r := fun t ht =>
    cleared_of_regs ht (regs_orphanCtx ..)
  have hstale : ∀ t, ringCleared t r → ringCleared (staleControls t k) r := fun t ht => by
    unfold staleControls
    dsimp only
    exact cleared_foldl (cleared_setCtx ht _ _) (fun u q hu => cleared_answer hu ..) _
  unfold drainCtx disarmOneShots
  dsimp only
  refine cleared_put (cleared_setCtx (hstale _ (horphan _ (cleared_setCtx (hdiscard _ ?_) _ _))) _ _) (by decide)
    (by decide) _ _
  exact cleared_put hforget (by decide) (by decide) _ _

end

section
variable (s : State)

/-! ### The pins -/

theorem pinReset_leaves (slot : BitVec 4) : let t := pinReset s slot
    t.mgmt.hold = .pin ∧ t.get .rhModule 0 = slot.toNat ∧ t.sram = [] ∧ t.lpddr = [] ∧ t.log = [] ∧ t.fuses = s.fuses ∧
      t.power = s.power ∧ t.pending = s.pending ∧ t.mgmt.tray = s.mgmt.tray ∧
      t.mgmt.alerts = s.mgmt.alerts &&& 1 ∧ ∀ c, (t.chan c).driven = false := by
  unfold pinReset loadFuses
  dsimp only
  generalize outputsOff _ = u
  rw [get_put_same]
  simp only [State.put_mgmt, State.put_sram, State.put_lpddr, State.put_log, State.put_fuses, State.put_power,
    State.put_pending, State.chan, State.put_chans]
  exact ⟨trivial, Nat.mod_eq_of_lt slot.isLt, rfl, rfl, rfl, trivial, trivial, trivial, trivial, trivial, fun _ => rfl⟩

theorem rstNRelease_tray (hhold : s.mgmt.hold = .pin) (htray : s.mgmt.tray = true) :
    ∃ t, exec .rstNRelease s = .next t ∧ t.get .modService 0 = svcFailed ∧ t.get .buFailReason 0 = 5 := by
  have hexec : exec .rstNRelease s = execRstNRelease s := rfl
  unfold execRstNRelease at hexec
  rw [if_neg (by simp [hhold]), if_pos htray] at hexec
  obtain ⟨hservice, hreason, -⟩ :=
    enterFailed_leaves (({ s with mgmt := { s.mgmt with hold := .fabric } } : State).put .trayReq 0 1) 5
  exact ⟨_, hexec, hservice, hreason⟩

theorem rstNRelease_full (hhold : s.mgmt.hold = .pin) (htray : s.mgmt.tray = false) (hfull : s.power = .full) :
    ∃ t, exec .rstNRelease s = .next t ∧ t.mgmt.hold = .none ∧ t.get .modService 0 = svcBringup ∧
      t.get .buStep 0 = 1 ∧ t.get .buWarmPath 0 = 0 := by
  have hexec : exec .rstNRelease s = execRstNRelease s := rfl
  unfold execRstNRelease at hexec
  rw [if_neg (by simp [hhold]), if_neg (by simp [htray]), if_pos hfull] at hexec
  exact ⟨_, hexec, beginBringup_begins s false⟩

theorem rstNRelease_aux (hhold : s.mgmt.hold = .pin) (htray : s.mgmt.tray = false) (haux : s.power = .aux) :
    exec .rstNRelease s = .next { s with mgmt := { s.mgmt with hold := .none } } := by
  have hexec : exec .rstNRelease s = execRstNRelease s := rfl
  unfold execRstNRelease at hexec
  rwa [if_neg (by simp [hhold]), if_neg (by simp [htray]), if_neg (by simp [haux])] at hexec

/-! ### The ends of a WARM and of a FABRIC reset -/

theorem exec_warmResetEnd (hhold : s.mgmt.hold = .warm) :
    exec .warmResetEnd s = .next (answerAllResets (warmPath s)) := if_pos hhold

theorem warmResetEnd_tray (hhold : s.mgmt.hold = .warm) (htray : s.mgmt.tray = true) :
    ∃ t, exec .warmResetEnd s = .next t ∧ t.get .modService 0 = svcFailed ∧ t.get .buFailReason 0 = 5 := by
  obtain ⟨-, hregs⟩ := answerAllResets_keeps (warmPath s)
  obtain ⟨hservice, hreason, -⟩ := enterFailed_leaves { s with mgmt := { s.mgmt with hold := .fabric } } 5
  have hpath : warmPath s = enterFailed { s with mgmt := { s.mgmt with hold := .fabric } } 5 := if_pos htray
  rw [← hpath] at hservice hreason
  exact ⟨_, exec_warmResetEnd s hhold, (hregs _ (by decide) 0).trans hservice, (hregs _ (by decide) 0).trans hreason⟩

/-- A context served again has an empty galley; no other context changes. -/
theorem serveCtx_serves (k : Nat) : let t := serveCtx s k
    (t.context k).resetting = false ∧ (t.context k).slots = [] ∧ t.get .genDraining k = 0 ∧
      (∀ j, j ≠ k → t.context j = s.context j) ∧ boardSide t = boardSide s ∧
      ∀ f, f ≠ .genDraining → ∀ i, t.get f i = s.get f i := by
  unfold serveCtx
  dsimp only
  have hput : ∀ (t : State) j, (t.put .genDraining k 0).context j = t.context j := fun _ _ => rfl
  rw [hput, context_setCtx]
  refine ⟨rfl, ?_, ?_, fun j hj => ?_, rfl, fun f hf i => ?_⟩
  · rw [emptyGalley, context_setCtx]
  · rw [get_put_same]
    rfl
  · rw [hput, context_setCtx_other _ hj, emptyGalley, context_setCtx_other _ hj]
  · rw [get_put_ne _ hf, get_setCtx, emptyGalley, get_setCtx]

/-- Every context of a list that was being reset is served again. -/
def serveAll (l : List Nat) : State :=
  l.foldl (fun s k => if (s.context k).resetting then serveCtx s k else s) s

theorem serveAll_serves (l : List Nat) : boardSide (serveAll s l) = boardSide s ∧
    (∀ f, f ≠ .genDraining → ∀ i, (serveAll s l).get f i = s.get f i) ∧
    ∀ j, (j ∈ l ∨ (s.context j).resetting = false) → ((serveAll s l).context j).resetting = false := by
  induction l generalizing s with
  | nil => exact ⟨rfl, fun _ _ _ => rfl, fun j h => h.resolve_left (by simp)⟩
  | cons k l ih =>
    obtain ⟨hserved, -, -, hother, hboard, hregs⟩ := serveCtx_serves s k
    unfold serveAll at ih ⊢
    rw [List.foldl_cons]
    split
    · obtain ⟨ihboard, ihregs, ihserved⟩ := ih (serveCtx s k)
      refine ⟨ihboard.trans hboard, fun f hf i => (ihregs f hf i).trans (hregs f hf i), fun j hj => ihserved j ?_⟩
      by_cases hjk : j = k
      · rw [hjk]
        exact .inr hserved
      · rw [hother j hjk]
        exact hj.imp_left (fun hmem => (List.mem_cons.mp hmem).resolve_left hjk)
    case isFalse hidle =>
      obtain ⟨ihboard, ihregs, ihserved⟩ := ih s
      refine ⟨ihboard, ihregs, fun j hj => ihserved j ?_⟩
      obtain hmem | hj := hj
      · obtain rfl | hmem := List.mem_cons.mp hmem
        · exact .inr (by simpa using hidle)
        · exact .inl hmem
      · exact .inr hj

theorem ctxs_answerAllResets : (answerAllResets s).ctxs = s.ctxs := by
  unfold answerAllResets
  exact foldl_keeps (φ := State.ctxs) (fun t e => ctxs_answer t _ _ _) _ _

theorem fabricResetEnd_serves (hhold : s.mgmt.hold = .fabric) (hservice : s.get .modService 0 ≠ svcFailed) :
    ∃ t, exec .fabricResetEnd s = .next t ∧ t.mgmt.hold = .none ∧ t.get .rhGen 0 = (s.get .rhGen 0 + 1) % 256 ∧
      ∀ j, j < 16 → (t.context j).resetting = false := by
  have hexec : exec .fabricResetEnd s = execFabricResetEnd s := rfl
  unfold execFabricResetEnd at hexec
  rw [if_neg (by simp [hhold, hservice])] at hexec
  dsimp only at hexec
  obtain ⟨hboard, hregs, hserved⟩ := serveAll_serves { s with mgmt := { s.mgmt with hold := .none } } (List.range 16)
  unfold serveAll at hboard hregs hserved
  generalize (List.range 16).foldl _ _ = u at *
  have hlinks : ∀ {β : Type} {φ : State → β}, (∀ (v : State) p x, φ (v.setPort p x) = φ v) → φ ((List.range 4).foldl
      (fun s p => (clearLink s p).setPort p { (clearLink s p).port p with lastGen := none }) u) = φ u :=
    fun {_ φ} hφ => foldl_keeps (φ := φ) (fun v p => (hφ _ _ _).trans (hφ ..)) _ u
  have hlinkMgmt := hlinks (φ := State.mgmt) (fun _ _ _ => rfl)
  have hlinkRegs := hlinks (φ := State.regs) (fun _ _ _ => rfl)
  have hlinkCtxs := hlinks (φ := State.ctxs) (fun _ _ _ => rfl)
  generalize (List.range 4).foldl _ u = v at *
  have hgen : v.get .rhGen 0 = s.get .rhGen 0 := (get_of_regs hlinkRegs _ _).trans (hregs _ (by decide) 0)
  obtain ⟨hdone, hkept⟩ := answerAllResets_keeps (v.put .rhGen 0 ((v.get .rhGen 0 + 1) % 256))
  refine ⟨_, hexec, ?_, ?_, fun j hj => ?_⟩
  · rw [mgmt_of_boardSide hdone]
    dsimp only
    rw [State.put_mgmt, hlinkMgmt, mgmt_of_boardSide hboard]
  · rw [hkept _ (by decide), get_put_same, hgen]
    exact Nat.mod_mod ..
  · rw [State.context, ctxs_answerAllResets, State.put_ctxs, hlinkCtxs, ← State.context]
    exact hserved j (.inl (List.mem_range.mpr hj))

/-! ### Function level resets -/

/-- The registers a function level reset reaches: those of the function's rings and of its driver. -/
def ringHit (fn : Nat) (f : Fld) (i : Nat) : Bool :=
  (decide (ringSpace ≤ f.info.base) && decide (f.info.base < ringSpace + 0x1000) &&
      ((List.range 4).map (ringOf fn) ++ (if fn = 0 then [68, 69] else [])).contains i) ||
    (f.info.base == 0x10000000 && i + 1 == fn) || (fn == 0 && f == .pfStatusAddr)

theorem get_clearRingsOf (fn : Nat) {f : Fld} (hdone : f ≠ .helloDone) (hver : f ≠ .helloVer) (i : Nat) :
    (clearRingsOf s fn).get f i = if ringHit fn f i = true then f.info.reset else s.get f i := by
  have hrings : ∀ (t : State) (rs : List Nat), (rs.foldl (fun s r => s.setRing r RingSt.reset) t).get f i = t.get f i :=
    fun t rs => side_foldl (g := fun s r => s.setRing r RingSt.reset) (fun _ _ => rfl) rs t
  have hreset : (s.resetRegs (fun _ => false) (ringHit fn)).get f i =
      if ringHit fn f i = true then f.info.reset else s.get f i := by
    rw [get_resetRegs]
    cases ringHit fn f i <;> rfl
  rw [← hreset]
  unfold clearRingsOf
  dsimp only
  rw [apply_ite (fun t : State => t.get f i), get_setCtx, ite_self, get_put_ne _ hver, get_put_ne _ hdone, hrings]
  rfl

theorem helloDone_clearRingsOf (fn : Nat) : (clearRingsOf s fn).get .helloDone fn = 0 := by
  unfold clearRingsOf
  dsimp only
  split
  · rw [get_put_ne _ (by decide), get_put_same]
    rfl
  · rw [get_setCtx, get_put_ne _ (by decide), get_put_same]
    rfl

theorem boardSide_clearRingsOf (fn : Nat) : boardSide (clearRingsOf s fn) = boardSide s := by
  have hrings : ∀ (t : State) (rs : List Nat),
      boardSide (rs.foldl (fun s r => s.setRing r RingSt.reset) t) = boardSide t :=
    fun t rs => boardSide_foldl (g := fun s r => s.setRing r RingSt.reset) (fun _ _ => rfl) rs t
  unfold clearRingsOf
  dsimp only
  split
  · rw [boardSide_put, boardSide_put, hrings, boardSide_resetRegs]
  · rw [boardSide_setCtx, boardSide_put, boardSide_put, hrings, boardSide_resetRegs]

theorem boardSide_resetGranted (fn : Nat) : boardSide (resetGranted s fn) = boardSide s := by
  refine boardSide_foldl (fun t g => ?_) _ s
  split
  · exact boardSide_resetReceiver ..
  · rfl

theorem ringHit_enable (fn q : Nat) : ringHit fn .ringEnable q =
    ((List.range 4).map (ringOf fn) ++ (if fn = 0 then [68, 69] else [])).contains q := by
  have hbase : Fld.ringEnable.info.base = 0xE0000000 := rfl
  simp [ringHit, hbase, ringSpace]

theorem ringHit_prod (fn q : Nat) : ringHit fn .ringProd q =
    ((List.range 4).map (ringOf fn) ++ (if fn = 0 then [68, 69] else [])).contains q := by
  have hbase : Fld.ringProd.info.base = 0xE0000000 := rfl
  simp [ringHit, hbase, ringSpace]

theorem clearRingsOf_clears (fn : Nat) {kind : Nat} (hkind : kind < 4) :
    ringCleared (clearRingsOf s fn) (ringOf fn kind) := by
  have hmem : ((List.range 4).map (ringOf fn) ++ (if fn = 0 then [68, 69] else [])).contains (ringOf fn kind) = true :=
    List.contains_iff_mem.mpr (List.mem_append_left _ (List.mem_map_of_mem (List.mem_range.mpr hkind)))
  refine ⟨?_, ?_⟩
  · rw [get_clearRingsOf _ _ (by decide) (by decide), ringHit_enable, if_pos hmem]
    rfl
  · rw [get_clearRingsOf _ _ (by decide) (by decide), ringHit_prod, if_pos hmem]
    rfl

theorem coveredBy_context {k : Ctx} : coveredBy s (.context k) = false ↔
    s.mgmt.hold = .none ∧ (s.context k.val).resetting = false := by
  unfold coveredBy
  cases s.mgmt.hold <;> simp

theorem resetting_teardownCtx (k : Nat) : ((teardownCtx s k).context k).resetting = true := by
  unfold teardownCtx drainCtx
  dsimp only
  rw [State.context, State.put_ctxs, ← State.context, context_setCtx]

theorem vfFlr_clears (k : Ctx) (hfull : s.power = .full) : ∃ t, exec (.vfFlr k) s = .next t ∧
    t.get .helloDone (k.val + 1) = 0 ∧
    (∀ kind, kind < 4 → t.get .ringEnable (ringOf (k.val + 1) kind) = 0 ∧
      t.get .ringProd (ringOf (k.val + 1) kind) = 0) ∧
    (coveredBy s (.context k) = false → (t.context k.val).resetting = true) := by
  have hexec : exec (.vfFlr k) s = execVfFlr k s := rfl
  unfold execVfFlr at hexec
  dsimp only at hexec
  rw [overPcie_full s hfull] at hexec
  have hcleared : ∀ kind, kind < 4 → ringCleared (resetGranted (clearRingsOf s (k.val + 1)) (k.val + 1))
      (ringOf (k.val + 1) kind) := fun kind hkind => cleared_resetGranted (clearRingsOf_clears s _ hkind) _
  have hdone : (resetGranted (clearRingsOf s (k.val + 1)) (k.val + 1)).get .helloDone (k.val + 1) = 0 := by
    rw [get_resetGranted _ (by decide) (by decide), helloDone_clearRingsOf]
  have hhold : (resetGranted (clearRingsOf s (k.val + 1)) (k.val + 1)).mgmt = s.mgmt :=
    mgmt_of_boardSide ((boardSide_resetGranted ..).trans (boardSide_clearRingsOf ..))
  generalize resetGranted (clearRingsOf s (k.val + 1)) (k.val + 1) = u at *
  refine ⟨_, hexec, ?_⟩
  split
  case isTrue hcovered =>
    refine ⟨hdone, hcleared, fun hfree => ?_⟩
    have hnone : u.mgmt.hold = .none := (congrArg Mgmt.hold hhold).trans ((coveredBy_context s).mp hfree).1
    have hnot : ¬ (u.mgmt.hold = .none ∧ (u.context k.val).resetting = false) := fun e => by
      rw [(coveredBy_context u).mpr e] at hcovered
      exact absurd hcovered (by decide)
    simpa [hnone] using hnot
  case isFalse =>
    refine ⟨?_, fun kind hkind => cleared_drainCtx (cleared_resetRegs (hcleared kind hkind) _ _) _,
      fun _ => resetting_teardownCtx u k.val⟩
    have hreach : ctxReach k.val .helloDone (k.val + 1) = false := by simp [ctxReach]
    rw [teardownCtx, get_drainCtx _ (by decide) (by decide), get_resetRegs, hreach]
    simpa using hdone

/-- After the rings of every function have been cleared, no ring runs. -/
theorem foldl_clearRingsOf (l : List Nat) (q : Nat)
    (h : (∃ fn ∈ l, ringHit fn .ringEnable q = true) ∨ s.get .ringEnable q = 0) :
    (l.foldl clearRingsOf s).get .ringEnable q = 0 := by
  induction l generalizing s with
  | nil => exact h.resolve_left (by simp)
  | cons fn l ih =>
    refine ih (clearRingsOf s fn) ?_
    rw [get_clearRingsOf _ _ (by decide) (by decide)]
    by_cases hhit : ringHit fn .ringEnable q = true
    · rw [if_pos hhit]
      exact .inr rfl
    · rw [if_neg hhit]
      refine h.imp_left (fun ⟨g, hg, hgq⟩ => ?_)
      obtain rfl | hg := List.mem_cons.mp hg
      · exact absurd hgq hhit
      · exact ⟨g, hg, hgq⟩

theorem ringHit_of_lt {q : Nat} (hq : q < 70) : ∃ fn ∈ List.range 17, ringHit fn .ringEnable q = true := by
  by_cases h : q < 68
  · refine ⟨q / 4, List.mem_range.mpr (by omega), ?_⟩
    rw [ringHit_enable]
    refine List.contains_iff_mem.mpr (List.mem_append_left _ (List.mem_map.mpr ⟨q % 4, ?_, ?_⟩))
    · exact List.mem_range.mpr (Nat.mod_lt _ (by decide))
    · rw [ringOf]
      omega
  · refine ⟨0, by decide, ?_⟩
    rw [ringHit_enable]
    obtain rfl | rfl : q = 68 ∨ q = 69 := by omega
    · rfl
    · rfl

theorem coveredBy_fabric : coveredBy s .fabric = false ↔ s.mgmt.hold = .none := by
  unfold coveredBy
  cases s.mgmt.hold <;> simp

theorem pf0Flr_clears (hfull : s.power = .full) : ∃ t, exec .pf0Flr s = .next t ∧
    (∀ q, q < 70 → t.get .ringEnable q = 0) ∧ t.get .genPf0 0 = (s.get .genPf0 0 + 1) % 256 ∧
    (coveredBy s .fabric = false → t.mgmt.hold = .fabric) := by
  have hexec : exec .pf0Flr s = execPf0Flr s := rfl
  unfold execPf0Flr at hexec
  dsimp only at hexec
  rw [overPcie_full s hfull] at hexec
  have hhit : ∀ fn, ringHit fn .genPf0 0 = false := fun fn => by
    have hbase : Fld.genPf0.info.base = 0xF0000000 := rfl
    simp [ringHit, hbase, ringSpace]
  have hclear : ((List.range 17).foldl clearRingsOf s).get .genPf0 0 = s.get .genPf0 0 :=
    foldl_keeps (φ := fun t => t.get .genPf0 0) (fun t fn => by
      rw [get_clearRingsOf _ _ (by decide) (by decide), hhit]
      rfl) _ s
  have hrings := fun q hq => foldl_clearRingsOf s (List.range 17) q (.inl (ringHit_of_lt hq))
  have hboard := boardSide_foldl boardSide_clearRingsOf (List.range 17) s
  generalize (List.range 17).foldl clearRingsOf s = u at *
  have hoff : ∀ q, q < 70 → (nextGeneration (resetGranted u 0) .genPf0 0 0).get .ringEnable q = 0 := fun q hq => by
    rw [get_nextGeneration _ (by decide), get_put_ne _ (by decide), get_resetGranted _ (by decide) (by decide)]
    exact hrings q hq
  have hgen : (nextGeneration (resetGranted u 0) .genPf0 0 0).get .genPf0 0 = (s.get .genPf0 0 + 1) % 256 := by
    rw [get_nextGeneration _ (by decide), get_put_same, get_resetGranted _ (by decide) (by decide), hclear]
    exact Nat.mod_mod ..
  have hmgmt : (nextGeneration (resetGranted u 0) .genPf0 0 0).mgmt = s.mgmt :=
    mgmt_of_boardSide (((boardSide_nextGeneration ..).trans (boardSide_resetGranted ..)).trans hboard)
  generalize nextGeneration (resetGranted u 0) .genPf0 0 0 = v at *
  refine ⟨_, hexec, ?_⟩
  split
  case isTrue hcovered =>
    refine ⟨hoff, hgen, fun hfree => ?_⟩
    rw [(coveredBy_fabric v).mpr ((congrArg Mgmt.hold hmgmt).trans ((coveredBy_fabric s).mp hfree))] at hcovered
    exact absurd hcovered (by decide)
  case isFalse =>
    refine ⟨fun q hq => ?_, ?_, fun _ => rfl⟩
    · rw [get_fabricReset _ (by decide) (by decide) _ rfl, hoff q hq]
    · rw [get_fabricReset _ (by decide) (by decide) _ rfl, hgen]

/-! ### Teardowns -/

theorem ctxs_answerResets (unit : Nat) : (answerResets s unit).ctxs = s.ctxs := by
  unfold answerResets
  exact foldl_keeps (φ := State.ctxs) (fun t e => ctxs_answer t _ _ _) _ _

theorem chases_answerResets (unit : Nat) : (answerResets s unit).chases = s.chases := by
  unfold answerResets
  exact foldl_keeps (φ := State.chases) (fun t e => chases_answer t _ _ _) _ _

theorem chase_answerResets (unit n : Nat) : (answerResets s unit).chase n = s.chase n := by
  rw [State.chase, chases_answerResets, State.chase]

theorem contextDrained_served {k : Ctx} (hdrains : (s.context k.val).resetting = true) (hhold : s.mgmt.hold = .none) :
    ∃ t, exec (.teardownDrainEnd (.context k)) s = .next t ∧ (t.context k.val).resetting = false ∧
      (t.context k.val).slots = [] ∧ t.get .genDraining k.val = 0 := by
  have hexec : exec (.teardownDrainEnd (.context k)) s = .next (endCtx s k.val) := by
    change execTeardownDrainEnd (.context k) s = _
    unfold execTeardownDrainEnd
    dsimp only
    rw [hdrains, hhold]
    rfl
  refine ⟨_, hexec, ?_⟩
  suffices h : ∀ u, let t := answerResets (serveCtx u k.val) (16 + k.val); (t.context k.val).resetting = false ∧
      (t.context k.val).slots = [] ∧ t.get .genDraining k.val = 0 from h _
  intro u
  dsimp only
  obtain ⟨hserved, hempty, hgen, -⟩ := serveCtx_serves u k.val
  rw [State.context, ctxs_answerResets, ← State.context, get_answerResets _ (by decide)]
  exact ⟨hserved, hempty, hgen⟩

section
variable {n : ChaseNo}

theorem exec_chaseDrained (hdrains : (s.chase n.val).draining = true) :
    exec (.teardownDrainEnd (.chase n)) s = .next (endChase s n.val) := if_pos hdrains

theorem chaseDrained_empty (hdrains : (s.chase n.val).draining = true) (hnone : (s.chase n.val).forme = none) :
    ∃ t, exec (.teardownDrainEnd (.chase n)) s = .next t ∧ t.get .chState n.val = chEmpty ∧
      (t.chase n.val).draining = false := by
  refine ⟨_, exec_chaseDrained s hdrains, ?_⟩
  unfold endChase
  dsimp only
  rw [hnone, Option.isNone_none, if_pos rfl, get_answerResets _ (by decide), get_put_same, State.chase,
    chases_answerResets, State.put_chases, ← State.chase, chase_setChase]
  exact ⟨rfl, rfl⟩

/-- Which cores the placement in use needs does not depend on the marks of a teardown. -/
theorem placementPresent_setChase {c : Chase} (hforme : c.forme = (s.chase n.val).forme)
    (hserved : servedIn c = servedIn (s.chase n.val)) (hcores : c.cores = (s.chase n.val).cores) :
    placementPresent (s.setChase n.val c) n.val = placementPresent s n.val := by
  unfold placementPresent servingCore placementNow
  simp only [chase_setChase, hforme, hserved, hcores, State.flag, get_setChase]

theorem chaseDrained_reloads {f : Forme} (hdrains : (s.chase n.val).draining = true)
    (hforme : (s.chase n.val).forme = some f) (hpresent : placementPresent s n.val = true) :
    ∃ t, exec (.teardownDrainEnd (.chase n)) s = .next t ∧ (t.chase n.val).draining = false ∧
      (t.chase n.val).reloading = true ∧ (t.chase n.val).forme = some f ∧ t.regs = s.regs := by
  refine ⟨_, exec_chaseDrained s hdrains, ?_⟩
  unfold endChase
  dsimp only
  generalize hu : s.setChase n.val _ = u
  have hchase : u.chase n.val = { s.chase n.val with draining := false } := by rw [← hu, chase_setChase]
  have hhere : placementPresent u n.val = true := by
    rw [← hu]
    refine (placementPresent_setChase s ?_ ?_ ?_).trans hpresent
    · rfl
    · rfl
    · rfl
  have hregs : u.regs = s.regs := by rw [← hu, State.setChase_regs]
  rw [hforme, Option.isNone_some, if_neg (by decide), if_pos hhere, chase_setChase, hchase]
  exact ⟨rfl, rfl, hforme, hregs⟩

/-- Copying a forme's sections leaves the chases and the registers. -/
theorem copyImage_keeps (n : Nat) : (copyImage s n).chases = s.chases ∧ (copyImage s n).regs = s.regs := by
  have hsection : ∀ (t : State) f x e, (copySection t n f x e).chases = t.chases ∧
      (copySection t n f x e).regs = t.regs := fun t f x e => by
    unfold copySection
    dsimp only
    split
    · exact ⟨rfl, rfl⟩
    · split <;> exact ⟨rfl, rfl⟩
  unfold copyImage
  split
  · exact ⟨rfl, rfl⟩
  · exact ⟨foldl_keeps (φ := State.chases) (fun t x => foldl_keeps (φ := State.chases)
        (fun u e => (hsection u _ x e).1) _ t) _ s,
      foldl_keeps (φ := State.regs) (fun t x => foldl_keeps (φ := State.regs)
        (fun u e => (hsection u _ x e).2) _ t) _ s⟩

theorem dropForme_empties (n : Nat) : (dropForme s n).get .chState n = chEmpty ∧
    ((dropForme s n).chase n).forme = none := by
  unfold dropForme clearFormeRegs
  dsimp only
  refine ⟨?_, ?_⟩
  · simp only [get_put, reduceCtorEq, false_and, if_false, and_self, if_true]
    rfl
  · simp only [State.chase, State.put_chases]
    rw [← State.chase, chase_setChase]

theorem chaseReload_agrees {f : Forme} (hreloads : (s.chase n.val).reloading = true)
    (hrestart : (s.chase n.val).restart = false) (hforme : (s.chase n.val).forme = some f)
    (hpresent : placementPresent s n.val = true) (hdigest : Config.sha384 (memBytes s.lpddr f.addr f.size) = f.digest) :
    ∃ t, exec (.chaseReloadDone n) s = .next t ∧ t.get .chState n.val = chStopped ∧
      (t.chase n.val).reloading = false ∧ (t.chase n.val).forme = some f := by
  have hexec : exec (.chaseReloadDone n) s = execChaseReloadDone n s := rfl
  unfold execChaseReloadDone at hexec
  dsimp only at hexec
  generalize hu : s.setChase n.val _ = u at hexec
  have hchase : u.chase n.val = { s.chase n.val with reloading := false, restart := false } := by
    rw [← hu, chase_setChase]
  rw [hreloads, if_neg (by decide), hforme] at hexec
  dsimp only at hexec
  rw [if_neg (by simp [hdigest, hpresent]), hrestart, if_neg (by decide)] at hexec
  refine ⟨_, hexec, ?_⟩
  rw [get_answerResets _ (by decide), get_put_same, chase_answerResets, State.chase, State.put_chases,
    (copyImage_keeps ..).1, ← State.chase, hchase]
  exact ⟨rfl, rfl, hforme⟩

theorem chaseReload_disagrees {f : Forme} (hreloads : (s.chase n.val).reloading = true)
    (hforme : (s.chase n.val).forme = some f) (hdigest : Config.sha384 (memBytes s.lpddr f.addr f.size) ≠ f.digest) :
    ∃ t, exec (.chaseReloadDone n) s = .next t ∧ t.get .chState n.val = chEmpty ∧ (t.chase n.val).forme = none := by
  have hexec : exec (.chaseReloadDone n) s = execChaseReloadDone n s := rfl
  unfold execChaseReloadDone at hexec
  dsimp only at hexec
  generalize s.setChase n.val _ = u at hexec
  rw [hreloads, if_neg (by decide), hforme] at hexec
  dsimp only at hexec
  rw [if_pos (.inl hdigest)] at hexec
  refine ⟨_, hexec, ?_⟩
  rw [get_answerResets _ (by decide), chase_answerResets]
  exact dropForme_empties ..

end

end

/-! ### The obligation -/

/-- Settles O59: resets of the module and of functions, then the teardowns of contexts and chases. -/
theorem resetsEndInService : Obligations.ResetsEndInService := by
  unfold Obligations.ResetsEndInService
  refine ⟨fun s slot k => ⟨rfl, fun hpower => ?_, rstNRelease_tray s, rstNRelease_full s, rstNRelease_aux s,
    fun hhold htray hfull => ⟨_, exec_warmResetEnd s hhold, ?_⟩, warmResetEnd_tray s, fabricResetEnd_serves s,
    vfFlr_clears s k, pf0Flr_clears s⟩,
    fun s n k gen => ⟨rfl, contextDrained_served s, chaseDrained_empty s,
      fun f hdrains hforme hpresent => chaseDrained_reloads s hdrains hforme hpresent,
      fun f hreloads hrestart hforme hpresent => ⟨chaseReload_agrees s hreloads hrestart hforme hpresent,
        chaseReload_disagrees s hreloads hforme⟩, fun h => if_neg h, fun h => if_pos h, fun h => if_neg h⟩⟩
  · exact ⟨_, if_neg hpower, pinReset_leaves s slot⟩
  · exact warmPath_answered s hfull htray

end Sys2Proof.Proofs

/-! What an instruction on a unit or of class X changes: the bytes of its destination, a list of registers and its own
sequencer (R121, R132, R142, R145, R151, R153). -/

namespace Sys2Proof.Proofs

open Sys2Proof.Machine Sys2Proof.Safety Sys2Proof.Laws

/-! ### Edits of a memory within a range -/

/-- A canonical memory stays canonical and keeps every byte outside a range. -/
def editsWithin (lo hi : Nat) (m m' : Memory) : Prop :=
  Memory.wf m = true → Memory.wf m' = true ∧ ∀ a, a < lo ∨ hi ≤ a → memRead m' a = memRead m a

section
variable {lo hi : Nat}

theorem editsWithin_refl (m : Memory) : editsWithin lo hi m m := fun h => ⟨h, fun _ _ => rfl⟩

theorem editsWithin_trans {m m' m'' : Memory} (h : editsWithin lo hi m m') (h' : editsWithin lo hi m' m'') :
    editsWithin lo hi m m'' := fun hm => by
  obtain ⟨hwf, hread⟩ := h hm
  obtain ⟨hwf', hread'⟩ := h' hwf
  exact ⟨hwf', fun a ha => (hread' a ha).trans (hread a ha)⟩

theorem editsWithin_memStore (m : Memory) {a : Nat} {l : List Byte} (hlo : lo ≤ a) (hhi : a + l.length ≤ hi) :
    editsWithin lo hi m (memStore m a l) := fun hm =>
  ⟨memStore_wf hm a l, fun b hb => memRead_memStore_outside hm l (by omega)⟩

theorem editsWithin_memWrite (m : Memory) {a : Nat} (v : Byte) (hlo : lo ≤ a) (hhi : a < hi) :
    editsWithin lo hi m (memWrite m a v) := editsWithin_memStore m (l := [v]) hlo hhi

theorem editsWithin_memZero (m : Memory) {a b : Nat} (hlo : lo ≤ a) (hhi : b ≤ hi) :
    editsWithin lo hi m (memZero m a b) := fun hm =>
  ⟨memZero_wf hm a b, fun c hc => memRead_memZero_outside hm (by omega)⟩

theorem editsWithin_foldl {α β : Type} {mem : β → Memory} {g : β → α → β} {l : List α}
    (hg : ∀ a ∈ l, ∀ b, editsWithin lo hi (mem b) (mem (g b a))) (b : β) :
    editsWithin lo hi (mem b) (mem (l.foldl g b)) := by
  induction l generalizing b with
  | nil => exact editsWithin_refl _
  | cons a l ih =>
    obtain ⟨ha, hrest⟩ := List.forall_mem_cons.mp hg
    exact editsWithin_trans (ha b) (ih hrest (g b a))

end

/-! ### Where a chase's memory and units lie -/

/-- What tells where the memory and the units of a chase lie. -/
def placement (s : State) (n : Nat) : Nat × Option Forme × List Nat × List Nat × Regions :=
  (s.get .chPlacement n, (s.chase n).forme, (s.chase n).cores, (s.chase n).standby, (s.chase n).regions)

section
variable {s t : State} {q : SeqId} (h : placement t q.chase.val = placement s q.chase.val)
include h

theorem placementNow_of_placement : placementNow t q.chase.val = placementNow s q.chase.val := by
  obtain ⟨hplace, hforme, -⟩ := Prod.ext_iff.mp h |>.imp_right (fun h => Prod.ext_iff.mp h)
  dsimp only [placement] at hplace hforme
  rw [placementNow, placementNow, hforme, hplace]

theorem servingCore_of_placement (l : Nat) : servingCore t q.chase.val l = servingCore s q.chase.val l := by
  have hnow := placementNow_of_placement h
  simp only [placement, Prod.mk.injEq] at h
  obtain ⟨hplace, hforme, hcores, hstandby, -⟩ := h
  unfold servingCore servedIn standbyFor
  rw [hnow, hplace, hforme, hcores, hstandby]

theorem ownCore_of_placement : ownCore t q = ownCore s q := by
  unfold ownCore leadCore
  rw [placementNow_of_placement h]
  simp only [servingCore_of_placement h]

theorem spaceBase_of_placement (d : Desc) : spaceBase t q d = spaceBase s q d := by
  have hserving := servingCore_of_placement h
  have hown := ownCore_of_placement h
  simp only [placement, Prod.mk.injEq] at h
  obtain ⟨-, -, -, -, hregions⟩ := h
  unfold spaceBase
  simp only [hregions, hserving, hown]

theorem spans_of_placement (d : Desc) : d.spans t q = d.spans s q := by
  unfold Desc.spans
  rw [spaceBase_of_placement h]

theorem unitsOf_of_placement (o : Op) : unitsOf t q o = unitsOf s q o := by
  unfold unitsOf
  rw [ownCore_of_placement h]

end

theorem spaceBase_lt (s : State) (q : SeqId) (d : Desc) : (spaceBase s q d).1 < 3 := by
  unfold spaceBase
  dsimp only
  split <;> simp

/-! ### Writes within byte ranges -/

/-- Canonical memories stay canonical, and bytes outside the ranges stay as they are. -/
def writesWithin (sp : List Span) (s t : State) : Prop :=
  memoriesCanonical s → memoriesCanonical t ∧ keepsBytes sp s t

/-- The memories of the module and of its host. -/
def memories (s : State) : Memory × Memory × Memory × Memory × Memory := (s.sram, s.istore, s.galley, s.lpddr, s.host)

section
variable {sp : List Span} {s t : State}

theorem memOf_of_memories (h : memories t = memories s) (m : Nat) : t.memOf m = s.memOf m := by
  simp only [memories, Prod.mk.injEq] at h
  obtain ⟨hsram, -, hgalley, hlpddr, -⟩ := h
  match m with
  | 0 => exact hsram
  | 1 => exact hgalley
  | _ + 2 => exact hlpddr

theorem writesWithin_of_memories (h : memories t = memories s) : writesWithin sp s t := fun hs => by
  have hmem := memOf_of_memories h
  simp only [memories, Prod.mk.injEq] at h
  obtain ⟨hsram, histore, hgalley, hlpddr, hhost⟩ := h
  rw [memoriesCanonical, hsram, histore, hgalley, hlpddr, hhost]
  exact ⟨hs, fun m a _ _ => by rw [hmem]⟩

theorem writesWithin_trans {u : State} (h : writesWithin sp s t) (h' : writesWithin sp t u) : writesWithin sp s u :=
  fun hs => by
  obtain ⟨hcanon, hbytes⟩ := h hs
  obtain ⟨hcanon', hbytes'⟩ := h' hcanon
  exact ⟨hcanon', fun m a hm ha => (hbytes' m a hm ha).trans (hbytes m a hm ha)⟩

theorem writesWithin_setMem {n lo hi : Nat} (hn : n < 3) (hsp : (n, lo, hi) ∈ sp) {m : Memory}
    (h : editsWithin lo hi (s.memOf n) m) : writesWithin sp s (s.setMem n m) := fun hs => by
  obtain ⟨hwf, hread⟩ := h (memOf_wf hs n)
  obtain ⟨hsram, histore, hgalley, hlpddr, hhost⟩ := hs
  refine ⟨?_, fun k a hk ha => ?_⟩
  · match n, hn with
    | 0, _ => exact ⟨hwf, histore, hgalley, hlpddr, hhost⟩
    | 1, _ => exact ⟨hsram, histore, hwf, hlpddr, hhost⟩
    | 2, _ => exact ⟨hsram, histore, hgalley, hwf, hhost⟩
  · by_cases hkn : k = n
    · rw [hkn, memOf_setMem_same]
      have hout := ha _ hsp
      dsimp only at hout
      exact hread a (by omega)
    · match n, hn, k, hk with
      | 0, _, 0, _ | 1, _, 1, _ | 2, _, 2, _ => exact absurd rfl hkn
      | 0, _, 1, _ | 0, _, 2, _ | 1, _, 0, _ | 1, _, 2, _ | 2, _, 0, _ | 2, _, 1, _ => rfl

end

/-! ### Effects -/

/-- The parts of the module that an instruction on its units leaves. -/
def aside (s : State) : Memory × Memory × Tab Context × Tab Mailbox × List LogEntry :=
  (s.istore, s.host, s.ctxs, s.mboxes, s.log)

/-- From `s` to `t` only the bytes of some ranges, a list of registers and one sequencer change, by `f`, and what a
chase knows of its rings and transfers; other bytes change only where a unit of the chase is at work (R132). -/
structure Effect (q : SeqId) (f : Seq → Seq) (sp : List Span) (l : List Fld) (s t : State) : Prop where
  bytes : (s.chase q.chase.val).busy = [] → writesWithin sp s t
  regs : keepsRegs l s t
  own : sequencer t q = f (sequencer s q)
  others : ∀ r, r ≠ q → sequencer t r = sequencer s r
  place : placement t q.chase.val = placement s q.chase.val
  busy : ∀ n, (t.chase n).busy = (s.chase n).busy
  aside : aside t = aside s

section
variable {q : SeqId} {f g : Seq → Seq} {sp : List Span} {l : List Fld} {s t u : State}

theorem effect_refl (q : SeqId) (sp : List Span) (l : List Fld) (s : State) : Effect q id sp l s s :=
  ⟨fun _ => writesWithin_of_memories rfl, keepsRegs_refl s, rfl, fun _ _ => rfl, rfl, fun _ => rfl, rfl⟩

theorem effect_trans (h : Effect q f sp l s t) (h' : Effect q g sp l t u) : Effect q (fun x => g (f x)) sp l s u :=
  ⟨fun hidle => writesWithin_trans (h.bytes hidle) (h'.bytes ((h.busy _).trans hidle)), keepsRegs_trans h.regs h'.regs,
    by rw [h'.own, h.own],
    fun r hr => (h'.others r hr).trans (h.others r hr), h'.place.trans h.place,
    fun n => (h'.busy n).trans (h.busy n), h'.aside.trans h.aside⟩

theorem effect_more {l' : List Fld} (hl : ∀ fld, fld ∈ l → fld ∈ l') (h : Effect q f sp l s t) : Effect q f sp l' s t :=
  { h with regs := fun fld i hfld => h.regs fld i (fun hin => hfld (hl fld hin)) }

theorem effect_foldl {α : Type} {g : State → α → State} {as : List α}
    (hg : ∀ a ∈ as, ∀ t, placement t q.chase.val = placement s q.chase.val → Effect q id sp l t (g t a)) :
    Effect q id sp l s (as.foldl g s) := by
  induction as generalizing s with
  | nil => exact effect_refl ..
  | cons a as ih =>
    obtain ⟨ha, hrest⟩ := List.forall_mem_cons.mp hg
    have hfirst := ha s rfl
    exact effect_trans hfirst (ih (fun b hb t ht => hrest b hb t (ht.trans hfirst.place)))

/-- Registers and the count of free values change. -/
theorem effect_of_regs (hplace : .chPlacement ∉ l) (hregs : keepsRegs l s t)
    (h : ∃ regs free, t = { s with regs, free }) : Effect q id sp l s t := by
  have hget := hregs .chPlacement q.chase.val hplace
  obtain ⟨regs, free, rfl⟩ := h
  refine ⟨fun _ => writesWithin_of_memories rfl, hregs, rfl, fun _ _ => rfl, ?_, fun _ => rfl, rfl⟩
  simp only [placement, hget]
  rfl

theorem effect_free (free : Nat) : Effect q id sp l s { s with free } :=
  ⟨fun _ => writesWithin_of_memories rfl, keepsRegs_refl s, rfl, fun _ _ => rfl, rfl, fun _ => rfl, rfl⟩

theorem effect_bumpBy (hplace : .chPlacement ∉ l) {fld : Fld} (hf : fld ∈ l) (i n : Nat) :
    Effect q id sp l s (s.bumpBy fld i n) :=
  effect_of_regs hplace (keepsRegs_put (keepsRegs_refl s) hf i _) ⟨_, s.free, rfl⟩

theorem effect_put (hplace : .chPlacement ∉ l) {fld : Fld} (hf : fld ∈ l) (i v : Nat) :
    Effect q id sp l s (s.put fld i v) :=
  effect_of_regs hplace (keepsRegs_put (keepsRegs_refl s) hf i v) ⟨_, s.free, rfl⟩

theorem effect_setMem {n lo hi : Nat} (hn : n < 3) (hsp : (n, lo, hi) ∈ sp) {m : Memory}
    (h : editsWithin lo hi (s.memOf n) m) : Effect q id sp l s (s.setMem n m) := by
  have hbytes := writesWithin_setMem hn hsp h
  have hrest : (s.setMem n m).regs = s.regs ∧ (s.setMem n m).chases = s.chases ∧ aside (s.setMem n m) = aside s := by
    unfold State.setMem
    split <;> exact ⟨rfl, rfl, rfl⟩
  obtain ⟨hregs, hchases, haside⟩ := hrest
  refine ⟨fun _ => hbytes, keepsRegs_of_regs hregs, sequencer_of_chases hchases q,
    fun r _ => sequencer_of_chases hchases r, ?_, fun n => by rw [chase_of_chases hchases], haside⟩
  simp only [placement, chase_of_chases hchases, get_of_regs hregs]

/-- A chase changes in nothing that tells of its sequencers, its place or its units at work. -/
theorem effect_setChase (n : Nat) {c : Chase} (hline : c.line = (s.chase n).line)
    (hstreams : c.streams = (s.chase n).streams)
    (hplace : (c.forme, c.cores, c.standby, c.regions) =
      ((s.chase n).forme, (s.chase n).cores, (s.chase n).standby, (s.chase n).regions))
    (hbusy : c.busy = (s.chase n).busy) : Effect q id sp l s (s.setChase n c) := by
  have hseq : ∀ r, sequencer (s.setChase n c) r = sequencer s r := fun r => by
    rw [sequencer, sequencer]
    by_cases hr : r.chase.val = n
    · rw [hr, chase_setChase_same]
      cases hcore : r.core with
      | none => exact hline
      | some core => exact congrArg (Tab.get · Seq.reset core.val) hstreams
    · rw [chase_setChase_other s hr]
  refine ⟨fun _ => writesWithin_of_memories rfl, keepsRegs_refl s, hseq q, fun r _ => hseq r, ?_, fun m => ?_, rfl⟩
  · by_cases hq : q.chase.val = n
    · rw [placement, hq, chase_setChase_same]
      simp only [Prod.mk.injEq] at hplace
      obtain ⟨hforme, hcores, hstandby, hregions⟩ := hplace
      rw [hforme, hcores, hstandby, hregions]
      rfl
    · rw [placement, chase_setChase_other s hq]
      rfl
  · by_cases hm : m = n
    · rw [hm, chase_setChase_same, hbusy]
    · rw [chase_setChase_other s hm]

theorem effect_modSeq (s : State) (q : SeqId) (f : Seq → Seq) (sp : List Span) (l : List Fld) :
    Effect q f sp l s (modSeq s q f) := by
  obtain ⟨hown, hother, hchase, -⟩ := seqChanges_modSeq s q f
  refine ⟨fun _ => writesWithin_of_memories rfl, keepsRegs_refl s, hown, hother, ?_, fun n => ?_, rfl⟩
  · rw [placement, placement, ← hchase q.chase.val]
    rfl
  · rw [← hchase n]

end

/-! ### Reads, disturbances and units -/

section
variable {q : SeqId} {sp : List Span} {l : List Fld} (s : State)

theorem keepsRegs_readCorrected (w : Span) : keepsRegs readRegs s (readCorrected s w) := by
  unfold readCorrected State.bumpBy
  dsimp only
  refine keepsRegs_put (keepsRegs_put (keepsRegs_put (keepsRegs_put (keepsRegs_put (keepsRegs_put (keepsRegs_refl s)
    ?_ _ _) ?_ _ _) ?_ _ _) ?_ _ _) ?_ _ _) ?_ _ _ <;> decide

/-- Reads of core SRAM change the registers that count them. -/
theorem effect_readSources (hplace : .chPlacement ∉ l) (hreads : ∀ f ∈ readRegs, f ∈ l) (spans : List Span) :
    Effect q id sp l s (readSources s spans) := by
  refine effect_of_regs hplace (fun f i hf => ?_) (readSources_eq s spans)
  exact (keepsRegs_foldl (l := readRegs) (fun t w => keepsRegs_readCorrected t w) _ s) f i (fun h => hf (hreads f h))

theorem effect_skipFree (srcs : List Src) : Effect q id sp l s (skipFree s srcs) := by
  unfold skipFree
  split
  · exact effect_free _
  · exact effect_refl ..

theorem effect_readX (hplace : .chPlacement ∉ l) (hreads : ∀ f ∈ readRegs, f ∈ l) (srcs : List Src) :
    Effect q id sp l s (readX s q srcs) :=
  effect_trans (effect_skipFree s srcs) (effect_readSources _ hplace hreads _)

/-- What writes another unit still reads disturb: bytes of the memories only. -/
theorem disturb_leaves (n : Nat) (writes : List Span) :
    (disturb s n writes).regs = s.regs ∧ (disturb s n writes).chases = s.chases ∧
      aside (disturb s n writes) = aside s := by
  have hhavoc : ∀ (t : State) w, (havoc t w).regs = t.regs ∧ (havoc t w).chases = t.chases ∧
      aside (havoc t w) = aside t := fun t w => by
    unfold havoc State.setMem
    dsimp only
    split <;> exact ⟨rfl, rfl, rfl⟩
  have hfold : ∀ (ws : List Span) (t : State), (ws.foldl havoc t).regs = t.regs ∧ (ws.foldl havoc t).chases = t.chases ∧
      aside (ws.foldl havoc t) = aside t := fun ws => by
    induction ws with
    | nil => exact fun t => ⟨rfl, rfl, rfl⟩
    | cons w ws ih =>
      intro t
      obtain ⟨hregs, hchases, haside⟩ := hhavoc t w
      obtain ⟨hregs', hchases', haside'⟩ := ih (havoc t w)
      exact ⟨hregs'.trans hregs, hchases'.trans hchases, haside'.trans haside⟩
  unfold disturb
  generalize ((s.chase n).busy.filter _) = bs
  induction bs generalizing s with
  | nil => exact ⟨rfl, rfl, rfl⟩
  | cons b bs ih =>
    obtain ⟨hregs, hchases, haside⟩ := hfold b.writes s
    obtain ⟨hregs', hchases', haside'⟩ := ih (b.writes.foldl havoc s)
    exact ⟨hregs'.trans hregs, hchases'.trans hchases, haside'.trans haside⟩

theorem placement_disturb (n m : Nat) (writes : List Span) : placement (disturb s n writes) m = placement s m := by
  obtain ⟨hregs, hchases, -⟩ := disturb_leaves s n writes
  simp only [placement, chase_of_chases hchases, get_of_regs hregs]

/-- A disturbance changes bytes only where a unit of the chase is at work. -/
theorem effect_disturb (writes : List Span) : Effect q id sp l s (disturb s q.chase.val writes) := by
  obtain ⟨hregs, hchases, haside⟩ := disturb_leaves s q.chase.val writes
  refine ⟨fun hidle => ?_, keepsRegs_of_regs hregs, sequencer_of_chases hchases q,
    fun r _ => sequencer_of_chases hchases r, placement_disturb .., fun n => by rw [chase_of_chases hchases], haside⟩
  rw [disturb_idle hidle]
  exact writesWithin_of_memories rfl

theorem disturb_nil (n : Nat) : disturb s n [] = s := by
  have hnone : ((s.chase n).busy.filter (fun b => b.reads.any fun _ => false)) = [] :=
    List.filter_eq_nil_iff.mpr (fun b _ => by simp)
  exact congrArg (List.foldl _ s) hnone

end

/-! ### An instruction on its units -/

section
variable {q : SeqId} {f : Seq → Seq} {l : List Fld} (s : State)

theorem unitBusy_occupy {t : State} {o : Op} {u : Nat × UnitId} (hu : u ∈ unitsOf t q o) (reads writes : List Span)
    (furniture : Bool) (rows : List (Nat × Nat × List Byte)) :
    unitBusy (occupy t q o reads writes furniture rows) q.chase.val u = true := by
  unfold unitBusy occupy
  rw [chase_setChase_same, List.any_append, List.any_map]
  exact Bool.or_eq_true_iff.mpr (.inl (List.any_eq_true.mpr ⟨u, hu, by simp⟩))

variable (o : Op) (srcs dsts : List Desc) (rows : List (Nat × Nat × List Byte)) (run : State → State)

/-- An instruction on its units has its own effect, reads its sources, occupies its units and retires. -/
theorem onUnitsWith_eq : ∃ u, onUnitsWith q o srcs dsts rows s run = retire q (occupy u q o
      (srcs.flatMap (fun d => d.spans s q)) (dsts.flatMap (fun d => d.spans s q)) false rows) ∧
    (∀ sp l, .chPlacement ∉ l → (∀ f ∈ readRegs, f ∈ l) →
      Effect q id sp l (run (disturb s q.chase.val (dsts.flatMap (fun d => d.spans s q)))) u) ∧
    ∃ regs free, u = { run (disturb s q.chase.val (dsts.flatMap (fun d => d.spans s q))) with regs, free } := by
  refine ⟨_, rfl, fun sp l hplace hreads => ?_, ?_⟩
  · exact effect_trans (effect_skipFree _ _) (effect_readSources _ hplace hreads _)
  · obtain ⟨free, hskip⟩ := skipFree_eq (run (disturb s q.chase.val (dsts.flatMap (fun d => d.spans s q))))
      (srcs.map (srcOf (disturb s q.chase.val (dsts.flatMap (fun d => d.spans s q))) q))
    obtain ⟨regs, free', hread⟩ := readSources_eq
      { run (disturb s q.chase.val (dsts.flatMap (fun d => d.spans s q))) with free }
      (srcs.flatMap (fun d => d.spans s q))
    exact ⟨regs, free', by rw [hskip, hread]⟩

variable {s o srcs dsts rows run}

/-- What an instruction leaves that runs on its units and has an effect of its own on its destinations. -/
theorem onUnitsWith_leaves (hplace : .chPlacement ∉ l)
    (hrun : ∀ t, t = disturb s q.chase.val (dsts.flatMap (fun d => d.spans s q)) →
      placement t q.chase.val = placement s q.chase.val →
        Effect q f (dsts.flatMap (fun d => d.spans s q)) l t (run t)) :
    let t := onUnitsWith q o srcs dsts rows s run
    sequencer t q = (f (sequencer s q)).advance ∧ (∀ r, r ≠ q → sequencer t r = sequencer s r) ∧
      (∀ u ∈ unitsOf s q o, unitBusy t q.chase.val u = true) ∧
      ((s.chase q.chase.val).busy = [] → writesWithin (dsts.flatMap (fun d => d.spans s q)) s t) ∧
      keepsRegs (readRegs ++ l) s t ∧ aside t = aside s := by
  have hplace' : Fld.chPlacement ∉ readRegs ++ l := fun h => (List.mem_append.mp h).elim (by decide) hplace
  obtain ⟨u, heq, hreads, -⟩ := onUnitsWith_eq (q := q) s o srcs dsts rows run
  have hown := hrun _ rfl (placement_disturb s q.chase.val q.chase.val (dsts.flatMap (fun d => d.spans s q)))
  have heffect : Effect q f (dsts.flatMap (fun d => d.spans s q)) (readRegs ++ l) s u :=
    effect_trans (f := f) (g := id)
      (effect_trans (f := id) (g := f) (effect_disturb s _) (effect_more (fun _ => List.mem_append_right _) hown))
      (hreads _ _ hplace' (fun _ => List.mem_append_left _))
  rw [heq]
  obtain ⟨hretire, hother, -⟩ := seqChanges_modSeq
    (occupy u q o (srcs.flatMap (fun d => d.spans s q)) (dsts.flatMap (fun d => d.spans s q)) false rows) q Seq.advance
  refine ⟨?_, fun r hr => ?_, fun x hx => ?_, fun hidle => ?_, heffect.regs, heffect.aside⟩
  · rw [retire, hretire, sequencer_occupy_any, heffect.own]
  · rw [retire, hother r hr, sequencer_occupy_any, heffect.others r hr]
  · rw [unitBusy, retire, (effect_modSeq _ q Seq.advance [] []).busy, ← unitBusy]
    refine unitBusy_occupy ?_ _ _ _ _
    rw [unitsOf_of_placement heffect.place]
    exact hx
  · exact writesWithin_trans (heffect.bytes hidle) (writesWithin_of_memories rfl)

end

end Sys2Proof.Proofs

/-! The checks a descriptor has passed when its instruction goes (R128), and what the writes of tensors, scale planes
and records change (R48, R49, R70). -/

namespace Sys2Proof.Proofs

open Sys2Proof.Machine Sys2Proof.Safety Sys2Proof.Laws

/-! ### Descriptors that have passed their checks -/

section
variable {s : State} {q : SeqId} {x : Seq} {o : Op}

theorem operandTrap_of_issueTrap (h : issueTrap s q x o = none) : operandTrap s q x o = none := by
  by_cases hcls : o.cls < 7
  · cases hruns : classRuns o.cls q.core.isNone with
    | false => exact absurd ((issueTrap_foreignClass hcls hruns).symm.trans h) (by simp)
    | true =>
      cases hform : formFields x o with
      | none => exact absurd ((issueTrap_undefinedOpcode hcls hruns hform).symm.trans h) (by simp)
      | some named =>
        rw [issueTrap_definedOpcode hcls hruns hform, definedTrap] at h
        split_ifs at h
        exact h
  · exact absurd ((issueTrap_reservedClass (not_lt.mp hcls)).symm.trans h) (by simp)

/-- The descriptors and the later checks of an instruction that raises no trap. -/
theorem checks_of_issueTrap (h : issueTrap s q x o = none) : descsTrap s q x o (uses o) 0 = none ∧
    (o.cls ≠ 0 → lateTrap s q x o = none) := by
  have hchecks := operandTrap_of_issueTrap h
  rw [operandTrap, Option.or_eq_none_iff, Option.or_eq_none_iff] at hchecks
  obtain ⟨-, hdescs, hlate⟩ := hchecks
  exact ⟨hdescs, fun hcls => (if_neg (fun h => hcls h.1)).symm.trans hlate⟩

theorem lateTrap_of_goes {w : ZWord} {row : Op → Bool} (hgo : goes q w row s) (hcls : (opOf w).cls ≠ 0) :
    lateTrap s q (sequencer s q) (opOf w) = none := by
  obtain ⟨-, -, htrap, -⟩ := (goes_iff q w row s).mp hgo
  exact (checks_of_issueTrap htrap).2 hcls

theorem descsTrap_of_goes {w : ZWord} {row : Op → Bool} (hgo : goes q w row s) :
    descsTrap s q (sequencer s q) (opOf w) (uses (opOf w)) 0 = none := by
  obtain ⟨-, -, htrap, -⟩ := (goes_iff q w row s).mp hgo
  exact (checks_of_issueTrap htrap).1

theorem descsTrap_cons {u : Use} {us : List Use} {i : Nat} (h : descsTrap s q x o (u :: us) i = none) :
    descTrap s q x o i u = none ∧ descsTrap s q x o us (i + 1) = none := by
  rw [descsTrap] at h
  split at h
  · cases h
  · exact ⟨‹_›, h⟩

/-- What the checks of R128 say of a descriptor that passes them. -/
theorem descTrap_none {i : Nat} {u : Use} (h : descTrap s q x o i u = none) : let d := descOf (x.d u.reg)
    (fmtOf d.code).isSome = true ∧ layoutOk d.fmt d.layout = true ∧ strideBad d = false ∧ shapeBad x o i d = false ∧
      d.space ∈ u.spaces := by
  unfold descTrap at h
  dsimp only at h ⊢
  split at h
  · cases h
  · next f hf =>
    split_ifs at h with hlayout hscales hstride hshape hpair hspace hloose
    have hfmt : (descOf (x.d u.reg)).fmt = f := by rw [Desc.fmt, hf, Option.getD_some]
    unfold spaceBad at hspace
    refine ⟨by rw [hf]; rfl, by rw [hfmt]; simpa using hlayout, by simpa using hstride, by simpa using hshape, ?_⟩
    simp only [Bool.or_eq_true, not_or] at hspace
    obtain ⟨⟨⟨hin, -⟩, -⟩, -⟩ := hspace
    simpa using hin

end

/-- What the writes of a tensor ask of its descriptor: a packed format in plain layout only, at least one line, and
whole groups in a vector. -/
def storable (d : Desc) : Prop :=
  (d.layout = 3 ∨ d.fmt ≠ .u12p) ∧ 0 < d.lines ∧ (d.scaled = true → d.layout ≠ 1)

theorem lines_descOf (v : DWord) : 0 < (descOf v).lines := by
  unfold Desc.lines
  split
  · exact Nat.succ_pos _
  · next h => exact Nat.pos_of_ne_zero h

theorem storable_of_layoutOk {v : DWord} (h : layoutOk (descOf v).fmt (descOf v).layout = true) :
    storable (descOf v) := by
  have hlines := lines_descOf v
  generalize descOf v = d at *
  refine ⟨?_, hlines, fun hscaled => ?_⟩
  · by_cases hf : d.fmt = .u12p
    · rw [hf] at h
      exact .inl (by simpa [layoutOk] using h)
    · exact .inr hf
  · intro hl
    rw [hl] at h
    unfold Desc.scaled at hscaled
    cases hf : d.fmt <;> simp_all [layoutOk]

theorem storable_of_descTrap {s : State} {q : SeqId} {x : Seq} {o : Op} {i : Nat} {u : Use}
    (h : descTrap s q x o i u = none) : storable (descOf (x.d u.reg)) :=
  storable_of_layoutOk (descTrap_none h).2.1

/-! ### The bytes of a tensor -/

section
variable {d : Desc}

theorem bareExtent_le_extent (d : Desc) : d.bareExtent ≤ d.extent := by
  unfold Desc.extent
  split
  · omega
  · exact le_rfl

/-- Every row of a tensor ends within its extent. -/
theorem row_within (hlines : 0 < d.lines) {cb : Nat} (hcb : cb < if d.layout = 3 then 1 else d.blocks) (h : Nat) :
    d.row h cb + d.rowBytes ≤ d.bareExtent := by
  have hline : d.line h ≤ d.lines - 1 := Nat.le_sub_one_of_lt (Nat.mod_lt h hlines)
  have hrow := Nat.mul_le_mul_right d.strideH hline
  unfold Desc.row Desc.bareExtent
  split at hcb
  · next h3 =>
    rw [if_pos h3, if_pos h3]
    omega
  · next h3 =>
    have hblock := Nat.mul_le_mul_right d.strideCb (Nat.le_sub_one_of_lt hcb)
    rw [if_neg h3, if_neg h3]
    omega

theorem packedBytes_of_ne {f : Fmt} (hf : f ≠ .u12p) (n : Nat) : packedBytes f n = (n * f.bits + 7) / 8 := by
  unfold packedBytes
  split
  · exact absurd rfl hf
  · rfl

theorem packedBytes_blk (hf : d.fmt ≠ .u12p) : packedBytes d.fmt d.blk = d.vec := by
  have hbytes : packedBytes d.fmt d.blk = (d.blk * d.fmt.bits + 7) / 8 := packedBytes_of_ne hf d.blk
  rw [hbytes, Desc.vec, Desc.blk]
  split <;> omega

theorem length_rowImage (hd : storable d) (code : Nat → Nat → Nat) (cb : Nat) :
    (rowImage d code cb).1.length = d.rowBytes := by
  unfold rowImage Desc.rowBytes
  dsimp only
  by_cases h3 : d.layout = 3
  · rw [if_pos h3, if_pos h3]
    simp only [length_packCodes, List.length_map, List.length_range]
  · rw [if_neg h3, if_neg h3]
    by_cases h2 : d.layout = 2
    · rw [if_pos h2, if_pos h2]
      exact length_padTo ..
    · rw [if_neg h2, if_neg h2]
      obtain h | hf := hd.1
      · exact absurd h h3
      · simp only [List.flatMap_map]
        rw [length_flatMap_of (k := d.vec), List.length_range]
        intro w
        rw [length_packCodes, List.length_map, List.length_range, packedBytes_blk hf]

end

section
variable {q : SeqId} {l : List Fld} (s : State) {d : Desc}

theorem elements_mem_spans (hspace : d.space < 4) :
    ((spaceBase s q d).1, (spaceBase s q d).2 + d.base, (spaceBase s q d).2 + d.base + d.extent) ∈ d.spans s q := by
  unfold Desc.spans
  rw [if_neg (not_le.mpr hspace)]
  exact List.mem_cons_self ..

theorem plane_mem_spans (hspace : d.space < 4) (hscaled : d.scaled = true) :
    ((spaceBase s q d).1, (spaceBase s q d).2 + d.scaleBase, (spaceBase s q d).2 + d.scaleEnd) ∈ d.spans s q := by
  unfold Desc.spans
  rw [if_neg (not_le.mpr hspace)]
  dsimp only
  rw [if_pos hscaled]
  exact List.mem_cons_of_mem _ (List.mem_cons_self ..)

/-- Bytes stored within a tensor's extent. -/
theorem effect_storeElements (hspace : d.space < 4) {m : Memory}
    (h : editsWithin ((spaceBase s q d).2 + d.base) ((spaceBase s q d).2 + d.base + d.extent)
      (s.memOf (spaceBase s q d).1) m) : Effect q id (d.spans s q) l s (s.setMem (spaceBase s q d).1 m) :=
  effect_setMem (spaceBase_lt s q d) (elements_mem_spans s hspace) h

theorem effect_writeTensor (hspace : d.space < 4) (hd : storable d) (h0 : Nat) (code : Nat → Nat → Nat → Nat) :
    Effect q id (d.spans s q) l s (writeTensor s q d h0 code).1 := by
  have hextent := bareExtent_le_extent d
  refine effect_storeElements s hspace (editsWithin_trans (m' := _) ?_ (editsWithin_memZero _ (by omega) le_rfl))
  refine editsWithin_foldl (mem := Prod.fst) (b := (s.memOf (spaceBase s q d).1, 0)) (fun i _ acc => ?_)
  refine editsWithin_foldl (mem := Prod.fst) (b := acc) (fun cb hcb acc => ?_)
  have hrow := row_within hd.2.1 (List.mem_range.mp hcb) (h0 + i)
  refine editsWithin_memStore _ (by omega) ?_
  rw [length_rowImage hd]
  omega

theorem effect_storeAt (hspace : d.space < 4) (b : List Byte) : Effect q id (d.spans s q) l s (storeAt s q d b) := by
  refine effect_storeElements s hspace (editsWithin_memStore _ le_rfl ?_)
  have := List.length_take_le d.extent b
  omega

/-! ### Numeric events -/

/-- The registers of a chase's numeric status. -/
def numRegs : List Fld := [.numSat, .numNan, .numBad, .nfSat, .nfNan, .nfBad, .nfInf]

theorem effect_ite {f : Seq → Seq} {sp : List Span} {p : Prop} [Decidable p] {t u : State} (ht : Effect q f sp l s t)
    (hu : Effect q f sp l s u) : Effect q f sp l s (if p then t else u) := by
  split
  · exact ht
  · exact hu

section
variable {sp : List Span} (hplace : .chPlacement ∉ l) (hnum : ∀ f ∈ numRegs, f ∈ l)
include hplace hnum

/-- One kind of event counts in its register and sets its flag. -/
theorem effect_countKind {t : State} (ht : Effect q id sp l s t) {p : Prop} [Decidable p] {f g : Fld} (hf : f ∈ numRegs)
    (hg : g ∈ numRegs) (i n : Nat) : Effect q id sp l s (if p then t else (t.bumpBy f i n).put g i 1) :=
  effect_ite s ht (effect_trans ht (effect_trans (effect_bumpBy hplace (hnum f hf) i n)
    (effect_put hplace (hnum g hg) i 1)))

theorem effect_countNums (n : Nat) (e : Nums) : Effect q id sp l s (countNums s n e) := by
  unfold countNums
  dsimp only
  have hsat := effect_countKind s hplace hnum (effect_refl q sp l s) (p := e.sat = 0) (f := .numSat) (g := .nfSat)
    (by decide) (by decide) n e.sat
  have hnan := effect_countKind s hplace hnum hsat (p := e.nan = 0) (f := .numNan) (g := .nfNan)
    (by decide) (by decide) n e.nan
  have hbad := effect_countKind s hplace hnum hnan (p := e.bad = 0) (f := .numBad) (g := .nfBad)
    (by decide) (by decide) n e.bad
  exact effect_ite s hbad (effect_trans hbad (effect_put hplace (hnum .nfInf (by decide)) n 1))

theorem effect_countBad (x : Src) : Effect q id sp l s (countBad s q x) := effect_countNums s hplace hnum _ _

/-! ### Tensors and their scale planes -/

variable (hspace : d.space < 4) (hd : storable d)
include hspace hd

theorem effect_storeCells (hzovf : .zovf ∈ l) (h0 : Nat) (f : Nat → Nat → Nat → Ev Nat) :
    Effect q id (d.spans s q) l s (storeCells s q d h0 f) := by
  have hwrite : Effect q id (d.spans s q) l s (writeTensor s q d h0 (fun h w c => (f h w c).val)).1 :=
    effect_writeTensor s hspace hd h0 _
  have hcount := effect_trans hwrite (effect_countNums _ hplace hnum q.chase.val (cellEvents (d.cells h0) f))
  exact effect_ite s hcount (effect_trans hcount (effect_bumpBy hplace hzovf _ _))

omit hnum hspace hd hplace in
theorem effect_noteLine (h0 : Nat) : Effect q id sp l s (noteLine s q d h0) :=
  effect_ite s (effect_refl ..) (effect_setChase _ rfl rfl rfl rfl)

theorem effect_storeTensor (hzovf : .zovf ∈ l) (h0 : Nat) (f : Nat → Nat → Nat → Ev Nat) :
    Effect q id (d.spans s q) l s (storeTensor s q d h0 f) := by
  have hnote : Effect q id (d.spans s q) l s (noteLine s q d h0) := effect_noteLine s h0
  have hstore := effect_storeCells (q := q) (noteLine s q d h0) hplace hnum hspace hd hzovf h0 f
  rw [spans_of_placement hnote.place] at hstore
  exact effect_trans hnote hstore

end

/-- The position of a group lies within its plane. -/
theorem groupNo_lt (hd : storable d) (hscaled : d.scaled = true) {h0 : Nat} {e : Nat × Nat × Nat}
    (he : e ∈ d.cells h0) :
    d.groupNo e.1 e.2.1 (e.2.2 / 32) < d.lines * d.groupsPerLine := by
  obtain ⟨-, hlines, hlayout⟩ := hd
  have hline : d.line e.1 < d.lines := Nat.mod_lt _ hlines
  unfold Desc.cells at he
  simp only [List.mem_flatMap, List.mem_map, List.mem_range] at he
  obtain ⟨i, -, w, hw, c, hc, rfl⟩ := he
  dsimp only at hline ⊢
  unfold Desc.groupNo Desc.groupsPerLine
  by_cases h3 : d.layout = 3
  · rw [if_pos h3, if_pos h3]
    have hcol : w / 32 < (d.w + 31) / 32 := by omega
    calc d.line (h0 + i) * ((d.w + 31) / 32) + w / 32
        < (d.line (h0 + i) + 1) * ((d.w + 31) / 32) := by rw [Nat.succ_mul]; omega
      _ ≤ d.lines * ((d.w + 31) / 32) := Nat.mul_le_mul_right _ hline
  · rw [if_neg h3] at hc
    have hblocks : d.blocks = (d.c + 31) / 32 := by rw [Desc.blocks, Desc.blk, if_neg (hlayout hscaled)]; rfl
    have hcb : c / 32 < d.blocks := by omega
    have hcell : ∀ {a n : Nat}, a < n → a * d.w + w < n * d.w := fun {a n} ha => by
      have := Nat.mul_le_mul_right d.w ha
      rw [Nat.succ_mul] at this
      omega
    have hplace : d.line (h0 + i) * d.blocks + c / 32 < d.lines * d.blocks := by
      have := Nat.mul_le_mul_right d.blocks hline
      rw [Nat.succ_mul] at this
      omega
    have hplace' : c / 32 * d.lines + d.line (h0 + i) < d.lines * d.blocks := by
      have := Nat.mul_le_mul_right d.lines hcb
      rw [Nat.succ_mul, Nat.mul_comm d.blocks] at this
      omega
    have htotal : d.lines * (d.w * ((d.c + 31) / 32)) = d.lines * d.blocks * d.w := by
      rw [← hblocks, Nat.mul_comm d.w, Nat.mul_assoc]
    rw [if_neg h3, if_neg h3, htotal]
    split
    · exact hcell hplace
    · exact hcell hplace'

theorem le_granule (n : Nat) : n ≤ granule n := by
  unfold granule
  omega

/-- The padding of a scale plane lies within it. -/
theorem editsWithin_padPlane (hscaled : d.scaled = true) (m : Memory) (at0 : Nat) :
    editsWithin (at0 + d.scaleBase) (at0 + d.scaleEnd) m (padPlane d m at0) := by
  unfold padPlane Desc.scaleEnd Desc.planeEnd
  dsimp only
  rw [if_pos hscaled]
  split
  · refine editsWithin_trans (editsWithin_memZero _ ?_ ?_) (editsWithin_memZero _ ?_ ?_) <;> omega
  · exact editsWithin_memZero _ (by omega) (by omega)

/-- Writing the group scales of a plane, its second-level scales and its padding stays within it. -/
theorem editsWithin_plane (hd : storable d) (hscaled : d.scaled = true) (h0 at0 : Nat) (scale : Nat × Nat × Nat → Byte)
    (second : Nat → Nat) (m : Memory) :
    editsWithin (at0 + d.scaleBase) (at0 + d.scaleEnd) m
      (padPlane d (if d.fmt = .sb4 then
          (List.range d.lines).foldl (fun mem i =>
            memStore mem (at0 + d.scaleBase + d.groupBytes + 4 * i) (natLe 4 (second i)))
            ((d.groupFirsts h0).foldl (fun mem e =>
              memWrite mem (at0 + d.scaleBase + d.groupNo e.1 e.2.1 (e.2.2 / 32)) (scale e)) m)
        else (d.groupFirsts h0).foldl (fun mem e =>
          memWrite mem (at0 + d.scaleBase + d.groupNo e.1 e.2.1 (e.2.2 / 32)) (scale e)) m) at0) := by
  have hend : d.scaleEnd = d.scaleBase + d.groupBytes + (if d.fmt = .sb4 then granule (4 * d.lines) else 0) := by
    rw [Desc.scaleEnd, Desc.planeEnd, if_pos hscaled]
  have hgroups : d.lines * d.groupsPerLine ≤ d.groupBytes := le_granule _
  have hfirst : ∀ m, editsWithin (at0 + d.scaleBase) (at0 + d.scaleEnd) m ((d.groupFirsts h0).foldl (fun mem e =>
      memWrite mem (at0 + d.scaleBase + d.groupNo e.1 e.2.1 (e.2.2 / 32)) (scale e)) m) :=
    editsWithin_foldl (mem := id) (fun e he mem => by
      have hno := groupNo_lt hd hscaled (List.mem_of_mem_filter he)
      exact editsWithin_memWrite _ _ (by omega) (by omega))
  refine editsWithin_trans ?_ (editsWithin_padPlane hscaled _ _)
  split
  · next hsb4 =>
    rw [if_pos hsb4] at hend
    have hsecond := le_granule (4 * d.lines)
    refine editsWithin_trans (hfirst m) (editsWithin_foldl (mem := id) (fun i hi mem => ?_) _)
    have hlt := List.mem_range.mp hi
    refine editsWithin_memStore _ (by omega) ?_
    rw [length_natLe]
    omega
  · exact hfirst m

theorem effect_moveScales (hspace : d.space < 4) (hd : storable d) (x : Src) :
    Effect q id (d.spans s q) l s (moveScales s q x d) := by
  unfold moveScales
  split
  · next hmoves =>
    have hscaled : d.scaled = true := by
      simp only [movesPlane, Bool.and_eq_true] at hmoves
      exact hmoves.1.2
    exact effect_setMem (spaceBase_lt s q d) (plane_mem_spans s hspace hscaled)
      (editsWithin_plane hd hscaled 0 _ (fun e => moveScale x e.1 e.2.1 e.2.2)
        (fun i => canonCode .f32 (x.le (x.d.scaleBase + x.d.groupBytes + 4 * x.d.line i) 4)) _)
  · exact effect_refl ..

theorem effect_writeScales (hplace : .chPlacement ∉ l) (hnum : ∀ f ∈ numRegs, f ∈ l) (hspace : d.space < 4)
    (hd : storable d) (h0 : Nat) (a : Src) (tbits : Nat) :
    Effect q id (d.spans s q) l s (writeScales s q d h0 a tbits) := by
  unfold writeScales
  dsimp only
  split
  · next hscaled =>
    refine effect_trans ?_ (effect_countNums _ hplace hnum _ _)
    exact effect_setMem (spaceBase_lt s q d) (plane_mem_spans s hspace hscaled)
      (editsWithin_plane hd hscaled h0 _ (fun e => byteOf (groupCode d a (f32 tbits) e.1 e.2.1 e.2.2).val)
        (fun _ => tbits) _)
  · exact effect_refl ..

/-- A tensor moved with its scale plane. -/
theorem effect_moveCells (hplace : .chPlacement ∉ l) (hnum : ∀ f ∈ numRegs, f ∈ l) (hzovf : .zovf ∈ l)
    (hspace : d.space < 4) (hd : storable d) (x : Src) :
    Effect q id (d.spans s q) l s (countBad (moveScales (storeCells s q d 0 (moveElem x d)) q x d) q x) := by
  have hstore := effect_storeCells (q := q) s hplace hnum hspace hd hzovf 0 (moveElem x d)
  have hscales := effect_moveScales (q := q) (l := l) (storeCells s q d 0 (moveElem x d)) hspace hd x
  rw [spans_of_placement hstore.place] at hscales
  exact effect_trans hstore (effect_trans hscales (effect_countBad _ hplace hnum x))

end

end Sys2Proof.Proofs

/-! The instructions of class T and ZPACK (R142, R145): each hands its work to its units and stores within dd. -/

namespace Sys2Proof.Proofs

open Sys2Proof.Machine Sys2Proof.Safety Sys2Proof.Laws

/-- The registers that a tensor written by an instruction may change. -/
def tensorRegs : List Fld := numRegs ++ [.zovf]

theorem chPlacement_not_mem_tensorRegs : Fld.chPlacement ∉ tensorRegs := by decide

theorem numRegs_sub_tensorRegs : ∀ f ∈ numRegs, f ∈ tensorRegs := fun _ => List.mem_append_left _

theorem zovf_mem_tensorRegs : Fld.zovf ∈ tensorRegs := by decide

/-! ### The destination of an instruction that goes -/

/-- A destination in core SRAM that passed its checks. -/
def ownDest (s : State) (q : SeqId) (r : Nat) : Prop := (tensor s q r).space = 0 ∧ storable (tensor s q r)

section
variable {q : SeqId} {w : ZWord} {s : State}

/-- The first descriptor of an instruction that goes has passed its checks. -/
theorem firstDesc_of_goes {row : Op → Bool} (hgo : goes q w row s) {u : Use} {us : List Use}
    (huses : uses (opOf w) = u :: us) : (tensor s q u.reg).space ∈ u.spaces ∧ storable (tensor s q u.reg) ∧
      strideBad (tensor s q u.reg) = false ∧ shapeBad (sequencer s q) (opOf w) 0 (tensor s q u.reg) = false := by
  have hdescs := descsTrap_of_goes hgo
  rw [huses] at hdescs
  obtain ⟨hfirst, -⟩ := descsTrap_cons hdescs
  obtain ⟨-, -, hstride, hshape, hspace⟩ := descTrap_none hfirst
  exact ⟨hspace, storable_of_descTrap hfirst, hstride, hshape⟩

theorem ownDest_of_goes {row : Op → Bool} (hgo : goes q w row s) {arith : Bool} {us : List Use}
    (huses : uses (opOf w) = ⟨(opOf w).dd, [0], arith⟩ :: us) : ownDest s q (opOf w).dd := by
  obtain ⟨hspace, hstorable, -⟩ := firstDesc_of_goes hgo huses
  exact ⟨List.mem_singleton.mp hspace, hstorable⟩

theorem row_of_goes {cls code : Nat} (hgo : goes q w (isOp cls code) s) :
    (opOf w).cls = cls ∧ (opOf w).opcode = code := by
  obtain ⟨-, -, -, hrow, -⟩ := (goes_iff q w (isOp cls code) s).mp hgo
  simpa [isOp] using hrow

/-- Every instruction of class T names dd first, in the core's own SRAM. -/
theorem uses_tensor {o : Op} (hcls : o.cls = 2) : ∃ us, uses o = ⟨o.dd, [0], true⟩ :: us := by
  have hhead : (uses o).head? = some ⟨o.dd, [0], true⟩ := by
    unfold uses
    rw [hcls]
    dsimp only
    split <;> simp_all
  exact List.head?_eq_some_iff.mp hhead

theorem ownDest_tensor {code : Nat} (hgo : goes q w (isOp 2 code) s) : ownDest s q (opOf w).dd := by
  obtain ⟨us, huses⟩ := uses_tensor (row_of_goes hgo).1
  exact ownDest_of_goes hgo huses

/-! ### What the instructions leave -/

/-- What an instruction of class T leaves. -/
def tensorDone (q : SeqId) (w : ZWord) (s t : State) : Prop :=
  sequencer t q = (sequencer s q).advance ∧ (∀ q', q' ≠ q → sequencer t q' = sequencer s q') ∧
    (∀ u ∈ unitsOf s q (opOf w), unitBusy t q.chase.val u = true) ∧
    ((s.chase q.chase.val).busy = [] → keepsBytes ((tensor s q (opOf w).dd).spans s q) s t) ∧
    keepsRegs (readRegs ++ tensorRegs) s t ∧ t.istore = s.istore ∧ t.host = s.host ∧ t.ctxs = s.ctxs ∧
    t.mboxes = s.mboxes ∧ t.log = s.log

theorem onUnits_done (hmem : memoriesCanonical s) {srcs : List Desc} {run : State → State}
    (hrun : ∀ t, Effect q id ((tensor s q (opOf w).dd).spans t q) tensorRegs t (run t)) :
    tensorDone q w s (onUnits q (opOf w) srcs [tensor s q (opOf w).dd] s run) := by
  obtain ⟨hown, hothers, hunits, hbytes, hregs, haside⟩ := onUnitsWith_leaves (srcs := srcs) (rows := []) (o := opOf w)
    (dsts := [tensor s q (opOf w).dd]) (s := s) (run := run) chPlacement_not_mem_tensorRegs (fun t _ ht => by
      rw [List.flatMap_singleton, ← spans_of_placement ht]
      exact hrun t)
  rw [List.flatMap_singleton] at hbytes
  simp only [aside, Prod.mk.injEq] at haside
  obtain ⟨histore, hhost, hctxs, hmboxes, hlog⟩ := haside
  exact ⟨hown, hothers, hunits, fun hidle => (hbytes hidle hmem).2, hregs, histore, hhost, hctxs, hmboxes, hlog⟩

theorem effect_ownTensor (hd : ownDest s q (opOf w).dd) (t : State) (h0 : Nat) (f : Nat → Nat → Nat → Ev Nat) :
    Effect q id ((tensor s q (opOf w).dd).spans t q) tensorRegs t (storeTensor t q (tensor s q (opOf w).dd) h0 f) :=
  effect_storeTensor t chPlacement_not_mem_tensorRegs numRegs_sub_tensorRegs (hd.1 ▸ by decide) hd.2
    zovf_mem_tensorRegs h0 f

section
variable (hmem : memoriesCanonical s) (hd : ownDest s q (opOf w).dd)
include hmem hd

theorem engineOp_done (slices : Src → Src → Nat → Nat → Nat → List Slice) :
    tensorDone q w s (engineOp q (opOf w) (sequencer s q) s slices) := by
  refine onUnits_done hmem (fun t => effect_trans (f := id) (g := id) ?_ (effect_countNums _
    chPlacement_not_mem_tensorRegs numRegs_sub_tensorRegs _ _))
  have hstore := effect_ownTensor hd t
  exact effect_ite t (effect_trans (f := id) (g := id) (hstore ..) (effect_free _)) (hstore ..)

theorem vectorOp_done (srcs : List Desc) (reads : Nat → Src → List (Nat × Nat × Nat))
    (f : List Src → Nat → Nat → Nat → Ev Nat) :
    tensorDone q w s (vectorOp q (opOf w) (sequencer s q) s srcs (tensor s q (opOf w).dd) reads f) :=
  onUnits_done hmem (fun t => effect_trans (f := id) (g := id) (effect_ownTensor hd t _ _) (effect_countNums _
    chPlacement_not_mem_tensorRegs numRegs_sub_tensorRegs _ _))

end

section
variable {i : Instr} (hmem : memoriesCanonical s)
include hmem

theorem engine_done {code : Nat} {slices : Op → Src → Src → Nat → Nat → Nat → List Slice}
    (hexec : exec i s = .next (issue q w s (isOp 2 code) (fun o x s => engineOp q o x s (slices o))))
    (hgo : goes q w (isOp 2 code) s) : ∃ t, exec i s = .next t ∧ tensorDone q w s t :=
  ⟨_, exec_of_goes hexec hgo, engineOp_done hmem (ownDest_tensor hgo) _⟩

theorem vector_done {code : Nat} {srcs : Op → Seq → List Desc} {reads : Op → Seq → Nat → Src → List (Nat × Nat × Nat)}
    {f : Op → Seq → List Src → Nat → Nat → Nat → Ev Nat}
    (hexec : exec i s = .next (issue q w s (isOp 2 code) (fun o x s =>
      vectorOp q o x s (srcs o x) (descOf (x.d o.dd)) (reads o x) (f o x))))
    (hgo : goes q w (isOp 2 code) s) : ∃ t, exec i s = .next t ∧ tensorDone q w s t :=
  ⟨_, exec_of_goes hexec hgo, vectorOp_done hmem (ownDest_tensor hgo) _ _ _⟩

theorem elementwise_done {code : Nat} {f : Val → Val → Ev Val}
    (hexec : exec i s = .next (issue q w s (isOp 2 code) (fun o x s => elementwise q o x s f)))
    (hgo : goes q w (isOp 2 code) s) : ∃ t, exec i s = .next t ∧ tensorDone q w s t := by
  refine ⟨_, exec_of_goes hexec hgo, ?_⟩
  dsimp only [elementwise]
  exact vectorOp_done hmem (ownDest_tensor hgo) _ _ _

theorem zpack_done (hgo : goes q w (isOp 1 4) s) : ∃ t, exec (.zpack q w) s = .next t ∧ tensorDone q w s t := by
  obtain ⟨hcls, hcode⟩ := row_of_goes hgo
  have hd : ownDest s q (opOf w).dd := ownDest_of_goes hgo (arith := false) (us := [⟨(opOf w).da, [0], false⟩])
    (by simp only [uses, hcls, hcode])
  refine ⟨_, exec_of_goes (i := .zpack q w) rfl hgo, onUnits_done hmem (fun t => ?_)⟩
  exact effect_moveCells t chPlacement_not_mem_tensorRegs numRegs_sub_tensorRegs zovf_mem_tensorRegs (hd.1 ▸ by decide)
    hd.2 _

theorem quant_done (hgo : goes q w (isOp 2 9) s) : ∃ t, exec (.quant q w) s = .next t ∧ tensorDone q w s t := by
  have hd := ownDest_tensor hgo
  refine ⟨_, exec_of_goes (i := .quant q w) rfl hgo, ?_⟩
  dsimp only
  split
  · refine onUnits_done hmem (fun t => effect_trans (f := id) (g := id) ?_ (effect_countNums _
      chPlacement_not_mem_tensorRegs numRegs_sub_tensorRegs _ _))
    have hstore := effect_ownTensor hd t (lineBase (sequencer s q) (opOf w)) (groupedElem (tensor s q (opOf w).dd)
      (lineSrc t q (tensor s q (opOf w).da)) (f32 (opOf w).imm0) (opOf w).sat)
    refine effect_trans (f := id) (g := id) hstore ?_
    rw [← spans_of_placement hstore.place]
    exact effect_writeScales _ chPlacement_not_mem_tensorRegs numRegs_sub_tensorRegs (hd.1 ▸ by decide) hd.2 _ _ _
  · exact vectorOp_done hmem hd _ _ _

end

end

/-- Settles O17: ZPACK, the engine instructions, QUANT and the other vector instructions. -/
theorem tensorInstructionsComplete : Obligations.TensorInstructionsComplete := by
  intro q w s hmem r hr hgo
  simp only [List.mem_cons, List.not_mem_nil, or_false] at hr
  obtain rfl | rfl | rfl | rfl | rfl | rfl | rfl | rfl | rfl | rfl | rfl | rfl := hr
  · exact zpack_done hmem hgo
  · exact engine_done (i := .conv q w) hmem rfl hgo
  · exact engine_done (i := .dwconv q w) hmem rfl hgo
  · exact engine_done (i := .gemm q w) hmem rfl hgo
  · exact vector_done (i := .poolmax q w) hmem rfl hgo
  · exact vector_done (i := .poolavg q w) hmem rfl hgo
  · exact elementwise_done (i := .add q w) hmem rfl hgo
  · exact elementwise_done (i := .mul q w) hmem rfl hgo
  · exact vector_done (i := .act q w) hmem rfl hgo
  · exact quant_done hmem hgo
  · exact vector_done (i := .deq q w) hmem rfl hgo
  · exact vector_done (i := .rot q w) hmem rfl hgo

end Sys2Proof.Proofs

/-! Post-processing (R98 to R106, R154, R156): BOXDEC, NMS and TOPK on their unit, GATE and COMBINE of class X. -/

namespace Sys2Proof.Proofs

open Sys2Proof.Machine Sys2Proof.Safety Sys2Proof.Laws

/-! ### Instructions of class X -/

section
variable {q : SeqId} {f : Seq → Seq} {sp : List Span} {l : List Fld} {s t : State}

theorem effect_retire (h : Effect q f sp l s t) : Effect q (fun x => (f x).advance) sp l s (retire q t) :=
  effect_trans (g := Seq.advance) h (effect_modSeq t q Seq.advance sp l)

theorem editsWithin_memStore_nil {lo hi : Nat} (m : Memory) (a : Nat) : editsWithin lo hi m (memStore m a []) :=
  fun hm => ⟨memStore_wf hm a [], fun b _ => memRead_memStore_outside hm [] (Nat.lt_or_ge b a)⟩

/-- Bytes put at an offset of a tensor stay within its extent. -/
theorem effect_putBytes (s : State) {d : Desc} (hspace : d.space < 4) (off : Nat) (b : List Byte) :
    Effect q id (d.spans s q) l s (putBytes s q d off b) := by
  have hdisturb := effect_disturb (q := q) (sp := d.spans s q) (l := l) s
    [((spaceBase s q d).1, (spaceBase s q d).2 + d.base + off,
      (spaceBase s q d).2 + d.base + off + (b.take (d.extent - off)).length)]
  refine effect_trans (f := id) (g := id) hdisturb ?_
  refine effect_setMem (spaceBase_lt s q d) (elements_mem_spans s hspace) ?_
  have htake := List.length_take_le (d.extent - off) b
  by_cases hoff : off ≤ d.extent
  · exact editsWithin_memStore _ (by omega) (by omega)
  · rw [Nat.sub_eq_zero_of_le (not_le.mp hoff).le, List.take_zero]
    exact editsWithin_memStore_nil _ _

theorem effect_readPut (s : State) (hplace : .chPlacement ∉ l) (hreads : ∀ f ∈ readRegs, f ∈ l) {d : Desc}
    (hspace : d.space < 4) (srcs : List Src) (off : Nat) (b : List Byte) :
    Effect q id (d.spans s q) l s (putBytes (readX s q srcs) q d off b) := by
  have hread : Effect q id (d.spans s q) l s (readX s q srcs) := effect_readX s hplace hreads srcs
  have hput := effect_putBytes (q := q) (l := l) (readX s q srcs) hspace off b
  rw [spans_of_placement hread.place] at hput
  exact effect_trans (f := id) (g := id) hread hput

theorem effect_freeStore (s : State) {d : Desc} (hspace : d.space < 4) (free : Nat) (b : List Byte) :
    Effect q id (d.spans s q) l s (storeAt { s with free } q d b) := by
  have hfree : Effect q id (d.spans s q) l s { s with free } := effect_free free
  have hstore := effect_storeAt (q := q) (l := l) { s with free } hspace b
  rw [spans_of_placement hfree.place] at hstore
  exact effect_trans (f := id) (g := id) hfree hstore

end

/-! ### What the instructions leave -/

/-- The registers that post-processing may change. -/
def postRegs : List Fld := numRegs ++ [.ppCandOvf, .ppNanScore, .ppOutOvf]

theorem chPlacement_not_mem_postRegs : Fld.chPlacement ∉ postRegs := by decide

theorem numRegs_sub_postRegs : ∀ f ∈ numRegs, f ∈ postRegs := fun _ => List.mem_append_left _

section
variable {q : SeqId} {w : ZWord} {f : Seq → Seq} {s : State}

/-- What an instruction of post-processing leaves, besides its own sequencer. -/
def postFrame (q : SeqId) (o : Op) (s t : State) : Prop :=
  (∀ q', q' ≠ q → sequencer t q' = sequencer s q') ∧
    ((s.chase q.chase.val).busy = [] → keepsBytes ((tensor s q o.dd).spans s q) s t) ∧
    keepsRegs (readRegs ++ postRegs) s t ∧ t.host = s.host ∧ t.ctxs = s.ctxs

theorem onUnits_post (hmem : memoriesCanonical s) {srcs : List Desc} {run : State → State}
    (hrun : ∀ t, t = disturb s q.chase.val ((tensor s q (opOf w).dd).spans s q) →
      Effect q f ((tensor s q (opOf w).dd).spans t q) postRegs t (run t)) :
    let t := onUnits q (opOf w) srcs [tensor s q (opOf w).dd] s run
    sequencer t q = (f (sequencer s q)).advance ∧ postFrame q (opOf w) s t := by
  obtain ⟨hown, hothers, -, hbytes, hregs, haside⟩ := onUnitsWith_leaves (srcs := srcs) (rows := []) (o := opOf w)
    (dsts := [tensor s q (opOf w).dd]) (s := s) (run := run) chPlacement_not_mem_postRegs (fun t heq ht => by
      rw [List.flatMap_singleton] at heq
      rw [List.flatMap_singleton, ← spans_of_placement ht]
      exact hrun t heq)
  rw [List.flatMap_singleton] at hbytes
  simp only [aside, Prod.mk.injEq] at haside
  obtain ⟨-, hhost, hctxs, -, -⟩ := haside
  exact ⟨hown, hothers, fun hidle => (hbytes hidle hmem).2, hregs, hhost, hctxs⟩

theorem retire_post (hmem : memoriesCanonical s) {t : State}
    (h : Effect q id ((tensor s q (opOf w).dd).spans s q) (readRegs ++ postRegs) s t) :
    sequencer (retire q t) q = (sequencer s q).advance ∧ postFrame q (opOf w) s (retire q t) := by
  have hretire := effect_retire h
  have haside := hretire.aside
  simp only [aside, Prod.mk.injEq] at haside
  obtain ⟨-, hhost, hctxs, -, -⟩ := haside
  exact ⟨hretire.own, hretire.others, fun hidle => (hretire.bytes hidle hmem).2, hretire.regs, hhost, hctxs⟩

end

/-! ### The instructions -/

section
variable {q : SeqId} {w : ZWord} {s : State}

/-- The destination of post-processing lies in the core's own SRAM. -/
theorem space_of_row {cls code : Nat} (hgo : goes q w (isOp cls code) s)
    (hrow : (cls, code) ∈ [(3, 1), (3, 2), (3, 4), (4, 1), (4, 4)]) : (tensor s q (opOf w).dd).space < 4 := by
  obtain ⟨hcls, hcode⟩ := row_of_goes hgo
  have huses : ∃ us, uses (opOf w) = ⟨(opOf w).dd, [0], false⟩ :: us := by
    simp only [List.mem_cons, Prod.mk.injEq, List.not_mem_nil, or_false] at hrow
    obtain ⟨rfl, rfl⟩ | ⟨rfl, rfl⟩ | ⟨rfl, rfl⟩ | ⟨rfl, rfl⟩ | ⟨rfl, rfl⟩ := hrow <;>
      exact ⟨_, by simp only [uses, hcls, hcode]; rfl⟩
  obtain ⟨us, huses⟩ := huses
  rw [(ownDest_of_goes hgo huses).1]
  decide

/-- The boxes that NMS keeps of the buffer at a descriptor. -/
def nmsKept (t : State) (q : SeqId) (o : Op) (a : Desc) : List Box :=
  (keepBoxes (o.imm0 % 256) (bitAt o.imm0 8) ((bufferBoxes (srcOf t q a)).foldr rankInsert []) []).take
    (bitsAt o.imm0 16 8 + 1)

theorem length_nmsKept_le (t : State) (o : Op) (a : Desc) : (nmsKept t q o a).length ≤ bitsAt o.imm0 16 8 + 1 :=
  List.length_take_le _ _

variable (hmem : memoriesCanonical s)
include hmem

theorem boxdec_done (hgo : goes q w (isOp 3 1) s) : ∃ t, exec (.boxdec q w) s = .next t ∧
    sequencer t q = (sequencer s q).advance ∧ postFrame q (opOf w) s t := by
  have hspace := space_of_row hgo (by decide)
  refine ⟨_, exec_of_goes (i := .boxdec q w) rfl hgo, onUnits_post (f := id) hmem (fun t _ => ?_)⟩
  have hcount := fun u => effect_countBad (q := q) (sp := (tensor s q (opOf w).dd).spans t q) u
    chPlacement_not_mem_postRegs numRegs_sub_postRegs
  refine effect_trans (f := id) (g := id) (effect_trans (f := id) (g := id) (effect_trans (f := id) (g := id) ?_
    (effect_countNums _ chPlacement_not_mem_postRegs numRegs_sub_postRegs _ _)) (hcount _ _)) (hcount _ _)
  exact effect_trans (f := id) (g := id) (effect_trans (f := id) (g := id) (effect_storeAt t hspace _)
    (effect_bumpBy chPlacement_not_mem_postRegs (by decide) _ _))
    (effect_bumpBy chPlacement_not_mem_postRegs (by decide) _ _)

theorem nms_done (hgo : goes q w (isOp 3 2) s) : ∃ t n, exec (.nms q w) s = .next t ∧
    n ≤ bitsAt (opOf w).imm0 16 8 + 1 ∧ sequencer t q = ((sequencer s q).setS (opOf w).sd n).advance ∧
    postFrame q (opOf w) s t := by
  have hspace := space_of_row hgo (by decide)
  refine ⟨_, _, exec_of_goes (i := .nms q w) rfl hgo, length_nmsKept_le .., onUnits_post
    (f := fun y => y.setS (opOf w).sd (nmsKept (disturb s q.chase.val ((tensor s q (opOf w).dd).spans s q)) q (opOf w)
      (tensor s q (opOf w).da)).length) hmem (fun t ht => ?_)⟩
  rw [← ht]
  exact effect_trans (f := id) (g := fun y => y.setS (opOf w).sd (nmsKept t q (opOf w) (tensor s q (opOf w).da)).length)
    (effect_trans (f := id) (g := id) (effect_storeAt t hspace _)
      (effect_bumpBy chPlacement_not_mem_postRegs (fld := .ppOutOvf) (by decide) _ _)) (effect_modSeq ..)

theorem topk_done (hgo : goes q w (isOp 3 4) s) : ∃ t, exec (.topk q w) s = .next t ∧
    sequencer t q = (sequencer s q).advance ∧ postFrame q (opOf w) s t := by
  have hspace := space_of_row hgo (by decide)
  refine ⟨_, exec_of_goes (i := .topk q w) rfl hgo, onUnits_post (f := id) hmem (fun t _ => ?_)⟩
  refine effect_trans (f := id) (g := id) (effect_trans (f := id) (g := id) ?_
    (effect_bumpBy chPlacement_not_mem_postRegs (by decide) _ _))
    (effect_countBad _ chPlacement_not_mem_postRegs numRegs_sub_postRegs _)
  exact effect_freeStore t hspace _ _

theorem gate_done (hgo : goes q w (isOp 4 1) s) : ∃ t, exec (.gate q w) s = .next t ∧
    sequencer t q = (sequencer s q).advance ∧ postFrame q (opOf w) s t := by
  have hspace := space_of_row hgo (by decide)
  refine ⟨_, exec_of_goes (i := .gate q w) rfl hgo, retire_post hmem ?_⟩
  exact effect_trans (f := id) (g := id) (effect_trans (f := id) (g := id)
    (effect_readPut s (by decide) (fun _ => List.mem_append_left _) hspace _ 0 _)
    (effect_countNums _ (by decide) (by decide) _ _)) (effect_countBad _ (by decide) (by decide) _)

theorem combine_done (hgo : goes q w (isOp 4 4) s) : ∃ t, exec (.combine q w) s = .next t ∧
    sequencer t q = (sequencer s q).advance ∧ postFrame q (opOf w) s t := by
  have hspace := space_of_row hgo (by decide)
  refine ⟨_, exec_of_goes (i := .combine q w) rfl hgo, retire_post hmem ?_⟩
  exact effect_trans (f := id) (g := id)
    (effect_readPut s (by decide) (fun _ => List.mem_append_left _) hspace _ 0 _)
    (effect_countNums _ (by decide) (by decide) _ _)

end

/-- Settles O20: BOXDEC, NMS and TOPK on their unit, GATE and COMBINE of class X. -/
theorem postProcessingCompletes : Obligations.PostProcessingCompletes := by
  intro q w s o frame hmem
  exact ⟨boxdec_done hmem, nms_done hmem, topk_done hmem, gate_done hmem, combine_done hmem⟩

end Sys2Proof.Proofs

/-! DIMS (R103 to R105, R152): what open, accumulate and close leave, and what a sample moves. -/

namespace Sys2Proof.Proofs

open Sys2Proof.Machine Sys2Proof.Safety Sys2Proof.Laws

/-! ### What an instruction on its units keeps of its own effect -/

section
variable {q : SeqId} {s r : State} {o : Op} {srcs dsts : List Desc} {run : State → State}

/-- What is left of the state `r` that an instruction's own effect answers: its chase but for the units at work and the
sequencers, the memories, and the registers that reads do not change. -/
structure Settled (q : SeqId) (r t : State) : Prop where
  dims : (t.chase q.chase.val).dims = (r.chase q.chase.val).dims
  items : (t.chase q.chase.val).items = (r.chase q.chase.val).items
  memories : memories t = memories r
  regs : keepsRegs readRegs r t
  own : sequencer t q = (sequencer r q).advance

theorem settled_retire {regs : List ((Fld × Nat) × Nat)} {free : Nat}
    (hregs : keepsRegs readRegs r { r with regs, free })
    {reads writes : List Span} {rows : List (Nat × Nat × List Byte)} :
    Settled q r (retire q (occupy { r with regs, free } q o reads writes false rows)) := by
  obtain ⟨hown, -, hchase, hrest⟩ :=
    seqChanges_modSeq (occupy { r with regs, free } q o reads writes false rows) q Seq.advance
  have hoccupy := chase_occupy { r with regs, free } q o reads writes false rows q.chase.val
  refine ⟨?_, ?_, ?_, hregs, ?_⟩
  · exact (congrArg Chase.dims (hchase q.chase.val) :).trans (congrArg Chase.dims hoccupy :)
  · exact (congrArg Chase.items (hchase q.chase.val) :).trans (congrArg Chase.items hoccupy :)
  · exact (congrArg Proofs.memories hrest :)
  · rw [retire, hown, sequencer_occupy_any]
    rfl

theorem onUnitsWith_settled {rows : List (Nat × Nat × List Byte)}
    (hr : run (disturb s q.chase.val (dsts.flatMap (fun d => d.spans s q))) = r) :
    Settled q r (onUnitsWith q o srcs dsts rows s run) := by
  obtain ⟨u, heq, hreads, regs, free, hu⟩ := onUnitsWith_eq (q := q) s o srcs dsts rows run
  have hregs := (hreads [] readRegs (by decide) (fun _ h => h)).regs
  rw [hr] at hu hregs
  rw [hu] at hregs
  rw [heq, hu]
  exact settled_retire hregs

theorem onUnits_settled (hr : run (disturb s q.chase.val (dsts.flatMap (fun d => d.spans s q))) = r) :
    Settled q r (onUnits q o srcs dsts s run) := onUnitsWith_settled hr

/-- An instruction without sources changes registers by its own effect only. -/
theorem get_onUnits_noSources (hr : run (disturb s q.chase.val (dsts.flatMap (fun d => d.spans s q))) = r) (f : Fld)
    (i : Nat) : (onUnits q o [] dsts s run).get f i = r.get f i := by
  rw [← hr]
  rfl

theorem disturb_noWrites (n : Nat) : disturb s n (([] : List Desc).flatMap (fun d => d.spans s q)) = s :=
  disturb_nil s n

end

section
variable {q : SeqId} {s t : State}

theorem keepsBytes_of_memories_eq (h : memories t = memories s) : keepsBytes [] s t := fun m a _ _ => by
  rw [memOf_of_memories h]

theorem sram_of_memories (h : memories t = memories s) : t.sram = s.sram := congrArg Prod.fst h

theorem keepsBytes_settled {r : State} (h : Settled q r t) {sp : List Span} (hbytes : keepsBytes sp s r) :
    keepsBytes sp s t := fun m a hm ha => by
  rw [memOf_of_memories h.memories]
  exact hbytes m a hm ha

theorem item_of_items {c c' : Chase} (h : c'.items = c.items) (i : Nat) : c'.item i = c.item i := by
  rw [Chase.item, Chase.item, h]

end

/-! ### The record of a handle (R104, R152) -/

theorem length_dimsRecord (len width height hmax n flags : Nat) :
    (dimsRecord len width height hmax n flags).length = 32 := by
  simp only [dimsRecord, List.length_append, length_natLe]

theorem length_dimsRefused : dimsRefused.length = 32 := length_dimsRecord ..

theorem length_dimsResult (d : Dims) : (dimsResult d).val.length = 32 := by
  unfold dimsResult
  split
  · exact length_dimsRecord ..
  · exact length_dimsRecord ..

section
variable {q : SeqId} {s : State} {d : Desc} {b : List Byte}

theorem spaceBase_ownCore (hd : d.space = 0) : (spaceBase s q d).1 = 0 := by
  unfold spaceBase
  simp only [hd]

/-- A record of 32 bytes stands at its descriptor's base, and nothing else changes. -/
theorem storeAt_record (hmem : memoriesCanonical s) (hd : d.space = 0) (hb : b.length = 32) (hfit : 32 ≤ d.extent) :
    let at0 := (spaceBase s q d).2 + d.base
    memBytes (storeAt s q d b).sram at0 32 = b ∧ keepsBytes [(0, at0, at0 + 32)] s (storeAt s q d b) := by
  have hspace := spaceBase_ownCore (s := s) (q := q) hd
  refine ⟨?_, ?_⟩
  · have hstored := memBytes_storeAt hmem q (d := d) (b := b) (hb ▸ hfit)
    rw [hspace, hb] at hstored
    exact hstored
  · rw [storeAt, hspace]
    refine (writesWithin_setMem (n := 0) (by decide) (List.mem_singleton.mpr rfl) ?_ hmem).2
    refine editsWithin_memStore _ le_rfl ?_
    have := List.length_take_le' d.extent b
    omega

end

theorem regs_setMem (s : State) (m : Nat) (x : Memory) : (s.setMem m x).regs = s.regs := by
  match m with
  | 0 | 1 | _ + 2 => rfl

theorem memories_put (s : State) (f : Fld) (i v : Nat) : memories (s.put f i v) = memories s := rfl

theorem memories_bumpBy (s : State) (f : Fld) (i v : Nat) : memories (s.bumpBy f i v) = memories s := rfl

theorem regs_storeAt (s : State) (q : SeqId) (d : Desc) (b : List Byte) : (storeAt s q d b).regs = s.regs :=
  regs_setMem ..

theorem countNums_keeps (s : State) (n : Nat) (e : Nums) :
    (countNums s n e).chases = s.chases ∧ memories (countNums s n e) = memories s := by
  constructor
  · simp only [countNums, apply_ite State.chases, State.put_chases, State.bumpBy_chases, ite_self]
  · simp only [countNums, apply_ite memories, memories_put, memories_bumpBy, ite_self]

/-- A record stored and its numeric events counted, in a state that has the chase's place and the memories of `s`. -/
theorem countedRecord {q : SeqId} {s u : State} {d : Desc} {b : List Byte} (hmem : memoriesCanonical s)
    (hd : d.space = 0) (hplace : placement u q.chase.val = placement s q.chase.val) (hmems : memories u = memories s)
    (hb : b.length = 32) (hfit : 32 ≤ d.extent) (e : Nums) :
    let at0 := (spaceBase s q d).2 + d.base
    let r := countNums (storeAt u q d b) q.chase.val e
    memBytes r.sram at0 32 = b ∧ keepsBytes [(0, at0, at0 + 32)] s r ∧ r.chases = u.chases := by
  obtain ⟨hchases, hkept⟩ := countNums_keeps (storeAt u q d b) q.chase.val e
  obtain ⟨hcanon, -⟩ := writesWithin_of_memories (sp := []) hmems hmem
  obtain ⟨hstored, hbytes⟩ := storeAt_record hcanon hd (q := q) hb hfit
  rw [spaceBase_of_placement hplace] at hstored hbytes
  refine ⟨?_, fun m a hm ha => ?_, hchases.trans (chases_storeAt ..)⟩
  · rw [sram_of_memories hkept]
    exact hstored
  · rw [memOf_of_memories hkept, hbytes m a hm ha, memOf_of_memories hmems]

/-- The close of a handle's state. -/
def closeDims (s : State) (q : SeqId) (h : Nat) : State :=
  s.setChase q.chase.val { s.chase q.chase.val with dims := dimsRest (s.chase q.chase.val) (ownCluster s q) h }

/-! ### Open, accumulate and close (R103 to R105) -/

theorem refuseItem_keeps (c : Chase) (h : Nat) : (c.refuseItem h).line = c.line ∧ (c.refuseItem h).streams = c.streams ∧
    ((c.refuseItem h).forme, (c.refuseItem h).cores, (c.refuseItem h).standby, (c.refuseItem h).regions) =
      (c.forme, c.cores, c.standby, c.regions) ∧
    (c.refuseItem h).busy = c.busy ∧ (c.refuseItem h).dims = c.dims := by
  unfold Chase.refuseItem
  split <;> exact ⟨rfl, rfl, rfl, rfl, rfl⟩

theorem item_refuseItem {c : Chase} {h : Nat} {it : Item} (hit : c.item h = some it) :
    (c.refuseItem h).item h = some { it with refused := true } := by
  unfold Chase.refuseItem
  rw [hit]
  exact tab_get_set_same ..

section
variable {q : SeqId} {w : ZWord} {s r : State} {i : Instr} {srcs : List Desc} {run : State → State}

/-- An instruction that writes nothing another unit could still read, and whose own effect answers `r`. -/
theorem settled_of_noWrites (hexec : exec i s = .next (onUnits q (opOf w) srcs [] s run)) (hr : run s = r)
    (hown : sequencer r q = sequencer s q) :
    ∃ t, exec i s = .next t ∧ sequencer t q = (sequencer s q).advance ∧ Settled q r t :=
  have hsettled := onUnits_settled (dsts := []) ((congrArg run (disturb_noWrites q.chase.val)).trans hr)
  ⟨_, hexec, hsettled.own.trans (congrArg Seq.advance hown), hsettled⟩

end

/-- An instruction without sources while no unit of its chase is at work. -/
theorem settled_of_idle {q : SeqId} {w : ZWord} {s r : State} {i : Instr} {dsts : List Desc} {run : State → State}
    (hexec : exec i s = .next (onUnits q (opOf w) [] dsts s run)) (hidle : (s.chase q.chase.val).busy = [])
    (hr : run s = r) (hown : sequencer r q = sequencer s q) :
    ∃ t, exec i s = .next t ∧ sequencer t q = (sequencer s q).advance ∧ Settled q r t ∧ ∀ f i, t.get f i = r.get f i :=
  have hrun := (congrArg run (disturb_idle hidle _)).trans hr
  have hsettled := onUnits_settled (dsts := dsts) hrun
  ⟨_, hexec, hsettled.own.trans (congrArg Seq.advance hown), hsettled, get_onUnits_noSources hrun⟩

section
variable {q : SeqId} {w : ZWord} {s : State}

/-- The chase of a sequencer with other DIMS states. -/
theorem sequencer_setDims (s : State) (q : SeqId) (l : List Dims) :
    sequencer (s.setChase q.chase.val { s.chase q.chase.val with dims := l }) q = sequencer s q :=
  (effect_setChase (q := q) (sp := []) (l := []) (s := s) (c := { s.chase q.chase.val with dims := l }) q.chase.val
    rfl rfl rfl rfl).own

theorem dimsOpen_takes (hgo : goes q w (isDims 0) s) (hfree : ((dimsRest (s.chase q.chase.val) (ownCluster s q)
      ((sequencer s q).s (opOf w).sa)).filter (fun d => d.cluster == ownCluster s q)).length <
        (s.chase q.chase.val).dimsSlots.get 0 (ownCluster s q)) :
    ∃ t, exec (.dimsOpen q w) s = .next t ∧ sequencer t q = (sequencer s q).advance ∧
      (t.chase q.chase.val).dims = dimsStart (srcOf s q (tensor s q (opOf w).db)) (ownCluster s q)
        ((sequencer s q).s (opOf w).sa) :: dimsRest (s.chase q.chase.val) (ownCluster s q)
        ((sequencer s q).s (opOf w).sa) ∧
      keepsRegs readRegs s t ∧ keepsBytes [] s t := by
  have hexec := exec_of_goes (i := .dimsOpen q w) rfl hgo
  obtain ⟨t, hexec, hown, hsettled⟩ := settled_of_noWrites hexec (if_pos hfree) (sequencer_setDims s q _)
  exact ⟨t, hexec, hown, hsettled.dims.trans (congrArg Chase.dims (chase_setChase_same ..)), hsettled.regs,
    keepsBytes_of_memories_eq hsettled.memories⟩

theorem dimsOpen_refuses (hgo : goes q w (isDims 0) s) (hfull : (s.chase q.chase.val).dimsSlots.get 0 (ownCluster s q) ≤
      ((dimsRest (s.chase q.chase.val) (ownCluster s q) ((sequencer s q).s (opOf w).sa)).filter
        (fun d => d.cluster == ownCluster s q)).length) :
    ∃ t, exec (.dimsOpen q w) s = .next t ∧ sequencer t q = (sequencer s q).advance ∧
      (t.chase q.chase.val).dims = (s.chase q.chase.val).dims ∧
      (∀ it, (s.chase q.chase.val).item ((sequencer s q).s (opOf w).sa) = some it →
        (t.chase q.chase.val).item ((sequencer s q).s (opOf w).sa) = some { it with refused := true }) ∧
      t.get .ppDimsRefused (ownCluster s q) = min (s.get .ppDimsRefused (ownCluster s q) + 1) 0xFFFFFFFF ∧
      keepsRegs (.ppDimsRefused :: readRegs) s t ∧ keepsBytes [] s t := by
  have hexec := exec_of_goes (i := .dimsOpen q w) rfl hgo
  obtain ⟨hline, hstreams, hplace, hbusy, hdims⟩ :=
    refuseItem_keeps (s.chase q.chase.val) ((sequencer s q).s (opOf w).sa)
  have hitem : sequencer ((s.bump .ppDimsRefused (ownCluster s q)).setChase q.chase.val
      ((s.chase q.chase.val).refuseItem ((sequencer s q).s (opOf w).sa))) q = sequencer s q :=
    (effect_setChase (q := q) (sp := []) (l := []) q.chase.val hline hstreams hplace hbusy).own
  obtain ⟨t, hexec, hown, hsettled⟩ := settled_of_noWrites hexec (if_neg (not_lt.mpr hfull)) hitem
  refine ⟨t, hexec, hown, ?_, fun it hit => ?_, ?_, fun f i hf => ?_, keepsBytes_of_memories_eq hsettled.memories⟩
  · rw [hsettled.dims, chase_setChase_same, hdims]
  · rw [item_of_items hsettled.items, chase_setChase_same, item_refuseItem hit]
  · rw [hsettled.regs _ _ (by decide), get_setChase, get_bump_count _ rfl]
  · obtain ⟨hne, hread⟩ := not_or.mp (fun h => hf (List.mem_cons.mpr h))
    rw [hsettled.regs f i hread, get_setChase, get_bump_ne _ hne]

theorem dimsAccumulate_adds {d : Dims} (hgo : goes q w (isDims 1) s)
    (hopen : dimsOf (s.chase q.chase.val) (ownCluster s q) ((sequencer s q).s (opOf w).sa) = some d) :
    ∃ t, exec (.dimsAccumulate q w) s = .next t ∧ sequencer t q = (sequencer s q).advance ∧
      (t.chase q.chase.val).dims = dimsBand d (srcOf s q (tensor s q (opOf w).da))
          (srcOf s q (tensor s q (opOf w).dc)) ::
        dimsRest (s.chase q.chase.val) (ownCluster s q) ((sequencer s q).s (opOf w).sa) ∧
      keepsRegs readRegs s t ∧ keepsBytes [] s t := by
  have hexec := exec_of_goes (i := .dimsAccumulate q w) rfl hgo
  dsimp only at hexec
  obtain ⟨t, hexec, hown, hsettled⟩ := settled_of_noWrites hexec (by rw [hopen]) (sequencer_setDims s q _)
  exact ⟨t, hexec, hown, hsettled.dims.trans (congrArg Chase.dims (chase_setChase_same ..)), hsettled.regs,
    keepsBytes_of_memories_eq hsettled.memories⟩

theorem dimsAccumulate_refuses (hmem : memoriesCanonical s) (hgo : goes q w (isDims 1) s)
    (hnone : dimsOf (s.chase q.chase.val) (ownCluster s q) ((sequencer s q).s (opOf w).sa) = none)
    (htrap : descTrap s q (sequencer s q) (opOf w) 0 ⟨(opOf w).dd, [0], false⟩ = none)
    (hfit : 32 ≤ (tensor s q (opOf w).dd).extent) :
    let at0 := (spaceBase s q (tensor s q (opOf w).dd)).2 + (tensor s q (opOf w).dd).base
    ∃ t, exec (.dimsAccumulate q w) s = .next t ∧ sequencer t q = (sequencer s q).advance ∧
      (t.chase q.chase.val).dims = (s.chase q.chase.val).dims ∧ memBytes t.sram at0 32 = dimsRefused ∧
      keepsRegs readRegs s t ∧ keepsBytes [(0, at0, at0 + 32)] s t := by
  have hd : (tensor s q (opOf w).dd).space = 0 := List.mem_singleton.mp (descTrap_none htrap).2.2.2.2
  obtain ⟨hstored, hbytes⟩ := storeAt_record hmem hd (q := q) length_dimsRefused hfit
  have hchases := chases_storeAt s q (tensor s q (opOf w).dd) dimsRefused
  have hexec := exec_of_goes (i := .dimsAccumulate q w) rfl hgo
  dsimp only at hexec
  obtain ⟨t, hexec, hown, hsettled⟩ := settled_of_noWrites hexec (by rw [hnone, htrap]; rfl)
    (sequencer_of_chases hchases q)
  refine ⟨t, hexec, hown, ?_, ?_, fun f i hf => ?_, ?_⟩
  · rw [hsettled.dims, chase_of_chases hchases]
  · rw [sram_of_memories hsettled.memories]
    exact hstored
  · exact (hsettled.regs f i hf).trans (get_of_regs (regs_storeAt ..) f i)
  · exact keepsBytes_settled hsettled hbytes

/-- DIMS close names dd first. -/
theorem ownDest_dimsClose (hgo : goes q w (isDims 2) s) : ownDest s q (opOf w).dd := by
  obtain ⟨-, -, -, hrow, -⟩ := (goes_iff q w (isDims 2) s).mp hgo
  have huses : uses (opOf w) = [⟨(opOf w).dd, [0], false⟩] := by
    simp only [isDims, isOp, Bool.and_eq_true, Bool.or_eq_true, beq_iff_eq] at hrow
    obtain ⟨⟨hcls, hcode⟩, hsub | hsub⟩ := hrow <;> simp only [uses, hcls, hcode, hsub]
  exact ownDest_of_goes hgo huses

theorem dimsClose_done (hmem : memoriesCanonical s) (hgo : goes q w (isDims 2) s)
    (hidle : (s.chase q.chase.val).busy = []) (hfit : 32 ≤ (tensor s q (opOf w).dd).extent) :
    let at0 := (spaceBase s q (tensor s q (opOf w).dd)).2 + (tensor s q (opOf w).dd).base
    let found := dimsOf (s.chase q.chase.val) (ownCluster s q) ((sequencer s q).s (opOf w).sa)
    ∃ t, exec (.dimsClose q w) s = .next t ∧ sequencer t q = (sequencer s q).advance ∧
      (t.chase q.chase.val).dims = (if found.isSome then dimsRest (s.chase q.chase.val) (ownCluster s q)
        ((sequencer s q).s (opOf w).sa) else (s.chase q.chase.val).dims) ∧
      memBytes t.sram at0 32 = (match found with
        | some d => (dimsResult d).val
        | none => dimsRefused) ∧
      keepsRegs numRegs s t ∧ keepsBytes [(0, at0, at0 + 32)] s t := by
  intro at0 found
  have hd := (ownDest_dimsClose hgo).1
  have hexec := exec_of_goes (i := .dimsClose q w) rfl hgo
  dsimp only at hexec
  cases hopen : found with
  | none =>
    have hfound : dimsOf (s.chase q.chase.val) (ownCluster s q) ((sequencer s q).s (opOf w).sa) = none := hopen
    obtain ⟨hstored, hbytes⟩ := storeAt_record hmem hd (q := q) length_dimsRefused hfit
    have hchases := chases_storeAt s q (tensor s q (opOf w).dd) dimsRefused
    obtain ⟨t, hexec, hown, hsettled, hget⟩ := settled_of_idle hexec hidle 
      (r := storeAt s q (tensor s q (opOf w).dd) dimsRefused) (by rw [hfound]; rfl)
      (sequencer_of_chases hchases q)
    refine ⟨t, hexec, hown, ?_, ?_, fun f i _ => ?_, ?_⟩
    · rw [hsettled.dims, chase_of_chases hchases]
      rfl
    · rw [sram_of_memories hsettled.memories]
      exact hstored
    · rw [hget, get_of_regs (regs_storeAt ..)]
    · exact keepsBytes_settled hsettled hbytes
  | some d =>
    have hfound : dimsOf (s.chase q.chase.val) (ownCluster s q) ((sequencer s q).s (opOf w).sa) = some d := hopen
    have hclose : Effect q id [] [] s (closeDims s q ((sequencer s q).s (opOf w).sa)) :=
      effect_setChase _ rfl rfl rfl rfl
    obtain ⟨hstored, hbytes, hchases⟩ := countedRecord hmem hd hclose.place rfl (length_dimsResult d) hfit
      (dimsResult d).ev
    obtain ⟨t, hexec, hown, hsettled, hget⟩ := settled_of_idle hexec hidle
      (r := countNums (storeAt (closeDims s q ((sequencer s q).s (opOf w).sa)) q (tensor s q (opOf w).dd)
        (dimsResult d).val) q.chase.val (dimsResult d).ev)
      (by rw [hfound]; rfl) ((sequencer_of_chases hchases q).trans hclose.own)
    refine ⟨t, hexec, hown, ?_, ?_, fun f i hf => ?_, keepsBytes_settled hsettled hbytes⟩
    · rw [hsettled.dims, chase_of_chases hchases, closeDims, chase_setChase_same]
      rfl
    · rw [sram_of_memories hsettled.memories]
      exact hstored
    · rw [hget, (effect_countNums (q := q) (sp := []) _ (by decide) (fun _ h => h) _ _).regs f i hf,
        get_of_regs (regs_storeAt ..)]
      rfl

end

/-! ### A fresh state and a sample (R103, R152) -/

/-- A sample that counts (R103). -/
theorem dimsSample_counts {d : Dims} {v ref : Nat} (h : ¬(v = 0 ∨ v ≤ ref ∨ v - ref < d.hT)) (line col : Nat) :
    let e := dimsSample d line col v ref
    let bin := min ((v - ref) / 2 ^ d.hs) 4095
    e.n = d.n + 1 ∧ e.hMax = max d.hMax (v - ref) ∧ e.hist.get 0 bin = d.hist.get 0 bin + 1 ∧
      (∀ b, b ≠ bin → e.hist.get 0 b = d.hist.get 0 b) ∧
      (d.n = 0 → e.firstLine = line ∧ e.lastLine = line ∧ e.firstCol = col ∧ e.lastCol = col) ∧
      (d.n ≠ 0 → e.firstLine = min d.firstLine line ∧ e.lastLine = max d.lastLine line ∧
        e.firstCol = min d.firstCol col ∧ e.lastCol = max d.lastCol col) := by
  rw [dimsSample, if_neg h]
  exact ⟨rfl, rfl, tab_get_set_same .., fun b hb => tab_get_set_other _ _ _ hb,
    fun hn => ⟨if_pos hn, if_pos hn, if_pos hn, if_pos hn⟩, fun hn => ⟨if_neg hn, if_neg hn, if_neg hn, if_neg hn⟩⟩

/-- Settles O22: the sub-functions of DIMS, a fresh state and a sample. -/
theorem dimsKeepsItemStates : Obligations.DimsKeepsItemStates := by
  refine ⟨fun q w s => ?_, fun x cl h => ⟨rfl, rfl, rfl, rfl, rfl, fun b => tab_get_empty 0 b, rfl, rfl, rfl⟩,
    fun d line col v ref => ⟨fun h => if_pos h, fun hv href hT => dimsSample_counts (by omega) line col⟩⟩
  intro o n c cl h rest at0 hmem
  exact ⟨dimsOpen_takes, dimsOpen_refuses, fun d => dimsAccumulate_adds, dimsAccumulate_refuses hmem,
    dimsClose_done hmem⟩

end Sys2Proof.Proofs

/-! SORT.SEND and SORT.RECV (R153, R155, R291, R293). -/

namespace Sys2Proof.Proofs

open Sys2Proof.Machine Sys2Proof.Safety Sys2Proof.Laws

/-! ### Instructions that go -/

theorem ctxs_readX (s : State) (q : SeqId) (srcs : List Src) : (readX s q srcs).ctxs = s.ctxs := by
  have haside := (effect_readX (q := q) (sp := []) (l := readRegs) s (by decide) (fun _ h => h) srcs).aside
  simp only [aside, Prod.mk.injEq] at haside
  exact haside.2.2.1

theorem context_readX (s : State) (q : SeqId) (srcs : List Src) (k : Nat) :
    (readX s q srcs).context k = s.context k := by
  rw [State.context, ctxs_readX, State.context]

section
variable {q : SeqId} {w : ZWord} {s : State}

/-- SORT.SEND for a handle that is not open (log entry 20). -/
theorem sortSend_busy (hgo : goes q w (fun o => isOp 4 0x02 o && !bitAt o.sub 0) s)
    (h : 256 ≤ (sequencer s q).s (opOf w).sa ∨ (s.chase q.chase.val).item ((sequencer s q).s (opOf w).sa) = none) :
    exec (.sortSend q w) s = .next (retire q (modSeq (readX s q [srcOf s q (tensor s q (opOf w).da),
      srcOf s q (tensor s q (opOf w).db)]) q (fun y => y.setS (opOf w).sd cBusy))) := by
  have hexec := exec_of_goes (i := .sortSend q w) rfl hgo
  have hitem : (if (sequencer s q).s (opOf w).sa < 256 then
      (s.chase q.chase.val).item ((sequencer s q).s (opOf w).sa) else none) = none := by
    split
    · exact h.resolve_left (by omega)
    · rfl
  dsimp only at hexec
  rw [hitem] at hexec
  exact hexec

/-- SORT.SEND for an open item. -/
theorem sortSend_open (hgo : goes q w (fun o => isOp 4 0x02 o && !bitAt o.sub 0) s) {it : Item}
    (hlt : (sequencer s q).s (opOf w).sa < 256)
    (hit : (s.chase q.chase.val).item ((sequencer s q).s (opOf w).sa) = some it) :
    let h := (sequencer s q).s (opOf w).sa
    let src := srcOf s q (tensor s q (opOf w).da)
    let gate := srcOf s q (tensor s q (opOf w).db)
    let s0 := readX s q [src, gate]
    let n := q.chase.val
    exec (.sortSend q w) s = (if (s.context it.ctx).resetting
      then .next (retire q (modSeq s0 q (fun y => y.setS (opOf w).sd cIsolated)))
      else
        let r := sendSorts n h it (tensor s q (opOf w).da) (plainBytes src) (readGate gate)
          (cOk, s0.setChase n { s0.chase n with lastSend := (s0.chase n).lastSend.set h s.clk })
        .next (retire q (modSeq r.2 q (fun y => y.setS (opOf w).sd r.1)))) := by
  intro h src gate s0 n
  have hexec := exec_of_goes (i := .sortSend q w) rfl hgo
  dsimp only at hexec
  rw [if_pos hlt, hit] at hexec
  dsimp only at hexec
  rw [context_readX] at hexec
  by_cases hres : (s.context it.ctx).resetting = true
  · rw [if_pos hres] at hexec ⊢
    exact hexec
  · rw [if_neg hres] at hexec ⊢
    exact hexec

end

/-! ### A release and a timeout -/

section
variable {q : SeqId} {s : State} {dd sd pdst : Nat} {e : Option Nat}

theorem wait_of_sequencer {v : SeqWait} (h : (sequencer s q).wait = v) : ((s.chase q.chase.val).seq q.core).wait = v :=
  h

theorem sortRecvTimeout_free (hwait : (sequencer s q).wait = .inbound dd sd pdst e)
    (hnone : takeInbound s q dd sd = none) (hexpired : expired s e = true) :
    ∃ t a b, exec (.sortRecvTimeout q) s = .next t ∧ keepsRegs [] s t ∧ keepsBytes [] s t ∧
      sequencer t q = { (((sequencer s q).setS sd a).setS (sd + 1) b) with wait := .none }.advance := by
  have hexec : exec (.sortRecvTimeout q) s = execSortRecvTimeout q s := rfl
  unfold execSortRecvTimeout at hexec
  rw [wait_of_sequencer hwait] at hexec
  dsimp only at hexec
  rw [if_pos hexpired, hnone] at hexec
  exact ⟨_, _, _, hexec, keepsRegs_of_regs rfl, keepsBytes_of_memories rfl rfl rfl, (seqChanges_modSeq _ q _).1⟩

end

/-! ### The result of SORT.RECV (R155) -/

section
variable {q : SeqId} {l : List Fld} (s : State) {d : Desc}

theorem effect_writeReplies (hspace : d.space < 4) (len : Nat) (outs : List SortOut) :
    Effect q id (d.spans s q) l s (writeReplies s q d len outs) := by
  have hput : ∀ t, placement t q.chase.val = placement s q.chase.val → ∀ off b,
      Effect q id (d.spans s q) l t (putBytes t q d off b) := fun t ht off b => by
    rw [← spans_of_placement ht]
    exact effect_putBytes t hspace off b
  have hheader := hput s rfl 0 (arrivalHeader outs)
  refine effect_trans (f := id) (g := id) hheader (effect_foldl (fun x _ t ht => ?_))
  have hplace := ht.trans hheader.place
  dsimp only
  split
  · exact hput t hplace _ _
  · exact hput t hplace _ _
  · exact effect_refl ..

end

theorem chases_putBytes (s : State) (q : SeqId) (d : Desc) (off : Nat) (b : List Byte) :
    (putBytes s q d off b).chases = s.chases :=
  (chases_setMem ..).trans (disturb_leaves ..).2.1

theorem chases_writeReplies (s : State) (q : SeqId) (d : Desc) (len : Nat) (outs : List SortOut) :
    (writeReplies s q d len outs).chases = s.chases := by
  unfold writeReplies
  refine (foldl_keeps (φ := State.chases) (fun t x => ?_) _ _).trans (chases_putBytes ..)
  dsimp only
  split
  · exact chases_putBytes ..
  · exact chases_putBytes ..
  · rfl

section
variable (s : State) (q : SeqId) (h dd sd pdst : Nat)

/-- The items of a chase once an item's sorts are collected. -/
def itemsCollected (c : Chase) (h : Nat) : Tab (Option Item) :=
  match c.item h with
  | some it => if missingMask (sortsOf c h) = 0 then c.items else c.items.set h (some { it with fallback := true })
  | none => c.items

/-- A chase once an item's sorts are collected. -/
def chaseCollected (c : Chase) (h : Nat) : Chase :=
  { c with items := itemsCollected c h, sorts := c.sorts.filter (fun x => x.hdr.handle.toNat / 8 != h) }

theorem finishRecv_eq : let c := s.chase q.chase.val
    finishRecv s q h dd sd pdst = modSeq ((writeReplies s q (tensor s q dd) (expertLen s q.chase.val (tensor s q dd))
        (sortsOf c h)).setChase q.chase.val (chaseCollected c h)) q (fun y =>
      { (y.setS sd (missingMask (sortsOf c h))).setP pdst (missingMask (sortsOf c h) == 0) with
        wait := .none }.advance) := by
  intro c
  unfold finishRecv
  dsimp only
  rw [chase_of_chases (chases_writeReplies ..)]
  rfl

end

/-! ### The statement -/

theorem sortsOf_chaseCollected (c : Chase) (h : Nat) : sortsOf (chaseCollected c h) h = [] := by
  refine List.filter_eq_nil_iff.mpr (fun x hx => ?_)
  have hother := (List.mem_filter.mp hx).2
  simpa using hother

theorem item_chaseCollected {c : Chase} {h : Nat} {it : Item} (hit : c.item h = some it)
    (hmask : missingMask (sortsOf c h) ≠ 0) : (chaseCollected c h).item h = some { it with fallback := true } := by
  rw [Chase.item, chaseCollected, itemsCollected, hit]
  dsimp only
  rw [if_neg hmask, tab_get_set_same]

theorem items_chaseCollected {c : Chase} {h : Nat} (hmask : missingMask (sortsOf c h) = 0) :
    (chaseCollected c h).items = c.items := by
  rw [chaseCollected, itemsCollected]
  dsimp only
  split
  · exact if_pos hmask
  · rfl

section
variable (s : State) (q : SeqId) (h dd sd pdst : Nat)

/-- The chase after SORT.RECV, but for its sequencers. -/
theorem chase_finishRecv :
    sortsOf ((finishRecv s q h dd sd pdst).chase q.chase.val) h = [] ∧
      ((finishRecv s q h dd sd pdst).chase q.chase.val).items = (chaseCollected (s.chase q.chase.val) h).items := by
  have hchase := (seqChanges_modSeq ((writeReplies s q (tensor s q dd) (expertLen s q.chase.val (tensor s q dd))
    (sortsOf (s.chase q.chase.val) h)).setChase q.chase.val (chaseCollected (s.chase q.chase.val) h)) q (fun y =>
      { (y.setS sd (missingMask (sortsOf (s.chase q.chase.val) h))).setP pdst
        (missingMask (sortsOf (s.chase q.chase.val) h) == 0) with wait := .none }.advance)).2.2.1 q.chase.val
  rw [← finishRecv_eq, chase_setChase_same] at hchase
  have hsorts : ((finishRecv s q h dd sd pdst).chase q.chase.val).sorts =
      (chaseCollected (s.chase q.chase.val) h).sorts :=
    (congrArg Chase.sorts hchase :)
  refine ⟨?_, (congrArg Chase.items hchase :)⟩
  rw [sortsOf, hsorts]
  exact sortsOf_chaseCollected _ h

theorem sequencer_finishRecv : let mask := missingMask (sortsOf (s.chase q.chase.val) h)
    sequencer (finishRecv s q h dd sd pdst) q =
      { ((sequencer s q).setS sd mask).setP pdst (mask == 0) with wait := .none }.advance := by
  intro mask
  have hchases : ((writeReplies s q (tensor s q dd) (expertLen s q.chase.val (tensor s q dd))
      (sortsOf (s.chase q.chase.val) h)).setChase q.chase.val (chaseCollected (s.chase q.chase.val) h)).chases =
      (s.setChase q.chase.val (chaseCollected (s.chase q.chase.val) h)).chases := by
    rw [State.setChase, State.setChase, chases_writeReplies]
  have hcollected : sequencer (s.setChase q.chase.val (chaseCollected (s.chase q.chase.val) h)) q = sequencer s q :=
    (effect_setChase (q := q) (sp := []) (l := []) (c := chaseCollected (s.chase q.chase.val) h) q.chase.val
      rfl rfl rfl rfl).own
  rw [finishRecv_eq, (seqChanges_modSeq _ q _).1, sequencer_of_chases hchases, hcollected]

theorem keepsBytes_finishRecv (hmem : memoriesCanonical s) (hidle : (s.chase q.chase.val).busy = [])
    (hspace : (tensor s q dd).space < 4) :
    keepsBytes ((tensor s q dd).spans s q) s (finishRecv s q h dd sd pdst) := by
  have hwrite := effect_writeReplies (q := q) (l := []) s hspace (expertLen s q.chase.val (tensor s q dd))
    (sortsOf (s.chase q.chase.val) h)
  rw [finishRecv_eq]
  exact (hwrite.bytes hidle hmem).2

end

/-- Settles O23: each instruction by its definition, and what SORT.RECV leaves. -/
theorem sortInstructionsComplete : Obligations.SortInstructionsComplete := by
  refine ⟨fun q w s => ?_, fun q s h dd sd pdst e => ⟨fun hwait => ⟨fun hall => ?_, fun he => ?_⟩,
    fun hwait => ⟨fun t ht => ⟨?_, fun he => ?_⟩, sortRecvTimeout_free hwait⟩⟩, fun s q h dd sd pdst => ?_⟩
  · intro o x n c h send back recv inb src gate s0
    refine ⟨sortSend_busy, fun it hgo => sortSend_open hgo, exec_of_goes (i := .sortSendReply q w) rfl,
      fun hgo hall => ?_, fun hgo hall => ⟨_, exec_of_goes (i := .sortRecv q w) rfl hgo, ?_⟩, fun hgo t ht => ?_,
      fun hgo hnone => ⟨_, exec_of_goes (i := .sortRecvInbound q w) rfl hgo, ?_⟩⟩
    · exact (exec_of_goes (i := .sortRecv q w) rfl hgo).trans (congrArg Host.Outcome.next (if_pos hall))
    · exact (if_neg (Bool.eq_false_iff.mp hall)).symm ▸ seqChanges_modSeq s q _
    · rw [exec_of_goes (i := .sortRecvInbound q w) rfl hgo, ht]
    · rw [hnone]
      exact seqChanges_modSeq s q _
  · change execSortRecvRelease q s = _
    rw [execSortRecvRelease, wait_of_sequencer hwait]
    exact if_pos hall
  · change execSortRecvTimeout q s = _
    rw [execSortRecvTimeout, wait_of_sequencer hwait]
    exact if_pos he
  · change execSortRecvRelease q s = _
    rw [execSortRecvRelease, wait_of_sequencer hwait]
    exact congrArg (fun o => Host.Outcome.next (o.getD s)) ht
  · change execSortRecvTimeout q s = _
    rw [execSortRecvTimeout, wait_of_sequencer hwait]
    dsimp only
    rw [if_pos he, ht]
  · obtain ⟨hsorts, hitems⟩ := chase_finishRecv s q h dd sd pdst
    exact ⟨sequencer_finishRecv s q h dd sd pdst, hsorts,
      fun it hit hmask => (item_of_items hitems h).trans (item_chaseCollected hit hmask),
      fun hmask => hitems.trans (items_chaseCollected hmask), keepsBytes_finishRecv s q h dd sd pdst⟩

end Sys2Proof.Proofs

/-! Transfers (R93, R142 to R144): LD.T, ST.T and COPY2D, once their regulated transfers may run (R194). -/

namespace Sys2Proof.Proofs

open Sys2Proof.Machine Sys2Proof.Safety Sys2Proof.Laws

/-! ### Regulated transfers that may run (R194) -/

/-- The chase once its transfers have taken their bytes. -/
def taken (s : State) (q : SeqId) (ds : List Desc) : State :=
  s.setChase q.chase.val ((demands (sequencer s q) ds).foldl (fun c e => bucketTake c e.1 e.2) (s.chase q.chase.val))

/-- What tells of the sequencers of a chase, its place and its units at work. -/
def chaseBody (c : Chase) : Seq × Tab Seq × (Option Forme × List Nat × List Nat × Regions) × List Busy :=
  (c.line, c.streams, (c.forme, c.cores, c.standby, c.regions), c.busy)

theorem chaseBody_bucketTake (c : Chase) (res bytes : Nat) : chaseBody (bucketTake c res bytes) = chaseBody c := by
  unfold bucketTake
  split <;> rfl

theorem chaseBody_foldl (l : List (Nat × Nat)) (c : Chase) :
    chaseBody (l.foldl (fun c e => bucketTake c e.1 e.2) c) = chaseBody c := by
  induction l generalizing c with
  | nil => rfl
  | cons e l ih => exact (ih _).trans (chaseBody_bucketTake ..)

section
variable {q : SeqId} {s : State} {ds : List Desc}

theorem effect_taken (sp : List Span) (l : List Fld) : Effect q id sp l s (taken s q ds) := by
  have hbody := chaseBody_foldl (demands (sequencer s q) ds) (s.chase q.chase.val)
  simp only [chaseBody, Prod.mk.injEq] at hbody
  obtain ⟨hline, hstreams, ⟨hforme, hcores, hstandby, hregions⟩, hbusy⟩ := hbody
  exact effect_setChase _ hline hstreams (by rw [hforme, hcores, hstandby, hregions]) hbusy

theorem regulated_flows (h : flows s q ds) (go : State → State) :
    regulated s q (sequencer s q) ds go = go (taken s q ds) := by
  have hnone : (demands (sequencer s q) ds).find? (fun e => !bucketReady (s.chase q.chase.val) e.1 e.2) = none :=
    List.find?_eq_none.mpr (fun e he => by rw [h e he]; decide)
  unfold regulated
  dsimp only
  rw [hnone]
  rfl

/-- A transfer that may run goes on and writes its destination only. -/
theorem transfer_leaves (hmem : memoriesCanonical s) {o : Op} {srcs : List Desc} {d : Desc}
    {rows : List (Nat × Nat × List Byte)} {run : State → State} {l : List Fld} (hplace : .chPlacement ∉ l)
    (hrun : ∀ t, Effect q id (d.spans t q) l t (run t)) :
    let t := onUnitsWith q o srcs [d] rows (taken s q ds) run
    sequencer t q = (sequencer s q).advance ∧
      ((s.chase q.chase.val).busy = [] → keepsBytes (d.spans s q) s t) := by
  have htaken : Effect q id (d.spans s q) l s (taken s q ds) := effect_taken _ _
  obtain ⟨hown, -, -, hbytes, -⟩ := onUnitsWith_leaves (q := q) (f := id) (l := l) (s := taken s q ds) (o := o)
    (srcs := srcs) (dsts := [d]) (rows := rows) (run := run) hplace (fun t _ ht => by
      rw [List.flatMap_singleton, ← spans_of_placement ht]
      exact hrun t)
  rw [List.flatMap_singleton, spans_of_placement htaken.place] at hbytes
  refine ⟨hown.trans (congrArg Seq.advance htaken.own), fun hidle => ?_⟩
  exact (writesWithin_trans (htaken.bytes hidle) (hbytes ((htaken.busy _).trans hidle)) hmem).2

/-- A tensor moved to a destination that passed its checks. -/
theorem move_leaves (hmem : memoriesCanonical s) {o : Op} {a d : Desc} (hspace : d.space < 4) (hd : storable d) :
    let t := onUnits q o [a] [d] (taken s q ds) (fun s => moveTensor s q a d)
    sequencer t q = (sequencer s q).advance ∧
      ((s.chase q.chase.val).busy = [] → keepsBytes (d.spans s q) s t) :=
  transfer_leaves hmem chPlacement_not_mem_tensorRegs
    (fun t => effect_moveCells t chPlacement_not_mem_tensorRegs numRegs_sub_tensorRegs zovf_mem_tensorRegs hspace hd _)

end

/-! ### LD.T (R142, R143) -/

section
variable {q : SeqId} {w : ZWord} {s : State}

theorem uses_ldT (hgo : goes q w (isOp 1 1) s) :
    uses (opOf w) = [⟨(opOf w).dd, [0], false⟩, ⟨(opOf w).da, [1, 2, 3, 5], false⟩] := by
  obtain ⟨hcls, hcode⟩ := row_of_goes hgo
  simp only [uses, hcls, hcode]

theorem ldT_moves (hmem : memoriesCanonical s) (hgo : goes q w (isOp 1 1) s) (ha : (tensor s q (opOf w).da).space ≠ 5)
    (hflows : flows s q [tensor s q (opOf w).da]) :
    ∃ t, exec (.ldT q w) s = .next t ∧ sequencer t q = (sequencer s q).advance ∧
      ((s.chase q.chase.val).busy = [] → keepsBytes ((tensor s q (opOf w).dd).spans s q) s t) := by
  obtain ⟨hspace, hd⟩ := ownDest_of_goes hgo (uses_ldT hgo)
  have hexec := exec_of_goes (i := .ldT q w) rfl hgo
  dsimp only at hexec
  rw [if_neg (show ¬(descOf ((sequencer s q).d (opOf w).da)).space = 5 from ha),
    regulated_flows (show flows s q [descOf ((sequencer s q).d (opOf w).da)] from hflows)] at hexec
  exact ⟨_, hexec, move_leaves hmem (show (tensor s q (opOf w).dd).space < 4 by omega) hd⟩

/-- A line of a tensor, as a ring of the tensor's own lines. -/
def ringRow (d : Desc) : Desc := { d with h := 1, ring := d.lines }

section
variable {d : Desc}

theorem lines_ringRow (hlines : 0 < d.lines) : (ringRow d).lines = d.lines :=
  if_neg (Nat.pos_iff_ne_zero.mp hlines)

theorem storable_ringRow (hd : storable d) : storable (ringRow d) := by
  obtain ⟨hfmt, hlines, hscaled⟩ := hd
  exact ⟨hfmt, (lines_ringRow hlines).symm ▸ hlines, hscaled⟩

/-- Such a line covers what the tensor covers. -/
theorem spans_ringRow (hlines : 0 < d.lines) (t : State) : (ringRow d).spans t q = d.spans t q := by
  unfold Desc.spans Desc.extent Desc.bareExtent Desc.scaleEnd Desc.planeEnd Desc.groupBytes
  simp only [lines_ringRow hlines]
  rfl

theorem effect_loadLines (s : State) (hspace : d.space < 4) (hd : storable d) (c : Context) (first : Nat) :
    Effect q id (d.spans s q) tensorRegs s (loadLines s q c d first) := by
  refine effect_foldl (fun i _ t ht => ?_)
  rw [← spans_of_placement ht, ← spans_ringRow hd.2.1]
  exact effect_storeTensor (d := ringRow d) t chPlacement_not_mem_tensorRegs numRegs_sub_tensorRegs hspace
    (storable_ringRow hd) zovf_mem_tensorRegs _ _

end

theorem ldT_loads (hmem : memoriesCanonical s) {k : Nat} (hgo : goes q w (isOp 1 1) s)
    (ha : (tensor s q (opOf w).da).space = 5) (hk : slotCtx s q.chase.val ((tensor s q (opOf w).da).core % 16) = some k)
    (hserved : (s.context k).resetting = false) :
    let fl := flagsOr (s.context k) ((sequencer s q).pair48 (opOf w).sa) (tensor s q (opOf w).dd).h
    ∃ t, exec (.ldT q w) s = .next t ∧ sequencer t q = (((sequencer s q).setS (opOf w).sd fl).setP (opOf w).pdst
        (bitAt fl 0 || bitAt fl 1 || bitAt fl 4)).advance ∧
      ((s.chase q.chase.val).busy = [] → keepsBytes ((tensor s q (opOf w).dd).spans s q) s t) := by
  intro fl
  obtain ⟨hspace, hd⟩ := ownDest_of_goes hgo (uses_ldT hgo)
  have hexec := exec_of_goes (i := .ldT q w) rfl hgo
  dsimp only at hexec
  rw [if_pos (show (descOf ((sequencer s q).d (opOf w).da)).space = 5 from ha),
    show slotCtx s q.chase.val ((descOf ((sequencer s q).d (opOf w).da)).core % 16) = some k from hk] at hexec
  dsimp only at hexec
  rw [if_neg (Bool.eq_false_iff.mp hserved)] at hexec
  obtain ⟨hown, -, -, hbytes, -⟩ := onUnitsWith_leaves (q := q) (l := tensorRegs)
    (f := fun y => (y.setS (opOf w).sd fl).setP (opOf w).pdst (bitAt fl 0 || bitAt fl 1 || bitAt fl 4)) (s := s)
    (o := opOf w) (srcs := []) (dsts := [tensor s q (opOf w).dd]) (rows := [])
    (run := fun s' => modSeq (loadLines s' q (s.context k) (tensor s q (opOf w).dd)
      ((sequencer s q).pair48 (opOf w).sa)) q
      (fun y => (y.setS (opOf w).sd fl).setP (opOf w).pdst (bitAt fl 0 || bitAt fl 1 || bitAt fl 4)))
    chPlacement_not_mem_tensorRegs (fun t _ ht => by
      rw [List.flatMap_singleton, ← spans_of_placement ht]
      exact effect_trans (f := id)
        (g := fun y => (y.setS (opOf w).sd fl).setP (opOf w).pdst (bitAt fl 0 || bitAt fl 1 || bitAt fl 4))
        (effect_loadLines t (by omega) hd _ _) (effect_modSeq ..))
  rw [List.flatMap_singleton] at hbytes
  exact ⟨_, hexec, hown, fun hidle => (hbytes hidle hmem).2⟩

end

/-! ### ST.T (R142, R144) -/

section
variable {q : SeqId} {w : ZWord} {s : State}

theorem stT_moves (hmem : memoriesCanonical s) (hgo : goes q w (isOp 1 2) s)
    (hspace : (tensor s q (opOf w).dd).space ≠ 4)
    (hflows : flows s q [tensor s q (opOf w).dd]) :
    ∃ t, exec (.stT q w) s = .next t ∧ sequencer t q = (sequencer s q).advance ∧
      ((s.chase q.chase.val).busy = [] → keepsBytes ((tensor s q (opOf w).dd).spans s q) s t) := by
  obtain ⟨hcls, hcode⟩ := row_of_goes hgo
  obtain ⟨hspaces, hd, -⟩ := firstDesc_of_goes hgo (u := ⟨(opOf w).dd, [1, 2, 3, 4], false⟩)
    (us := [⟨(opOf w).da, [0], false⟩]) (by simp only [uses, hcls, hcode])
  simp only [List.mem_cons, List.not_mem_nil, or_false] at hspaces
  have hexec := exec_of_goes (i := .stT q w) rfl hgo
  dsimp only at hexec
  rw [if_neg (show ¬(descOf ((sequencer s q).d (opOf w).dd)).space = 4 from hspace),
    regulated_flows (show flows s q [descOf ((sequencer s q).d (opOf w).dd)] from hflows)] at hexec
  exact ⟨_, hexec, move_leaves hmem (show (tensor s q (opOf w).dd).space < 4 by omega) hd⟩

/-- A crop record changes its context and the registers of the crop ring only. -/
theorem addCropRecord_keeps (k ty : Nat) (payload : List Byte) :
    (addCropRecord s k ty payload).chases = s.chases ∧ memories (addCropRecord s k ty payload) = memories s := by
  have hbeside := beside_addCropRecord s k ty payload
  exact ⟨(congrArg State.chases hbeside :), (congrArg memories hbeside :)⟩

theorem recordCounted_keeps (s : State) (q : SeqId) (n k ty : Nat) (e : Nums) (x : Src) (payload : List Byte) :
    let r := addCropRecord (countBad (countNums s n e) q x) k ty payload
    sequencer r q = sequencer s q ∧ memories r = memories s := by
  obtain ⟨hchases, hmems⟩ := addCropRecord_keeps (s := countBad (countNums s n e) q x) k ty payload
  obtain ⟨hchases', hmems'⟩ := countNums_keeps s n e
  obtain ⟨hchases'', hmems''⟩ := countNums_keeps (countNums s n e) q.chase.val (badScales x (x.d.cells 0))
  exact ⟨sequencer_of_chases (hchases.trans (hchases''.trans hchases')) q, hmems.trans (hmems''.trans hmems')⟩

theorem stT_records (hgo : goes q w (isOp 1 2) s) (hspace : (tensor s q (opOf w).dd).space = 4) :
    ∃ t, exec (.stT q w) s = .next t ∧ sequencer t q = (sequencer s q).advance ∧ keepsBytes [] s t := by
  have hexec := exec_of_goes (i := .stT q w) rfl hgo
  dsimp only at hexec
  rw [if_pos (show (descOf ((sequencer s q).d (opOf w).dd)).space = 4 from hspace)] at hexec
  cases hslot : slotCtx s q.chase.val ((descOf ((sequencer s q).d (opOf w).dd)).core % 16) with
  | none =>
    rw [hslot] at hexec
    exact ⟨_, hexec, (seqChanges_modSeq s q _).1, keepsBytes_of_memories rfl rfl rfl⟩
  | some k =>
    rw [hslot] at hexec
    obtain ⟨t, hexec, hown, hsettled⟩ := settled_of_noWrites hexec rfl (recordCounted_keeps ..).1
    exact ⟨t, hexec, hown, keepsBytes_of_memories_eq (hsettled.memories.trans (recordCounted_keeps ..).2)⟩

end

/-! ### COPY2D (R91 to R96, R142) -/

section
variable {q : SeqId} {w : ZWord} {s : State}

/-- What the checks of COPY2D say of its rectangles. -/
theorem copyGeometry_of_goes (hgo : goes q w (isOp 1 3) s) :
    (tensor s q (opOf w).dd).rowBytes = (tensor s q (opOf w).da).rowBytes ∧
      (tensor s q (opOf w).dd).h = (tensor s q (opOf w).da).h := by
  obtain ⟨hcls, hcode⟩ := row_of_goes hgo
  have hlate := lateTrap_of_goes hgo (by rw [hcls]; decide)
  rw [lateTrap, hcls, hcode] at hlate
  have hgeometry : copyGeometryBad s q (sequencer s q) (opOf w) = false := by
    by_contra hbad
    exact absurd ((if_pos (Bool.not_eq_false _ ▸ hbad)).symm.trans hlate) (by simp)
  rw [copyGeometryBad] at hgeometry
  simp only [Bool.or_eq_false_iff, decide_eq_false_iff_not, not_not] at hgeometry
  exact hgeometry.1

theorem copyDest_of_goes (hgo : goes q w (isOp 1 3) s) :
    (tensor s q (opOf w).dd).space < 4 ∧ storable (tensor s q (opOf w).dd) ∧ (tensor s q (opOf w).dd).layout = 3 ∧
      (tensor s q (opOf w).dd).rowBytes ≤ (tensor s q (opOf w).dd).strideH := by
  obtain ⟨hcls, hcode⟩ := row_of_goes hgo
  obtain ⟨hspaces, hd, hstride, hshape⟩ := firstDesc_of_goes hgo (u := ⟨(opOf w).dd, [0, 1, 2, 3], false⟩)
    (us := [⟨(opOf w).da, [0, 1, 2, 3], false⟩]) (by simp only [uses, hcls, hcode])
  simp only [List.mem_cons, List.not_mem_nil, or_false] at hspaces
  rw [shapeBad, hcls, hcode] at hshape
  simp only [Bool.or_eq_false_iff, bne_eq_false_iff_eq] at hshape
  obtain ⟨hlayout, -⟩ := hshape
  refine ⟨by omega, hd, hlayout, ?_⟩
  rw [strideBad, if_pos hlayout] at hstride
  simp only [Bool.or_eq_false_iff, decide_eq_false_iff_not, not_lt] at hstride
  omega

/-- The registers of the status of a copy engine. -/
def copyRegs : List Fld := [.ceBusy, .ceChase, .ceRowsDesc, .ceBytesDesc]

theorem effect_copyRect (t : State) {a d : Desc} (hspace : d.space < 4) (hd : storable d) (hlayout : d.layout = 3)
    (hbytes : d.rowBytes = a.rowBytes) : Effect q id (d.spans t q) copyRegs t (copyRect t q a d) := by
  refine effect_storeElements t hspace (editsWithin_foldl (mem := id) (fun r hr m => ?_) _)
  obtain ⟨i, -, rfl⟩ := List.mem_map.mp hr
  have hrow := row_within hd.2.1 (cb := 0) (by rw [if_pos hlayout]; decide) i
  have hextent := bareExtent_le_extent d
  refine editsWithin_memStore (a := (spaceBase t q d).2 + d.base + d.row i 0) m (by omega) ?_
  rw [List.length_map, List.length_range]
  omega

theorem effect_copyStart (t : State) (o : Op) (a d : Desc) (sp : List Span) :
    Effect q id sp copyRegs t (copyStart t q o a d) := by
  have hput : ∀ u f i v, f ∈ copyRegs → Effect q id sp copyRegs u (u.put f i v) :=
    fun u f i v hf => effect_put (by decide) hf i v
  exact effect_trans (f := id) (g := id) (effect_trans (f := id) (g := id) (effect_trans (f := id) (g := id)
    (hput _ .ceBusy _ _ (by decide)) (hput _ .ceChase _ _ (by decide))) (hput _ .ceRowsDesc _ _ (by decide)))
    (hput _ .ceBytesDesc _ _ (by decide))

/-- A copy that runs: its effect on the module after its disturbance. -/
def copyRun (q : SeqId) (o : Op) (a d : Desc) (t : State) : State := copyStart (copyRect t q a d) q o a d

theorem memories_copyRun (o : Op) (a d : Desc) (t : State) :
    memories (copyRun q o a d t) = memories (copyRect t q a d) := by
  unfold copyRun copyStart
  generalize copyRect t q a d = u
  rfl

theorem effect_copyRun {a d : Desc} (hspace : d.space < 4) (hd : storable d) (hlayout : d.layout = 3)
    (hbytes : d.rowBytes = a.rowBytes) (o : Op) (t : State) :
    Effect q id (d.spans t q) copyRegs t (copyRun q o a d t) :=
  effect_trans (f := id) (g := id) (effect_copyRect t hspace hd hlayout hbytes) (effect_copyStart _ _ _ _ _)

theorem exec_copy2d_goes (hgo : goes q w (isOp 1 3) s)
    (hflows : flows s q [tensor s q (opOf w).da, tensor s q (opOf w).dd]) :
    exec (.copy2d q w) s = .next (onUnitsWith q (opOf w) [tensor s q (opOf w).da] [tensor s q (opOf w).dd]
      (copyRows (taken s q [tensor s q (opOf w).da, tensor s q (opOf w).dd]) q (tensor s q (opOf w).da)
        (tensor s q (opOf w).dd)) (taken s q [tensor s q (opOf w).da, tensor s q (opOf w).dd])
      (copyRun q (opOf w) (tensor s q (opOf w).da) (tensor s q (opOf w).dd))) := by
  have hexec : exec (.copy2d q w) s = execCopy2d q w s := rfl
  unfold execCopy2d at hexec
  dsimp only at hexec
  rw [show gateOf s q (opOf w) (isOp 1 3 (opOf w)) = .go from hgo] at hexec
  dsimp only at hexec
  rw [issue_go hgo] at hexec
  exact hexec.trans (congrArg Host.Outcome.next (regulated_flows hflows _))

theorem copyEngine_of_placement {t : State} (h : placement t q.chase.val = placement s q.chase.val) (o : Op) :
    copyEngine t q o = copyEngine s q o := by
  rw [copyEngine, copyEngine, ownCore_of_placement h]

/-- The status of a copy engine that starts a copy (R117). -/
theorem copyStart_status (t : State) (o : Op) (a d : Desc) :
    (copyStart t q o a d).get .ceBusy (copyEngine t q o) = 1 ∧
      (copyStart t q o a d).get .ceChase (copyEngine t q o) = q.chase.val := by
  unfold copyStart
  dsimp only
  constructor
  · rw [get_put_ne _ (by decide), get_put_ne _ (by decide), get_put_ne _ (by decide), get_put_same]
    rfl
  · rw [get_put_ne _ (by decide), get_put_ne _ (by decide), get_put_same]
    exact Nat.mod_eq_of_lt q.chase.isLt

theorem copyStatus_settled {u t : State} {o : Op} {a d : Desc}
    (hplace : placement (copyRect u q a d) q.chase.val = placement s q.chase.val)
    (h : Settled q (copyRun q o a d u) t) :
    t.get .ceBusy (copyEngine s q o) = 1 ∧ t.get .ceChase (copyEngine s q o) = q.chase.val := by
  obtain ⟨hbusy, hchase⟩ := copyStart_status (q := q) (copyRect u q a d) o a d
  rw [copyEngine_of_placement hplace] at hbusy hchase
  exact ⟨(h.regs .ceBusy _ (by decide)).trans hbusy, (h.regs .ceChase _ (by decide)).trans hchase⟩

theorem copyRun_leaves (hmem : memoriesCanonical s) {a d : Desc} (hspace : d.space < 4) (hd : storable d)
    (hlayout : d.layout = 3) (hbytes : d.rowBytes = a.rowBytes) (o : Op) (rows : List (Nat × Nat × List Byte)) :
    let t := onUnitsWith q o [a] [d] rows (taken s q [a, d]) (copyRun q o a d)
    sequencer t q = (sequencer s q).advance ∧ t.get .ceBusy (copyEngine s q o) = 1 ∧
      t.get .ceChase (copyEngine s q o) = q.chase.val ∧
      ((s.chase q.chase.val).busy = [] → keepsBytes (d.spans s q) s t) := by
  obtain ⟨hown, hkept⟩ := transfer_leaves (ds := [a, d]) (o := o) (srcs := [a]) (d := d) (rows := rows)
    (run := copyRun q o a d) hmem (l := copyRegs) (by decide) (effect_copyRun hspace hd hlayout hbytes o)
  have hplace : ∀ u, placement u q.chase.val = placement (taken s q [a, d]) q.chase.val →
      placement (copyRect u q a d) q.chase.val = placement s q.chase.val := fun u hu =>
    ((effect_copyRect u hspace hd hlayout hbytes).place.trans hu).trans (effect_taken [] []).place
  have hsettled := onUnitsWith_settled (q := q) (s := taken s q [a, d]) (o := o) (srcs := [a]) (dsts := [d])
    (rows := rows) (run := copyRun q o a d) rfl
  obtain ⟨hbusy, hchase⟩ := copyStatus_settled (hplace _ (placement_disturb ..)) hsettled
  exact ⟨hown, hbusy, hchase, hkept⟩

theorem copy2d_done (hmem : memoriesCanonical s) (hgo : goes q w (isOp 1 3) s)
    (hflows : flows s q [tensor s q (opOf w).da, tensor s q (opOf w).dd]) :
    ∃ t, exec (.copy2d q w) s = .next t ∧ sequencer t q = (sequencer s q).advance ∧
      t.get .ceBusy (copyEngine s q (opOf w)) = 1 ∧ t.get .ceChase (copyEngine s q (opOf w)) = q.chase.val ∧
      ((s.chase q.chase.val).busy = [] → keepsBytes ((tensor s q (opOf w).dd).spans s q) s t) := by
  obtain ⟨hbytes, -⟩ := copyGeometry_of_goes hgo
  obtain ⟨hspace, hd, hlayout, -⟩ := copyDest_of_goes hgo
  exact ⟨_, exec_copy2d_goes hgo hflows, copyRun_leaves hmem hspace hd hlayout hbytes _ _⟩

/-- The bytes of a copy's source row. -/
def sourceRow (s : State) (q : SeqId) (a : Desc) (i : Nat) : List Byte :=
  (List.range a.rowBytes).map (fun j =>
    memRead (s.memOf (spaceBase s q a).1) ((spaceBase s q a).2 + a.base + a.row i 0 + j))

theorem length_sourceRow (a : Desc) (i : Nat) : (sourceRow s q a i).length = a.rowBytes := by
  rw [sourceRow, List.length_map, List.length_range]

theorem row_plain {d : Desc} (hlayout : d.layout = 3) (hring : d.ring = 0) {i : Nat} (hi : i < d.h) :
    d.row i 0 = i * d.strideH := by
  rw [Desc.row, Desc.line, Desc.lines, if_pos hring, if_pos hlayout, Nat.mod_eq_of_lt hi, Nat.add_zero]

/-- What a copy writes while no unit of its chase is at work: its source rows, one stride apart. -/
theorem copyRect_idle (hidle : (s.chase q.chase.val).busy = []) {a d : Desc} (hlayout : d.layout = 3)
    (hring : d.ring = 0) (hrows : d.h = a.h) : copyRect s q a d = s.setMem (spaceBase s q d).1
      (storeRows (s.memOf (spaceBase s q d).1) ((spaceBase s q d).2 + d.base) d.strideH (sourceRow s q a) a.h) := by
  have hbyte : ∀ i j, (srcOf s q a).byte (a.base + a.row i 0 + j) =
      memRead (s.memOf (spaceBase s q a).1) ((spaceBase s q a).2 + a.base + a.row i 0 + j) := fun i j => by
    have hfree : (srcOf s q a).free = none := by
      unfold srcOf
      dsimp only
      rw [hidle]
      rfl
    rw [Src.byte, hfree]
    exact congrArg (memRead (s.memOf (spaceBase s q a).1)) (by simp only [srcOf, Nat.add_assoc])
  unfold copyRect storeRows
  dsimp only
  rw [List.foldl_map]
  refine congrArg (s.setMem _) (List.foldl_ext _ _ _ (fun m i hi => ?_))
  simp only [row_plain hlayout hring (hrows ▸ List.mem_range.mp hi), hbyte]
  rfl

/-- A copy leaves its destination as its source was before it (R93). -/
theorem copyRect_copies (hmem : memoriesCanonical s) (hidle : (s.chase q.chase.val).busy = []) {a d : Desc}
    (hlayout : d.layout = 3) (hring : d.ring = 0) (hrows : d.h = a.h) (hbytes : d.rowBytes = a.rowBytes)
    (hstride : d.rowBytes ≤ d.strideH) {i j : Nat} (hi : i < a.h) (hj : j < a.rowBytes) :
    memRead ((copyRect s q a d).memOf (spaceBase s q d).1) ((spaceBase s q d).2 + d.base + d.row i 0 + j) =
      memRead (s.memOf (spaceBase s q a).1) ((spaceBase s q a).2 + a.base + a.row i 0 + j) := by
  have hrow := memBytes_storeRows (memOf_wf hmem (spaceBase s q d).1) (b := (spaceBase s q d).2 + d.base)
    (length_sourceRow (s := s) (q := q) a) (hbytes ▸ hstride) hi
  rw [memBytes, sourceRow, List.map_inj_left] at hrow
  rw [copyRect_idle hidle hlayout hring hrows, memOf_setMem_same, row_plain hlayout hring (hrows ▸ hi)]
  exact hrow j (List.mem_range.mpr hj)

theorem copyRun_copies (hmem : memoriesCanonical s) (hidle : (s.chase q.chase.val).busy = []) {a d : Desc}
    (hlayout : d.layout = 3) (hring : d.ring = 0) (hrows : d.h = a.h) (hbytes : d.rowBytes = a.rowBytes)
    (hstride : d.rowBytes ≤ d.strideH) (o : Op) (rows : List (Nat × Nat × List Byte)) {i j : Nat} (hi : i < a.h)
    (hj : j < a.rowBytes) :
    memRead ((onUnitsWith q o [a] [d] rows (taken s q [a, d]) (copyRun q o a d)).memOf (spaceBase s q d).1)
        ((spaceBase s q d).2 + d.base + d.row i 0 + j) =
      memRead (s.memOf (spaceBase s q a).1) ((spaceBase s q a).2 + a.base + a.row i 0 + j) := by
  have htaken : Effect q id [] [] s (taken s q [a, d]) := effect_taken [] []
  have hidle' : ((taken s q [a, d]).chase q.chase.val).busy = [] := (htaken.busy _).trans hidle
  have hsettled : Settled q (copyRun q o a d (taken s q [a, d]))
      (onUnitsWith q o [a] [d] rows (taken s q [a, d]) (copyRun q o a d)) :=
    onUnitsWith_settled (congrArg (copyRun q o a d) (disturb_idle hidle' _))
  have hcopies := copyRect_copies (htaken.bytes hidle hmem).1 hidle' hlayout hring hrows hbytes hstride hi hj
  rw [spaceBase_of_placement htaken.place, spaceBase_of_placement htaken.place] at hcopies
  rw [memOf_of_memories (hsettled.memories.trans (memories_copyRun ..)), hcopies,
    memOf_of_memories (t := taken s q [a, d]) (s := s) rfl]

end

/-- Settles O18: the transfers, and the bytes that a COPY2D leaves. -/
theorem transfersComplete : Obligations.TransfersComplete := by
  refine ⟨fun q w s => ?_, fun q w s => ?_⟩
  · intro o d a n hmem
    exact ⟨ldT_moves hmem, fun k => ldT_loads hmem, stT_moves hmem, stT_records, copy2d_done hmem⟩
  · intro o d a hmem hgo hflows hidle hdring haring
    obtain ⟨hbytes, hrows⟩ := copyGeometry_of_goes hgo
    obtain ⟨-, -, hlayout, hstride⟩ := copyDest_of_goes hgo
    exact ⟨_, exec_copy2d_goes hgo hflows, fun i hi j hj =>
      copyRun_copies hmem hidle hlayout hdring hrows hbytes hstride _ _ hi hj⟩

end Sys2Proof.Proofs
